-- ==== Sys2Proof/Word.lean ====
section
/-! DEFINITION. Bytes, little-endian numbers (R7) and bit fields of numbers (bit 0 is the least significant, R7). -/

namespace Sys2Proof

/-- One byte. -/
abbrev Byte := BitVec 8

/-- Bits `lo + width - 1` down to `lo` of a number (R7). -/
def bits (x lo width : Nat) : Nat := x / 2 ^ lo % 2 ^ width

/-- One bit of a number. -/
def bit (x i : Nat) : Bool := x / 2 ^ i % 2 == 1

/-- 1 for true, 0 for false: a one-bit field. -/
def flag (b : Bool) : Nat := if b then 1 else 0

/-- The number a little-endian list of bytes spells (R7). -/
def leNat : List Byte → Nat
  | [] => 0
  | b :: bs => b.toNat + 256 * leNat bs

/-- The `n` little-endian bytes of a number (R7). -/
def leBytes : Nat → Nat → List Byte
  | 0, _ => []
  | n + 1, x => BitVec.ofNat 8 x :: leBytes n (x / 256)

/-- Rounded-up quotient. -/
def ceilDiv (a b : Nat) : Nat := (a + b - 1) / b

/-- The number modulo 2^width read in two's complement. -/
def toSigned (width x : Nat) : Int :=
  let y := x % 2 ^ width
  if y < 2 ^ (width - 1) then (y : Int) else (y : Int) - (2 : Int) ^ width

/-- Two's complement bits of a signed number. -/
def ofSigned (width : Nat) (x : Int) : Nat := (x % (2 : Int) ^ width).toNat

end Sys2Proof
end

