-- ==== Sys2Proof/SyntaxTypes.lean ====
section
/-! DEFINITION. The operands of the commands: what the outside hands the block with a command (host memory contents, sensor readings, messages, media results). -/

namespace Sys2Proof

/-- What host memory and the translation agent answer for the buffers one descriptor names (R88, R89, R581). -/
structure HostView where
  /-- Contents of each input buffer reference of the body, in byte order; `none`: the read fails or is refused (R89). -/
  inputs : List (Option (List Byte)) := []
  /-- Contents of the buffers of each input list reference, one by one, by the reference's body offset (R88; MERGE, R171). -/
  lists : List (Nat × List (List Byte)) := []
  /-- Lengths of the buffers of each output list reference, by body offset (R88). -/
  outLens : List (Nat × List Nat) := []
  /-- The list references, by body offset, that hold a list, a misaligned or empty buffer, or reserved bits (R88). -/
  listBad : List Nat := []
  /-- The output buffers, by body offset, whose address the translation agent refuses when they are to be written (R581). -/
  outRefused : List Nat := []
  /-- The peer windows, with their offsets, that the buffers of an output reference lie in besides the loan window that its own address
names: those of a list, and windows of other peers, numbered from 32 (R98). -/
  outPeers : List (Nat × List (Nat × Nat)) := []
  /-- The signature of the image a FW_UPDATE names verifies (R485 check 2). -/
  sigOk : Bool := true
  /-- The release key the image names is revoked (R485 check 2). -/
  revoked : Bool := false
  deriving DecidableEq, Repr

/-- One fetched and granted descriptor, fields of its header (R85) and its body. -/
structure DescIn where
  patron : Nat
  ring : Nat := 0
  entries : Nat := 0
  tclass : Nat := 0
  irq : Bool := false
  fence : Bool := false
  hrsv : Bool := false
  tag : Nat := 0
  object : Nat := 0
  deadline : Nat := 0
  body : List Byte := []
  host : HostView := {}
  deriving DecidableEq, Repr

/-- A Chaig message: its header slot (R350) and the slots after it. The opcode is that of the row. -/
structure Msg where
  relayed : Bool := false
  retry : Bool := false
  release : Bool := false
  poison : Bool := false
  combined : Bool := false
  vc : Nat := 0
  tag : Nat := 0
  source : Nat := 0
  addr : Nat := 0
  arg : Nat := 0
  load : Nat := 0
  backoff : Nat := 0
  slots : List Byte := []
  deriving DecidableEq, Repr

/-- A received flit's outcome at the receiver (R346): its sequence number, its ACK, and whether CRC and tag pass. -/
structure FlitIn where
  fseq : Nat
  ack : Nat
  crcOk : Bool := true
  tagOk : Bool := true
  creditVc : Nat := 7
  credits : Nat := 0
  /-- Slots of message data it carries, by channel. -/
  slots : List Nat := []
  deriving DecidableEq, Repr

/-- What a line of the reading room holds (R450). -/
inductive LineOf where
  /-- The primary frame of a layer of a span. -/
  | primary (span layer : Nat)
  /-- The tail frame of a layer of a span. -/
  | tail (span layer : Nat)
  /-- The twin frame of a layer of a span. -/
  | twin (span layer : Nat)
  /-- A region line, by the home's pool offset. -/
  | region (offset : Nat)
  /-- A sequence record, by index. -/
  | record (index : Nat)
  /-- A table block, by its number. -/
  | table (block : Nat)
  /-- The descriptor, frame list or token block of a span. -/
  | spanMeta (span : Nat)
  /-- An overflow bucket of the catalogue. -/
  | bucket (index : Nat)
  /-- A directory set. -/
  | directory (set : Nat)
  /-- A line of atomic replay records, by its first record. -/
  | atomicReplay (index : Nat)
  /-- A line of store replay records, by its first record. -/
  | storeReplay (index : Nat)
  /-- A flash map segment. -/
  | flashMap (volume segment : Nat)
  /-- An event log slot. -/
  | log (slot : Nat)
  /-- Any other line. -/
  | other
  deriving DecidableEq, Repr

/-- What is measured over the tick that an edge ends: busy fraction of the channels in 1/65,536, the slots in use in the home request
queues at each sample (R97), and the RELEASED counts read in the admit phase, by 16 × patron + stream (R277). -/
structure EdgeIn where
  uRr : Nat := 0
  fabSlots : List Nat := []
  released : List (Nat × Nat) := []
  /-- Rings whose completion writes are refused among those of the tick that ends that became due after its CLOSE_PHASE row. -/
  refused : List Nat := []
  deriving DecidableEq, Repr

/-- What happens to planned work in an execute phase: the requests whose work does not finish in it, by request number
(R58), those whose result is produced in the last 100 ns or on the edge (R63), and the line reads that fail (R142, R182). -/
structure ExecIn where
  unfinished : List Nat := []
  late : List Nat := []
  /-- Outputs the translation agent refuses: request number and body offset of the buffer (R581). -/
  refused : List (Nat × Nat) := []
  /-- A folio group runs into the close phase (R67). -/
  overrun : Bool := false
  deriving DecidableEq, Repr

/-- Rings whose address the translation agent refuses in a close phase: 64 × patron + 0–15 CQ or 32 EQ (R102 cause 2). -/
structure CloseIn where
  refused : List Nat := []
  /-- Requests, by number, whose result comes after this row and in the last 100 ns of the tick (R63). -/
  late : List Nat := []
  deriving DecidableEq, Repr

/-- What FIRMWARE_LOAD finds in the NOR image (R485): the first failing check, 0 for none, and the header fields. -/
structure ImageIn where
  failing : Nat := 0
  svn : Nat := 0
  advance : Bool := false
  version : Nat := 0
  mediaTable : Nat := 0
  digest : List Byte := []
  deriving DecidableEq, Repr

/-- An entry of the media table in the firmware image (R288): cells, geometry, times in µs, rated TLC cycles. -/
structure MediaEntry where
  tlc : Bool := true
  pslc : Bool := true
  planes : Nat := 4
  pageData : Nat := 16384
  pageSpare : Nat := 2048
  gbit : Nat := 0
  oneShot : Bool := true
  tprogUs : Nat := 0
  tprogPslcUs : Nat := 0
  eraseUs : Nat := 0
  blocksPerDie : Nat := 0
  /-- Multi-plane pages of a block in TLC mode. -/
  pagesPerBlock : Nat := 0
  ratedCycles : Nat := 0
  deriving DecidableEq, Repr

/-- A die that discovery finds (R287, R288): where it is, its Read ID, the entry of the media table that its Read ID and parameter page match,
its bad blocks. -/
structure DieIn where
  channel : Nat := 0
  chip : Nat := 0
  lun : Nat := 0
  readId : Nat := 0
  entry : Option MediaEntry := none
  badBlocks : List Nat := []
  deriving DecidableEq, Repr

/-- A volume as its header in the system area gives it (R291, R292). -/
structure HeaderIn where
  volume : Nat := 0
  region : Bool := false
  dieFirst : Nat := 0
  dieCount : Nat := 0
  op : Nat := 125
  formatId : Nat := 0
  capacity : Nat := 0
  deriving DecidableEq, Repr

/-- What flash discovery finds (R287–R292). -/
structure MediaIn where
  found : List DieIn := []
  /-- Headers of volumes that a CT-210 formatted. -/
  headers : List HeaderIn := []
  /-- Patrons (0xFF the pool secret) whose wrapped copy fails its check (R475). -/
  badWraps : List Nat := []
  deriving DecidableEq, Repr

/-- Straps as sampled (R504, R523). -/
structure Straps where
  pos : Nat := 0
  wing : Nat := 0
  wingSize : Nat := 0
  wings : Nat := 0
  headN : Bool := true
  pwrCap : Nat := 0
  deriving DecidableEq, Repr

/-- What the power manager reads at an evaluation (R526): mean power over 10 ms and 100 ms in mW, the sensor that sets the
throttle (index, reading), and whether every sensor has been 5 °C below its threshold for 100 ms. -/
structure PowerIn where
  mw10 : Nat := 0
  mw100 : Nat := 0
  cool100 : Bool := true
  deriving DecidableEq, Repr

end Sys2Proof
end

