-- ==== Sys2Proof/Syntax.lean ====
section
/-! DEFINITION. The commands: one constructor for each row of spec/opcode_table.json, in its order. -/

namespace Sys2Proof

/-- The commands the block takes. The descriptor rows (`nop` to `archiveSleep`) carry one fetched and granted descriptor;
the other rows carry what arrives with the access, message, pin or timer they stand for. -/
inductive Instr where
  | nop (d : DescIn)
  | attend (d : DescIn)
  | merge (d : DescIn)
  | append (d : DescIn)
  | adopt (d : DescIn)
  | fork (d : DescIn)
  | trim (d : DescIn)
  | drop (d : DescIn)
  | probe (d : DescIn)
  | accession (d : DescIn)
  | withdraw (d : DescIn)
  | hint (d : DescIn)
  | stream (d : DescIn)
  | deliver (d : DescIn)
  | fill (d : DescIn)
  | copy (d : DescIn)
  | compare (d : DescIn)
  | reduce (d : DescIn)
  | publish (d : DescIn)
  | revoke (d : DescIn)
  | readback (d : DescIn)
  | audit (d : DescIn)
  | profileRegister (d : DescIn)
  | profileRetire (d : DescIn)
  | tickSet (d : DescIn)
  | patronReset (d : DescIn)
  | apertureMap (d : DescIn)
  | volumeFormat (d : DescIn)
  | stacksDiscard (d : DescIn)
  | governorSet (d : DescIn)
  | regionCreate (d : DescIn)
  | regionGrant (d : DescIn)
  | regionDestroy (d : DescIn)
  | shaperSet (d : DescIn)
  | gateSet (d : DescIn)
  | fwUpdate (d : DescIn)
  | deviceReset (d : DescIn)
  | powerSet (d : DescIn)
  | archiveSleep (d : DescIn)
  /-- A write of `width` bits to BAR2 offset `off` of function `p`. -/
  | sqTailDoorbell (p off width value : Nat)
  | cqHeadDoorbell (p off width value : Nat)
  /-- As the others; offsets from 0x084 on are the reserved ones of R83 case 7. -/
  | eqHeadDoorbell (p off width value : Nat)
  | patLock (p value : Nat)
  | patKeepReset (p value : Nat)
  /-- The device time of the write's arrival at the host port, and the value (R43). -/
  | tikLengthWrite (arrival value : Nat)
  | tikTodNextWrite (arrival value : Nat)
  | pwrWake (value : Nat)
  | secRcvCmd (value : Nat)
  /-- A line write at a device offset. -/
  | fltInjectWrite (offset : Nat) (line : List Byte)
  /-- A store of `width` bits to offset `off` of BAR0 of function `p`. -/
  | registerWrite (p off width value : Nat)
  | readbackWindowLoad (p off width : Nat)
  | msixVectorUnmask (p vector : Nat)
  | apertureRead (off len : Nat)
  | apertureWrite (off : Nat) (bytes : List Byte)
  /-- Operation 0 FetchAdd, 7 Swap, 8 CAS (R352); width in bits. -/
  | apertureAtomic (off op width operand compare : Nat)
  | pcieConfigRequest (p off : Nat)
  | functionLevelReset (p : Nat)
  | hotReset
  | vfEnableSet (n : Nat)
  | vfEnableClear
  | busMasterClear (p : Nat)
  | hostLinkDown
  | linkChanged (width rate : Nat) (flit : Bool)
  | perstN
  | patronResetDone (p : Nat)
  | tickEdge (e : EdgeIn)
  /-- How many requests the planner reaches before the plan phase ends (R53). -/
  | planPhase (reach : Nat)
  | executePhase (x : ExecIn)
  | closePhase (x : CloseIn)
  /-- Requests whose awaited data lands on the ending edge (R62, R63). -/
  | deadlineExpiry (landed : List Nat)
  | tickLengthSwitch
  /-- Whether the exchange is valid, and the offset it measures (signed ns). -/
  | ptmExchange (valid : Bool) (offset : Int)
  /-- The device time of the edge. -/
  | timePpsEdge (at_ : Nat)
  | timeHoldover
  | timeFault
  /-- Positions of the wing with a locked source, and positions serving. -/
  | timeMasterChange (locked serving : List Nat)
  /-- The source's time. -/
  | timeAdoption (t : Nat)
  | gateCycleStart (t : Nat)
  | gateEntryChange
  /-- The ring's next entries as host memory returns them (`none`: the read fails), and the descriptor's buffers. -/
  | descriptorFetch (p ring : Nat) (raw : Option (List Byte)) (host : HostView)
  | admissionGrant
  | churn (span : Nat) (unfinished : List Nat) (uncorrectable : Bool)
  /-- Start of a promotion: span, last layer, patron, kind 0 demand, 1 lead, 2 hint. -/
  | promotion (span layer patron kind : Nat)
  | layerLanded (span : Nat)
  | demotionAccepted (span : Nat)
  | backgroundDemotion
  | ageVisit (span : Nat)
  | streamSlotWrite (p id : Nat)
  | shelfFault (window : Nat)
  | heldAccessServe (index : Nat)
  | persistAccept
  /-- The oldest program of a volume's stream, and whether its status is good. -/
  | flashProgramDone (volume unit : Nat) (good : Bool)
  /-- A sector read: the stage that decodes it (1–4), or 5 when none does; `demand`: the read is on demand. -/
  | flashSectorRead (volume sector stage : Nat) (demand : Bool)
  | blockEraseDone (block : Nat) (good : Bool)
  | blockVerify (block : Nat) (passed : Bool)
  /-- A scrub read of a block: the worst stage needed and whether more than half the capability was used. -/
  | flashScrub (block stage : Nat) (overHalf : Bool)
  | garbageCollection (volume : Nat)
  /-- A unit's relocation: read-back passed, and the age in hours since the unit was written. -/
  | relocation (volume unit : Nat) (verified : Bool) (ageHours : Nat)
  | dieFailed (channel die : Nat)
  /-- In 0.1 °C. -/
  | mediaTemperature (channel die reading : Nat)
  | governorRecompute
  | spanSpaceDiscard (volume : Nat)
  | checkpoint (elapsedMs : Nat)
  | checkpointDone
  | laneLock (port lanes : Nat)
  | trainingTimeout (port : Nat)
  | portRetryTimer (port : Nat)
  | flitReceive (port : Nat) (f : FlitIn)
  | nakReceive (port ack : Nat)
  | linkIdleTimeout (port : Nat)
  | keepaliveSend
  | fabricTimeSend
  | deadDeclaration (position : Nat)
  | requestRetryTimeout (tag : Nat)
  | messageResendTimeout (dest cls : Nat)
  | combineWindowClose (line : Nat)
  | load (port : Nat) (m : Msg)
  | readBlock (port : Nat) (m : Msg)
  | store (port : Nat) (m : Msg)
  | storePartial (port : Nat) (m : Msg)
  | writeBlock (port : Nat) (m : Msg)
  | atomic (port : Nat) (m : Msg)
  | ack (port : Nat) (m : Msg)
  | invalidate (port : Nat) (m : Msg)
  | invAck (port : Nat) (m : Msg)
  | data (port : Nat) (m : Msg)
  | done (port : Nat) (m : Msg)
  | result (port : Nat) (m : Msg)
  | message (port : Nat) (m : Msg)
  | messageAck (port : Nat) (m : Msg) (receipt : Nat)
  | keepalive (port : Nat) (m : Msg)
  /-- With the offset that the exchange measures, signed ns (R36). -/
  | time (port : Nat) (m : Msg) (offset : Int)
  | ident (port : Nat) (m : Msg)
  | configRead (port : Nat) (m : Msg)
  | configWrite (port : Nat) (m : Msg)
  | regionRequest (port : Nat) (m : Msg)
  | regionDone (port : Nat) (m : Msg)
  | mapNotice (port : Nat) (m : Msg)
  | mirrorWrite (port : Nat) (m : Msg)
  | mirrorBlock (port : Nat) (m : Msg)
  | revokeDrainEnd (region : Nat)
  /-- The 32-byte payload of an assembly message (R513). -/
  | headAnnounce (payload : List Byte)
  | headAnnounceResend (elapsedMs : Nat)
  | ready (payload : List Byte)
  | servingReport (payload : List Byte)
  /-- Milliseconds since the own reset release. -/
  | poolAssembled (elapsedMs : Nat)
  | poolMemberMissing (elapsedMs : Nat)
  /-- An uncorrectable line: its device offset, cluster and content, and the re-read that succeeds (1, 2; 3 none). -/
  | lineReread (offset cluster channel : Nat) (what : LineOf) (reread : Nat)
  /-- A scrub read of a line: 0 clean, 1 corrected, 2 uncorrectable. -/
  | readingRoomScrub (offset cluster channel : Nat) (what : LineOf) (outcome : Nat)
  | sramScrub (corrected : Nat)
  /-- A row of R457's table, the cluster or patron it concerns, whether a second event within 1 s, and the requests that use the
  word; for row 1, the catalogue entries by global slot index. -/
  | sramUncorrectable (row unit : Nat) (second : Bool) (requests : List Nat)
  | rowRepair (channel row : Nat) (spare : Bool) (frames : List Nat)
  | referenceSweep
  | replayLineRewrite (line : Nat)
  | flashMapReload (volume segment : Nat) (restored : Bool)
  | clusterFault (cluster checker : Nat)
  | repairPlanReady
  | clusterSelfTestDone (cluster : Nat) (passed : Bool) (outUs : Nat)
  | dieLinkLaneFail (link : Nat)
  | deviceFault (cause : Nat) (hostPortOk flashOk : Bool)
  | tamperDetect (sensor : Nat)
  | entropyFail (test : Nat)
  | watchdogExpiry (core : Nat)
  | wardenViolation (check core addr : Nat)
  | firmwareReady
  | recoveryLoadDone (failing : Nat)
  /-- SPDM requests: the session they arrive in (0 none) and their payload. -/
  | getVersion (session : Nat) (payload : List Byte)
  | getCapabilities (session : Nat) (payload : List Byte)
  | negotiateAlgorithms (session : Nat) (offered : Bool) (payload : List Byte)
  | getDigests (session : Nat) (payload : List Byte)
  | getCertificate (session slot : Nat) (payload : List Byte)
  | challenge (session : Nat) (payload : List Byte)
  | getMeasurements (session index : Nat) (signed : Bool) (payload : List Byte)
  | keyExchange (session : Nat) (payload : List Byte)
  | finish (session : Nat) (verified : Bool)
  | heartbeat (session : Nat)
  | keyUpdate (session : Nat)
  | endSession (session : Nat)
  | chunkSend (session : Nat) (last : Bool) (chunk : List Byte)
  | chunkGet (session seq : Nat)
  | spdmUnsupportedRequest (session code : Nat)
  | keySet (session : Nat) (payload : List Byte)
  | poolSecretSet (session : Nat) (payload : List Byte)
  | debugChallenge (session : Nat) (payload : List Byte)
  /-- Whether the token's signature verifies over the current nonce, and the nonce's age in seconds. -/
  | debugUnlock (session : Nat) (payload : List Byte) (verified : Bool) (ageS : Nat)
  | bootRom (straps : Straps) (ms : Nat)
  | firmwareLoad (image : ImageIn) (ms : Nat)
  /-- The channel that does not train, if any. -/
  | stackTraining (failing : Option Nat) (ms : Nat)
  | flashDiscovery (media : MediaIn) (ms : Nat)
  | chaigTraining (locked : List (Nat × Nat)) (ms : Nat)
  | neighbourExchange (idents : List (Nat × Nat)) (ms : Nat)
  /-- The time the source gives, if any. -/
  | timeAlignment (source : Option Nat) (ms : Nat)
  /-- Whether a valid power-loss record or clean record is found. -/
  | mapLoad (clean powerLoss : Bool) (replayed recoveryMs ms : Nat)
  | regionRestore (ms : Nat)
  | durableReconciliation (peers : List (Nat × Nat)) (ms : Nat)
  | servingStep (ms : Nat)
  | resetNAssert (lowNs : Nat)
  | resetPrepareDone
  | mctpResetRequest
  | mctpWake (asleepMs : Nat)
  | mctpTodWrite (arrival value : Nat)
  | wakeAt (asleepMs : Nat)
  | suppliesRemoved
  | pwrFailN (lowNs : Nat)
  | pwrFailSequenceEnd (railsOk : Bool)
  | powerEvaluation (p : PowerIn)
  | operatingPointStep
  /-- Rail, whether the answer is valid, status word, telemetry, and whether the rail is removed. -/
  | regulatorPoll (rail : Nat) (valid : Bool) (status mv current temp : Nat) (removed : Bool)
  /-- Readings in 0.25 °C, by sensor. -/
  | thermalSample (readings : List (Nat × Int))
  | thermalTrip (sensor : Nat) (reading : Int)
  | channelPowerDown (channel : Nat)
  | hostLinkUp (width rate : Nat) (flit : Bool)
  | firmwareOperationDone
  | doeDiscovery (index : Nat)
  /-- The instruction shifted in (R492): 0 IDCODE, 1 a boundary-scan instruction, 2 any other. -/
  | jtagInstruction (kind : Nat)
  deriving DecidableEq, Repr

end Sys2Proof
end

