-- ==== Sys2Proof/Config.lean ====
section
/-! DEFINITION. What the spec leaves open: constants of one part and the free values. None of these has a body, so nothing is known of them. -/

namespace Sys2Proof

/-- The free numbers: draw `n` of the machine is `freeNat n`, where `n` is the machine's own draw counter
(assumption 3). Random draws (R221, R369, R474) and results the spec does not fix (R6, R188) are taken from here. -/
opaque Config.freeNat : Nat → Nat

/-- The free bytes of one draw: byte `i` of draw `n` (assumption 3). -/
opaque Config.freeByte : Nat → Nat → Byte

/-- A free choice at a site of the arithmetic of draw `n`: the order of a sum, the place of an operation, the value of a function within
its error (R6, R166, R167, R188). -/
opaque Config.choice : Nat → List Nat → Nat

/-- The FP8 row of a row whose rotation leaves fp32 (R126, R127, R165): of the profile's seed, the block, the elements' codes and, of FP8
input, the scale, by site. The same inputs give the same row (R116, R188). -/
opaque Config.overflowRow : List Nat → List Nat → Nat

/-- The requester that an arbiter inside the device granted last in a tick, if it granted any (R64, R65): the contests between cluster
stages, channels, lines and flash traffic are timing that no command shows. -/
opaque Config.arbGrant : Nat → Nat → Option Nat

/-- The number of requesters of an arbiter inside the device: R65 names them and does not number them. -/
opaque Config.arbCount : Nat → Nat

/-- Silicon stepping, CAP_VERSION.STEPPING (R558 gives "Part"). -/
opaque Config.stepping : Nat

/-- Configuration-space dwords the spec does not give, by function and offset (R68, R71). -/
opaque Config.cfgDword : Nat → Nat → Nat

/-- AER correctable errors counted by the host port (R107), by device time: the errors are the PCI Express layer's own. -/
opaque Config.aerErrors : Nat → Nat

/-- SPDM response octets the DMTF documents fix and this spec does not (R481), by draw. -/
opaque Config.spdmOctets : Nat → Nat

/-- Measurement 1, the digest of the boot ROM, by byte (R482). -/
opaque Config.bootRomDigest : Nat → Byte

/-- The media table's rated TLC cycles of a volume's dies (R288, R320): firmware image content. -/
opaque Config.mediaCycles : Nat → Nat

/-- Device offsets of metadata objects, by kind (0 table block, 1 frame list, 2 token block, 3 region line) and number: the spec fixes
their areas and not their places (R193, R194). -/
opaque Config.metaOffset : Nat → Nat → Nat

/-- The place of a replay record among its kind (R455): a hash of SOURCE and TAG that the spec does not give. -/
opaque Config.replayHash : Nat → Nat → Nat

/-- A free number of the given width, from draw `n`. -/
def Config.freeBits (w n : Nat) : Nat := Config.freeNat n % 2 ^ w

end Sys2Proof
end

