-- ==== Sys2Proof/Machine/Tab.lean ====
section
/-! DEFINITION. Finite tables: association lists with strictly rising keys, the plain-data form of every array, sparse store and memory of the model. -/

namespace Sys2Proof.Machine

/-- A finite table: keys strictly rising (kept by every operation below). -/
abbrev Tab (α : Type) := List (Nat × α)

variable {α : Type}

/-- The entry at a key. -/
def tget : Tab α → Nat → Option α
  | [], _ => none
  | (k, v) :: t, i => if k = i then some v else tget t i

/-- The entry at a key, or a default. -/
def tgetD (t : Tab α) (i : Nat) (d : α) : α := (tget t i).getD d

/-- Set the entry at a key. -/
def tset : Tab α → Nat → α → Tab α
  | [], i, x => [(i, x)]
  | (k, v) :: t, i, x =>
    if k = i then (i, x) :: t else if i < k then (i, x) :: (k, v) :: t else (k, v) :: tset t i x

/-- Remove what the table holds at a key. -/
def tdel : Tab α → Nat → Tab α
  | [], _ => []
  | (k, v) :: t, i => if k = i then tdel t i else (k, v) :: tdel t i

/-- Change the entry at a key where there is one. -/
def tmod (t : Tab α) (i : Nat) (f : α → α) : Tab α :=
  match tget t i with
  | some v => tset t i (f v)
  | none => t

/-- Change every entry. -/
def tmap {β : Type} (t : Tab α) (f : Nat → α → β) : Tab β := t.map fun e => (e.1, f e.1 e.2)

/-- Keep the entries that pass a test. -/
def tkeep (t : Tab α) (f : Nat → α → Bool) : Tab α := t.filter fun e => f e.1 e.2

/-- The lowest key at or above `i` that the table does not hold: structural in the table. -/
def tfresh : Tab α → Nat → Nat
  | [], i => i
  | (k, _) :: t, i => if k < i then tfresh t i else if k = i then tfresh t (i + 1) else i

/-- The keys rise strictly. -/
def twf : Tab α → Bool
  | [] => true
  | [_] => true
  | (k, _) :: (k', v) :: t => decide (k < k') && twf ((k', v) :: t)

/-- The entry of a list at an index, changed. -/
def lmod (l : List α) (i : Nat) (f : α → α) : List α := l.modify i f

end Sys2Proof.Machine
end

