-- ==== Sys2Proof/Machine/Types.lean ====
section
/-! DEFINITION. The parts of the state, as plain data: outputs, time, host port and rings, admission, sequences and frames, catalogue, tiers, stacks, fabric, regions, faults, security, bring-up and power. Field defaults are the reset values. -/

namespace Sys2Proof.Machine

/-- Bytes that leave the block: known bytes, or `len` free bytes of one draw (assumption 3). -/
inductive Payload where
  /-- Known bytes. -/
  | bytes (b : List Byte)
  /-- Free bytes of a draw. -/
  | free (draw len : Nat)
  deriving DecidableEq, Repr

/-- What leaves the block, in order of leaving (the model's own log, assumption 2). -/
inductive Out where
  /-- A completion entry (R92), with its index in the ring. -/
  | completion (patron cq index : Nat) (entry : List Byte)
  /-- An event entry (R99). -/
  | event (patron index : Nat) (entry : List Byte)
  /-- An MSI-X message (R101). -/
  | msix (patron vector : Nat)
  /-- A write into the output buffer that the descriptor `tag` of a patron names at descriptor offset `field`. -/
  | hostWrite (patron tag field offset : Nat) (data : Payload)
  /-- A peer write into a loan window (R271). -/
  | peerWrite (window offset : Nat) (data : Payload)
  /-- A peer read from a loan window (R27); one of length 0 comes before the completion of what wrote there (R98). -/
  | peerRead (window offset length : Nat)
  /-- The answer to a configuration request: success, or retry status (R510). -/
  | config (patron off : Nat) (retry : Bool) (data : Nat)
  /-- Data of a readback window load (R546). -/
  | window (patron : Nat) (data : List Byte)
  /-- Data of an aperture read or AtomicOp (R77, R78). -/
  | aperture (data : List Byte) (poisoned : Bool)
  /-- A Chaig message toward a device number, with its opcode (R350). -/
  | chaig (dest code : Nat) (m : Msg)
  /-- A NAK flit on a port (R346). -/
  | nak (port ack : Nat)
  /-- A resend on a port from the flit after `ack` (R346). -/
  | resend (port ack : Nat)
  /-- A report to board management (R469, R490): the class and the event code. -/
  | mctp (cls code : Nat)
  /-- A fatal uncorrectable internal error through AER (R464). -/
  | aerFatal
  /-- An SPDM response, with its request's code, and an ERROR response. -/
  | spdm (session code : Nat) (data : Payload)
  | spdmError (session code : Nat)
  /-- A response of the DOE mailbox (R68). -/
  | doe (data : List Byte)
  /-- What the JTAG port answers (R492). -/
  | jtag (kind : Nat)
  /-- Assertion of THERM_TRIP_N (R536). -/
  | thermTrip
  deriving DecidableEq, Repr

/-- The phase in force (R47). -/
inductive Phase where
  /-- No tick is in progress (R41). -/
  | none
  | admission
  | plan
  | execute
  | close
  deriving DecidableEq, Repr

/-- A length change that waits (R43–R45). -/
structure PendLen where
  len : Nat
  plan : Option Nat := none
  switchAt : Nat := 0
  deriving DecidableEq, Repr

/-- Device time and tick (R33–R47). -/
structure TimeSt where
  now : Nat := 0
  count : Nat := 0
  ticking : Bool := false
  edgeAt : Nat := 0
  len : Nat := 20
  plan : Nat := 10
  pend : Option PendLen := none
  phase : Phase := .none
  locked : Bool := false
  good : Nat := 0
  missed : Nat := 0
  holdover : Bool := false
  holdoverAt : Nat := 0
  faultBit : Bool := false
  /-- The TIME_FAULT event of this holdover is written (R40). -/
  faultSent : Bool := false
  offset : Int := 0
  slew : Int := 0
  master : Bool := true
  masterPos : Nat := 0
  /-- Times of day written for PPS edges to come: arrival and value (R34). -/
  tod : List (Nat × Nat) := []
  /-- The time of day of the previous PPS edge. -/
  todPrev : Option Nat := none
  /-- The source FREE has loaded its time of day (R33). -/
  freeLoaded : Bool := false
  /-- An offset above 2 µs is being absorbed (R39). -/
  coarse : Bool := false
  /-- The wing's master runs without a locked source (R37). -/
  unled : Bool := false
  /-- Consecutive valid measurements of an own source while another device is master, and the source they come from: 0 PTM, 1 PPS. -/
  own : Nat := 0
  ownSrc : Nat := 0
  provisional : Bool := false
  adopted : Bool := false
  /-- A correction to adopt at the next edge: the offset, and the tick number less ⌊T / L⌋ (R509). -/
  adopt : Option (Int × Int) := none
  arbs : Tab Nat := []
  deriving DecidableEq, Repr

/-- Patron states (R106). -/
inductive PState where
  | disabled
  | configuring
  | active
  | faulted
  | resetting
  deriving DecidableEq, Repr

/-- A submission ring (R80, R90, R543). -/
structure SqSt where
  head : Nat := 0
  tail : Nat := 0
  marks : List Nat := []
  errTick : Option Nat := none
  lastTick : Nat := 0
  deriving DecidableEq, Repr

/-- A completion ring: entries written since activation, the head doorbell, entries reserved (R90). -/
structure CqSt where
  written : Nat := 0
  headIdx : Nat := 0
  consumed : Nat := 0
  reserved : Nat := 0
  irqDue : Bool := false
  errTick : Option Nat := none
  lastTick : Nat := 0
  deriving DecidableEq, Repr

/-- The event ring (R99, R100). -/
structure EqSt where
  written : Nat := 0
  headIdx : Nat := 0
  consumed : Nat := 0
  lost : Nat := 0
  irqDue : Bool := false
  /-- The number of the tick that the edge of the last message opened (R101). -/
  irqEdge : Option Nat := none
  errTick : Option Nat := none
  lastTick : Nat := 0
  deriving DecidableEq, Repr

/-- A reset that has begun (R104, R585): discarding or keeping, a discarding one that follows, and the PATRON_RESETs it answers. -/
structure ResetSt where
  discard : Bool
  follow : Bool := false
  deriving DecidableEq, Repr

/-- One patron (R102–R106). -/
structure PatronSt where
  st : PState := .disabled
  lock : Bool := false
  refused : Nat := 0
  fault : Nat := 0
  reset : Option ResetSt := none
  sq : Tab SqSt := []
  cq : Tab CqSt := []
  eq : EqSt := {}
  pageErrTick : Option Nat := none
  msixMasked : List Nat := List.range 32
  msixPend : List Nat := []
  deriving DecidableEq, Repr

/-- The host port (R68–R74). -/
structure HostSt where
  linkUp : Bool := false
  width : Nat := 0
  rate : Nat := 0
  flit : Bool := false
  numVf : Nat := 0
  patrons : Tab PatronSt := []
  missTick : Tab Nat := []
  deriving DecidableEq, Repr

/-- The generation a walk recorded (R213). -/
structure Walk where
  record : Nat
  gen : Nat
  length : Nat
  pendCount : Nat
  pendLayers : Nat
  /-- The root block it holds a share of. -/
  root : Nat
  openSpan : Nat
  /-- The spans it will read, each referenced. -/
  spans : List Nat := []
  deriving DecidableEq, Repr

/-- One request from fetch to completion (R53–R63, R90). -/
structure Req where
  id : Nat
  d : DescIn
  op : Nat
  first : Nat := 0
  fetchTick : Nat := 0
  fetchSeq : Nat := 0
  admTick : Nat := 0
  /-- Admission number within its tick (R53). -/
  admNo : Nat := 0
  charge : Nat := 0
  dl : Nat := 0
  stage : Nat := 1
  /-- Fetched from a ring, so a completion entry is reserved for it (R90). -/
  ring : Bool := false
  stall : Nat := 0
  lateEdge : Bool := false
  /-- Waits for frames, or for a promotion (R210, R217, R280). -/
  waits : Bool := false
  walks : List Walk := []
  /-- Spans of a planned read whose walk begins after the tick's earlier edits: they are no victims meanwhile (R55, R213, R214). -/
  holds : List Nat := []
  /-- The profile its walks were begun under. -/
  prof : Nat := 0
  /-- The merge cluster the planner named (R21). -/
  merge : Option Nat := none
  deriving DecidableEq, Repr

/-- A completion that is due (R92). -/
structure Due where
  patron : Nat
  sq : Nat := 0
  tag : Nat := 0
  op : Nat := 0
  status : Nat := 0
  cause : Nat := 0
  flags : Nat := 0
  r0 : Nat := 0
  r1 : Nat := 0
  /-- Traffic class of its descriptor (R97). -/
  cls : Nat := 0
  irq : Bool := false
  ring : Bool := false
  fetchTick : Nat := 0
  fetchSeq : Nat := 0
  /-- Ring index of the descriptor's first entry. -/
  first : Nat := 0
  /-- Tick in whose close phase the entry is written, or later. -/
  tick : Nat := 0
  /-- LOAD_INDEX and BACKOFF that the response of a home brought (R396). -/
  load : Option (Nat × Nat) := none
  /-- What the outstanding-descriptor record shows until the entry is written (R544). -/
  stage : Nat := 5
  admTick : Nat := 0
  dl : Nat := 0
  /-- Loan windows that its outputs were written into, and the offset there (R98). -/
  peers : List (Nat × Nat) := []
  deriving DecidableEq, Repr

/-- A gate list (R427, R428): period and phase in µs, entries of duration and mask. -/
structure GateList where
  period : Nat := 0
  phase : Nat := 0
  entries : List (Nat × Nat) := [(0, 0)]
  deriving DecidableEq, Repr

/-- The admission unit, the planner's sets and the traffic controls (R47–R61, R420–R442). -/
structure AdmSt where
  heads : Tab Req := []
  admitted : List Req := []
  sealed_ : List Req := []
  planned : List Req := []
  waiting : List Req := []
  /-- Requests that have their answer and keep their walks until the close phase (R213). -/
  ended : List Req := []
  /-- Folios of the tick's reads, span and layer, requests that read one folio being grouped (R54); whether any of them reads it, or
every one skips every head (R174). -/
  grouped : List ((Nat × Nat) × Bool) := []
  due : List Due := []
  /-- Requests whose result comes in the last 100 ns of the tick (R63). -/
  late : List Nat := []
  /-- Peer windows and offsets that outputs went to, by patron and tag, until their completion is queued (R98). -/
  peerOuts : List ((Nat × Nat) × Nat × Nat) := []
  fw : List Due := []
  nextId : Nat := 0
  fetchSeq : Nat := 0
  count : Nat := 0
  charge : Nat := 0
  filter : List Nat := []
  closed : Bool := false
  /-- The patron whose turn is in progress has had its quantum (R424). -/
  turn : Bool := false
  /-- The ring whose head the charge limit turned away, as 16 × patron + ring: considered first after the next edge (R61). -/
  refused : Option Nat := none
  deficit : Tab Nat := []
  /-- The ring most recently granted within each patron (R424). -/
  lastRing : Tab Nat := []
  bal : Tab Int := []
  edgeBal : Tab Int := []
  /-- Of the last 16 ticks: charge, budget, busy fraction of the channels and occupancy of the home queues in 1/65,536 (R97). -/
  utils : List (Nat × Nat × Nat × Nat) := []
  load : Nat := 0
  gates : GateList := {}
  gatePend : Option GateList := none
  gateEntry : Nat := 0
  cycleStart : Nat := 0
  /-- Admission paused by a firmware restart (R31). -/
  paused : Bool := false
  /-- PATRON_RESETs that wait: the target, whether they wait for the discarding reset that follows (R585), the request. -/
  resetAns : List (Nat × Bool × Req) := []
  deriving DecidableEq, Repr

/-- One stored FP8 row: its E8M0 scale and its elements (R117). -/
structure Row where
  scale : Nat := 127
  el : List Byte := []
  deriving DecidableEq, Repr

/-- One head of a closed folio (R111, R128–R137): head record, key and value data and scales, cream lanes, anchors. -/
structure ClosedHead where
  resid : Nat := 0
  ek : Nat := 0
  ev : Nat := 0
  es : Nat := 127
  laneScale : List Nat := []
  akScale : List Nat := []
  avScale : List Nat := []
  creamMask : Nat := 0
  kmin : List Byte := []
  kmax : List Byte := []
  kData : List Byte := []
  kScale : List Byte := []
  kOff : List Byte := []
  vData : List Byte := []
  vScale : List Byte := []
  vOff : List Byte := []
  cream : List Byte := []
  aKeys : List (List Byte) := []
  aVals : List (List Byte) := []
  deriving DecidableEq, Repr

/-- A closed folio (R134). -/
structure Closed where
  format : Nat := 0
  anchors : Bool := false
  transcoded : Bool := false
  churnTick : Nat := 0
  heads : List ClosedHead := []
  deriving DecidableEq, Repr

/-- A frame list entry: primary, tail and twin handles (R195). -/
structure Frm where
  primary : Nat := 0
  tail : Nat := 0
  twin : Nat := 0
  /-- The primary was promoted for streaming under a tight fit: it is charged to the profile's owner (R259). -/
  lead : Bool := false
  deriving DecidableEq, Repr

/-- A span descriptor with what it owns (R194, R195, R255, R477). Open, tail and twin rows are keyed by
(role × H + head) × 256 + token, by layer. -/
structure Span where
  st : Nat := 1
  twinMark : Bool := false
  tailHeld : Bool := false
  twinHeld : Bool := false
  profile : Nat := 0
  owner : Nat := 0
  ref : Nat := 0
  firstPos : Nat := 0
  fill : Nat := 0
  key : Nat := 0
  parent : Nat := 0
  refillSeq : Nat := 0
  tokens : List Nat := []
  frames : List Frm := []
  rows : Tab (Tab Row) := []
  tails : Tab (Tab Row) := []
  closed : Tab Closed := []
  onShelf : Bool := false
  onStacks : Bool := false
  onRemote : Bool := false
  moveLock : Bool := false
  streamed : Bool := false
  pref : Nat := 0
  pins : Nat := 0
  resLayers : Nat := 0
  lastTick : Nat := 0
  charged : Nat := 0
  keyGen : Nat := 0
  churnAt : Option Nat := none
  damaged : Bool := false
  deriving DecidableEq, Repr

/-- A sequence record (R190). -/
structure Rec where
  profile : Nat
  owner : Nat
  number : Nat
  gen : Nat := 1
  length : Nat := 0
  pendCount : Nat := 0
  pendLayers : Nat := 0
  spans : Nat := 0
  root : Nat := 0
  openSpan : Nat := 0
  editTick : Nat := 0
  damaged : Bool := false
  deriving DecidableEq, Repr

/-- A table block: root or leaf, its entries, its share count, the patron charged with its page (R193, R197). -/
structure Blk where
  root : Bool
  entries : List Nat
  share : Nat := 1
  patron : Nat := 0
  deriving DecidableEq, Repr

/-- A model profile (R148–R153): the registration's body, capability word, state (1 ACTIVE, 2 RETIRING), owner, shortfall. -/
structure Profile where
  body : List Byte
  cap : Nat := 0
  st : Nat := 1
  owner : Nat := 0
  shortfall : Nat := 0
  deriving DecidableEq, Repr

/-- One layer churned and not yet switched (R138, R139): its new closed frame, its tail frame (0 when a twin is kept), its
folio and the values clipped. -/
structure ChurnRec where
  primary : Nat
  tail : Nat := 0
  folio : Closed
  clipped : Nat := 0
  deriving DecidableEq, Repr

/-- Sequences, tables, spans, profiles and the frame allocator (R15, R190–R197). -/
structure SeqSt where
  recs : Tab Rec := []
  blks : Tab Blk := []
  spans : Tab Span := []
  profiles : Tab Profile := []
  /-- Frame extents in use, by cluster: first 32 KiB unit and units. -/
  used : Tab (List (Nat × Nat)) := []
  /-- Frames freed in this tick's close phase (R47): cluster, first unit, units. -/
  freeing : List (Nat × Nat × Nat) := []
  /-- Frames reserved for edits (R217): request, patron, handle. -/
  resv : List (Nat × Nat × Nat) := []
  /-- Retired 32 KiB units, by cluster (R460). -/
  retired : Tab (List Nat) := []
  /-- Churns in progress (R138): by span, by layer. -/
  churn : Tab (Tab ChurnRec) := []
  /-- Metadata bytes charged to each patron (R197). -/
  metaBytes : Tab Nat := []
  deriving DecidableEq, Repr

/-- A catalogue entry (R225), with the tick it was made in (R249). -/
structure CatEnt where
  key : Nat
  span : Nat
  scope : Nat
  cls : Nat
  publisher : Nat
  stamp : Nat
  made : Nat := 0
  deriving DecidableEq, Repr

/-- The catalogue (R220–R234): entries by global slot index, salts by scope (a draw each), and the shared-scope
set-up in force (control word and members, R220). -/
structure CatSt where
  ents : Tab CatEnt := []
  salts : Tab (List Byte) := []
  ctrl : Tab Nat := []
  members : Tab Nat := []
  sweep : List Nat := []
  deriving DecidableEq, Repr

/-- A layer stream (R276–R279). -/
structure StreamSt where
  mode : Nat
  strict : Bool := false
  lead : Nat := 1
  window : Nat := 0
  firstLayer : Nat := 0
  slots : Nat := 0
  slotUnits : Nat := 0
  slotBase : Nat := 0
  cell : Nat := 0
  volume : Nat := 0
  steps : Nat := 0
  record : Nat := 0
  delivered : Nat := 0
  released : Nat := 0
  pos : Option Nat := none
  fresh : Bool := true
  /-- Admission tick and number of the STREAM that started it (R264). -/
  adm : Nat × Nat := (0, 0)
  /-- The walk of the slot that is planned (R213, R277); it began in an earlier tick; the walks of slots written in this tick. -/
  walk : Option Walk := none
  carried : Bool := false
  ended : List Walk := []
  deriving DecidableEq, Repr

/-- A copy record on a shelf or the remote tier (R255, class 0x18): of a span, or of the region unit k as 2^40 + k (R253). -/
structure CopyRec where
  span : Nat
  tier : Nat
  window : Nat := 0
  offset : Nat := 0
  bytes : Nat := 0
  /-- The folios of the image, by layer (R254). -/
  folios : Tab Closed := []
  deriving DecidableEq, Repr

/-- A pin ledger entry (R270, class 0x17). -/
structure PinEnt where
  patron : Nat
  kind : Nat
  id : Nat
  unit : Nat := 0
  count : Nat := 1
  bytes : Nat := 0
  deriving DecidableEq, Repr

/-- A promotion in progress (R264–R266). -/
structure Promo where
  upTo : Nat
  patron : Nat
  kind : Nat
  cls : Nat := 2
  source : Nat := 2
  /-- Admission tick and number of the request that gave it its priority (R264). -/
  adm : Nat × Nat := (0, 0)
  /-- A lead promotion of a tight fit (R283). -/
  tight : Bool := false
  /-- Layers whose frames have landed in the tick in progress (R265). -/
  landed : Nat := 0
  /-- Other patrons whose requests were merged into it: their CHARGED bits are set at landing (R284). -/
  joined : Nat := 0
  deriving DecidableEq, Repr

/-- A demotion in progress: bytes left, target tier, its volume, or its loan window or lending region and the place there. -/
structure Demo where
  left : Nat
  target : Nat := 2
  volume : Nat := 0
  offset : Nat := 0
  growth : Bool := false
  /-- To the stacks: flash units to accept from `offset` on, and those accepted so far (R300). -/
  units : Nat := 0
  done : Nat := 0
  deriving DecidableEq, Repr

/-- Placement (R253–R286). -/
structure TierSt where
  shelfFaults : List Nat := []
  remoteLost : List Nat := []
  streams : Tab StreamSt := []
  copies : Tab CopyRec := []
  pins : List PinEnt := []
  promos : Tab Promo := []
  demos : Tab Demo := []
  /-- Floors as granted at the last SETUP_LOCK (R258). -/
  floors : Tab Nat := []
  /-- Copies that ceased in this tick: span and tier, their bits cleared in the close phase (R256). -/
  ceased : List (Nat × Nat) := []
  /-- Victims chosen in this tick's plan phase (R217, R262): a span or unit key, and 0 drop, 1 release, 2 demote,
  3 release of the twin alone, 4 release of a region unit, 5 demotion of a region unit. -/
  victims : List (Nat × Nat) := []
  deriving DecidableEq, Repr

/-- A block of a die (R316): state 0 DIRTY to 7 RETIRED, stream, volume, erases, reads, valid units, close tick. -/
structure FBlock where
  st : Nat := 0
  strm : Nat := 0
  volume : Nat := 8
  pslc : Bool := false
  erases : Nat := 0
  reads : Nat := 0
  valid : List Nat := []
  closeTick : Nat := 0
  group : Nat := 0
  refresh : Bool := false
  /-- Units programmed into it while open. -/
  filled : Nat := 0
  /-- The scrub period in which it was read last, and what that read needed: the stage, and more than half the capability (R297, R308). -/
  scrubIn : Option Nat := none
  bits : Option (Nat × Bool) := none
  deriving DecidableEq, Repr

/-- A block group (R293): its volume, stream, member blocks by channel order, data units programmed so far. -/
structure FGroup where
  volume : Nat
  strm : Nat
  members : List Nat
  filled : Nat := 0
  /-- CT210: members whose verification has passed; while another one is left, the parity log holds the group (R312). -/
  passed : List Nat := []
  deriving DecidableEq, Repr

/-- A sector as stored (R298, R305, R306): content, key owner and generation, uncorrectable mark. -/
structure FSector where
  data : List Byte := []
  key : Nat := 0
  epoch : Nat := 0
  bad : Bool := false
  /-- WRITE_SEQ of the tag (R298). -/
  seq : Nat := 0
  /-- Content before the write that is in staging (R332). -/
  prev : List Byte := []
  /-- Of a fine-mapped unit: block and 4 KiB location within it; none while the sector is in staging (R296). -/
  place : Option (Nat × Nat) := none
  deriving DecidableEq, Repr

/-- Where a unit's data is: in staging, or in a block of the media (R295, R302). -/
structure FUnit where
  staged : Bool := true
  block : Nat := 0
  loc : Nat := 0
  fine : Bool := false
  strm : Nat := 0
  seq : Nat := 0
  parityBad : Bool := false
  sectors : Tab FSector := []
  deriving DecidableEq, Repr

/-- A span copy in the object directory (R297): volume, first unit, unit count, and the folios as written. -/
structure FCopy where
  volume : Nat
  firstUnit : Nat
  count : Nat
  folios : Tab Closed := []
  key : Nat := 0
  epoch : Nat := 0
  bad : Bool := false
  deriving DecidableEq, Repr

/-- A stacks volume (R292–R294, R320–R324). -/
structure Volume where
  region : Bool := false
  ct210 : Bool := false
  dieFirst : Nat := 0
  dieCount : Nat := 0
  op : Nat := 125
  formatId : Nat := 0
  formatAt : Nat := 0
  capacity : Nat := 0
  lifeDays : Nat := 1826
  ratedCycles : Nat := 0
  dataBytes : Nat := 0
  erasedBytes : Nat := 0
  accepted : Nat := 0
  programmed : Nat := 0
  budget : Nat := 0
  balance : Int := 0
  protected_ : Bool := false
  spareAtFormat : Nat := 0
  spareSeen : List Nat := []
  units : Tab FUnit := []
  writeSeq : Nat := 0
  refusedWindow : Nat := 0
  refused : Nat := 0
  refusedPrev : Nat := 0
  throttled : Bool := false
  /-- Times of the uncorrectable sectors of the last hour (R323). -/
  uncTimes : List Nat := []
  collecting : Bool := false
  /-- Its attributes changed: the budget is recomputed in the next tick (R320). -/
  recalc : Bool := false
  /-- Samples of the hourly recomputation: time, bytes accepted, bytes programmed (R320). -/
  hist : List (Nat × Nat × Nat) := []
  deriving DecidableEq, Repr

/-- The stacks (R287–R336). -/
structure StkSt where
  channels : Nat := 0
  dies : Nat := 0
  planes : Nat := 0
  blocksPerDie : Nat := 0
  systemBlocks : Nat := 0
  unitsPerBlock : Nat := 0
  rawGiB : Nat := 0
  ratedCycles : Nat := 0
  discovered : Bool := false
  volumes : Tab Volume := []
  blocks : Tab FBlock := []
  copies : Tab FCopy := []
  groups : Tab FGroup := []
  /-- The open block group of each stream: volume × 8 + stream (R301). -/
  openGroups : Tab Nat := []
  /-- Bytes in staging, by volume and unit: volume × 2^32 + unit, and bytes. -/
  staging : List (Nat × Nat) := []
  acceptedTick : Nat := 0
  failedDies : List Nat := []
  /-- Times of the last hour at which blocks of a die were retired (R311). -/
  retireTimes : Tab (List Nat) := []
  hotDies : List Nat := []
  paused : List Nat := []
  ckptRunning : Bool := false
  ckptAt : Nat := 0
  /-- Map segments changed since the last checkpoint began: volume × 2^32 + segment (R325). -/
  changed : List Nat := []
  /-- Segments that the running checkpoint writes. -/
  ckptSegs : List Nat := []
  /-- The replay set, and its blocks programmed since the running checkpoint began (R326). -/
  replay : List Nat := []
  replayNew : List Nat := []
  clean : Bool := false
  powerLoss : Bool := false
  /-- The power-loss record: WRITE_SEQ of each volume, the tick of the checkpoint (R327). -/
  lossRecord : Option (List (Nat × Nat) × Nat) := none
  waitSegs : List (Nat × Nat) := []
  /-- Spans, and units by their tag, whose flash read is in retry in this tick (R281, R304). -/
  retrying : List Nat := []
  /-- Prior content of discarded sectors, by unit × 512 + sector (R318). -/
  prior : Tab (List Byte) := []
  /-- Steps of discovery that have ended, and the data interface in service: NV-LPDDR4, SDR before (R287, R290). -/
  steps : List Nat := []
  lpddr4 : Bool := false
  deriving DecidableEq, Repr

/-- Chaig port states (R347), in the order of CHG_PORTk_STATUS. -/
inductive PortState where
  | off
  | training
  | exchange
  | up
  | retraining
  | failed
  | miswired
  deriving DecidableEq, Repr

/-- A Chaig port (R341–R347). -/
structure Port where
  st : PortState := .off
  lanes : Nat := 0
  degraded : Bool := false
  partner : Nat := 0
  expect : Nat := 0
  ackSent : Nat := 4095
  naks : Nat := 0
  skipping : Bool := false
  tagFails : List Nat := []
  /-- ACK of the last NAK received, and how often it came (R346). -/
  nakAck : Nat := 0
  nakSeen : Nat := 0
  credits : List Nat := []
  /-- This end's LINK_NONCE, drawn when the port enters TRAINING, and the keys of the two directions (R479). -/
  nonce : List Byte := []
  keyOut : List Byte := []
  keyIn : List Byte := []
  /-- Flits sent under the key (R343). -/
  flits : Nat := 0
  /-- FSEQ of the next flit, and the flits of the replay buffer: those sent last and not yet acknowledged (R346). -/
  nextSeq : Nat := 0
  replay : Nat := 0
  /-- Slots of freed buffers, by channel, whose credits have not been returned yet (R344). -/
  owed : List Nat := []
  deriving DecidableEq, Repr

/-- A request sent to another device, until its response (R367). -/
structure Outst where
  dest : Nat
  code : Nat
  m : Msg
  /-- The REGION_ID it concerns. -/
  region : Nat := 0
  patron : Nat := 0
  /-- The job it serves (near-memory or region operation), if any. -/
  job : Option Nat := none
  /-- Accesses it stands for (R363, R366): the job of each, and its operand for an atomic. -/
  members : List (Nat × Nat) := []
  /-- It has left egress, at this device time. -/
  sent : Bool := false
  sentAt : Nat := 0
  /-- A load whose line was invalidated here, or updated from here, since it was issued: its data is not kept (R357). -/
  stale : Bool := false
  deriving DecidableEq, Repr

/-- What an operation answers: status, cause, flags, results. -/
structure Ans where
  status : Nat := 0
  cause : Nat := 0
  flags : Nat := 0
  r0 : Nat := 0
  r1 : Nat := 0
  deriving DecidableEq, Repr

/-- A region or near-memory operation between its start and its answer (R398, R402, R404), or an aperture access (R77): `op` is
its opcode, 0x100 an aperture read, 0x101 a write, 0x102 an AtomicOp; an aperture access has its BAR4 offset in `x.object`. -/
structure Job where
  /-- The descriptor it completes, at the issuing device. -/
  q : Option Req := none
  /-- The device and tag of the REGION_REQUEST it answers, at a home. -/
  asker : Option (Nat × Nat) := none
  op : Nat
  x : DescIn
  dev : Nat := 0
  ans : Ans := {}
  /-- Responses and accepted lines it still awaits. -/
  wait : Nat := 0
  /-- Pool address and length of an aperture access. -/
  at_ : Nat := 0
  len : Nat := 0
  /-- Remote source lines received, by line number of the pool. -/
  got : Tab (List Byte) := []
  /-- LOAD_INDEX and BACKOFF of the response that ended it (R396). -/
  load : Option (Nat × Nat) := none
  /-- It still awaits source lines; when they are there it runs. -/
  fetching : Bool := false
  /-- Its home admitted it before its requester was revoked (R401). -/
  pass : Bool := false
  deriving DecidableEq, Repr

/-- A response or local completion that is held (R356, R408, R411): for the acknowledgements of a line, for acceptance by
the stacks, for the mirror. -/
structure HeldRsp where
  /-- Destination device; this device's own number for a local completion. -/
  dest : Nat
  code : Nat
  m : Msg
  job : Option Nat := none
  /-- SOURCE and region of the update it answers (R401). -/
  source : Nat := 0
  region : Nat := 0
  /-- Lines whose acknowledgements it awaits. -/
  lines : List Nat := []
  /-- Sectors whose acceptance it awaits: unit, sector, tick of the change. -/
  accept : List (Nat × Nat × Nat) := []
  /-- Tags of the MIRROR_WRITEs it awaits. -/
  mirror : List Nat := []
  deriving DecidableEq, Repr

/-- A request held at the home (R267, R411, R450, R463): 0 for its unit, 1 until the primary is dead, 2 for the mirror's
copy of a poisoned line, 3 for its cluster, 4 for an earlier mirror sequence number, 5 until firmware runs
again (R490), 6 until region service opens (R506), 7 for an invalidation (R356), 8 behind earlier requests of the ordered
channel (R361). -/
structure HeldReq where
  port : Nat
  code : Nat
  m : Msg
  why : Nat
  /-- The near-memory operation it stands for, where it is one. -/
  job : Option Nat := none
  /-- Ready from this tick on: the tick after its unit landed (R267). -/
  ready : Option Nat := none
  /-- The home admitted it before its requester was revoked (R401). -/
  pass : Bool := false
  deriving DecidableEq, Repr

/-- A directory entry (R355). -/
structure DirEnt where
  line : Nat
  holders : Nat := 0
  inval : Bool := false
  /-- Positions whose INV_ACK is awaited. -/
  awaited : List Nat := []
  /-- Loads and block reads held until the last INV_ACK (R356). -/
  loads : List HeldReq := []
  used : Nat := 0
  /-- The entry leaves the directory at its last INV_ACK: an overflow victim, or a line that is not tracked (R355, R407). -/
  leaving : Bool := false
  /-- A line that is not tracked: it takes no way of its set (R407). -/
  untracked : Bool := false
  deriving DecidableEq, Repr

/-- A replay record (R368): source, tag, argument, result. -/
structure Replay where
  src : Nat
  tag : Nat
  arg : Nat := 0
  result : Nat := 0
  deriving DecidableEq, Repr

/-- A message channel toward one device and class, sending and receiving (R379). -/
structure MsgChan where
  nextSeq : Nat := 0
  unacked : List (Nat × Nat × Msg) := []
  resends : Nat := 0
  recvSeq : Nat := 0
  deriving DecidableEq, Repr

/-- What is known of another device (R371–R375). -/
structure Peer where
  epoch : Option Nat := none
  reach : Nat := 0
  gate : Nat := 0
  heard : Nat := 0
  /-- When its KEEPALIVE last arrived directly (R371). -/
  direct : Option Nat := none
  dead : Bool := false
  deriving DecidableEq, Repr

/-- A group that waits in a combining window at the egress router (R363). -/
structure Comb where
  line : Nat
  dest : Nat
  code : Nat
  m : Msg
  region : Nat := 0
  patron : Nat := 0
  members : List (Nat × Nat) := []
  /-- Bytes of the line that a merged store writes. -/
  mask : Nat := 0
  openedAt : Nat := 0
  deriving DecidableEq, Repr

/-- Updates of a line that wait in a window at home ingress (R364): port, opcode, message and local access of each, in order of arrival. -/
structure HomeComb where
  line : Nat
  openedAt : Nat := 0
  members : List (Nat × Nat × Msg × Option Nat) := []
  deriving DecidableEq, Repr

/-- The Chaig router (R337–R382). -/
structure FabSt where
  ports : Tab Port := []
  dir : Tab (List DirEnt) := []
  borrow : Tab (List Byte) := []
  outst : List Outst := []
  /-- Messages that wait at egress for a route or for their patron's fabric shaper (R370, R395): destination, opcode. -/
  egress : List (Nat × Nat × Msg) := []
  replayA : Tab Replay := []
  replayS : Tab Replay := []
  poisonReplay : List Nat := []
  chans : Tab MsgChan := []
  peers : Tab Peer := []
  relays : List Nat := []
  epoch : Nat := 0
  wingOff : List Int := [0, 0, 0, 0]
  /-- Message exchanges of the last second, by wing: receipt, round trip, offset (R380). -/
  trips : Tab (List (Nat × Nat × Int)) := []
  comb : Tab Comb := []
  /-- Windows at home ingress, and when the latest shared read of a line began (R364). -/
  homeComb : List HomeComb := []
  lineReads : Tab Nat := []
  nextTag : Nat := 0
  dirClock : Nat := 0
  /-- Requests held at the home, in arrival order. -/
  held : List HeldReq := []
  heldRsp : List HeldRsp := []
  jobs : Tab Job := []
  /-- Origin rejections written this tick, by port (R394). -/
  rejTick : Tab Nat := []
  deriving DecidableEq, Repr

/-- A grant of a region (R389): requester as device × 64 + patron, rights, first unit, units. -/
structure Grant where
  dev : Nat
  patron : Nat
  rights : Nat
  first : Nat
  count : Nat
  revoking : Bool := false
  deriving DecidableEq, Repr

/-- A region record at its home or mirror (R386). -/
structure Region where
  attrs : Nat
  ownerDev : Nat
  ownerPatron : Nat
  partner : Nat := 0
  volume : Nat := 0
  st : Nat := 1
  mirror : Bool := false
  pref : Nat := 0
  grants : List Grant := []
  size : Nat
  version : Nat := 0
  versionTick : Nat := 0
  id : Nat := 0
  copyFront : Nat := 0
  mirrorSeq : Nat := 0
  /-- A revocation in progress: its job, its target (device and patron, none for all), whether the region is destroyed,
  requests completed and refused since its revoke point, devices whose answer is awaited (R400–R402). -/
  revoke : Option Nat := none
  target : Option (Nat × Nat) := none
  destroy : Bool := false
  admitted : Nat := 0
  refused : Nat := 0
  noticeDue : List Nat := []
  /-- Revocations that wait for the one in progress. -/
  revokeNext : List Nat := []
  /-- The owner was lost: only patron 0 of the home administers the region (R391). -/
  orphan : Bool := false
  /-- The device a rebuild goes to (R413), and MIRROR_BLOCKs of its unit still to be answered. -/
  rebuild : Option Nat := none
  copyWait : Nat := 0
  deriving DecidableEq, Repr

/-- A 2 MiB unit of a region at its home (R267, R387): resident, a valid copy on a lower tier (the stacks, where no copy record
names another tier), last touch, pins, poisoned whole (R449). -/
structure RUnit where
  resident : Bool := true
  onStacks : Bool := false
  lastTick : Nat := 0
  pins : Nat := 0
  poisoned : Bool := false
  /-- Lines of a poisoned unit written since (R449). -/
  rewritten : List Nat := []
  changed : List Nat := []
  cluster : Nat := 0
  /-- A promotion of the unit is under way; it lands in the close phase (R267). -/
  promoting : Bool := false
  deriving DecidableEq, Repr

/-- A mapping entry at the requester's device (R392). -/
structure Mapping where
  region : Nat
  patron : Nat
  rights : Nat
  first : Nat
  count : Nat
  /-- ATTRS of the region and its mirror, which decide what a dead home means (R372, R412; assumption 20). -/
  attrs : Nat := 0
  partner : Nat := 0
  deriving DecidableEq, Repr

/-- Pool regions (R383–R419). -/
structure RgnSt where
  slots : Tab Region := []
  units : Tab RUnit := []
  maps : List Mapping := []
  torn : List Nat := []
  /-- Changed sectors handed to the flash controller and not yet accepted (R408): unit, sector, tick. -/
  handed : List (Nat × Nat × Nat) := []
  deriving DecidableEq, Repr

/-- Faults (R443–R471). -/
structure FltSt where
  /-- Poisoned lines of frames: span, layer, form 0 primary, 1 tail, 2 twin, and device offset. -/
  frames : List (Nat × Nat × Nat × Nat) := []
  /-- Poisoned lines of regions by pool offset. -/
  lines : List Nat := []
  /-- Poison tables, by cluster × 8,192 + entry: device offsets (R448). -/
  tables : Tab Nat := []
  /-- What the other poisoned lines hold, by device offset. -/
  reserve : Tab LineOf := []
  /-- Clusters out of service, and failed (R462). -/
  out : List Nat := []
  failed : List Nat := []
  /-- Spare lanes used, by die link, and the links that run DEGRADED (R457). -/
  lanes : List Nat := [0, 0, 0]
  degraded : List Nat := []
  /-- The reference sweep runs (R453). -/
  sweep : Bool := false
  log : Tab (List Byte) := []
  logSeq : Nat := 0
  /-- First LOG_SEQ that no READBACK has returned yet. -/
  logRead : Nat := 0
  /-- Log entries whose lines lie in a fenced cluster, by slot (R463). -/
  logHeld : Tab (List Byte) := []
  /-- Entries kept in the system area (R464, R501). -/
  saved : List (List Byte) := []
  /-- Tick of the last log entry of a corrected fault, by block (R470). -/
  ceTick : Tab Nat := []
  /-- Corrected lines of a channel in its current minute: start of the minute, and count (R470). -/
  ceMinute : Tab (Nat × Nat) := []
  /-- Requests abandoned by a cluster fault that wait for their repair plan (R462). -/
  abandoned : List Nat := []
  deviceFault : Bool := false
  /-- Lines written with an injected error: device offset and stored codeword (R562). -/
  injected : Tab (List Byte) := []
  /-- The 64 KiB that reading-room scrub is going through: device offset / 65,536 (R420, R459). -/
  scrubUnit : Option Nat := none
  /-- Spans, and units by their tag, with a landing frame of which a line is being re-read in this tick (R281). -/
  lineRetry : List Nat := []
  deriving DecidableEq, Repr

/-- SPDM session (R481): opened by KEY_EXCHANGE, usable after FINISH. -/
structure Session where
  id : Nat
  finished : Bool := false
  deriving DecidableEq, Repr

/-- The security block (R472–R497). -/
structure SecSt where
  gens : Tab Nat := []
  /-- Patrons that hold a data key of their current generation. -/
  keyed : List Nat := []
  /-- Keys set by KEY_SET, by patron (R483). -/
  imported : Tab (List Byte) := []
  retained : List (Nat × Nat) := []
  poolSecret : Option (List Byte) := none
  /-- WRAP_GEN; 32 stands for 31 and a further tamper (R473). -/
  wrapGen : Nat := 0
  svn : Nat := 0
  entropyOk : Bool := true
  debug : Bool := false
  nonce : Option Nat := none
  tamperLatched : Bool := false
  tamperNew : Bool := false
  keysClear : Bool := false
  sessions : List Session := []
  negotiated : Bool := false
  chunks : List Byte := []
  meas2 : List Byte := []
  /-- The set-up registers at patron 0's last SETUP_LOCK: what measurement 4 is the digest of (R482). -/
  meas4 : Option (Tab Nat) := none
  meas5 : List Byte := []
  rcvState : Nat := 0
  rcvCheck : Nat := 0
  fwVersion : Nat := 0
  norVersion : Nat := 0
  norValid : Bool := true
  norSvn : Nat := 0
  norAdvance : Bool := false
  advance : Option Nat := none
  fwBusy : Bool := false
  /-- The image in staging is to be activated when its completion has been written (R487). -/
  activate : Bool := false
  restarting : Bool := false
  imageDigest : List Byte := []
  deriving DecidableEq, Repr

/-- Device states (R512), in the order of CAP_BOOT_STATUS, with OFF and TAMPER_HOLD. -/
inductive DevState where
  | off
  | booting
  | ready
  | serving
  | recovery
  | bootFailed
  | deviceFault
  | resetting
  | tamperHold
  deriving DecidableEq, Repr

/-- A roster entry (R515). -/
structure RosterEnt where
  st : Nat := 6
  head : Bool := false
  recovered : Bool := false
  portsUp : Nat := 0
  epoch : Nat := 0
  readyMs : Nat := 0
  servingMs : Nat := 0
  deriving DecidableEq, Repr

/-- Bring-up and pool assembly (R498–R520). -/
structure BootSt where
  st : DevState := .booting
  failStep : Nat := 0
  detail : Nat := 0
  straps : Straps := {}
  steps : List Nat := []
  endMs : Tab Nat := []
  cause : Nat := 1
  /-- The cause of the device reset that RESETTING prepares. -/
  nextCause : Nat := 0
  /-- A DEVICE_RESET has been confirmed: the reset begins at the end of this close phase (R503). -/
  resetDue : Bool := false
  rosterOn : Bool := false
  roster : Tab RosterEnt := []
  wingSizes : Tab Nat := []
  heads : List Nat := []
  heard : List Nat := []
  readySent : List Nat := []
  servingSent : List Nat := []
  recovered : Bool := false
  assembled : Bool := false
  serving : Bool := false
  assembledMs : Nat := 0
  servingMs : Nat := 0
  deriving DecidableEq, Repr

/-- A step of the operating point that is decided: up, or down with its reason, 0 power, 1 temperature, 2 neither (R525, R526). -/
inductive PStep where
  | up
  | down (why : Nat)
  deriving DecidableEq, Repr

/-- Power and temperature (R521–R538). -/
structure PwrSt where
  point : Nat := 0
  /-- The step that waits for its tick edge. -/
  pendStep : Option PStep := none
  halved : Bool := false
  /-- 0 awake, 1 entering, 2 asleep, 3 waking. -/
  sleep : Nat := 0
  wakeAt : Nat := 0
  /-- Device time at which archive sleep was entered. -/
  sleptAt : Nat := 0
  /-- Latest reading of each sensor, in 0.25 °C. -/
  temps : Tab Int := []
  /-- Latest voltage, current and temperature of each rail. -/
  telem : Tab (Nat × Nat × Nat) := []
  /-- When each sensor last wrote THERMAL_WARN, and when THERMAL_THROTTLE was last written. -/
  warnAt : Tab Nat := []
  throttleAt : Option Nat := none
  /-- Stack channels that are not ACTIVE: 1 POWER_DOWN, 2 SELF_REFRESH (R530). -/
  chans : Tab Nat := []
  /-- Consecutive polls without a valid answer, by rail. -/
  regBad : Tab Nat := []
  /-- Rails whose fault holds P4, with the consecutive correct polls since (R522). -/
  regHold : Tab Nat := []
  /-- Consecutive ticks without execute work; engines gated, and vector units, walkers and rotation units gated (R529). -/
  idle : Nat := 0
  engGated : Bool := false
  coreGated : Bool := false
  /-- The power-fail sequence runs, or has ended (R327, R572). -/
  pwrFail : Bool := false
  pwrSeqEnd : Bool := false
  /-- THERM_TRIP_N is asserted (R536). -/
  tripped : Bool := false
  deriving DecidableEq, Repr

end Sys2Proof.Machine
end

