-- ==== Sys2Proof/Machine/State.lean ====
section
/-! DEFINITION. The state of the block, its stops, and the state after reset. -/

namespace Sys2Proof.Machine

/-- Why a step stops with a fault. -/
inductive Fault where
  /-- A readback window load that is not an aligned load of 4 or 8 bytes (R546): the spec defines no other load.
  Raised by READBACK_WINDOW_LOAD; safe. -/
  | windowMisaligned
  /-- A register write that is not an aligned store of 4 or 8 bytes (R552): the spec defines no other store.
  Raised by REGISTER_WRITE; safe. -/
  | registerAccessShape
  deriving DecidableEq, Repr

/-- Why a step is refused. -/
inductive Refusal where
  /-- The command has no meaning yet. Raised by the arms of Dispatch.lean alone; safe. -/
  | notModelled (mnemonic : String)
  /-- A JTAG instruction after the debug unlock: the spec opens "debug access" to internal buses and does not say what
  an access does (R492). Raised by JTAG_INSTRUCTION; safe. -/
  | debugInternalAccess
  deriving DecidableEq, Repr

/-- A finding of an AUDIT (R550): kind, class and index of the object, value derived, value held. -/
structure Finding where
  kind : Nat
  cls : Nat
  index : Nat
  expected : Nat
  found : Nat
  deriving DecidableEq, Repr

/-- An AUDIT that executes (R549): its request, the tick of its first pass, and what that pass found. -/
structure AuditSt where
  q : Req
  tick : Nat
  pass : List Finding := []
  deriving DecidableEq, Repr

/-- Everything but the queue and the pool memory. -/
structure Dev where
  /-- What has left the block (the model's own log, assumption 2). -/
  out : List Out := []
  /-- The model's own counter of free draws (assumption 3). -/
  free : Nat := 0
  /-- Set-up registers by absolute BAR0 offset of the physical function; an absent one reads its cold value (R557–R562). -/
  regs : Tab Nat := []
  /-- RWL writes that wait for the next tick edge (R554). -/
  pendRegs : List (Nat × Nat) := []
  /-- Low halves of 64-bit registers stored and waiting for their high half (R552). -/
  lowHalf : Tab Nat := []
  /-- RDB_STATUS and RDB_REJECT_OFFSET (R549, R555). -/
  rejected : Bool := false
  rejectOffset : Nat := 0
  audit : Option AuditSt := none
  lastFindings : Nat := 0
  /-- Counters by number (Counters.lean); an absent one is 0. -/
  ctrs : Tab Nat := []
  tim : TimeSt := {}
  host : HostSt := {}
  adm : AdmSt := {}
  seqs : SeqSt := {}
  cat : CatSt := {}
  tier : TierSt := {}
  stk : StkSt := {}
  fab : FabSt := {}
  rgn : RgnSt := {}
  flt : FltSt := {}
  sec : SecSt := {}
  boot : BootSt := {}
  pwr : PwrSt := {}
  deriving DecidableEq, Repr

/-- The state of the block: the queue of waiting commands, the bytes of pool memory this device is home of (by pool
offset, R348, in canonical form), and the rest. -/
structure State where
  pending : List Instr
  mem : List Host.Cell
  dev : Dev
  deriving DecidableEq, Repr

/-- The block after a device reset by power-on, before the boot ROM has run (R499, R506): no command waits, pool memory
lists nothing (R17, R387), and every part is at the value its type names as the default. -/
def State.reset : State := { pending := [], mem := [], dev := {} }

end Sys2Proof.Machine
end

