-- ==== Sys2Proof/Machine/Counters.lean ====
section
/-! DEFINITION. The counters of R67, R107, R154, R189, R219, R251, R285, R336, R381, R418, R442, R471, R497, R519, R538 and R563, numbered as R545 numbers them (assumption 5 places the tables of chapters 03 to 06 among the blocks). -/

namespace Sys2Proof.Machine

/-- A counter row: the number of its first instance, the step from one outer instance to the next, the counter's place
in the row, its outer instances, its width, whether it saturates, whether its scope is a patron, whether a device reset
keeps it, and whether a patron reset clears it. -/
structure Ctr where
  base : Nat
  step : Nat
  place : Nat
  outer : Nat
  width : Nat
  sat : Bool
  patron : Bool
  kept : Bool
  clears : Bool
  deriving DecidableEq, Repr

/-- Device resets, per cause (CAP_RESET_CAUSE codes 1–6) (R519). -/
def Ctr.resets : Ctr := ⟨0, 6, 0, 1, 16, true, false, true, false⟩

/-- Boots ending in BOOT_FAILED (R519). -/
def Ctr.bootFailed : Ctr := ⟨6, 1, 0, 1, 16, true, false, true, false⟩

/-- Boots entering RECOVERY (R519). -/
def Ctr.recovery : Ctr := ⟨7, 1, 0, 1, 16, true, false, true, false⟩

/-- Time adoptions (R509) (R519). -/
def Ctr.adoptions : Ctr := ⟨8, 1, 0, 1, 16, true, false, false, false⟩

/-- Head changes (R514) (R519). -/
def Ctr.headChanges : Ctr := ⟨9, 1, 0, 1, 16, true, false, false, false⟩

/-- Assembly messages received, malformed (R519). -/
def Ctr.asmRecv : Ctr := ⟨10, 2, 0, 1, 32, true, false, false, false⟩

/-- Assembly messages received, malformed (R519). -/
def Ctr.asmBad : Ctr := ⟨10, 2, 1, 1, 32, true, false, false, false⟩

/-- Tick count (TIK_COUNT) (R67). -/
def Ctr.tikCount : Ctr := ⟨16777216, 1, 0, 1, 64, false, false, false, false⟩

/-- Rolled-over requests (R67). -/
def Ctr.rolled : Ctr := ⟨16777217, 8, 0, 64, 48, true, true, false, true⟩

/-- LATE completions (R67). -/
def Ctr.late : Ctr := ⟨16777729, 1, 0, 64, 48, true, true, false, true⟩

/-- STALL_TIMEOUT completions (R67). -/
def Ctr.stallTimeout : Ctr := ⟨16777793, 1, 0, 64, 48, true, true, false, true⟩

/-- Late-edge events (R67). -/
def Ctr.lateEdge : Ctr := ⟨16777857, 1, 0, 64, 32, true, true, false, true⟩

/-- Plan overruns (R67). -/
def Ctr.planOverrun : Ctr := ⟨16777921, 1, 0, 1, 32, true, false, false, false⟩

/-- Ticks with a group running into the close phase (R67). -/
def Ctr.closeRun : Ctr := ⟨16777922, 1, 0, 1, 32, true, false, false, false⟩

/-- Requests refused admission by budget (R67). -/
def Ctr.refusedBudget : Ctr := ⟨16777923, 1, 0, 64, 48, true, true, false, true⟩

/-- Holdover entries (R67). -/
def Ctr.holdovers : Ctr := ⟨16777987, 1, 0, 1, 16, true, false, false, false⟩

/-- Descriptors fetched (R107). -/
def Ctr.fetched : Ctr := ⟨33554432, 1, 0, 64, 64, false, true, false, true⟩

/-- BAD_DESCRIPTOR completions (R107). -/
def Ctr.badDesc : Ctr := ⟨33554496, 1, 0, 64, 48, true, true, false, true⟩

/-- PATRON_FAULT completions (R107). -/
def Ctr.patronFault : Ctr := ⟨33554560, 1, 0, 64, 32, true, true, false, true⟩

/-- Doorbell errors (R107). -/
def Ctr.doorbellErr : Ctr := ⟨33554624, 1, 0, 64, 32, true, true, false, true⟩

/-- Events discarded (R107). -/
def Ctr.evDiscard : Ctr := ⟨33554688, 1, 0, 64, 32, true, true, false, true⟩

/-- MSI-X messages sent (R107). -/
def Ctr.msix : Ctr := ⟨33554752, 1, 0, 64, 48, false, true, false, true⟩

/-- Aperture misses (R107). -/
def Ctr.apMiss : Ctr := ⟨33554816, 1, 0, 64, 32, true, false, false, false⟩

/-- Link retrains (R107). -/
def Ctr.retrain : Ctr := ⟨33554880, 1, 0, 1, 16, true, false, false, false⟩

/-- AER correctable errors (R107). -/
def Ctr.aer : Ctr := ⟨33554881, 1, 0, 1, 32, true, false, false, false⟩

/-- Live sequence records (R219). -/
def Ctr.liveRecs : Ctr := ⟨50331648, 1, 0, 64, 32, false, true, false, false⟩

/-- Edits completed OK (R219). -/
def Ctr.editOk : Ctr := ⟨50331712, 1, 0, 64, 64, false, true, false, true⟩

/-- Edits completed CONFLICT (R219). -/
def Ctr.editConflict : Ctr := ⟨50331776, 1, 0, 64, 32, true, true, false, true⟩

/-- NO_FOLIO completions (R219). -/
def Ctr.noFolio : Ctr := ⟨50331840, 1, 0, 64, 32, true, true, false, true⟩

/-- Spill-back bytes written (R219). -/
def Ctr.spillBytes : Ctr := ⟨50331904, 1, 0, 64, 48, false, true, false, true⟩

/-- Open-span copies (R204, R208) (R219). -/
def Ctr.openCopies : Ctr := ⟨50331968, 1, 0, 64, 32, true, true, false, true⟩

/-- Reopens (R210) (R219). -/
def Ctr.reopens : Ctr := ⟨50332032, 1, 0, 64, 32, true, true, false, true⟩

/-- Refills completed (R219). -/
def Ctr.refills : Ctr := ⟨50332096, 1, 0, 64, 32, true, true, false, true⟩

/-- Spans dropped for growth or churn (R217, R140) (R219). -/
def Ctr.dropGrowth : Ctr := ⟨50332160, 1, 0, 1, 48, true, false, false, false⟩

/-- Spans demoted for growth or churn (R217, R140) (R219). -/
def Ctr.demoteGrowth : Ctr := ⟨50332161, 1, 0, 1, 48, true, false, false, false⟩

/-- Edits waiting a tick for frames (R219). -/
def Ctr.editWait : Ctr := ⟨50332162, 1, 0, 1, 48, true, false, false, false⟩

/-- Table blocks written (R219). -/
def Ctr.tableBlks : Ctr := ⟨50332163, 1, 0, 1, 64, false, false, false, false⟩

/-- Churns completed (R154). -/
def Ctr.churns : Ctr := ⟨67108864, 1, 0, 64, 48, false, true, false, true⟩

/-- Churn ticks deferred (R140) (R154). -/
def Ctr.churnDefer : Ctr := ⟨67108928, 1, 0, 64, 32, true, true, false, true⟩

/-- Churns cancelled (R141, R142) (R154). -/
def Ctr.churnCancel : Ctr := ⟨67108992, 1, 0, 64, 32, true, true, false, true⟩

/-- Churn rollovers (R154). -/
def Ctr.churnRoll : Ctr := ⟨67109056, 1, 0, 1, 32, true, false, false, false⟩

/-- Groups clipped (R580) (R154). -/
def Ctr.clipped : Ctr := ⟨67109057, 1, 0, 1, 48, false, false, false, false⟩

/-- Fresh-window reads from skim data (R133) (R154). -/
def Ctr.freshSkim : Ctr := ⟨67109058, 1, 0, 64, 32, true, true, false, true⟩

/-- Twins kept (R154). -/
def Ctr.twinsKept : Ctr := ⟨67109122, 1, 0, 64, 32, true, true, false, true⟩

/-- Folios transcoded (R154). -/
def Ctr.transcoded : Ctr := ⟨67109186, 1, 0, 1, 48, false, false, false, false⟩

/-- Profile registrations refused (R154). -/
def Ctr.profRefused : Ctr := ⟨67109187, 1, 0, 1, 16, true, false, false, false⟩

/-- ATTEND completions (R189). -/
def Ctr.attends : Ctr := ⟨67109188, 1, 0, 64, 48, false, true, false, true⟩

/-- Query vectors attended (R189). -/
def Ctr.qvecs : Ctr := ⟨67109252, 1, 0, 64, 64, false, true, false, true⟩

/-- Folio reads by ATTEND (R189). -/
def Ctr.folioReads : Ctr := ⟨67109316, 1, 0, 1, 64, false, false, false, false⟩

/-- Folio-head pairs screened (R189). -/
def Ctr.screened : Ctr := ⟨67109317, 1, 0, 64, 48, true, true, false, true⟩

/-- Folio reads avoided by screening (R189). -/
def Ctr.readsAvoided : Ctr := ⟨67109381, 1, 0, 1, 48, true, false, false, false⟩

/-- GUARD_EXCEEDED completions (R189). -/
def Ctr.guardEx : Ctr := ⟨67109382, 1, 0, 64, 32, true, true, false, true⟩

/-- Twin folio reads (R189). -/
def Ctr.twinReads : Ctr := ⟨67109446, 1, 0, 64, 48, true, true, false, true⟩

/-- BAD_QUERY completions (R189). -/
def Ctr.badQuery : Ctr := ⟨67109510, 1, 0, 64, 32, true, true, false, true⟩

/-- NEEDS_RECOMPUTE completions (R189). -/
def Ctr.needsRecomp : Ctr := ⟨67109574, 1, 0, 64, 32, true, true, false, true⟩

/-- POISON completions of ATTEND (R189). -/
def Ctr.poisonAttend : Ctr := ⟨67109638, 1, 0, 64, 32, true, true, false, true⟩

/-- MERGE completions (R189). -/
def Ctr.merges : Ctr := ⟨67109702, 1, 0, 64, 48, false, true, false, true⟩

/-- Two-pass folio reads (R189). -/
def Ctr.twoPass : Ctr := ⟨67109766, 1, 0, 1, 48, false, false, false, false⟩

/-- Entries held (R251). -/
def Ctr.entsHeld : Ctr := ⟨83886080, 1, 0, 128, 32, false, false, false, false⟩

/-- PROBE completions (R251). -/
def Ctr.probes : Ctr := ⟨83886208, 1, 0, 64, 48, false, true, false, true⟩

/-- Spans matched by PROBE (R251). -/
def Ctr.probeSpans : Ctr := ⟨83886272, 1, 0, 64, 64, false, true, false, true⟩

/-- MULTI completions (R251). -/
def Ctr.multi : Ctr := ⟨83886336, 1, 0, 64, 32, true, true, false, true⟩

/-- Entries inserted (R251). -/
def Ctr.entsIns : Ctr := ⟨83886400, 1, 0, 64, 48, false, true, false, true⟩

/-- Spans already present (R251). -/
def Ctr.entsPresent : Ctr := ⟨83886464, 1, 0, 64, 48, false, true, false, true⟩

/-- Entries withdrawn by WITHDRAW (R251). -/
def Ctr.entsWithdrawn : Ctr := ⟨83886528, 1, 0, 64, 48, false, true, false, true⟩

/-- Key collisions (R235, R244) (R251). -/
def Ctr.keyColl : Ctr := ⟨83886592, 1, 0, 1, 32, true, false, false, false⟩

/-- Migrations to overflow (R251). -/
def Ctr.migrate : Ctr := ⟨83886593, 1, 0, 1, 48, false, false, false, false⟩

/-- Returns from overflow (R234) (R251). -/
def Ctr.returns : Ctr := ⟨83886594, 1, 0, 1, 48, false, false, false, false⟩

/-- Capacity withdrawals (R232) (R251). -/
def Ctr.capWithdraw : Ctr := ⟨83886595, 1, 0, 1, 48, true, false, false, false⟩

/-- Overflow lookups (R251). -/
def Ctr.ovfLookup : Ctr := ⟨83886596, 1, 0, 1, 64, false, false, false, false⟩

/-- Keys derived (R251). -/
def Ctr.keysDerived : Ctr := ⟨83886597, 1, 0, 1, 64, false, false, false, false⟩

/-- Stall ticks, per cause 0x01–0x07 (R285). -/
def Ctr.stallTicks : Ctr := ⟨100663296, 7, 0, 64, 48, true, true, false, true⟩

/-- Demand promotions (R285). -/
def Ctr.demandPromo : Ctr := ⟨100663744, 1, 0, 64, 48, false, true, false, true⟩

/-- Bytes promoted, per source tier (R285). -/
def Ctr.bytesPromo : Ctr := ⟨100663808, 4, 0, 1, 64, false, false, false, false⟩

/-- Demotions, per target tier (R285). -/
def Ctr.demotions : Ctr := ⟨100663812, 4, 0, 1, 48, false, false, false, false⟩

/-- Releases without write (R285). -/
def Ctr.releases : Ctr := ⟨100663816, 1, 0, 1, 48, false, false, false, false⟩

/-- Spans dropped by the tiers, counted for the span's OWNER (R194) (R285). -/
def Ctr.dropped : Ctr := ⟨100663817, 1, 0, 64, 48, true, true, false, true⟩

/-- Twins released alone (R285). -/
def Ctr.twinsAlone : Ctr := ⟨100663881, 1, 0, 1, 32, true, false, false, false⟩

/-- Patron evictions (R285). -/
def Ctr.patronEvict : Ctr := ⟨100663882, 1, 0, 64, 48, true, true, false, true⟩

/-- Pins held (R285). -/
def Ctr.pinsHeld : Ctr := ⟨100663946, 1, 0, 64, 32, false, true, false, false⟩

/-- DELIVER completions (R285). -/
def Ctr.delivers : Ctr := ⟨100664010, 1, 0, 64, 48, false, true, false, true⟩

/-- Stream slots written (R285). -/
def Ctr.slotsWritten : Ctr := ⟨100664074, 1, 0, 64, 64, false, true, false, true⟩

/-- Tight-fit layer promotions (R285). -/
def Ctr.tightPromo : Ctr := ⟨100664138, 1, 0, 1, 64, false, false, false, false⟩

/-- Held pool accesses (R267) (R285). -/
def Ctr.heldAcc : Ctr := ⟨100664139, 1, 0, 1, 48, true, false, false, false⟩

/-- Bytes accepted (R336). -/
def Ctr.bytesAcc : Ctr := ⟨117440512, 1, 0, 8, 64, false, false, true, false⟩

/-- Bytes programmed, TLC and pSLC (R336). -/
def Ctr.bytesTlc : Ctr := ⟨117440520, 2, 0, 8, 64, false, false, true, false⟩

/-- Bytes programmed, TLC and pSLC (R336). -/
def Ctr.bytesPslc : Ctr := ⟨117440520, 2, 1, 8, 64, false, false, true, false⟩

/-- Erases (R336). -/
def Ctr.erases : Ctr := ⟨117440536, 1, 0, 0, 32, true, false, true, false⟩

/-- Reads since erase (R336). -/
def Ctr.readsBlk : Ctr := ⟨117440536, 1, 0, 0, 32, true, false, true, false⟩

/-- Read retries, soft decodes, rebuilds (R336). -/
def Ctr.readRetry : Ctr := ⟨117440536, 3, 0, 8, 48, true, false, false, false⟩

/-- Read retries, soft decodes, rebuilds (R336). -/
def Ctr.softDec : Ctr := ⟨117440536, 3, 1, 8, 48, true, false, false, false⟩

/-- Read retries, soft decodes, rebuilds (R336). -/
def Ctr.rebuilds : Ctr := ⟨117440536, 3, 2, 8, 48, true, false, false, false⟩

/-- Uncorrectable sectors (R336). -/
def Ctr.uncorr : Ctr := ⟨117440560, 1, 0, 8, 32, true, false, false, false⟩

/-- Key-mismatch reads (R306) (R336). -/
def Ctr.keyMismatch : Ctr := ⟨117440568, 1, 0, 8, 32, true, false, false, false⟩

/-- Blocks retired (R336). -/
def Ctr.blkRetired : Ctr := ⟨117440576, 1, 0, 8, 32, true, false, true, false⟩

/-- Relocations by garbage collection, refresh, die rebuild (R336). -/
def Ctr.relGc : Ctr := ⟨117440584, 3, 0, 8, 48, false, false, false, false⟩

/-- Relocations by garbage collection, refresh, die rebuild (R336). -/
def Ctr.relRefresh : Ctr := ⟨117440584, 3, 1, 8, 48, false, false, false, false⟩

/-- Relocations by garbage collection, refresh, die rebuild (R336). -/
def Ctr.relRebuild : Ctr := ⟨117440584, 3, 2, 8, 48, false, false, false, false⟩

/-- Forced garbage-collection ticks (R313) (R336). -/
def Ctr.forcedGc : Ctr := ⟨117440608, 1, 0, 8, 32, true, false, false, false⟩

/-- Demotion bytes refused by the governor (R336). -/
def Ctr.govRefused : Ctr := ⟨117440616, 1, 0, 8, 48, true, false, false, false⟩

/-- Span copies discarded for space (R319) (R336). -/
def Ctr.copiesDiscarded : Ctr := ⟨117440624, 1, 0, 8, 48, true, false, false, false⟩

/-- Checkpoints written (R336). -/
def Ctr.ckpts : Ctr := ⟨117440632, 1, 0, 1, 32, false, false, false, false⟩

/-- Unsafe shutdowns (R336). -/
def Ctr.unsafeShut : Ctr := ⟨117440633, 1, 0, 1, 16, true, false, true, false⟩

/-- Flits sent, flits accepted (R381). -/
def Ctr.flitsSent : Ctr := ⟨134217728, 2, 0, 18, 64, false, false, false, false⟩

/-- Flits sent, flits accepted (R381). -/
def Ctr.flitsAcc : Ctr := ⟨134217728, 2, 1, 18, 64, false, false, false, false⟩

/-- CRC failures, tag failures, NAKs sent (R381). -/
def Ctr.crcFail : Ctr := ⟨134217764, 3, 0, 18, 32, true, false, false, false⟩

/-- CRC failures, tag failures, NAKs sent (R381). -/
def Ctr.tagFail : Ctr := ⟨134217764, 3, 1, 18, 32, true, false, false, false⟩

/-- CRC failures, tag failures, NAKs sent (R381). -/
def Ctr.naksSent : Ctr := ⟨134217764, 3, 2, 18, 32, true, false, false, false⟩

/-- Retrains (R381). -/
def Ctr.portRetrain : Ctr := ⟨134217818, 1, 0, 18, 16, true, false, false, false⟩

/-- Malformed messages (R351) (R381). -/
def Ctr.malformed : Ctr := ⟨134217836, 1, 0, 18, 32, true, false, false, false⟩

/-- Requests relayed, sent and forwarded (R381). -/
def Ctr.relaySent : Ctr := ⟨134217854, 2, 0, 1, 48, false, false, false, false⟩

/-- Requests relayed, sent and forwarded (R381). -/
def Ctr.relayFwd : Ctr := ⟨134217854, 2, 1, 1, 48, false, false, false, false⟩

/-- Requests joined by egress combining (R381). -/
def Ctr.joinEgress : Ctr := ⟨134217856, 1, 0, 1, 64, false, false, false, false⟩

/-- Requests joined by home combining (R381). -/
def Ctr.joinHome : Ctr := ⟨134217857, 1, 0, 1, 64, false, false, false, false⟩

/-- Directory overflows (R355) (R381). -/
def Ctr.dirOvf : Ctr := ⟨134217858, 1, 0, 1, 48, true, false, false, false⟩

/-- Invalidations sent (R381). -/
def Ctr.invSent : Ctr := ⟨134217859, 1, 0, 1, 64, false, false, false, false⟩

/-- Retried requests answered from records (R381). -/
def Ctr.retryRec : Ctr := ⟨134217860, 1, 0, 1, 48, true, false, false, false⟩

/-- Ticks with the replay area full (R381). -/
def Ctr.replayFull : Ctr := ⟨134217861, 1, 0, 1, 32, true, false, false, false⟩

/-- Dead declarations (R381). -/
def Ctr.deadDecl : Ctr := ⟨134217862, 1, 0, 1, 16, true, false, false, false⟩

/-- Messages sent, messages resent (R381). -/
def Ctr.msgSent : Ctr := ⟨134217863, 2, 0, 1, 64, false, false, false, false⟩

/-- Messages sent, messages resent (R381). -/
def Ctr.msgResent : Ctr := ⟨134217863, 2, 1, 1, 48, false, false, false, false⟩

/-- Requests refused REVOKED at home (R418). -/
def Ctr.homeRevoked : Ctr := ⟨150994944, 1, 0, 1, 48, true, false, false, false⟩

/-- Requests answered NOT_FOUND at home (R418). -/
def Ctr.homeNotFound : Ctr := ⟨150994945, 1, 0, 1, 48, true, false, false, false⟩

/-- Origin rejections (R394) (R418). -/
def Ctr.originRej : Ctr := ⟨150994946, 1, 0, 18, 32, true, false, false, false⟩

/-- PUBLISH OK, PUBLISH CONFLICT (R418). -/
def Ctr.pubOk : Ctr := ⟨150994964, 2, 0, 64, 48, true, true, false, true⟩

/-- PUBLISH OK, PUBLISH CONFLICT (R418). -/
def Ctr.pubConflict : Ctr := ⟨150994964, 2, 1, 64, 48, true, true, false, true⟩

/-- REVOKE completions (R418). -/
def Ctr.revokes : Ctr := ⟨150995092, 1, 0, 64, 32, true, true, false, true⟩

/-- Near-memory bytes written (R418). -/
def Ctr.nearBytes : Ctr := ⟨150995156, 1, 0, 64, 64, false, true, false, true⟩

/-- Fabric-shaper wait ticks (R395) (R418). -/
def Ctr.shaperWait : Ctr := ⟨150995220, 1, 0, 64, 48, true, true, false, true⟩

/-- Persisted sectors accepted (R418). -/
def Ctr.persistSec : Ctr := ⟨150995284, 1, 0, 1, 64, false, false, false, false⟩

/-- Mirror writes sent (R418). -/
def Ctr.mirrorSent : Ctr := ⟨150995285, 1, 0, 1, 64, false, false, false, false⟩

/-- Failovers (R412) (R418). -/
def Ctr.failovers : Ctr := ⟨150995286, 1, 0, 1, 16, true, false, false, false⟩

/-- Rebuild bytes received (R418). -/
def Ctr.rebuildBytes : Ctr := ⟨150995287, 1, 0, 1, 64, false, false, false, false⟩

/-- Descriptors granted (R442). -/
def Ctr.granted : Ctr := ⟨167772160, 4, 0, 64, 64, false, true, false, true⟩

/-- Folio-reads charged to the bucket: descriptor costs, and in class 2 also the folios of lead and hint promotions (R433) (R442). -/
def Ctr.charged : Ctr := ⟨167772416, 4, 0, 64, 64, false, true, false, true⟩

/-- Ticks with a head held by a gate (R442). -/
def Ctr.gateHeld : Ctr := ⟨167772672, 1, 0, 64, 48, true, true, false, true⟩

/-- Ticks with a head held by a shaper (R442). -/
def Ctr.shapeHeld : Ctr := ⟨167772736, 4, 0, 64, 48, true, true, false, true⟩

/-- Heads granted past their deadline (R426) (R442). -/
def Ctr.pastDl : Ctr := ⟨167772992, 1, 0, 64, 32, true, true, false, true⟩

/-- Entries marked excess (R442). -/
def Ctr.excess : Ctr := ⟨167773056, 1, 0, 64, 48, true, true, false, true⟩

/-- POLICED completions (R442). -/
def Ctr.policed : Ctr := ⟨167773120, 1, 0, 64, 48, true, true, false, true⟩

/-- Units started (R442). -/
def Ctr.unitsStarted : Ctr := ⟨167773184, 4, 0, 1, 64, false, false, false, false⟩

/-- Ticks with a device bucket in debt (R442). -/
def Ctr.debtTicks : Ctr := ⟨167773188, 4, 0, 1, 48, true, false, false, false⟩

/-- Gate cycles started (R442). -/
def Ctr.gateCycles : Ctr := ⟨167773192, 1, 0, 1, 48, false, false, false, false⟩

/-- Growth demotions suppressed (R436) (R442). -/
def Ctr.growthSupp : Ctr := ⟨167773193, 1, 0, 1, 32, true, false, false, false⟩

/-- Lines corrected (R471). -/
def Ctr.linesCorr : Ctr := ⟨184549376, 1, 0, 256, 48, true, false, false, false⟩

/-- Line-code retries (R471). -/
def Ctr.lineRetry : Ctr := ⟨184549632, 1, 0, 256, 48, true, false, false, false⟩

/-- Lines poisoned (R471). -/
def Ctr.linesPois : Ctr := ⟨184549888, 1, 0, 16, 32, true, false, false, false⟩

/-- Poison table entries in use (R471). -/
def Ctr.poisEnts : Ctr := ⟨184549904, 1, 0, 16, 16, false, false, false, false⟩

/-- Units poisoned whole (R449) (R471). -/
def Ctr.unitsPois : Ctr := ⟨184549920, 1, 0, 1, 32, true, false, false, false⟩

/-- POISON completions (R471). -/
def Ctr.poisonComp : Ctr := ⟨184549921, 1, 0, 64, 32, true, true, false, true⟩

/-- SRAM words corrected, SRAM uncorrectable (R471). -/
def Ctr.sramCorr : Ctr := ⟨184549985, 2, 0, 1, 48, true, false, false, false⟩

/-- SRAM words corrected, SRAM uncorrectable (R471). -/
def Ctr.sramUnc : Ctr := ⟨184549985, 2, 1, 1, 32, true, false, false, false⟩

/-- Die-link replays (R471). -/
def Ctr.linkReplay : Ctr := ⟨184549987, 1, 0, 3, 48, true, false, false, false⟩

/-- Spare lanes used (R471). -/
def Ctr.spareLanes : Ctr := ⟨184549990, 1, 0, 3, 8, false, false, false, false⟩

/-- Rows repaired (R471). -/
def Ctr.rowsRep : Ctr := ⟨184549993, 1, 0, 256, 16, true, false, false, false⟩

/-- Frames retired (R471). -/
def Ctr.framesRet : Ctr := ⟨184550249, 1, 0, 16, 32, true, false, false, false⟩

/-- Cluster faults (R471). -/
def Ctr.clusterFlt : Ctr := ⟨184550265, 1, 0, 16, 16, true, false, false, false⟩

/-- Reference sweeps (R471). -/
def Ctr.sweeps : Ctr := ⟨184550281, 1, 0, 1, 16, true, false, false, false⟩

/-- Damaged sequences (R471). -/
def Ctr.damagedSeq : Ctr := ⟨184550282, 1, 0, 64, 32, true, true, false, true⟩

/-- Event log entries overwritten unread (R471). -/
def Ctr.logLost : Ctr := ⟨184550346, 1, 0, 1, 48, true, false, false, false⟩

/-- Key generation (R497). -/
def Ctr.keyGen : Ctr := ⟨201326592, 1, 0, 64, 32, false, true, true, false⟩

/-- Retained slots in use (R497). -/
def Ctr.retained : Ctr := ⟨201326656, 1, 0, 1, 8, false, false, false, false⟩

/-- SPDM signatures made (R497). -/
def Ctr.spdmSigs : Ctr := ⟨201326657, 1, 0, 1, 48, false, false, false, false⟩

/-- SPDM errors returned (R497). -/
def Ctr.spdmErrs : Ctr := ⟨201326658, 1, 0, 1, 32, true, false, false, false⟩

/-- Warden discards (R497). -/
def Ctr.wardenDisc : Ctr := ⟨201326659, 6, 0, 1, 32, true, false, false, false⟩

/-- Firmware restarts (R497). -/
def Ctr.fwRestarts : Ctr := ⟨201326665, 1, 0, 1, 32, true, false, false, false⟩

/-- Firmware updates (R497). -/
def Ctr.fwUpdates : Ctr := ⟨201326666, 1, 0, 1, 16, true, false, false, false⟩

/-- Tamper detections (R497). -/
def Ctr.tampers : Ctr := ⟨201326667, 1, 0, 1, 5, false, false, true, false⟩

/-- Milliseconds at each point, P0–P4 (R538). -/
def Ctr.pointMs : Ctr := ⟨218103808, 5, 0, 1, 48, false, false, false, false⟩

/-- Milliseconds with engines halved (R538). -/
def Ctr.halvedMs : Ctr := ⟨218103813, 1, 0, 1, 48, true, false, false, false⟩

/-- Steps down for power (R538). -/
def Ctr.stepPower : Ctr := ⟨218103814, 1, 0, 1, 32, true, false, false, false⟩

/-- Steps down for temperature (R538). -/
def Ctr.stepTemp : Ctr := ⟨218103815, 1, 0, 1, 32, true, false, false, false⟩

/-- Milliseconds with mean power above the limit (R538). -/
def Ctr.overMs : Ctr := ⟨218103816, 1, 0, 1, 32, true, false, false, false⟩

/-- Regulator faults (R538). -/
def Ctr.regFaults : Ctr := ⟨218103817, 1, 0, 1, 16, true, false, false, false⟩

/-- Archive sleep entries (R538). -/
def Ctr.sleeps : Ctr := ⟨218103818, 1, 0, 1, 32, true, false, false, false⟩

/-- Thermal trips (R538). -/
def Ctr.trips : Ctr := ⟨218103819, 1, 0, 1, 8, true, false, true, false⟩

/-- READBACK completions (R563). -/
def Ctr.readbacks : Ctr := ⟨234881024, 1, 0, 64, 48, false, true, false, true⟩

/-- Records written (R563). -/
def Ctr.recsWritten : Ctr := ⟨234881088, 1, 0, 64, 64, false, true, false, true⟩

/-- Records written as zeros (R563). -/
def Ctr.recsZero : Ctr := ⟨234881152, 1, 0, 64, 32, true, true, false, true⟩

/-- Window loads (R563). -/
def Ctr.winLoads : Ctr := ⟨234881216, 1, 0, 64, 48, false, true, false, true⟩

/-- AUDIT completions (R563). -/
def Ctr.audits : Ctr := ⟨234881280, 1, 0, 1, 16, true, false, false, false⟩

/-- Findings, repairs (R563). -/
def Ctr.findings : Ctr := ⟨234881281, 2, 0, 1, 32, true, false, false, false⟩

/-- Findings, repairs (R563). -/
def Ctr.repairs : Ctr := ⟨234881281, 2, 1, 1, 32, true, false, false, false⟩

/-- Rejected register writes (R563). -/
def Ctr.rejWrites : Ctr := ⟨234881283, 1, 0, 1, 16, true, false, false, false⟩

/-- The counters, part 1. -/
def Ctr.rows1 : List Ctr :=
  [.resets, .bootFailed, .recovery, .adoptions, .headChanges, .asmRecv, .asmBad, .tikCount, .rolled, .late, .stallTimeout, .lateEdge, .planOverrun, .closeRun, .refusedBudget, .holdovers, .fetched, .badDesc, .patronFault, .doorbellErr, .evDiscard, .msix, .apMiss, .retrain, .aer, .liveRecs, .editOk, .editConflict, .noFolio, .spillBytes, .openCopies, .reopens, .refills, .dropGrowth, .demoteGrowth, .editWait, .tableBlks, .churns, .churnDefer, .churnCancel]

/-- The counters, part 2. -/
def Ctr.rows2 : List Ctr :=
  [.churnRoll, .clipped, .freshSkim, .twinsKept, .transcoded, .profRefused, .attends, .qvecs, .folioReads, .screened, .readsAvoided, .guardEx, .twinReads, .badQuery, .needsRecomp, .poisonAttend, .merges, .twoPass, .entsHeld, .probes, .probeSpans, .multi, .entsIns, .entsPresent, .entsWithdrawn, .keyColl, .migrate, .returns, .capWithdraw, .ovfLookup, .keysDerived, .stallTicks, .demandPromo, .bytesPromo, .demotions, .releases, .dropped, .twinsAlone, .patronEvict, .pinsHeld]

/-- The counters, part 3. -/
def Ctr.rows3 : List Ctr :=
  [.delivers, .slotsWritten, .tightPromo, .heldAcc, .bytesAcc, .bytesTlc, .bytesPslc, .erases, .readsBlk, .readRetry, .softDec, .rebuilds, .uncorr, .keyMismatch, .blkRetired, .relGc, .relRefresh, .relRebuild, .forcedGc, .govRefused, .copiesDiscarded, .ckpts, .unsafeShut, .flitsSent, .flitsAcc, .crcFail, .tagFail, .naksSent, .portRetrain, .malformed, .relaySent, .relayFwd, .joinEgress, .joinHome, .dirOvf, .invSent, .retryRec, .replayFull, .deadDecl, .msgSent]

/-- The counters, part 4. -/
def Ctr.rows4 : List Ctr :=
  [.msgResent, .homeRevoked, .homeNotFound, .originRej, .pubOk, .pubConflict, .revokes, .nearBytes, .shaperWait, .persistSec, .mirrorSent, .failovers, .rebuildBytes, .granted, .charged, .gateHeld, .shapeHeld, .pastDl, .excess, .policed, .unitsStarted, .debtTicks, .gateCycles, .growthSupp, .linesCorr, .lineRetry, .linesPois, .poisEnts, .unitsPois, .poisonComp, .sramCorr, .sramUnc, .linkReplay, .spareLanes, .rowsRep, .framesRet, .clusterFlt, .sweeps, .damagedSeq, .logLost]

/-- The counters, part 5. -/
def Ctr.rows5 : List Ctr :=
  [.keyGen, .retained, .spdmSigs, .spdmErrs, .wardenDisc, .fwRestarts, .fwUpdates, .tampers, .pointMs, .halvedMs, .stepPower, .stepTemp, .overMs, .regFaults, .sleeps, .trips, .readbacks, .recsWritten, .recsZero, .winLoads, .audits, .findings, .repairs, .rejWrites]

/-- Every counter. -/
def Ctr.all : List Ctr := Ctr.rows1 ++ Ctr.rows2 ++ Ctr.rows3 ++ Ctr.rows4 ++ Ctr.rows5

/-- The number of an instance (R545): outer instance `i`, inner instance `j`. -/
def Ctr.key (c : Ctr) (i j : Nat) : Nat := c.base + i * c.step + j + c.place

/-- A counter's new value: saturating or wrapping at its width. -/
def Ctr.next (c : Ctr) (v n : Nat) : Nat :=
  if c.sat then min (v + n) (2 ^ c.width - 1) else (v + n) % 2 ^ c.width

/-- Advance one instance of a counter by `n`. -/
def Dev.count2 (d : Dev) (c : Ctr) (i j n : Nat) : Dev :=
  if n = 0 then d else
  let k := c.key i j
  { d with ctrs := tset d.ctrs k (c.next (tgetD d.ctrs k 0) n) }

/-- Advance one instance of a counter of one scope by `n`. -/
def Dev.count (d : Dev) (c : Ctr) (i : Nat) (n : Nat := 1) : Dev := d.count2 c i 0 n

/-- An instance's value. -/
def Dev.ctr (d : Dev) (c : Ctr) (i : Nat) (j : Nat := 0) : Nat := tgetD d.ctrs (c.key i j) 0

/-- The counters of a patron cleared by its reset (R104 and the counter tables). -/
def Dev.clearCtrs (d : Dev) (p : Nat) : Dev :=
  let dead := fun k => Ctr.all.any fun c => c.clears && decide (c.base + p * c.step ≤ k) && decide (k < c.base + (p + 1) * c.step)
  { d with ctrs := tkeep d.ctrs fun k _ => !dead k }

/-- The counters a device reset keeps, in the system area or in antifuses (R336, R497, R500, R519, R538). -/
def keptCtrs (t : Tab Nat) : Tab Nat :=
  tkeep t fun k _ => Ctr.all.any fun c => c.kept && decide (c.base ≤ k) && decide (k < c.base + c.outer * c.step)

end Sys2Proof.Machine
end

