-- ==== Sys2Proof/Machine/Regs.lean ====
section
/-! DEFINITION. The register map of R557 to R562: every register's block, offset, stride, instances and fields, with access codes, cold values and ranges; reading a field, and what a write of an access code stores (R10, R552, R555). -/

namespace Sys2Proof.Machine

/-- Access codes (R10) that occur in the map. -/
inductive Acc where
  | rw
  | ro
  | w1c
  | w1s
  | wo
  | rwl
  deriving DecidableEq, Repr

/-- The stated range of a field (R555). -/
inductive FRange where
  /-- Every value of the field's width. -/
  | any
  | range (lo hi : Nat)
  | zeroOr (lo hi : Nat)
  | align (n : Nat)
  | steps (n hi : Nat)
  deriving DecidableEq, Repr

/-- The value lies in the range. -/
def FRange.ok : FRange → Nat → Bool
  | .any, _ => true
  | .range lo hi, v => decide (lo ≤ v) && decide (v ≤ hi)
  | .zeroOr lo hi, v => v == 0 || (decide (lo ≤ v) && decide (v ≤ hi))
  | .align n, v => v % n == 0
  | .steps n hi, v => v % n == 0 && decide (v ≤ hi)

/-- A field: lowest bit, width, access, cold value, range. -/
structure RegF where
  lo : Nat
  width : Nat
  acc : Acc
  cold : Nat := 0
  rng : FRange := .any
  deriving DecidableEq, Repr

/-- A register: block (15 the patron page), offset, stride, instances, bytes, fields. -/
structure RegRow where
  block : Nat
  off : Nat
  stride : Nat
  count : Nat
  bytes : Nat
  fields : List RegF
  deriving DecidableEq, Repr

/-- PAT_SQn_BASE (R557). -/
def regPatSqnBase : RegRow := ⟨15, 0, 16, 16, 8, [⟨0, 64, .rwl, 0, .any⟩]⟩

/-- PAT_SQn_CTRL (R557). -/
def regPatSqnCtrl : RegRow := ⟨15, 8, 16, 16, 4, [⟨0, 5, .rwl, 0, .any⟩, ⟨8, 4, .rwl, 0, .any⟩]⟩

/-- PAT_CQn_BASE (R557). -/
def regPatCqnBase : RegRow := ⟨15, 256, 16, 16, 8, [⟨0, 64, .rwl, 0, .any⟩]⟩

/-- PAT_CQn_CTRL (R557). -/
def regPatCqnCtrl : RegRow := ⟨15, 264, 16, 16, 4, [⟨0, 5, .rwl, 0, .any⟩, ⟨8, 8, .rwl, 0, .any⟩]⟩

/-- PAT_EQ_BASE (R557). -/
def regPatEqBase : RegRow := ⟨15, 512, 0, 1, 8, [⟨0, 64, .rwl, 0, .any⟩]⟩

/-- PAT_EQ_CTRL (R557). -/
def regPatEqCtrl : RegRow := ⟨15, 520, 0, 1, 4, [⟨0, 5, .rwl, 0, .any⟩, ⟨8, 8, .rwl, 0, .any⟩, ⟨16, 1, .rwl, 0, .any⟩]⟩

/-- PAT_LOCK (R557). -/
def regPatLock : RegRow := ⟨15, 528, 0, 1, 4, [⟨0, 1, .w1s, 0, .any⟩]⟩

/-- PAT_STATUS (R557). -/
def regPatStatus : RegRow := ⟨15, 532, 0, 1, 4, [⟨0, 3, .ro, 0, .any⟩, ⟨3, 1, .ro, 0, .any⟩, ⟨4, 1, .ro, 0, .any⟩, ⟨5, 3, .ro, 0, .any⟩]⟩

/-- PAT_FAULT (R557). -/
def regPatFault : RegRow := ⟨15, 536, 0, 1, 4, [⟨0, 4, .ro, 0, .any⟩]⟩

/-- PAT_KEEP_RESET (R557). -/
def regPatKeepReset : RegRow := ⟨15, 540, 0, 1, 4, [⟨0, 1, .w1s, 0, .any⟩]⟩

/-- PAT_WIN_SEL (R557). -/
def regPatWinSel : RegRow := ⟨15, 544, 0, 1, 4, [⟨0, 8, .rw, 0, .any⟩]⟩

/-- PAT_WIN_INDEX (R557). -/
def regPatWinIndex : RegRow := ⟨15, 552, 0, 1, 8, [⟨0, 64, .rw, 0, .any⟩]⟩

/-- CAP_VERSION (R558). -/
def regCapVersion : RegRow := ⟨0, 0, 0, 1, 4, [⟨0, 16, .ro, 1, .any⟩, ⟨16, 16, .ro, 0, .any⟩]⟩

/-- CAP_GEOMETRY (R558). -/
def regCapGeometry : RegRow := ⟨0, 8, 0, 1, 8, [⟨0, 8, .ro, 0, .any⟩, ⟨8, 8, .ro, 8, .any⟩, ⟨16, 8, .ro, 0, .any⟩, ⟨24, 16, .ro, 1024, .any⟩, ⟨40, 16, .ro, 0, .any⟩]⟩

/-- CAP_MEMORY (R558). -/
def regCapMemory : RegRow := ⟨0, 16, 0, 1, 8, [⟨0, 32, .ro, 0, .any⟩, ⟨32, 32, .ro, 0, .any⟩]⟩

/-- CAP_LIMITS0 (R558). -/
def regCapLimits0 : RegRow := ⟨0, 24, 0, 1, 8, [⟨0, 8, .ro, 64, .any⟩, ⟨8, 8, .ro, 16, .any⟩, ⟨16, 8, .ro, 16, .any⟩, ⟨24, 8, .ro, 16, .any⟩, ⟨32, 16, .ro, 256, .any⟩, ⟨48, 16, .ro, 4096, .any⟩]⟩

/-- CAP_LIMITS1 (R558). -/
def regCapLimits1 : RegRow := ⟨0, 32, 0, 1, 8, [⟨0, 32, .ro, 4194304, .any⟩, ⟨32, 32, .ro, 0, .any⟩]⟩

/-- CAP_LIMITS2 (R558). -/
def regCapLimits2 : RegRow := ⟨0, 40, 0, 1, 8, [⟨0, 32, .ro, 33554432, .any⟩, ⟨32, 8, .ro, 16, .any⟩, ⟨40, 8, .ro, 64, .any⟩, ⟨48, 16, .ro, 1024, .any⟩]⟩

/-- CAP_FLASH (R558). -/
def regCapFlash : RegRow := ⟨0, 48, 0, 1, 8, [⟨0, 8, .ro, 0, .any⟩, ⟨8, 8, .ro, 0, .any⟩, ⟨16, 16, .ro, 0, .any⟩, ⟨32, 8, .ro, 0, .any⟩]⟩

/-- CAP_BOOT_STATUS (R558). -/
def regCapBootStatus : RegRow := ⟨0, 256, 0, 1, 4, [⟨0, 4, .ro, 0, .any⟩, ⟨4, 4, .ro, 0, .any⟩, ⟨8, 8, .ro, 0, .any⟩]⟩

/-- CAP_BOOT_MSn (R558). -/
def regCapBootMsn : RegRow := ⟨0, 260, 4, 11, 4, [⟨0, 32, .ro, 0, .any⟩]⟩

/-- CAP_RESET_CAUSE (R558). -/
def regCapResetCause : RegRow := ⟨0, 304, 0, 1, 4, [⟨0, 3, .ro, 0, .any⟩]⟩

/-- CAP_STRAPS (R558). -/
def regCapStraps : RegRow := ⟨0, 308, 0, 1, 4, [⟨0, 4, .ro, 0, .any⟩, ⟨4, 2, .ro, 0, .any⟩, ⟨6, 4, .ro, 0, .any⟩, ⟨10, 2, .ro, 0, .any⟩, ⟨12, 1, .ro, 0, .any⟩, ⟨13, 2, .ro, 0, .any⟩]⟩

/-- CAP_POOL_STATUS (R558). -/
def regCapPoolStatus : RegRow := ⟨0, 312, 0, 1, 4, [⟨0, 6, .ro, 0, .any⟩, ⟨6, 1, .ro, 0, .any⟩, ⟨7, 1, .ro, 0, .any⟩, ⟨8, 7, .ro, 0, .any⟩, ⟨15, 7, .ro, 0, .any⟩]⟩

/-- TIK_CTRL (R559). -/
def regTikCtrl : RegRow := ⟨1, 0, 0, 1, 4, [⟨0, 2, .rwl, 0, .any⟩, ⟨2, 1, .rwl, 0, .any⟩, ⟨3, 1, .rwl, 1, .any⟩]⟩

/-- TIK_STATUS (R559). -/
def regTikStatus : RegRow := ⟨1, 4, 0, 1, 4, [⟨0, 1, .ro, 0, .any⟩, ⟨1, 1, .ro, 0, .any⟩, ⟨2, 1, .ro, 0, .any⟩, ⟨3, 1, .ro, 0, .any⟩, ⟨4, 1, .ro, 0, .any⟩]⟩

/-- TIK_LENGTH (R559). -/
def regTikLength : RegRow := ⟨1, 8, 0, 1, 4, [⟨0, 9, .rwl, 20, .range 5 500⟩]⟩

/-- TIK_PLAN_LEN (R559). -/
def regTikPlanLen : RegRow := ⟨1, 12, 0, 1, 4, [⟨0, 6, .rwl, 10, .range 5 40⟩]⟩

/-- TIK_ADMIT_BUDGET (R559). -/
def regTikAdmitBudget : RegRow := ⟨1, 16, 0, 1, 4, [⟨0, 24, .rwl, 0, .any⟩]⟩

/-- TIK_DEFAULT_SLACK (R559). -/
def regTikDefaultSlack : RegRow := ⟨1, 20, 0, 1, 4, [⟨0, 16, .rwl, 50, .any⟩]⟩

/-- TIK_PTM_INTERVAL (R559). -/
def regTikPtmInterval : RegRow := ⟨1, 24, 0, 1, 4, [⟨0, 14, .rwl, 1000, .range 100 10000⟩]⟩

/-- TIK_MASTER_POS (R559). -/
def regTikMasterPos : RegRow := ⟨1, 28, 0, 1, 4, [⟨0, 4, .rwl, 0, .any⟩]⟩

/-- TIK_TOD_NEXT (R559). -/
def regTikTodNext : RegRow := ⟨1, 32, 0, 1, 8, [⟨0, 64, .rw, 0, .any⟩]⟩

/-- TIK_TIME (R559). -/
def regTikTime : RegRow := ⟨1, 40, 0, 1, 8, [⟨0, 64, .ro, 0, .any⟩]⟩

/-- TIK_COUNT (R559). -/
def regTikCount : RegRow := ⟨1, 48, 0, 1, 8, [⟨0, 64, .ro, 0, .any⟩]⟩

/-- TIK_OFFSET (R559). -/
def regTikOffset : RegRow := ⟨1, 56, 0, 1, 8, [⟨0, 64, .ro, 0, .any⟩]⟩

/-- HPI_CTRL (R559). -/
def regHpiCtrl : RegRow := ⟨2, 0, 0, 1, 4, [⟨0, 1, .rwl, 0, .any⟩, ⟨1, 1, .rwl, 0, .any⟩, ⟨8, 8, .rwl, 255, .range 1 255⟩]⟩

/-- HPI_STATUS (R559). -/
def regHpiStatus : RegRow := ⟨2, 4, 0, 1, 4, [⟨0, 5, .ro, 0, .any⟩, ⟨8, 7, .ro, 0, .any⟩, ⟨16, 1, .ro, 0, .any⟩, ⟨17, 1, .ro, 0, .any⟩]⟩

/-- HPI_FW_WINn (R559). -/
def regHpiFwWinn : RegRow := ⟨2, 16, 16, 8, 16, [⟨0, 64, .rwl, 0, .align 4096⟩, ⟨64, 32, .rwl, 0, .any⟩, ⟨96, 1, .rwl, 0, .any⟩, ⟨97, 1, .rwl, 0, .any⟩]⟩

/-- HPI_APT_SLOTs (R559). -/
def regHpiAptSlots : RegRow := ⟨2, 256, 16, 64, 16, [⟨0, 6, .rwl, 0, .any⟩, ⟨6, 1, .rwl, 0, .any⟩, ⟨64, 64, .rwl, 0, .align (2 ^ 30)⟩]⟩

/-- ATN_CTRL (R559). -/
def regAtnCtrl : RegRow := ⟨4, 0, 0, 1, 4, [⟨0, 1, .rwl, 1, .any⟩, ⟨1, 1, .rwl, 1, .any⟩]⟩

/-- ATN_STATUS (R559). -/
def regAtnStatus : RegRow := ⟨4, 4, 0, 1, 4, [⟨0, 10, .ro, 0, .any⟩, ⟨15, 1, .ro, 0, .any⟩, ⟨16, 16, .ro, 0, .any⟩]⟩

/-- ATN_GUARD_TOLp (R559). -/
def regAtnGuardTolp : RegRow := ⟨4, 256, 4, 64, 4, [⟨0, 16, .rwl, 0, .any⟩]⟩

/-- CAT_CTRL (R560). -/
def regCatCtrl : RegRow := ⟨5, 0, 0, 1, 4, [⟨0, 1, .rwl, 1, .any⟩, ⟨1, 1, .rwl, 1, .any⟩]⟩

/-- CAT_STATUS (R560). -/
def regCatStatus : RegRow := ⟨5, 8, 0, 1, 8, [⟨0, 16, .ro, 0, .any⟩, ⟨16, 1, .ro, 0, .any⟩, ⟨17, 19, .ro, 0, .any⟩, ⟨36, 26, .ro, 0, .any⟩]⟩

/-- CAT_PRIVp (R560). -/
def regCatPrivp : RegRow := ⟨5, 256, 4, 64, 4, [⟨0, 2, .rwl, 0, .any⟩, ⟨6, 26, .rwl, 0, .any⟩]⟩

/-- CAT_SHAREk_CTRL (R560). -/
def regCatSharekCtrl : RegRow := ⟨5, 512, 4, 64, 4, [⟨0, 1, .rwl, 0, .any⟩, ⟨1, 2, .rwl, 0, .any⟩, ⟨6, 26, .rwl, 0, .any⟩]⟩

/-- CAT_SHAREk_MEMBERS (R560). -/
def regCatSharekMembers : RegRow := ⟨5, 768, 8, 64, 8, [⟨0, 64, .rwl, 0, .any⟩]⟩

/-- TIR_CTRL (R560). -/
def regTirCtrl : RegRow := ⟨6, 0, 0, 1, 4, [⟨0, 1, .rwl, 1, .any⟩, ⟨1, 1, .rwl, 0, .any⟩]⟩

/-- TIR_STATUS (R560). -/
def regTirStatus : RegRow := ⟨6, 8, 0, 1, 8, [⟨0, 20, .ro, 0, .any⟩, ⟨20, 20, .ro, 0, .any⟩, ⟨40, 1, .ro, 0, .any⟩]⟩

/-- TIR_FLOORp (R560). -/
def regTirFloorp : RegRow := ⟨6, 256, 4, 64, 4, [⟨0, 20, .rwl, 0, .any⟩]⟩

/-- TIR_CEILp (R560). -/
def regTirCeilp : RegRow := ⟨6, 512, 4, 64, 4, [⟨0, 20, .rwl, 0, .any⟩]⟩

/-- TIR_PIN_LIMITp (R560). -/
def regTirPinLimitp : RegRow := ⟨6, 768, 4, 64, 4, [⟨0, 20, .rwl, 0, .any⟩]⟩

/-- TIR_FREE_TARGET (R560). -/
def regTirFreeTarget : RegRow := ⟨6, 1024, 0, 1, 4, [⟨0, 20, .rwl, 8, .any⟩]⟩

/-- TIR_DEMOTE_AGE (R560). -/
def regTirDemoteAge : RegRow := ⟨6, 1028, 0, 1, 4, [⟨0, 32, .rwl, 50000, .any⟩]⟩

/-- TIR_SHELFn_BASE (R560). -/
def regTirShelfnBase : RegRow := ⟨6, 1280, 8, 32, 8, [⟨16, 48, .rwl, 0, .any⟩]⟩

/-- TIR_SHELFn_CTRL (R560). -/
def regTirShelfnCtrl : RegRow := ⟨6, 1536, 8, 32, 8, [⟨0, 1, .rwl, 0, .any⟩, ⟨1, 1, .rwl, 0, .any⟩, ⟨2, 1, .rwl, 0, .any⟩, ⟨8, 6, .rwl, 0, .any⟩, ⟨16, 32, .rwl, 0, .any⟩]⟩

/-- TIR_REMOTEr (R560). -/
def regTirRemoter : RegRow := ⟨6, 1792, 16, 4, 16, [⟨0, 56, .rwl, 0, .align (2 ^ 21)⟩, ⟨64, 32, .rwl, 0, .any⟩, ⟨96, 1, .rwl, 0, .any⟩]⟩

/-- RGN_CTRL (R560). -/
def regRgnCtrl : RegRow := ⟨9, 0, 0, 1, 4, [⟨0, 1, .rwl, 0, .any⟩, ⟨1, 1, .rwl, 1, .any⟩]⟩

/-- RGN_STATUS (R560). -/
def regRgnStatus : RegRow := ⟨9, 8, 0, 1, 8, [⟨0, 13, .ro, 0, .any⟩, ⟨13, 17, .ro, 0, .any⟩, ⟨30, 15, .ro, 0, .any⟩, ⟨48, 8, .ro, 0, .any⟩]⟩

/-- RGN_SPARE (R560). -/
def regRgnSpare : RegRow := ⟨9, 16, 0, 1, 4, [⟨0, 1, .rwl, 0, .any⟩, ⟨4, 4, .rwl, 0, .any⟩]⟩

/-- RGN_RATEp (R560). -/
def regRgnRatep : RegRow := ⟨9, 256, 4, 64, 4, [⟨0, 32, .rwl, 0, .any⟩]⟩

/-- STK_CTRL (R561). -/
def regStkCtrl : RegRow := ⟨7, 0, 0, 1, 4, [⟨0, 1, .rwl, 1, .any⟩, ⟨1, 1, .rwl, 1, .any⟩, ⟨2, 1, .rwl, 1, .any⟩, ⟨3, 1, .rwl, 1, .any⟩]⟩

/-- STK_STATUS (R561). -/
def regStkStatus : RegRow := ⟨7, 8, 0, 1, 8, [⟨0, 8, .ro, 0, .any⟩, ⟨8, 8, .ro, 0, .any⟩, ⟨16, 8, .ro, 0, .any⟩, ⟨24, 3, .ro, 0, .any⟩, ⟨32, 8, .ro, 0, .any⟩]⟩

/-- STK_VOLn (R561). -/
def regStkVoln : RegRow := ⟨7, 16, 8, 8, 8, [⟨0, 1, .ro, 0, .any⟩, ⟨1, 1, .ro, 0, .any⟩, ⟨2, 1, .ro, 0, .any⟩, ⟨3, 1, .ro, 0, .any⟩, ⟨8, 8, .ro, 0, .any⟩, ⟨16, 8, .ro, 0, .any⟩, ⟨24, 10, .ro, 0, .any⟩, ⟨34, 7, .ro, 0, .any⟩, ⟨48, 16, .ro, 0, .any⟩]⟩

/-- STK_FINE_LIMIT (R561). -/
def regStkFineLimit : RegRow := ⟨7, 256, 0, 1, 4, [⟨0, 16, .rwl, 128, .any⟩]⟩

/-- STK_SCRUB_DAYS (R561). -/
def regStkScrubDays : RegRow := ⟨7, 260, 0, 1, 4, [⟨0, 8, .rwl, 7, .any⟩]⟩

/-- STK_GC_START (R561). -/
def regStkGcStart : RegRow := ⟨7, 264, 0, 1, 4, [⟨0, 8, .rwl, 4, .any⟩]⟩

/-- STK_COLD_AGE (R561). -/
def regStkColdAge : RegRow := ⟨7, 268, 0, 1, 4, [⟨0, 16, .rwl, 24, .any⟩]⟩

/-- STK_SPAN_RESERVE (R561). -/
def regStkSpanReserve : RegRow := ⟨7, 272, 0, 1, 4, [⟨0, 10, .rwl, 20, .any⟩]⟩

/-- STK_CKPT_INTERVAL (R561). -/
def regStkCkptInterval : RegRow := ⟨7, 276, 0, 1, 4, [⟨0, 12, .rwl, 2000, .range 250 2000⟩]⟩

/-- STK_CKPT_BYTES (R561). -/
def regStkCkptBytes : RegRow := ⟨7, 280, 0, 1, 4, [⟨0, 13, .rwl, 1024, .range 64 4096⟩]⟩

/-- STK_LIFE_DAYS (R561). -/
def regStkLifeDays : RegRow := ⟨7, 284, 0, 1, 4, [⟨0, 13, .rwl, 1826, .range 30 7305⟩]⟩

/-- STK_RATED_CYCLES (R561). -/
def regStkRatedCycles : RegRow := ⟨7, 288, 0, 1, 4, [⟨0, 32, .rwl, 0, .any⟩]⟩

/-- STK_UNC_LIMIT (R561). -/
def regStkUncLimit : RegRow := ⟨7, 292, 0, 1, 4, [⟨0, 16, .rwl, 16, .any⟩]⟩

/-- STK_TEMP_WARN (R561). -/
def regStkTempWarn : RegRow := ⟨7, 296, 0, 1, 4, [⟨0, 8, .rwl, 80, .any⟩]⟩

/-- STK_TEMP_PAUSE (R561). -/
def regStkTempPause : RegRow := ⟨7, 300, 0, 1, 4, [⟨0, 8, .rwl, 90, .any⟩]⟩

/-- STK_READ_LIMIT (R561). -/
def regStkReadLimit : RegRow := ⟨7, 304, 0, 1, 8, [⟨0, 32, .rwl, 60000, .any⟩, ⟨32, 32, .rwl, 300000, .any⟩]⟩

/-- STK_GOV_BALANCEn (R561). -/
def regStkGovBalancen : RegRow := ⟨7, 320, 8, 8, 8, [⟨0, 64, .ro, 0, .any⟩]⟩

/-- CHG_CTRL (R561). -/
def regChgCtrl : RegRow := ⟨8, 0, 0, 1, 4, [⟨0, 1, .rwl, 1, .any⟩, ⟨1, 1, .rwl, 1, .any⟩, ⟨2, 1, .rwl, 1, .any⟩]⟩

/-- CHG_STATUS (R561). -/
def regChgStatus : RegRow := ⟨8, 8, 0, 1, 8, [⟨0, 4, .ro, 0, .any⟩, ⟨4, 2, .ro, 0, .any⟩, ⟨8, 6, .ro, 0, .any⟩, ⟨24, 18, .ro, 0, .any⟩, ⟨44, 16, .ro, 0, .any⟩]⟩

/-- CHG_PORT_EN (R561). -/
def regChgPortEn : RegRow := ⟨8, 16, 0, 1, 4, [⟨0, 18, .rwl, 0, .any⟩]⟩

/-- CHG_COMBINE_WINDOW (R561). -/
def regChgCombineWindow : RegRow := ⟨8, 32, 0, 1, 4, [⟨0, 8, .rwl, 100, .steps 10 200⟩]⟩

/-- CHG_DEAD_TIME (R561). -/
def regChgDeadTime : RegRow := ⟨8, 36, 0, 1, 4, [⟨0, 5, .rwl, 20, .range 10 30⟩]⟩

/-- CHG_RETRY_TIMEOUT (R561). -/
def regChgRetryTimeout : RegRow := ⟨8, 40, 0, 1, 4, [⟨0, 7, .rwl, 10, .range 2 100⟩]⟩

/-- CHG_MSG_RETRY (R561). -/
def regChgMsgRetry : RegRow := ⟨8, 44, 0, 1, 4, [⟨0, 10, .rwl, 100, .range 20 1000⟩]⟩

/-- CHG_DEAD_MASK (R561). -/
def regChgDeadMask : RegRow := ⟨8, 48, 0, 1, 8, [⟨0, 64, .ro, 0, .any⟩]⟩

/-- CHG_EPOCH (R561). -/
def regChgEpoch : RegRow := ⟨8, 56, 0, 1, 4, [⟨0, 32, .ro, 0, .any⟩]⟩

/-- CHG_WING_OFFSETw (R561). -/
def regChgWingOffsetw : RegRow := ⟨8, 64, 8, 4, 8, [⟨0, 64, .ro, 0, .any⟩]⟩

/-- CHG_DIR_STATUS (R561). -/
def regChgDirStatus : RegRow := ⟨8, 96, 0, 1, 8, [⟨0, 23, .ro, 0, .any⟩, ⟨23, 17, .ro, 0, .any⟩, ⟨40, 19, .ro, 0, .any⟩]⟩

/-- CHG_PORTk_STATUS (R561). -/
def regChgPortkStatus : RegRow := ⟨8, 256, 4, 18, 4, [⟨0, 3, .ro, 0, .any⟩, ⟨4, 3, .ro, 0, .any⟩, ⟨7, 1, .ro, 0, .any⟩, ⟨8, 6, .ro, 0, .any⟩]⟩

/-- TRF_CTRL (R562). -/
def regTrfCtrl : RegRow := ⟨10, 0, 0, 1, 4, [⟨0, 1, .rwl, 1, .any⟩, ⟨1, 1, .rwl, 1, .any⟩, ⟨2, 1, .rwl, 1, .any⟩]⟩

/-- TRF_STATUS (R562). -/
def regTrfStatus : RegRow := ⟨10, 16, 0, 1, 16, [⟨0, 6, .ro, 0, .any⟩, ⟨8, 1, .ro, 0, .any⟩, ⟨64, 64, .ro, 0, .any⟩]⟩

/-- TRF_GATE_PERIOD (R562). -/
def regTrfGatePeriod : RegRow := ⟨10, 32, 0, 1, 4, [⟨0, 20, .rwl, 0, .zeroOr 10 1000000⟩]⟩

/-- TRF_GATE_PHASE (R562). -/
def regTrfGatePhase : RegRow := ⟨10, 36, 0, 1, 4, [⟨0, 20, .rwl, 0, .any⟩]⟩

/-- TRF_GATE_COUNT (R562). -/
def regTrfGateCount : RegRow := ⟨10, 40, 0, 1, 4, [⟨0, 7, .rwl, 1, .range 1 64⟩]⟩

/-- TRF_GATEn (R562). -/
def regTrfGaten : RegRow := ⟨10, 256, 8, 64, 8, [⟨0, 32, .rwl, 0, .any⟩, ⟨32, 8, .rwl, 0, .any⟩]⟩

/-- TRF_QUANTUMp (R562). -/
def regTrfQuantump : RegRow := ⟨10, 768, 4, 64, 4, [⟨0, 16, .rwl, 64, .range 1 65535⟩]⟩

/-- TRF_PRATEi (R562). -/
def regTrfPratei : RegRow := ⟨10, 1024, 4, 256, 4, [⟨0, 31, .rwl, 0, .any⟩]⟩

/-- TRF_PBURSTi (R562). -/
def regTrfPbursti : RegRow := ⟨10, 2048, 4, 256, 4, [⟨0, 31, .rwl, 0, .any⟩]⟩

/-- TRF_DRATEc (R562). -/
def regTrfDratec : RegRow := ⟨10, 3072, 4, 4, 4, [⟨0, 31, .rwl, 0, .any⟩]⟩

/-- TRF_DBURSTc (R562). -/
def regTrfDburstc : RegRow := ⟨10, 3088, 4, 4, 4, [⟨0, 31, .rwl, 0, .any⟩]⟩

/-- TRF_POLICE_RATEp (R562). -/
def regTrfPoliceRatep : RegRow := ⟨10, 3328, 4, 64, 4, [⟨0, 31, .rwl, 0, .any⟩]⟩

/-- TRF_POLICE_BURSTp (R562). -/
def regTrfPoliceBurstp : RegRow := ⟨10, 3584, 4, 64, 4, [⟨0, 31, .rwl, 0, .any⟩]⟩

/-- FLT_CTRL (R562). -/
def regFltCtrl : RegRow := ⟨11, 0, 0, 1, 4, [⟨0, 3, .rwl, 4, .range 0 4⟩, ⟨3, 1, .rwl, 1, .any⟩, ⟨4, 1, .rwl, 1, .any⟩]⟩

/-- FLT_STATUS (R562). -/
def regFltStatus : RegRow := ⟨11, 8, 0, 1, 8, [⟨0, 16, .ro, 0, .any⟩, ⟨16, 16, .ro, 0, .any⟩, ⟨32, 3, .ro, 0, .any⟩, ⟨35, 1, .ro, 0, .any⟩, ⟨36, 1, .ro, 0, .any⟩]⟩

/-- FLT_SCRUB_HOURS (R562). -/
def regFltScrubHours : RegRow := ⟨11, 16, 0, 1, 4, [⟨0, 8, .rwl, 24, .range 1 168⟩]⟩

/-- FLT_ROW_LIMIT (R562). -/
def regFltRowLimit : RegRow := ⟨11, 20, 0, 1, 4, [⟨0, 8, .rwl, 16, .any⟩]⟩

/-- FLT_CE_THRESHOLD (R562). -/
def regFltCeThreshold : RegRow := ⟨11, 24, 0, 1, 4, [⟨0, 16, .rwl, 1000, .any⟩]⟩

/-- FLT_LOG_HEAD (R562). -/
def regFltLogHead : RegRow := ⟨11, 32, 0, 1, 8, [⟨0, 64, .ro, 0, .any⟩]⟩

/-- FLT_INJECT_ADDR (R562). -/
def regFltInjectAddr : RegRow := ⟨11, 40, 0, 1, 8, [⟨0, 64, .rwl, 0, .align 64⟩]⟩

/-- FLT_INJECT_MASK (R562). -/
def regFltInjectMask : RegRow := ⟨11, 48, 0, 1, 16, [⟨0, 72, .rwl, 0, .any⟩]⟩

/-- SEC_CTRL (R562). -/
def regSecCtrl : RegRow := ⟨12, 0, 0, 1, 4, [⟨0, 1, .rwl, 1, .any⟩, ⟨1, 4, .rwl, 15, .any⟩]⟩

/-- SEC_STATUS (R562). -/
def regSecStatus : RegRow := ⟨12, 8, 0, 1, 4, [⟨0, 1, .ro, 0, .any⟩, ⟨1, 5, .ro, 0, .any⟩, ⟨8, 6, .ro, 0, .any⟩, ⟨14, 1, .ro, 0, .any⟩, ⟨15, 1, .ro, 0, .any⟩, ⟨16, 8, .ro, 0, .any⟩]⟩

/-- SEC_IRQ_CEIL (R562). -/
def regSecIrqCeil : RegRow := ⟨12, 16, 0, 1, 4, [⟨0, 9, .rwl, 16, .range 1 256⟩]⟩

/-- SEC_WDT_MS (R562). -/
def regSecWdtMs : RegRow := ⟨12, 20, 0, 1, 4, [⟨0, 8, .rwl, 50, .range 10 200⟩]⟩

/-- SEC_RCV_ADDR (R562). -/
def regSecRcvAddr : RegRow := ⟨12, 24, 0, 1, 8, [⟨0, 64, .rw, 0, .any⟩]⟩

/-- SEC_RCV_LEN (R562). -/
def regSecRcvLen : RegRow := ⟨12, 32, 0, 1, 4, [⟨0, 32, .rw, 0, .any⟩]⟩

/-- SEC_RCV_CMD (R562). -/
def regSecRcvCmd : RegRow := ⟨12, 36, 0, 1, 4, [⟨0, 1, .wo, 0, .any⟩]⟩

/-- SEC_RCV_STATUS (R562). -/
def regSecRcvStatus : RegRow := ⟨12, 40, 0, 1, 4, [⟨0, 2, .ro, 0, .any⟩, ⟨4, 3, .ro, 0, .any⟩]⟩

/-- PWR_CTRL (R562). -/
def regPwrCtrl : RegRow := ⟨13, 0, 0, 1, 4, [⟨0, 1, .rwl, 1, .any⟩, ⟨1, 1, .rwl, 1, .any⟩, ⟨2, 1, .rwl, 1, .any⟩]⟩

/-- PWR_STATUS (R562). -/
def regPwrStatus : RegRow := ⟨13, 8, 0, 1, 4, [⟨0, 3, .ro, 0, .any⟩, ⟨3, 1, .ro, 0, .any⟩, ⟨4, 10, .ro, 0, .any⟩, ⟨14, 10, .ro, 0, .any⟩, ⟨24, 2, .ro, 0, .any⟩]⟩

/-- PWR_LIMIT (R562). -/
def regPwrLimit : RegRow := ⟨13, 16, 0, 1, 4, [⟨0, 10, .rwl, 0, .zeroOr 440 620⟩]⟩

/-- PWR_PSTATE_MAX (R562). -/
def regPwrPstateMax : RegRow := ⟨13, 20, 0, 1, 4, [⟨0, 3, .rwl, 0, .range 0 4⟩]⟩

/-- PWR_GATE_TICKS (R562). -/
def regPwrGateTicks : RegRow := ⟨13, 24, 0, 1, 4, [⟨0, 16, .rwl, 1000, .any⟩]⟩

/-- PWR_WARN_C (R562). -/
def regPwrWarnC : RegRow := ⟨13, 28, 0, 1, 4, [⟨0, 8, .rwl, 95, .any⟩, ⟨8, 8, .rwl, 90, .any⟩]⟩

/-- PWR_THROTTLE_C (R562). -/
def regPwrThrottleC : RegRow := ⟨13, 32, 0, 1, 4, [⟨0, 8, .rwl, 105, .range 80 110⟩]⟩

/-- PWR_STACK_THROTTLE_C (R562). -/
def regPwrStackThrottleC : RegRow := ⟨13, 36, 0, 1, 4, [⟨0, 8, .rwl, 95, .range 80 100⟩]⟩

/-- PWR_WAKE (R562). -/
def regPwrWake : RegRow := ⟨13, 40, 0, 1, 4, [⟨0, 1, .w1s, 0, .any⟩]⟩

/-- PWR_TEMPn (R562). -/
def regPwrTempn : RegRow := ⟨13, 256, 4, 44, 4, [⟨0, 16, .ro, 0, .any⟩]⟩

/-- PWR_TELEMn (R562). -/
def regPwrTelemn : RegRow := ⟨13, 512, 8, 16, 8, [⟨0, 16, .ro, 0, .any⟩, ⟨16, 16, .ro, 0, .any⟩, ⟨32, 16, .ro, 0, .any⟩]⟩

/-- RDB_CTRL (R562). -/
def regRdbCtrl : RegRow := ⟨14, 0, 0, 1, 4, [⟨0, 1, .rwl, 1, .any⟩, ⟨1, 1, .rwl, 1, .any⟩]⟩

/-- RDB_STATUS (R562). -/
def regRdbStatus : RegRow := ⟨14, 8, 0, 1, 8, [⟨0, 1, .w1c, 0, .any⟩, ⟨1, 1, .ro, 0, .any⟩, ⟨32, 32, .ro, 0, .any⟩]⟩

/-- RDB_REJECT_OFFSET (R562). -/
def regRdbRejectOffset : RegRow := ⟨14, 16, 0, 1, 4, [⟨0, 24, .ro, 0, .any⟩]⟩

/-- The registers, part 1. -/
def regRows1 : List RegRow :=
  [regPatSqnBase, regPatSqnCtrl, regPatCqnBase, regPatCqnCtrl, regPatEqBase, regPatEqCtrl, regPatLock, regPatStatus, regPatFault, regPatKeepReset, regPatWinSel, regPatWinIndex, regCapVersion, regCapGeometry, regCapMemory, regCapLimits0, regCapLimits1, regCapLimits2, regCapFlash, regCapBootStatus, regCapBootMsn, regCapResetCause, regCapStraps, regCapPoolStatus, regTikCtrl, regTikStatus, regTikLength, regTikPlanLen, regTikAdmitBudget, regTikDefaultSlack]

/-- The registers, part 2. -/
def regRows2 : List RegRow :=
  [regTikPtmInterval, regTikMasterPos, regTikTodNext, regTikTime, regTikCount, regTikOffset, regHpiCtrl, regHpiStatus, regHpiFwWinn, regHpiAptSlots, regAtnCtrl, regAtnStatus, regAtnGuardTolp, regCatCtrl, regCatStatus, regCatPrivp, regCatSharekCtrl, regCatSharekMembers, regTirCtrl, regTirStatus, regTirFloorp, regTirCeilp, regTirPinLimitp, regTirFreeTarget, regTirDemoteAge, regTirShelfnBase, regTirShelfnCtrl, regTirRemoter, regRgnCtrl, regRgnStatus]

/-- The registers, part 3. -/
def regRows3 : List RegRow :=
  [regRgnSpare, regRgnRatep, regStkCtrl, regStkStatus, regStkVoln, regStkFineLimit, regStkScrubDays, regStkGcStart, regStkColdAge, regStkSpanReserve, regStkCkptInterval, regStkCkptBytes, regStkLifeDays, regStkRatedCycles, regStkUncLimit, regStkTempWarn, regStkTempPause, regStkReadLimit, regStkGovBalancen, regChgCtrl, regChgStatus, regChgPortEn, regChgCombineWindow, regChgDeadTime, regChgRetryTimeout, regChgMsgRetry, regChgDeadMask, regChgEpoch, regChgWingOffsetw, regChgDirStatus]

/-- The registers, part 4. -/
def regRows4 : List RegRow :=
  [regChgPortkStatus, regTrfCtrl, regTrfStatus, regTrfGatePeriod, regTrfGatePhase, regTrfGateCount, regTrfGaten, regTrfQuantump, regTrfPratei, regTrfPbursti, regTrfDratec, regTrfDburstc, regTrfPoliceRatep, regTrfPoliceBurstp, regFltCtrl, regFltStatus, regFltScrubHours, regFltRowLimit, regFltCeThreshold, regFltLogHead, regFltInjectAddr, regFltInjectMask, regSecCtrl, regSecStatus, regSecIrqCeil, regSecWdtMs, regSecRcvAddr, regSecRcvLen, regSecRcvCmd, regSecRcvStatus]

/-- The registers, part 5. -/
def regRows5 : List RegRow :=
  [regPwrCtrl, regPwrStatus, regPwrLimit, regPwrPstateMax, regPwrGateTicks, regPwrWarnC, regPwrThrottleC, regPwrStackThrottleC, regPwrWake, regPwrTempn, regPwrTelemn, regRdbCtrl, regRdbStatus, regRdbRejectOffset]

/-- Every register. -/
def regRows : List RegRow := regRows1 ++ regRows2 ++ regRows3 ++ regRows4 ++ regRows5

/-- Absolute BAR0 offset of an instance (R74): instance `i`, and for the patron page patron `p`. -/
def RegRow.addr (r : RegRow) (i : Nat := 0) (p : Nat := 0) : Nat :=
  (if r.block = 15 then 0x100000 + 0x1000 * p else 0x10000 * r.block) + r.off + r.stride * i

/-- The cold word of a register. -/
def RegRow.coldWord (r : RegRow) : Nat := r.fields.foldl (fun w f => w + f.cold % 2 ^ f.width * 2 ^ f.lo) 0

/-- The register, instance and patron whose bytes hold an absolute offset. -/
def regAt (a : Nat) : Option (RegRow × Nat × Nat) :=
  let p := if 0x100000 ≤ a ∧ a < 0x140000 then (a - 0x100000) / 0x1000 else 0
  regRows.findSome? fun r =>
    let b := r.addr 0 p
    if a < b then none else
    let i := if r.stride = 0 then 0 else (a - b) / r.stride
    if decide (i < r.count) && decide (a < r.addr i p + r.bytes) && (r.block == 15) == decide (0x100000 ≤ a)
    then some (r, i, p) else none

/-- The stored word of a register instance: its cold word until written. -/
def Dev.regWord (d : Dev) (r : RegRow) (i : Nat := 0) (p : Nat := 0) : Nat := tgetD d.regs (r.addr i p) r.coldWord

/-- A field of a register, by its place in the row. -/
def Dev.reg (d : Dev) (r : RegRow) (i : Nat := 0) (p : Nat := 0) (f : Nat := 0) : Nat :=
  match r.fields[f]? with
  | some g => bits (d.regWord r i p) g.lo g.width
  | none => 0

/-- Put a value into a field of a word. -/
def putBits (w lo width v : Nat) : Nat := w - bits w lo width * 2 ^ lo + v % 2 ^ width * 2 ^ lo

/-- Set a register word, keeping the table canonical: a word equal to the cold word is not listed. -/
def Dev.setRegWord (d : Dev) (a cold w : Nat) : Dev :=
  { d with regs := if w = cold then tdel d.regs a else tset d.regs a w }

/-- Set a field of a register. -/
def Dev.setReg (d : Dev) (r : RegRow) (i p f v : Nat) : Dev :=
  match r.fields[f]? with
  | some g => d.setRegWord (r.addr i p) r.coldWord (putBits (d.regWord r i p) g.lo g.width v)
  | none => d

/-- The word a write of value `v` to bytes `lo .. lo + n - 1` of a register leaves, with RWL fields writable or not
(R9, R10): reserved and read-only bits keep their value; W1S and W1C bits store their effect. -/
def RegRow.written (r : RegRow) (old v lo n : Nat) (rwl : Bool) : Nat :=
  let merged := putBits old (8 * lo) (8 * n) v
  r.fields.foldl (fun w f =>
    let x := bits merged f.lo f.width
    -- a field takes part when the written bytes reach it
    if f.lo + f.width ≤ 8 * lo ∨ 8 * (lo + n) ≤ f.lo then w else
    match f.acc with
    | .rw => putBits w f.lo f.width x
    | .rwl => if rwl then putBits w f.lo f.width x else w
    | .ro | .wo | .w1c | .w1s => w) old

/-- Every field that the write reaches and may change holds a value of its range (R555). -/
def RegRow.inRange (r : RegRow) (w lo n : Nat) (rwl : Bool) : Bool :=
  r.fields.all fun f =>
    decide (f.lo + f.width ≤ 8 * lo) || decide (8 * (lo + n) ≤ f.lo) || !(f.acc == .rw || (f.acc == .rwl && rwl))
      || f.rng.ok (bits w f.lo f.width)

end Sys2Proof.Machine
end

