-- ==== Sys2Proof/Machine/Ops.lean ====
section
/-! DEFINITION. The named operations of every family: pool memory, the output log, free draws, patrons, events and the event log, completions. -/

namespace Sys2Proof.Machine

/-! ### Pool memory: bytes by pool offset, addresses rising, no zero listed (R387) -/

/-- The byte at an offset; an unlisted one reads zero (R387). -/
def memGet : List Host.Cell → Nat → Byte
  | [], _ => 0
  | (a, b) :: m, i => if a = i then b else memGet m i

/-- Write one byte, keeping the canonical form: a zero is not listed. -/
def memSet : List Host.Cell → Nat → Byte → List Host.Cell
  | [], i, x => if x = 0 then [] else [(i, x)]
  | (a, b) :: m, i, x =>
    if a = i then (if x = 0 then m else (i, x) :: m)
    else if i < a then (if x = 0 then (a, b) :: m else (i, x) :: (a, b) :: m)
    else (a, b) :: memSet m i x

/-- The `n` bytes from an offset. -/
def memRead (m : List Host.Cell) : Nat → Nat → List Byte
  | _, 0 => []
  | a, n + 1 => memGet m a :: memRead m (a + 1) n

/-- Write bytes from an offset on. -/
def memWrite : List Host.Cell → Nat → List Byte → List Host.Cell
  | m, _, [] => m
  | m, a, b :: bs => memWrite (memSet m a b) (a + 1) bs

/-- Write the bytes of a line that a 64-bit mask selects (R351). -/
def memWriteMask : List Host.Cell → Nat → Nat → List Byte → List Host.Cell
  | m, _, _, [] => m
  | m, a, k, b :: bs => memWriteMask (if k % 2 = 1 then memSet m a b else m) (a + 1) (k / 2) bs

/-- Drop every byte of a range. -/
def memDrop (m : List Host.Cell) (lo hi : Nat) : List Host.Cell := m.filter fun c => !(decide (lo ≤ c.1) && decide (c.1 < hi))

/-- The canonical form: offsets strictly rising, no byte equal to what an unlisted offset reads as. -/
def Memory.wf : List Host.Cell → Bool
  | [] => true
  | [(_, b)] => b != 0
  | (a, b) :: (a', b') :: m => b != 0 && decide (a < a') && Memory.wf ((a', b') :: m)

/-! ### Outputs and free draws -/

/-- A fresh draw number (assumption 3). -/
def Dev.draw (d : Dev) : Nat × Dev := (d.free, { d with free := d.free + 1 })

/-- A fresh free number of `w` bits. -/
def Dev.drawBits (d : Dev) (w : Nat) : Nat × Dev := (Config.freeBits w d.free, { d with free := d.free + 1 })

/-- `n` fresh free bytes. -/
def Dev.drawBytes (d : Dev) (n : Nat) : List Byte × Dev :=
  ((List.range n).map (Config.freeByte d.free), { d with free := d.free + 1 })

/-! ### Patrons -/

/-- A patron; one the block has not brought up is DISABLED (R106). -/
def Dev.pat (d : Dev) (p : Nat) : PatronSt := tgetD d.host.patrons p {}

/-- Change a patron. -/
def Dev.modPat (d : Dev) (p : Nat) (f : PatronSt → PatronSt) : Dev :=
  { d with host := { d.host with patrons := tset d.host.patrons p (f (d.pat p)) } }

/-- The patron exists: patron 0, or a virtual function in force (R72). -/
def Dev.exists_ (d : Dev) (p : Nat) : Bool := decide (p < 64) && (p == 0 || decide (p ≤ d.host.numVf))

/-- The patron is ACTIVE. -/
def Dev.active (d : Dev) (p : Nat) : Bool := (d.pat p).st == .active

/-- Its rings are active: from PAT_LOCK to the next reset (R80, R104), and until a device fault (R464). -/
def Dev.ringsOn (d : Dev) (p : Nat) : Bool := !d.flt.deviceFault && (d.pat p).lock && ((d.pat p).st == .active || (d.pat p).st == .faulted)

/-- The output goes into the memory of a patron that is not ACTIVE or FAULTED: no transaction is made (R104). -/
def Dev.barred (d : Dev) : Out → Bool
  | .hostWrite p _ _ _ _ => !((d.pat p).st == .active || (d.pat p).st == .faulted)
  | _ => false

/-- Append to the output log. -/
def Dev.emit (d : Dev) (o : Out) : Dev := if d.barred o then d else { d with out := d.out ++ [o] }

/-- A ring of the patron, its registers as they stand. -/
def PatronSt.sqAt (p : PatronSt) (r : Nat) : SqSt := tgetD p.sq r {}
/-- A completion ring. -/
def PatronSt.cqAt (p : PatronSt) (r : Nat) : CqSt := tgetD p.cq r {}

/-- Change a submission ring. -/
def Dev.modSq (d : Dev) (p r : Nat) (f : SqSt → SqSt) : Dev :=
  d.modPat p fun x => { x with sq := tset x.sq r (f (x.sqAt r)) }
/-- Change a completion ring. -/
def Dev.modCq (d : Dev) (p r : Nat) (f : CqSt → CqSt) : Dev :=
  d.modPat p fun x => { x with cq := tset x.cq r (f (x.cqAt r)) }
/-- Change the event ring. -/
def Dev.modEq (d : Dev) (p : Nat) (f : EqSt → EqSt) : Dev := d.modPat p fun x => { x with eq := f x.eq }

/-- Depth in entries of a depth code (R80): absent rings have none. -/
def depthOf (code : Nat) : Nat := if code = 0 then 0 else 2 ^ code

/-- Depth of a submission ring. -/
def Dev.sqDepth (d : Dev) (p r : Nat) : Nat := depthOf (d.reg regPatSqnCtrl r p 0)
/-- Depth of a completion ring. -/
def Dev.cqDepth (d : Dev) (p r : Nat) : Nat := depthOf (d.reg regPatCqnCtrl r p 0)
/-- Depth of the event ring. -/
def Dev.eqDepth (d : Dev) (p : Nat) : Nat := depthOf (d.reg regPatEqCtrl 0 p 0)
/-- The completion ring bound to a submission ring. -/
def Dev.boundCq (d : Dev) (p r : Nat) : Nat := d.reg regPatSqnCtrl r p 1

/-! ### Events and the event log -/

/-- Originating block of an event code, in the order of R74. -/
def eventBlock (code : Nat) : Nat :=
  if code < 0x10 then 2 else if code < 0x20 then 1 else if code < 0x100 then 0
  else match code / 0x100 with
    | 1 => 6
    | 2 => 7
    | 3 => 8
    | 4 => 9
    | 5 => 11
    | 6 => 12
    | _ => 13

/-- What a log entry says beyond the event (R466). -/
structure LogInfo where
  cls : Nat := 0
  cluster : Nat := 0
  channel : Nat := 0
  patron : Nat := 0
  addr : Nat := 0
  syndrome : Nat := 0
  /-- The originating block, where it is not the one of the event code. -/
  block : Option Nat := none
  deriving DecidableEq, Repr

/-- Entries of the event log (R466). -/
def logSlots : Nat := 262144

/-- Bytes of a log entry (R466). -/
def logBytes (seq now tick code d0 d1 : Nat) (i : LogInfo) : List Byte :=
  leBytes 8 seq ++ leBytes 8 now ++ leBytes 8 tick ++ leBytes 2 code ++ leBytes 1 i.cls ++ leBytes 1 (i.block.getD (eventBlock code))
    ++ leBytes 2 (i.cluster % 16 + 16 * (i.channel % 256)) ++ leBytes 1 (i.patron % 64) ++ leBytes 1 0
    ++ leBytes 8 i.addr ++ leBytes 8 d0 ++ leBytes 8 d1 ++ leBytes 8 i.syndrome

/-- A line of the device's own tables is written anew: its poison is cleared (R448). -/
def Dev.cleanReserve (d : Dev) (w : LineOf) : Dev :=
  if d.flt.reserve.isEmpty then d else
  let offs := (d.flt.reserve.filter fun e => e.2 == w).map (·.1)
  { d with flt := { d.flt with reserve := tkeep d.flt.reserve (fun _ x => x != w)
                               tables := tkeep d.flt.tables fun _ x => !offs.contains x } }

/-- The cluster that a log slot's line lies in: the area is interleaved in 64 KiB units (R16). -/
def logCluster (slot : Nat) : Nat := slot / 1024 % 16

/-- Write a log entry; the oldest is overwritten when the ring is full (R466). An entry of a fenced cluster is held, up to 1,024
of them (R463). -/
def Dev.logEvent (d : Dev) (code d0 d1 : Nat) (i : LogInfo := {}) : Dev :=
  let s := d.flt.logSeq
  let e := logBytes s d.tim.now d.tim.count code d0 d1 i
  if d.flt.out.contains (logCluster (s % logSlots)) then
    let d := { d with flt := { d.flt with logSeq := s + 1 } }
    if d.flt.logHeld.length < 1024 then { d with flt := { d.flt with logHeld := tset d.flt.logHeld (s % logSlots) e } }
    else d.count .logLost 0
  else
    let d := { d with flt := { d.flt with log := tset d.flt.log (s % logSlots) e, logSeq := s + 1 } }
    let d := d.cleanReserve (.log (s % logSlots))
    if logSlots ≤ s ∧ d.flt.logRead ≤ s - logSlots then d.count .logLost 0 else d

/-- An event entry (R99). -/
def eventBytes (code src seq time d0 d1 : Nat) (phase : Bool) : List Byte :=
  leBytes 2 code ++ leBytes 2 src ++ leBytes 4 seq ++ leBytes 8 time ++ leBytes 8 d0 ++ leBytes 7 d1
    ++ [BitVec.ofNat 8 (128 * flag phase)]

/-- PHASE of the entry with running number `w` in a ring of depth `depth`: 1 on odd passes, the first among them (R92). -/
def phaseOf (w depth : Nat) : Bool := decide (depth ≠ 0) && w / depth % 2 == 0

/-- A grant of a rotating-priority arbiter: its pointer moves to one past the granted index (R64). -/
def Dev.arbGrant (d : Dev) (a index requesters : Nat) : Dev :=
  { d with tim := { d.tim with arbs := tset d.tim.arbs a ((index + 1) % requesters) } }

/-- Put one entry into an event ring that has room. -/
def Dev.putEvent (d : Dev) (p code src d0 d1 : Nat) : Dev :=
  let d := d.arbGrant 1 (1024 + p) 1088
  let e := (d.pat p).eq
  let dep := d.eqDepth p
  let d := d.emit (.event p (e.written % dep) (eventBytes code src e.written d.tim.now d0 d1 (phaseOf e.written dep)))
  d.modEq p fun e => { e with written := e.written + 1, irqDue := true, lastTick := d.tim.count }

/-- Room in an event ring: one entry is kept free (R100). -/
def Dev.eqRoom (d : Dev) (p : Nat) : Nat :=
  let e := (d.pat p).eq
  d.eqDepth p - 1 - (e.written - e.consumed)

/-- Write an event to a patron's ring, EVENTS_LOST first when entries were discarded before (R100); nothing when the ring
is not active. -/
def Dev.ringEvent (d : Dev) (p code src d0 d1 : Nat) : Dev :=
  if !d.ringsOn p then d else
  let lost := (d.pat p).eq.lost
  if d.eqRoom p = 0 ∨ (lost ≠ 0 ∧ d.eqRoom p = 1) then
    let d := if lost ≠ 0 ∧ d.eqRoom p = 1 then
        (d.putEvent p 0x0001 p lost 0).modEq p fun e => { e with lost := 0 } else d
    (d.modEq p fun e => { e with lost := e.lost + 1 }).count .evDiscard p
  else
    let d := if lost ≠ 0 then (d.putEvent p 0x0001 p lost 0).modEq p fun e => { e with lost := 0 } else d
    d.putEvent p code src d0 d1

/-- A device event: patron 0's ring, and the log (R99, R466). -/
def Dev.devEvent (d : Dev) (code d0 d1 : Nat) (i : LogInfo := {}) : Dev :=
  (d.logEvent code d0 d1 i).ringEvent 0 code (eventBlock code) d0 d1

/-- A log entry of a corrected fault of a block: at most one per block and tick; the spec gives it no event code, so CODE is
free (R470). -/
def Dev.logCorrected (d : Dev) (block : Nat) (i : LogInfo) : Dev :=
  if tget d.flt.ceTick block = some d.tim.count then d else
  let (code, d) := d.drawBits 16
  ({ d with flt := { d.flt with ceTick := tset d.flt.ceTick block d.tim.count } }).logEvent code 0 0 { i with block := some block }

/-- A patron event: that patron's ring, and the log. -/
def Dev.patEvent (d : Dev) (p code d0 d1 : Nat) (i : LogInfo := {}) : Dev :=
  (d.logEvent code d0 d1 { i with patron := p }).ringEvent p code p d0 d1

/-- An event about patron `p` written to patron 0's ring (R105, R106). -/
def Dev.patEvent0 (d : Dev) (p code d0 d1 : Nat) : Dev :=
  (d.logEvent code d0 d1 { patron := p }).ringEvent 0 code p d0 d1

/-- An event that goes to patron 0's ring and to a patron's (R99, R467). -/
def Dev.bothEvent (d : Dev) (p code src d0 d1 : Nat) (i : LogInfo := {}) : Dev :=
  let d := (d.logEvent code d0 d1 { i with patron := p }).ringEvent p code src d0 d1
  if p = 0 then d else d.ringEvent 0 code src d0 d1

/-! ### Completions -/

/-- Status codes (R96). -/
def stOk : Nat := 0x00
def stLate : Nat := 0x01
def stStall : Nat := 0x02
def stNoFolio : Nat := 0x03
def stRecompute : Nat := 0x04
def stNotFound : Nat := 0x05
def stPresent : Nat := 0x06
def stConflict : Nat := 0x07
def stRevoked : Nat := 0x08
def stPoison : Nat := 0x09
def stDead : Nat := 0x0A
def stTorn : Nat := 0x0B
def stMedia : Nat := 0x0C
def stPoliced : Nat := 0x0D
def stQuota : Nat := 0x0E
def stTight : Nat := 0x0F
def stRefusedFit : Nat := 0x10
def stBadQuery : Nat := 0x11
def stBadDesc : Nat := 0x12
def stPatFault : Nat := 0x13

/-- No field applies (R96). -/
def noField : Nat := 0xFFFF_FFFF_FFFF_FFFF

/-- A BAD_DESCRIPTOR answer: cause and descriptor offset. -/
def Ans.bad (cause off : Nat) : Ans := { status := stBadDesc, cause := cause, r0 := off }

/-- The completion of a request with an answer, due in the close phase of the tick in progress. -/
def Req.due (q : Req) (a : Ans) (tick : Nat) : Due :=
  { patron := q.d.patron, sq := q.d.ring, tag := q.d.tag, op := q.op, status := a.status, cause := a.cause,
    flags := a.flags, r0 := a.r0, r1 := a.r1, cls := q.d.tclass, irq := q.d.irq, ring := q.ring, fetchTick := q.fetchTick,
    fetchSeq := q.fetchSeq, first := q.first, tick := tick
    stage := if q.stage = 1 then 1 else 5, admTick := q.admTick, dl := q.dl }

/-- Counters that follow a completion's status alone (R67, R107, R442, R471). -/
def Dev.countStatus (d : Dev) (p status : Nat) : Dev :=
  if status = stLate then d.count .late p
  else if status = stStall then d.count .stallTimeout p
  else if status = stBadDesc then d.count .badDesc p
  else if status = stPatFault then d.count .patronFault p
  else if status = stPoison then d.count .poisonComp p
  else if status = stPoliced then d.count .policed p
  else d

/-- Counters that follow an operation's completion and its status (R189, R219, R285, R415, R563; assumption 13). -/
def Dev.countOp (d : Dev) (p op status : Nat) : Dev :=
  let d := d.countStatus p status
  let d := if status = stBadQuery then d.count .badQuery p else d
  if op = 0x01 then
    let d := d.count .attends p
    if status = stRecompute then d.count .needsRecomp p else if status = stPoison then d.count .poisonAttend p else d
  else if op = 0x02 then d.count .merges p
  else if op = 0x10 then d.count .probes p
  else if op = 0x22 then d.count .delivers p
  else if op = 0x40 then d.count .readbacks p
  else if op = 0x41 then d.count .audits 0
  else d

/-- A completion, with the reads that go before it: one to each peer that an output of the request went to (R98). -/
def Dev.dueOf (d : Dev) (q : Req) (a : Ans) (tick : Nat) : Due :=
  { q.due a tick with peers := ((d.adm.peerOuts.filter fun e => e.1 == (q.d.patron, q.d.tag)).map (·.2)).eraseDups }

/-- The outputs of a request are accounted for. -/
def Dev.peersDone (d : Dev) (q : Req) : Dev :=
  { d with adm := { d.adm with peerOuts := d.adm.peerOuts.filter fun e => e.1 != (q.d.patron, q.d.tag) } }

/-- Queue a completion for the next close phase it may be written in. -/
def Dev.complete (d : Dev) (q : Req) (a : Ans) : Dev :=
  let d := d.countOp q.d.patron q.op a.status
  Dev.peersDone { d with adm := { d.adm with due := d.adm.due ++ [d.dueOf q a d.tim.count] } } q

/-- Queue a completion that is written in the next tick's close phase (R60, R63). -/
def Dev.completeNext (d : Dev) (q : Req) (a : Ans) : Dev :=
  let d := d.countOp q.d.patron q.op a.status
  Dev.peersDone { d with adm := { d.adm with due := d.adm.due ++ [d.dueOf q a (d.tim.count + 1)] } } q

/-- A firmware-executed operation's completion: it becomes due when firmware finishes (R150). -/
def Dev.completeFw (d : Dev) (q : Req) (a : Ans) : Dev :=
  let d := d.countOp q.d.patron q.op a.status
  Dev.peersDone { d with adm := { d.adm with fw := d.adm.fw ++ [d.dueOf q a d.tim.count] } } q

/-! ### The device's place in the pool and its common set-up -/

/-- This device's number (R338). -/
def Dev.devNo (d : Dev) : Nat := 16 * d.boot.straps.wing + d.boot.straps.pos

/-- WING mode (R35). -/
def Dev.wingMode (d : Dev) : Bool := d.reg regTikCtrl 0 0 1 == 1

/-- A WING-mode follower (R42). -/
def Dev.follower (d : Dev) : Bool := d.wingMode && !d.tim.master

/-- Tick length in ns. -/
def TimeSt.tickNs (t : TimeSt) : Nat := t.len * 1000

/-- Some patron is ACTIVE. -/
def Dev.anyActive (d : Dev) : Bool := d.host.patrons.any fun e => e.2.st == .active

/-- Lift a change of the device to the state. -/
def State.onDev (s : State) (f : Dev → Dev) : State := { s with dev := f s.dev }

end Sys2Proof.Machine
end

