-- ==== Sys2Proof/Machine/Traffic.lean ====
section
/-! DEFINITION. Traffic controls: classes, gates, buckets, the policer and starting a unit of a class (R420 to R438, R582). -/

namespace Sys2Proof.Machine

/-- Rank of a class where work of several classes waits for one resource: 0, 1, 6, 2, 7, 3, 4, 5 (R439). -/
def classRank (cls : Nat) : Nat := [0, 1, 3, 5, 6, 7, 2, 4].getD cls 8

/-- Put items in the order of a rank, those of one rank in the order they stand in; an item never passes one that holds it back. -/
def byRank {α : Type} (rank : α → Nat) (holds : α → α → Bool) (xs : List α) : List α :=
  xs.foldl (fun ys x =>
    let n := (ys.reverse.takeWhile fun y => decide (rank x < rank y) && !holds y x).length
    ys.take (ys.length - n) ++ [x] ++ ys.drop (ys.length - n)) []

/-! ### Gates (R427–R430) -/

/-- The class of a gate or bucket is held only while gating is enabled (R582). -/
def Dev.gateEn (d : Dev) : Bool := d.reg regTrfCtrl 0 0 0 == 1
/-- SHAPE_EN. -/
def Dev.shapeEn (d : Dev) : Bool := d.reg regTrfCtrl 0 0 1 == 1
/-- POLICE_EN. -/
def Dev.policeEn (d : Dev) : Bool := d.reg regTrfCtrl 0 0 2 == 1

/-- The gate of a class is open: class 6 always, every class with no list (R421, R427, R428, R582). -/
def Dev.gateOpen (d : Dev) (cls : Nat) : Bool :=
  !d.gateEn || cls == 6 || d.adm.gates.period == 0 || bit ((d.adm.gates.entries.getD d.adm.gateEntry (0, 0)).2) cls

/-- The entry in force after a time, in ns, since the cycle's start: the last one stays (R428). -/
def entryAfter : List (Nat × Nat) → Nat → Nat → Nat
  | [], i, _ => i
  | [_], i, _ => i
  | (du, _) :: e :: t, i, since => if since < 1000 * du then i else entryAfter (e :: t) (i + 1) (since - 1000 * du)

/-- The gate list that the registers hold. -/
def Dev.regGates (d : Dev) : GateList :=
  let n := d.reg regTrfGateCount
  { period := d.reg regTrfGatePeriod, phase := d.reg regTrfGatePhase
    entries := (List.range n).map fun i => (d.reg regTrfGaten i 0 0, d.reg regTrfGaten i 0 1) }

/-- The start of the cycle that a time falls in, under a list (R427). -/
def GateList.startAt (g : GateList) (t : Nat) : Nat :=
  let p := 1000 * g.period
  if p = 0 then 0 else t - (t + p - 1000 * g.phase % p) % p

/-- The first cycle start after a time (R431). -/
def GateList.nextStart (g : GateList) (t : Nat) : Nat := if g.period = 0 then t else g.startAt t + 1000 * g.period

/-- A list in force from a time on. -/
def Dev.useGates (d : Dev) (g : GateList) (t : Nat) : Dev :=
  { d with adm := { d.adm with gates := g, cycleStart := g.startAt t, gateEntry := entryAfter g.entries 0 (t - g.startAt t) } }

/-! ### Buckets (R432–R435), numbered as class 0x13 numbers them (R545) -/

/-- Place of a class among the patron's buckets. -/
def patronK (cls : Nat) : Nat := if cls = 6 then 3 else cls
/-- Place of a class among the device buckets. -/
def devK (cls : Nat) : Nat := if cls = 7 then 3 else cls - 3
/-- Number of a patron's class bucket. -/
def bktPat (p cls : Nat) : Nat := 4 * p + patronK cls
/-- Number of a device bucket. -/
def bktDev (cls : Nat) : Nat := 256 + devK cls
/-- Number of a patron's fabric shaper. -/
def bktFab (p : Nat) : Nat := 260 + p
/-- Number of a patron's policer. -/
def bktPol (p : Nat) : Nat := 324 + p

/-- Rate of a bucket, from the register that holds it. -/
def Dev.bktRate (d : Dev) (b : Nat) : Nat :=
  if b < 256 then d.reg regTrfPratei b else if b < 260 then d.reg regTrfDratec (b - 256)
  else if b < 324 then d.reg regRgnRatep (b - 260) else d.reg regTrfPoliceRatep (b - 324)

/-- Burst of a bucket; twice the rate for a fabric shaper (R433). -/
def Dev.bktBurst (d : Dev) (b : Nat) : Nat :=
  if b < 256 then d.reg regTrfPbursti b else if b < 260 then d.reg regTrfDburstc (b - 256)
  else if b < 324 then 2 * d.reg regRgnRatep (b - 260) else d.reg regTrfPoliceBurstp (b - 324)

/-- Balance of a bucket. -/
def Dev.bal (d : Dev) (b : Nat) : Int := tgetD d.adm.bal b 0

/-- Set a balance, held at −2^47 (R432). -/
def Dev.setBal (d : Dev) (b : Nat) (v : Int) : Dev :=
  { d with adm := { d.adm with bal := tset d.adm.bal b (max (-(2 ^ 47)) v) } }

/-- The bucket passes work: it is off, holds a positive balance, or shaping is disabled (R432, R582). -/
def Dev.bktPass (d : Dev) (b : Nat) : Bool := !d.shapeEn || d.bktRate b == 0 || decide (0 < d.bal b)

/-- Charge a bucket: an off one keeps its balance (R432). -/
def Dev.chargeBkt (d : Dev) (b n : Nat) : Dev := if d.bktRate b = 0 then d else d.setBal b (d.bal b - n)

/-- One refill (R432). -/
def Dev.refillBkt (d : Dev) (b : Nat) : Dev :=
  if d.bktRate b = 0 then d else d.setBal b (min (d.bktBurst b : Int) (d.bal b + d.bktRate b))

/-- Every bucket. -/
def allBkts : List Nat := List.range 388

/-- The refill of a tick (R433), and the ticks of device buckets in debt (R442). -/
def Dev.refillAll (d : Dev) : Dev :=
  let d := allBkts.foldl Dev.refillBkt d
  (List.range 4).foldl (fun d c =>
    if d.bal (256 + c) < 0 then d.count2 .debtTicks 0 c 1 else d) d

/-- A unit of class 3, 4, 5 or 7 may start (R420, R422, R429, R436). -/
def Dev.mayStart (d : Dev) (cls : Nat) : Bool := d.gateOpen cls && d.bktPass (bktDev cls)

/-- Start a unit of `bytes` of class 3, 4, 5 or 7: its bucket is charged in 64 KiB units (R433). -/
def Dev.startUnit (d : Dev) (cls bytes : Nat) : Dev :=
  (d.chargeBkt (bktDev cls) (ceilDiv bytes 65536)).count2 .unitsStarted 0 (devK cls) 1

/-- Ticks until a bucket's balance is positive (R435). -/
def ticksToPositive (bal : Int) (rate : Nat) : Nat :=
  if rate = 0 ∨ 0 < bal then 0 else ceilDiv (1 - bal).toNat rate

/-- The class bucket, policer and deficit of a patron after a reset (R441). -/
def Dev.resetTraffic (d : Dev) (p : Nat) : Dev :=
  let d := ([0, 1, 2, 6].map (bktPat p) ++ [bktPol p]).foldl (fun d b => d.setBal b (d.bktBurst b)) d
  { d with adm := { d.adm with deficit := tset d.adm.deficit p 0 } }

end Sys2Proof.Machine
end

