-- ==== Sys2Proof/Machine/Flags.lean ====
section
/-! DEFINITION. Flags: the completion's FLAGS bits, its load feedback, and the entry's bytes (R92 to R97). -/

namespace Sys2Proof.Machine

/-- MULTI. -/
def flMulti : Nat := 1
/-- GUARD_EXCEEDED. -/
def flGuard : Nat := 2
/-- SCREENED. -/
def flScreened : Nat := 4
/-- TWIN_USED. -/
def flTwin : Nat := 8
/-- LATE_EDGE. -/
def flLateEdge : Nat := 16

/-- 256 times the mean of some fractions over 16 ticks, rounded down once (R97): the 16 ticks always count as 16. -/
def meanUtil (fs : List (Nat × Nat)) : Nat :=
  let s := fs.foldl (fun s f => (s.1 * f.2 + f.1 * s.2, s.2 * f.2)) (0, 1)
  256 * s.1 / (16 * s.2)

/-- LOAD_INDEX (R97). -/
def loadIndex (us : List (Nat × Nat × Nat × Nat)) : Nat :=
  let us := us.take 16
  min 255 (max (meanUtil (us.map fun u => (u.1, u.2.1))) (max (meanUtil (us.map fun u => (u.2.2.1, 65536))) (meanUtil (us.map fun u => (u.2.2.2, 65536)))))

/-- BACKOFF for a class's bucket balance and rate (R97). -/
def backoffOf (load : Nat) (bal : Int) (rate : Nat) : Nat :=
  if load < 192 then 0 else min 255 (ticksToPositive bal rate + ceilDiv (load - 191) 16)

/-- BACKOFF of a completion of a patron and class, with the balances of the edge that opened the tick (R97). -/
def Dev.backoff (d : Dev) (p cls : Nat) : Nat :=
  let b := bktPat p cls
  backoffOf d.adm.load (tgetD d.adm.edgeBal b 0) (d.bktRate b)

/-- FLAGS are non-zero only with OK (R94). -/
def flagsOf (status flags : Nat) : Nat := if status = stOk then flags % 32 else 0

/-- A completion entry (R92). -/
def completionBytes (tag sqHead sq op status cause flags load backoff tick r0 r1 : Nat) (phase : Bool) : List Byte :=
  leBytes 2 tag ++ leBytes 2 sqHead ++ leBytes 1 (sq % 16) ++ leBytes 1 op ++ leBytes 1 status ++ leBytes 1 cause
    ++ leBytes 2 (flagsOf status flags) ++ leBytes 1 load ++ leBytes 1 backoff ++ leBytes 4 (tick % 2 ^ 32)
    ++ leBytes 8 r0 ++ leBytes 7 r1 ++ [BitVec.ofNat 8 (128 * flag phase)]

end Sys2Proof.Machine
end

