-- ==== Sys2Proof/Machine/Operands.lean ====
section
/-! DEFINITION. Operand forms of descriptors: body fields, buffer references, and the checks of R85 to R89 in their order. -/

namespace Sys2Proof

/-! ### Body fields -/

/-- A body field: `width` bits from bit `lo` of the byte at `off`. -/
def DescIn.fld (d : DescIn) (off lo width : Nat) : Nat :=
  bits (leNat ((d.body.drop off).take ((lo + width + 7) / 8))) lo width

/-- Descriptor offset of a body byte (R85). -/
def bodyOff (off : Nat) : Nat := 16 + off

/-! ### Buffer references (R88) -/

/-- A buffer reference. -/
structure Buf where
  addr : Nat
  len : Nat
  list : Bool
  rsv : Nat
  deriving DecidableEq, Repr

/-- The reference at a body offset. -/
def DescIn.buf (d : DescIn) (off : Nat) : Buf :=
  { addr := d.fld off 0 64, len := d.fld (off + 8) 0 32, list := d.fld (off + 12) 0 1 == 1, rsv := d.fld (off + 12) 1 31 }

/-- All zero: no buffer. -/
def Buf.absent (b : Buf) : Bool := b.addr == 0 && b.len == 0 && !b.list && b.rsv == 0

/-- Malformed in itself. -/
def Buf.malformed (b : Buf) : Bool :=
  b.addr % 64 != 0 || b.len == 0 || (b.list && decide (4096 < b.len)) || b.rsv != 0

/-- The buffers of an input list reference, one by one. -/
def DescIn.parts (d : DescIn) (off : Nat) : List (List Byte) := ((d.host.lists.find? fun e => e.1 == off).map (·.2)).getD []

/-- The translation agent refuses an output buffer (R581). -/
def DescIn.refuses (d : DescIn) (off : Nat) : Bool := d.host.outRefused.contains off

/-- A reference is malformed, or the list it names is (R88). -/
def DescIn.badRef (d : DescIn) (off : Nat) : Bool := (d.buf off).malformed || ((d.buf off).list && d.host.listBad.contains off)

/-- Total bytes of an input reference. -/
def DescIn.inLen (d : DescIn) (off : Nat) : Nat :=
  let b := d.buf off
  if b.list then ((d.parts off).map List.length).sum else b.len

/-- Total bytes of an output reference. -/
def DescIn.outLen (d : DescIn) (off : Nat) : Nat :=
  let b := d.buf off
  if b.list then (((d.host.outLens.find? fun e => e.1 == off).map (·.2)).getD []).sum else b.len

/-- The bytes of input number `k`, whose reference is at `off`: as many as the reference names. -/
def DescIn.input (d : DescIn) (k off : Nat) : List Byte :=
  let b := d.buf off
  if b.list then (d.parts off).flatten else
  let x := ((d.host.inputs.getD k none).getD []).take b.len
  x ++ List.replicate (b.len - x.length) 0

end Sys2Proof

namespace Sys2Proof.Machine

/-- The loan window that an address lies in, with the offset there (R271). -/
def Dev.windowOf (d : Dev) (addr : Nat) : List (Nat × Nat) :=
  ((List.range 32).filter fun w => d.reg regTirShelfnCtrl w 0 0 == 1 && decide (65536 * d.reg regTirShelfnBase w 0 0 ≤ addr)
    && decide (addr < 65536 * (d.reg regTirShelfnBase w 0 0 + d.reg regTirShelfnCtrl w 0 4))).map fun w =>
      (w, addr - 65536 * d.reg regTirShelfnBase w 0 0)

/-- Write bytes of an output buffer, and note the peers that the buffer lies in (R98). -/
def Dev.writeOut (d : Dev) (x : DescIn) (field off : Nat) (b : List Byte) : Dev :=
  let own := if (x.buf field).list then [] else d.windowOf (x.buf field).addr
  let ps := own ++ (((x.host.outPeers.find? fun e => e.1 == field).map (·.2)).getD [])
  let d := d.emit (.hostWrite x.patron x.tag (bodyOff field) off (.bytes b))
  if ps.isEmpty then d else { d with adm := { d.adm with peerOuts := d.adm.peerOuts ++ ps.map fun w => ((x.patron, x.tag), w) } }

/-! ### Checks -/

/-- One check of a body, in the order its chapter gives. -/
inductive Item where
  /-- A reserved field: zero (cause 0x02). -/
  | rsv (off lo width : Nat)
  /-- A field whose value lies in a range (cause 0x05). -/
  | val (off lo width : Nat) (ok : Nat → Bool)
  /-- A field whose value the patron may use (cause 0x06). -/
  | perm (off lo width : Nat) (ok : Nat → Bool)
  /-- An input buffer reference (cause 0x07) and a test of its length (cause 0x05). -/
  | inBuf (off : Nat) (ok : Nat → Bool)
  /-- An output buffer reference and a test of its length. -/
  | outBuf (off : Nat) (ok : Nat → Bool)
  /-- An output buffer reference that may be all zero. -/
  | optBuf (off : Nat)
  /-- Any other condition, with the cause and the body offset its failure gives. -/
  | need (ok : Bool) (cause off : Nat)

/-- The lowest bit that is set, of a number of `w` bits. -/
def firstSet (v w : Nat) : Nat := ((List.range w).find? fun i => bit v i).getD 0

/-- The cause and descriptor offset of a check that fails; of a reserved field, the byte that is not zero (R8). -/
def Item.fails (d : DescIn) : Item → Option (Nat × Nat)
  | .rsv off lo w => if d.fld off lo w = 0 then none else some (0x02, bodyOff (off + (lo + firstSet (d.fld off lo w) w) / 8))
  | .val off lo w ok => if ok (d.fld off lo w) then none else some (0x05, bodyOff off)
  | .perm off lo w ok => if ok (d.fld off lo w) then none else some (0x06, bodyOff off)
  | .inBuf off ok =>
    if d.badRef off then some (0x07, bodyOff off)
    else if ok (d.inLen off) then none else some (0x05, bodyOff off)
  | .outBuf off ok =>
    if d.badRef off then some (0x07, bodyOff off)
    else if ok (d.outLen off) then none else some (0x05, bodyOff off)
  | .optBuf off => if (d.buf off).absent || !d.badRef off then none else some (0x07, bodyOff off)
  | .need ok cause off => if ok then none else some (cause, bodyOff off)

/-- Reserved bytes of a body. -/
def rsvBytes (off n : Nat) : List Item := (List.range n).map fun i => .rsv (off + i) 0 8

/-- What an opcode takes: entry counts (fields hold the count less one), traffic classes, the patrons that may issue it,
its body checks, and the offsets of its input references in order. -/
structure Form where
  entries : Nat → Bool
  classes : List Nat
  admin : Bool := false
  object : Nat → Bool := fun _ => true
  items : DescIn → List Item := fun _ => []
  inputs : DescIn → List Nat := fun _ => []

/-- Classes of R579 where an operation's rule names none. -/
def anyClass : List Nat := [0, 1, 2, 6]

/-- The body check that fails first. -/
def Form.bodyFail (f : Form) (d : DescIn) : Option (Nat × Nat) := (f.items d).findSome? (Item.fails d)

/-- The input that cannot be read (R89), if any: offset of its reference. -/
def Form.unread (f : Form) (d : DescIn) : Option Nat :=
  ((List.range (f.inputs d).length).find? fun k => d.host.inputs.getD k (some []) == none).map
    fun k => bodyOff ((f.inputs d).getD k 0)

/-- The checks of R86 after the opcode's own, in order: entry count, reserved header bit, traffic class, permission of
the patron, object, body, and the payload reads of R89. -/
def Form.check (f : Form) (d : DescIn) : Option Ans :=
  if !f.entries d.entries then some (.bad 0x03 1)
  else if d.hrsv then some (.bad 0x02 1)
  else if !f.classes.contains d.tclass then some (.bad 0x04 1)
  else if f.admin && d.patron != 0 then some (.bad 0x06 0)
  else if !f.object d.object then some (.bad 0x05 4)
  else match f.bodyFail d with
    | some (c, o) => some (.bad c o)
    | none => (f.unread d).map (Ans.bad 0x08)

end Sys2Proof.Machine
end

