-- ==== Sys2Proof/Machine/Float.lean ====
section
/-! DEFINITION. Exact numbers and the floating formats of R114, R115, R117, R121 and R406: fractions, rounding, fp32, bf16, fp16, E4M3, E8M0 and E2M1. -/

namespace Sys2Proof.Machine

/-- An exact fraction with a positive denominator. -/
structure Fr where
  n : Int
  d : Nat := 1
  deriving DecidableEq, Repr

/-- 2 to an integer power. -/
def Fr.pow2 (e : Int) : Fr := if 0 ≤ e then ⟨2 ^ e.toNat, 1⟩ else ⟨1, 2 ^ (-e).toNat⟩
/-- Sum. -/
def Fr.add (a b : Fr) : Fr := ⟨a.n * b.d + b.n * a.d, a.d * b.d⟩
/-- Negation. -/
def Fr.neg (a : Fr) : Fr := ⟨-a.n, a.d⟩
/-- Difference. -/
def Fr.sub (a b : Fr) : Fr := a.add b.neg
/-- Product. -/
def Fr.mul (a b : Fr) : Fr := ⟨a.n * b.n, a.d * b.d⟩
/-- Quotient by a non-zero fraction. -/
def Fr.div (a b : Fr) : Fr :=
  if b.n < 0 then ⟨-(a.n * b.d), a.d * b.n.natAbs⟩ else ⟨a.n * b.d, a.d * b.n.natAbs⟩
/-- Magnitude. -/
def Fr.abs (a : Fr) : Fr := ⟨a.n.natAbs, a.d⟩
/-- Order. -/
def Fr.le (a b : Fr) : Bool := decide (a.n * b.d ≤ b.n * a.d)
/-- Strict order. -/
def Fr.lt (a b : Fr) : Bool := decide (a.n * b.d < b.n * a.d)
/-- Zero. -/
def Fr.isZero (a : Fr) : Bool := a.n == 0
/-- The larger. -/
def Fr.max (a b : Fr) : Fr := if a.le b then b else a
/-- The smaller. -/
def Fr.min (a b : Fr) : Fr := if a.le b then a else b
/-- Strip common factors of two, so that sums stay small. -/
def Fr.norm (a : Fr) : Fr :=
  let g := Nat.gcd a.n.natAbs a.d
  if g ≤ 1 then a else ⟨a.n / g, a.d / g⟩

/-- Rounding directions (R114). -/
inductive Rnd where
  | nearest
  | up
  | down
  deriving DecidableEq, Repr

/-- `n / d` rounded to an integer magnitude; `neg` says that the number rounded is negative. -/
def roundNat (m : Rnd) (neg : Bool) (n d : Nat) : Nat :=
  let q := n / d
  let r := n % d
  match m with
  | .nearest => if 2 * r < d then q else if d < 2 * r then q + 1 else if q % 2 = 0 then q else q + 1
  | .up => if r = 0 ∨ neg then q else q + 1
  | .down => if r = 0 ∨ !neg then q else q + 1

/-- ⌊log2 x⌋ of a positive fraction. -/
def Fr.log2 (x : Fr) : Int :=
  let a : Int := (Nat.log2 x.n.natAbs : Int) - (Nat.log2 x.d : Int)
  if (Fr.pow2 a).le x then a else a - 1

/-- Round to `p` significant bits with least unit `2 ^ lsb` (no upper limit). -/
def roundTo (m : Rnd) (p : Nat) (lsb : Int) (x : Fr) : Fr :=
  if x.isZero then ⟨0, 1⟩ else
  let neg := decide (x.n < 0)
  let e := x.abs.log2
  let q := if lsb ≤ e - ((p : Int) - 1) then e - ((p : Int) - 1) else lsb
  let y := x.abs.div (Fr.pow2 q)
  let k := roundNat m neg y.n.natAbs y.d
  let v := (Fr.mk k 1).mul (Fr.pow2 q)
  if neg then v.neg.norm else v.norm

/-- Round an integer-valued result: RNE_int of R119. -/
def rneInt (x : Fr) : Int :=
  let k := roundNat .nearest (decide (x.n < 0)) x.n.natAbs x.d
  if x.n < 0 then -(k : Int) else k

/-- The largest finite fp32. -/
def f32Max : Fr := (Fr.mk (2 ^ 24 - 1) 1).mul (Fr.pow2 104)

/-- Round to fp32; `none` when the result overflows. -/
def f32 (m : Rnd) (x : Fr) : Option Fr :=
  let v := roundTo m 24 (-149) x
  if v.abs.le f32Max then some v else none

/-- A value of fp32 or bf16 bits: finite, infinite (negative or not), NaN. -/
inductive FVal where
  | fin (neg : Bool) (v : Fr)
  | inf (neg : Bool)
  | nan
  deriving DecidableEq, Repr

/-- Decode fp32 bits. -/
def f32Decode (b : Nat) : FVal :=
  let s := bit b 31
  let e := bits b 23 8
  let f := bits b 0 23
  let sg := fun (v : Fr) => FVal.fin s (if s then v.neg else v)
  if e = 255 then (if f = 0 then .inf s else .nan)
  else if e = 0 then sg ((Fr.mk f 1).mul (Fr.pow2 (-149)))
  else sg ((Fr.mk (2 ^ 23 + f) 1).mul (Fr.pow2 ((e : Int) - 150)))

/-- Decode bf16 bits: the high half of fp32. -/
def bf16Decode (b : Nat) : FVal := f32Decode (b * 65536)

/-- Encode a value that fp32 represents; `neg` gives the sign of a zero. -/
def f32Encode (neg : Bool) (v : Fr) : Nat :=
  let s := if neg ∨ v.n < 0 then 2 ^ 31 else 0
  if v.isZero then s else
  let e := v.abs.log2
  if e < -126 then s + (v.abs.div (Fr.pow2 (-149))).n.natAbs / (v.abs.div (Fr.pow2 (-149))).d
  else
    let k := v.abs.div (Fr.pow2 (e - 23))
    s + (e + 127).toNat * 2 ^ 23 + (k.n.natAbs / k.d - 2 ^ 23)

/-- Infinity in fp32. -/
def f32Inf (neg : Bool) : Nat := (if neg then 2 ^ 31 else 0) + 0x7F80_0000
/-- The canonical NaN of R406. -/
def f32NaN : Nat := 0x7FC0_0000

/-- Round to bf16 bits with RNE: `v` is a finite fp32 value. -/
def bf16Encode (neg : Bool) (v : Fr) : Nat :=
  let r := roundTo .nearest 8 (-133) v
  let mx := (Fr.mk 255 1).mul (Fr.pow2 120)
  if r.abs.le mx then f32Encode neg r / 65536 else f32Inf (neg || decide (v.n < 0)) / 65536

/-- fp16 bits of a non-negative value rounded upward; above 65,504 it is +∞ (R136). -/
def f16Up (v : Fr) : Nat :=
  if v.isZero then 0 else
  let r := roundTo .up 11 (-24) v
  if (Fr.mk 65504 1).lt r then 0x7C00 else
  let e := r.log2
  if e < -14 then (r.div (Fr.pow2 (-24))).n.natAbs / (r.div (Fr.pow2 (-24))).d
  else
    let k := r.div (Fr.pow2 (e - 10))
    (e + 15).toNat * 1024 + (k.n.natAbs / k.d - 1024)

/-- Decode fp16 bits; `none` for infinities and NaN. -/
def f16Decode (b : Nat) : Option Fr :=
  let s := bit b 15
  let e := bits b 10 5
  let f := bits b 0 10
  let sg := fun (v : Fr) => if s then v.neg else v
  if e = 31 then none
  else if e = 0 then some (sg ((Fr.mk f 1).mul (Fr.pow2 (-24))))
  else some (sg ((Fr.mk (1024 + f) 1).mul (Fr.pow2 ((e : Int) - 25))))

/-- E4M3 byte of a value, saturating at ±448; a zero result is 0x00 (R114). -/
def e4m3 (m : Rnd) (x : Fr) : Byte :=
  let r := roundTo m 4 (-9) x
  let a := if (Fr.mk 448 1).lt r.abs then Fr.mk 448 1 else r.abs
  if a.isZero then 0 else
  let s := if x.n < 0 then 128 else 0
  let e := a.log2
  let c := if e < -6 then (a.div (Fr.pow2 (-9))).n.natAbs / (a.div (Fr.pow2 (-9))).d
    else
      let k := a.div (Fr.pow2 (e - 3))
      (e + 7).toNat * 8 + (k.n.natAbs / k.d - 8)
  BitVec.ofNat 8 (s + c)

/-- Decode an E4M3 byte; 0x80 is zero (R114). -/
def e4m3Decode (b : Byte) : Fr :=
  let x := b.toNat
  let e := bits x 3 4
  let f := bits x 0 3
  let v := if e = 0 then (Fr.mk f 1).mul (Fr.pow2 (-9)) else (Fr.mk (8 + f) 1).mul (Fr.pow2 ((e : Int) - 10))
  if bit x 7 then v.neg else v

/-- The value of an E8M0 byte (R115). -/
def e8m0 (e : Nat) : Fr := Fr.pow2 ((e : Int) - 127)

/-- The smallest e in 0 to 254 with m ≤ 448 × 2^(e − 127), 127 when m is zero (R117, R118, R137). -/
def scaleExp (m : Fr) : Nat :=
  if m.isZero then 127 else
  let a := m.div (Fr.mk 448 1)
  let l := a.log2
  let c := if a.le (Fr.pow2 l) then l else l + 1
  min 254 (c + 127).toNat

/-- E2M1 code of a magnitude with RNE, saturating at 6 (R121). -/
def e2m1Mag (x : Fr) : Nat :=
  let r := roundTo .nearest 2 (-1) x
  if (Fr.mk 6 1).le r then 7
  else if (Fr.mk 4 1).le r then 6
  else if (Fr.mk 3 1).le r then 5
  else if (Fr.mk 2 1).le r then 4
  else if (Fr.mk 3 2).le r then 3
  else if (Fr.mk 1 1).le r then 2
  else if (Fr.mk 1 2).le r then 1
  else 0

/-- E2M1 code with its sign; zero is 0 (R121). -/
def e2m1 (x : Fr) : Nat :=
  let c := e2m1Mag x.abs
  if c = 0 then 0 else if x.n < 0 then 8 + c else c

/-- Decode an E2M1 code; 8 is zero (R121). -/
def e2m1Decode (c : Nat) : Fr :=
  let v := match c % 8 with
    | 0 => Fr.mk 0 1
    | 1 => Fr.mk 1 2
    | 2 => Fr.mk 1 1
    | 3 => Fr.mk 3 2
    | 4 => Fr.mk 2 1
    | 5 => Fr.mk 3 1
    | 6 => Fr.mk 4 1
    | _ => Fr.mk 6 1
  if bit c 3 then v.neg else v

/-- Square root rounded upward to `p` significant bits with least unit 2^lsb (R136). -/
def sqrtUp (p : Nat) (lsb : Int) (x : Fr) : Fr :=
  if x.isZero then ⟨0, 1⟩ else
  let e := x.log2
  let h := e / 2
  let q := if lsb ≤ h - ((p : Int) - 1) then h - ((p : Int) - 1) else lsb
  let y := x.div (Fr.pow2 (2 * q))
  let c := ceilDiv y.n.natAbs y.d
  let r := Nat.sqrt c
  let k := if r * r = c then r else r + 1
  ((Fr.mk k 1).mul (Fr.pow2 q)).norm

/-- RNE_fp32(1 / √n) (R126, R155). -/
def invSqrt (n : Nat) : Fr :=
  -- 1/√n to 60 bits below the leading bit decides the nearest fp32 (n is never near a tie)
  let k := Nat.sqrt (2 ^ 160 / n)
  roundTo .nearest 24 (-149) ((Fr.mk k 1).mul (Fr.pow2 (-80)))

end Sys2Proof.Machine
end

