-- ==== Sys2Proof/Machine/Keccak.lean ====
section
/-! DEFINITION. SHAKE256 (FIPS 202, which the spec names by R125, R222, R472 and R479; assumption 6). -/

namespace Sys2Proof.Machine

/-- Rotate a 64-bit lane left. -/
def rotl64 (x n : Nat) : Nat := (x * 2 ^ (n % 64) + x / 2 ^ (64 - n % 64)) % 2 ^ 64

/-- Complement of a 64-bit lane. -/
def not64 (x : Nat) : Nat := 2 ^ 64 - 1 - x % 2 ^ 64

/-- The walk of ρ from a lane: `n` lanes with the offsets of the triangular numbers from the `t`-th on, lane x + 5y. -/
def rhoWalk : Nat → Nat → Nat → Nat → List (Nat × Nat)
  | 0, _, _, _ => []
  | n + 1, t, x, y => (x + 5 * y, (t + 1) * (t + 2) / 2 % 64) :: rhoWalk n (t + 1) y ((2 * x + 3 * y) % 5)

/-- Rotation offsets of ρ by lane; the centre lane is not rotated. -/
def keccakRho : List Nat :=
  (rhoWalk 24 0 1 0).foldl (fun l e => l.set e.1 e.2) (List.replicate 25 0)

/-- One step of the register that gives the bits of ι: x⁸ + x⁶ + x⁵ + x⁴ + 1. -/
def iotaStep (r : Nat) : Nat := if 128 ≤ r then (2 * r - 256) ^^^ 0x71 else 2 * r

/-- The seven bits of a round constant, at places 2^j − 1 from `j` on, and the register after them. -/
def iotaBits : Nat → Nat → Nat → Nat × Nat
  | 0, _, r => (0, r)
  | n + 1, j, r =>
    let rest := iotaBits n (j + 1) (iotaStep r)
    (r % 2 * 2 ^ (2 ^ j - 1) + rest.1, rest.2)

/-- The constants of `n` rounds. -/
def iotaConsts : Nat → Nat → List Nat
  | 0, _ => []
  | n + 1, r =>
    let c := iotaBits 7 0 r
    c.1 :: iotaConsts n c.2

/-- Round constants of ι. -/
def keccakRC : List Nat := iotaConsts 24 1

/-- A lane of the state. -/
def lane (a : List Nat) (i : Nat) : Nat := a.getD i 0

/-- One round of Keccak-f[1600]. -/
def keccakRound (a : List Nat) (rc : Nat) : List Nat :=
  let c := (List.range 5).map fun x =>
    lane a x ^^^ lane a (x + 5) ^^^ lane a (x + 10) ^^^ lane a (x + 15) ^^^ lane a (x + 20)
  let dd := (List.range 5).map fun x => lane c ((x + 4) % 5) ^^^ rotl64 (lane c ((x + 1) % 5)) 1
  let t := (List.range 25).map fun i => lane a i ^^^ lane dd (i % 5)
  -- ρ and π: lane (y, 2x + 3y) takes lane (x, y)
  let b := (List.range 25).map fun i =>
    let x' := i % 5
    let y' := i / 5
    let y := x'
    let x := (x' + 3 * y') % 5
    rotl64 (lane t (x + 5 * y)) (lane keccakRho (x + 5 * y))
  let e := (List.range 25).map fun i =>
    let x := i % 5
    let y := i / 5
    lane b i ^^^ (not64 (lane b ((x + 1) % 5 + 5 * y)) &&& lane b ((x + 2) % 5 + 5 * y))
  match e with
  | h :: t => (h ^^^ rc) :: t
  | [] => []

/-- Keccak-f[1600]. -/
def keccakF (a : List Nat) : List Nat := keccakRC.foldl keccakRound a

/-- Absorb one block of 136 bytes. -/
def keccakAbsorb (a : List Nat) (block : List Byte) : List Nat :=
  keccakF ((List.range 25).map fun i => lane a i ^^^ leNat ((block.drop (8 * i)).take 8))

/-- Absorb padded blocks; `n` bounds their number. -/
def keccakBlocks : Nat → List Nat → List Byte → List Nat
  | 0, a, _ => a
  | n + 1, a, bs => if bs.isEmpty then a else keccakBlocks n (keccakAbsorb a (bs.take 136)) (bs.drop 136)

/-- Squeeze `n` blocks of 136 bytes. -/
def keccakSqueeze : Nat → List Nat → List Byte
  | 0, _ => []
  | n + 1, a => ((List.range 17).flatMap fun i => leBytes 8 (lane a i)) ++ keccakSqueeze n (keccakF a)

/-- The first `len` bytes of SHAKE256 of a message. -/
def shake256 (msg : List Byte) (len : Nat) : List Byte :=
  let k := 136 - msg.length % 136
  let pad : List Byte := if k = 1 then [0x9F] else 0x1F :: (List.replicate (k - 2) 0 ++ [0x80])
  let m := msg ++ pad
  (keccakSqueeze (ceilDiv len 136) (keccakBlocks (m.length / 136) (List.replicate 25 0) m)).take len

/-- The bytes of an ASCII string. -/
def ascii (s : String) : List Byte := s.toList.map fun c => BitVec.ofNat 8 c.toNat

end Sys2Proof.Machine
end

