-- ==== Sys2Proof/Machine/Skim.lean ====
section
/-! DEFINITION. Folios and the skim formats: profile fields, frame classes, rotation, FP8 rows, churn encoding, head records, transcoding and frame images (R108 to R147, R580). -/

namespace Sys2Proof.Machine

/-! ### Profile fields (R149) -/

/-- A little-endian field of `n` bytes at a byte offset. -/
def fieldAt (b : List Byte) (off n : Nat) : Nat := leNat ((b.drop off).take n)

/-- LAYERS. -/
def Profile.layers (p : Profile) : Nat := fieldAt p.body 8 2
/-- Q_HEADS. -/
def Profile.qHeads (p : Profile) : Nat := fieldAt p.body 10 2
/-- KV_HEADS, which is H. -/
def Profile.heads (p : Profile) : Nat := fieldAt p.body 12 1
/-- LATENT. -/
def Profile.latent (p : Profile) : Bool := bit (fieldAt p.body 13 1) 0
/-- SHARED. -/
def Profile.shared (p : Profile) : Bool := bit (fieldAt p.body 13 1) 1
/-- DIM. -/
def Profile.dim (p : Profile) : Nat := fieldAt p.body 14 2
/-- SKIM_FORMAT. -/
def Profile.skim (p : Profile) : Nat := bits (fieldAt p.body 16 1) 0 2
/-- FLASH_FORMAT. -/
def Profile.flash (p : Profile) : Nat := bits (fieldAt p.body 16 1) 2 2
/-- CREAM_COUNT. -/
def Profile.cream (p : Profile) : Nat := bits (fieldAt p.body 17 1) 0 4
/-- ROT_SEED. -/
def Profile.seed (p : Profile) : Nat := fieldAt p.body 20 4
/-- TWIN_SPANS. -/
def Profile.twinSpans (p : Profile) : Nat := fieldAt p.body 24 2
/-- HOTSET_SEQUENCES. -/
def Profile.hotSeqs (p : Profile) : Nat := fieldAt p.body 28 4
/-- HOTSET_TOKENS. -/
def Profile.hotTokens (p : Profile) : Nat := fieldAt p.body 32 4
/-- PROFILE_UID. -/
def Profile.uid (p : Profile) : Nat := fieldAt p.body 0 8
/-- Roles stored per token: keys and values, or keys alone in the latent layout. -/
def Profile.roles (p : Profile) : Nat := if p.latent then 1 else 2
/-- Query group Q_HEADS / KV_HEADS (R185). -/
def Profile.qGroup (p : Profile) : Nat := p.qHeads / p.heads

/-! ### Frame classes and sizes (R110, R111) -/

/-- A(x): rounded up to 4 KiB. -/
def alignK (x : Nat) : Nat := ceilDiv x 4096 * 4096

/-- Head record size. -/
def recSize (dim : Nat) : Nat := ceilDiv (128 + 2 * dim) 64 * 64

/-- Element width of a skim format. -/
def fmtBits (fmt : Nat) : Nat := if fmt = 2 then 3 else if fmt = 3 then 2 else 4

/-- Bytes of a block of 32 elements. -/
def fmtBlock (fmt : Nat) : Nat := 4 * fmtBits fmt

/-- Section sizes of a closed frame of a format (R111). -/
def closedSections (p : Profile) (fmt : Nat) : List Nat :=
  let h := p.heads
  let d := p.dim
  let b := fmtBits fmt
  let k := if fmt = 3 then 2 else 1
  let g := ceilDiv d 32
  [alignK (256 + h * recSize d), alignK (32 * h * d * b), alignK (8 * h * d) * k,
   if p.latent then 0 else alignK (h * 256 * g * 4 * b), if p.latent then 0 else alignK (h * 256 * g) * k,
   alignK (256 * h * p.cream), alignK (8 * h * d)]

/-- Section sizes of an open or twin frame. -/
def openSections (p : Profile) : List Nat :=
  let h := p.heads
  let d := p.dim
  [alignK (256 + h * recSize d), alignK (256 * h * d), alignK (256 * h),
   if p.latent then 0 else alignK (256 * h * d), if p.latent then 0 else alignK (256 * h)]

/-- Section sizes of a tail frame. -/
def tailSections (p : Profile) : List Nat :=
  let h := p.heads
  let d := p.dim
  [4096, alignK (64 * h * d), alignK (64 * h), if p.latent then 0 else alignK (64 * h * d),
   if p.latent then 0 else alignK (64 * h)]

/-- The smallest class code whose size holds a layout (R110): 32 KiB × (v + 1). -/
def minClass (n : Nat) : Nat := max 1 (ceilDiv n 32768 - 1)

/-- Minimum closed class. -/
def Profile.minClosed (p : Profile) : Nat := minClass (closedSections p p.skim).sum
/-- Minimum open class. -/
def Profile.minOpen (p : Profile) : Nat := minClass (openSections p).sum
/-- Minimum flash-format class. -/
def Profile.minFlash (p : Profile) : Nat := minClass (closedSections p p.flash).sum
/-- Tail class. -/
def Profile.tailClass (p : Profile) : Nat := minClass (tailSections p).sum
/-- Closed class in use: the field, or the minimum. -/
def Profile.closedClass (p : Profile) : Nat := let v := fieldAt p.body 18 1; if v = 0 then p.minClosed else v
/-- Open class in use. -/
def Profile.openClass (p : Profile) : Nat := let v := fieldAt p.body 19 1; if v = 0 then p.minOpen else v
/-- Flash class (R151). -/
def Profile.flashClass (p : Profile) : Nat := if p.flash = p.skim then p.closedClass else p.minFlash

/-- Bytes of a frame of a class. -/
def classBytes (v : Nat) : Nat := 32768 * (v + 1)

/-- Rotation block size (R124). -/
def rotBlock (latent : Bool) (d : Nat) : Nat :=
  if latent then 64 else if 2 ^ Nat.log2 d = d then d else if d % 32 = 0 then 32 else 16

/-- TWO_PASS (R151). -/
def Profile.twoPass (p : Profile) : Bool := !p.latent && decide (128 < p.dim)

/-- The capability word (R151). -/
def Profile.capWord (p : Profile) : Nat :=
  p.closedClass + 2 ^ 5 * p.openClass + 2 ^ 10 * p.tailClass + 2 ^ 15 * p.flashClass + 2 ^ 20 * flag p.twoPass
    + 2 ^ 21 * rotBlock p.latent p.dim

/-! ### Rotation (R124–R126) -/

/-- The sign vector: `true` is −1 (R125). -/
def signVector (seed d : Nat) : List Bool :=
  let o := shake256 (ascii "ivmeuri-rot" ++ leBytes 4 seed ++ leBytes 2 d) (ceilDiv d 8)
  (List.range d).map fun c => bit (o.getD (c / 8) 0).toNat (c % 8)

/-- All or none. -/
def allSome {α : Type} : List (Option α) → Option (List α)
  | [] => some []
  | none :: _ => none
  | some x :: xs => (allSome xs).map (x :: ·)

/-- One butterfly stage with a stride, over a whole row (R126 step 2): `none` when a sum leaves fp32. -/
def rotStage (y : List Fr) (stride : Nat) : Option (List Fr) :=
  allSome ((List.range y.length).map fun i =>
    if i / stride % 2 = 0 then f32 .nearest ((y.getD i ⟨0, 1⟩).add (y.getD (i + stride) ⟨0, 1⟩))
    else f32 .nearest ((y.getD (i - stride) ⟨0, 1⟩).sub (y.getD i ⟨0, 1⟩)))

/-- Stages with strides `1, 2, …`, `n` of them. -/
def rotStages : Nat → Nat → List Fr → Option (List Fr)
  | 0, _, y => some y
  | n + 1, stride, y => (rotStage y stride).bind (rotStages n (2 * stride))

/-- The rotation of a row (R126); `none` when an operation overflows fp32, which the spec leaves open. -/
def rotate (signs : List Bool) (b : Nat) (x : List Fr) : Option (List Fr) :=
  let y := (x.zip signs).map fun e => if e.2 then e.1.neg else e.1
  (rotStages (Nat.log2 b) 1 y).bind fun z => allSome (z.map fun v => f32 .nearest (v.mul (invSqrt b)))

/-! ### FP8 rows (R117) -/

/-- fp32 with round to nearest even, no limit: what `fp32(·)` means where the result is known to fit. -/
def fp32 (x : Fr) : Fr := roundTo .nearest 24 (-149) x

/-- Largest magnitude. -/
def maxAbs (x : List Fr) : Fr := x.foldl (fun m v => m.max v.abs) ⟨0, 1⟩

/-- Encode a row (R117). -/
def fp8Row (x : List Fr) : Row :=
  let e := scaleExp (maxAbs x)
  { scale := e, el := x.map fun v => e4m3 .nearest (fp32 (v.div (e8m0 e))) }

/-- Decode a row; a scale of 255 makes every element zero (R115). -/
def decodeRow (r : Row) : List Fr :=
  r.el.map fun b => if r.scale = 255 then ⟨0, 1⟩ else ((e4m3Decode b).mul (e8m0 r.scale)).norm

/-- A code that a row may hold (R114): 7F and FF are NaN and 80 a second zero, none of which is ever written. -/
def rowCode (b : Byte) : Byte := if b.toNat % 128 = 127 then b - 1 else if b.toNat = 128 then 0 else b

/-- The key under which a row is kept: role, head, token. -/
def rowKey (p : Profile) (role head token : Nat) : Nat := (role * p.heads + head) * 256 + token

/-! ### Skim groups (R118–R121) -/

/-- Elements of a group that take part: `none` for anchors and missing elements. -/
abbrev Group := List (Option Fr)

/-- The elements that take part. -/
def Group.live (g : Group) : List Fr := g.filterMap id

/-- Smallest element; zero for none. -/
def minOf : List Fr → Fr
  | [] => ⟨0, 1⟩
  | x :: xs => xs.foldl Fr.min x
/-- Largest element. -/
def maxOf : List Fr → Fr
  | [] => ⟨0, 1⟩
  | x :: xs => xs.foldl Fr.max x

/-- What a group contributes to the head exponent (R118). -/
def groupM (fmt : Nat) (g : Group) : Fr :=
  if fmt = 3 then ((minOf g.live).abs.max (maxOf g.live).abs).mul ⟨2, 1⟩
  else (maxAbs g.live).div ⟨if fmt = 2 then 3 else 7, 1⟩

/-- Head exponent over groups (R118); SKIM4-F uses none and stores 0 (R135). -/
def headExp (fmt : Nat) (gs : List Group) : Nat :=
  if fmt = 1 then 0 else scaleExp ((gs.map (groupM fmt)).foldl Fr.max ⟨0, 1⟩)

/-- An encoded group: 32 codes, scale byte, offset byte, clipped (R580). -/
structure EncGroup where
  codes : List Nat
  scale : Byte
  off : Byte := 0
  clipped : Bool := false
  deriving DecidableEq, Repr

/-- Encode a group with a head exponent (R119, R120, R121). -/
def encGroup (fmt eh : Nat) (g : Group) : EncGroup :=
  let u := e8m0 eh
  let a := maxAbs g.live
  if fmt = 1 then
    let x : Int := if a.isZero then -127 else max (-127) (min 127 (a.log2 - 2))
    let s := Fr.pow2 x
    { codes := g.map fun v => match v with | some y => e2m1 (y.div s) | none => 0
      scale := BitVec.ofNat 8 (x + 127).toNat
      clipped := ((Fr.mk 6 1).mul s).lt a }
  else if fmt = 3 then
    let m := minOf g.live
    let mx := maxOf g.live
    let ob := e4m3 .down (fp32 (m.div u))
    let o := (e4m3Decode ob).mul u
    let sb := e4m3 .up (fp32 ((mx.sub o).div ((Fr.mk 3 1).mul u)))
    let s := (e4m3Decode sb).mul u
    { codes := g.map fun v => match v with
        | some y => if s.isZero then 0 else (max 0 (min 3 (rneInt (fp32 ((y.sub o).div s))))).toNat
        | none => 0
      scale := sb, off := ob
      clipped := m.lt o || (o.add ((Fr.mk 3 1).mul s)).lt mx }
  else
    let q : Int := if fmt = 2 then 3 else 7
    let w := fmtBits fmt
    let sb := e4m3 .nearest (fp32 (a.div ((Fr.mk q 1).mul u)))
    let s := (e4m3Decode sb).mul u
    { codes := g.map fun v => match v with
        | some y => if s.isZero then 0 else ofSigned w (max (-q) (min q (rneInt (fp32 (y.div s)))))
        | none => 0
      scale := sb
      clipped := ((Fr.mk q 1).mul s).lt a }

/-- The decoded value of a code (R119–R121). -/
def decCode (fmt eh : Nat) (scale off : Byte) (code : Nat) : Fr :=
  let u := e8m0 eh
  let v := if fmt = 1 then
      (if scale.toNat = 255 then ⟨0, 1⟩ else (e2m1Decode code).mul (e8m0 scale.toNat))
    else if fmt = 3 then
      ((e4m3Decode off).mul u).add ((Fr.mk code 1).mul ((e4m3Decode scale).mul u))
    else (Fr.mk (toSigned (fmtBits fmt) code) 1).mul ((e4m3Decode scale).mul u)
  v.norm

/-- Pack the 32 codes of a block (R122): each format is a little-endian number of 32 fields. -/
def packBlock (fmt : Nat) (codes : List Nat) : List Byte :=
  let w := fmtBits fmt
  leBytes (fmtBlock fmt) ((List.range 32).foldl (fun n j => n + codes.getD j 0 % 2 ^ w * 2 ^ (w * j)) 0)

/-- One code of a packed block. -/
def unpackCode (fmt : Nat) (data : List Byte) (block j : Nat) : Nat :=
  let w := fmtBits fmt
  bits (leNat ((data.drop (block * fmtBlock fmt)).take (fmtBlock fmt))) (w * j) w

/-- A zero group: cream channels (R129). -/
def zeroGroup : EncGroup := { codes := List.replicate 32 0, scale := 0 }

/-! ### Head records and churn (R128–R138) -/

/-- Decoded rows of one head of one layer: 256 rows of one role. -/
abbrev Mat := List (List Fr)

/-- An element. -/
def Mat.at_ (m : Mat) (t c : Nat) : Fr := (m.getD t []).getD c ⟨0, 1⟩

/-- The first token that is not an anchor (R130). -/
def firstTok (anchors : Bool) : Nat := if anchors then 4 else 0

/-- The cream channels of a head, ascending (R129). -/
def selectCream (anchors : Bool) (dim count : Nat) (k : Mat) : List Nat :=
  let mag := (List.range dim).map fun c => maxAbs (((List.range 256).drop (firstTok anchors)).map fun t => k.at_ t c)
  let rank := fun c => ((List.range dim).filter fun c' =>
    (mag.getD c ⟨0, 1⟩).lt (mag.getD c' ⟨0, 1⟩) ||
      ((mag.getD c ⟨0, 1⟩).le (mag.getD c' ⟨0, 1⟩) && decide (c' < c))).length
  (List.range dim).filter fun c => rank c < count

/-- Key group `g` of a channel: 32 tokens, anchors out. -/
def keyGroup (anchors : Bool) (k : Mat) (g c : Nat) : Group :=
  (List.range 32).map fun j => let t := 32 * g + j; if t < firstTok anchors then none else some (k.at_ t c)

/-- Value group `g` of a token: up to 32 channels. -/
def valGroup (anchors : Bool) (dim : Nat) (v : Mat) (t g : Nat) : Group :=
  (List.range 32).map fun j => let c := 32 * g + j
    if dim ≤ c ∨ t < firstTok anchors then none else some (v.at_ t c)

/-- Decode a value of a closed head: key `(t, c)` under R131 steps 1 and 5. -/
def ClosedHead.key (h : ClosedHead) (fmt dim : Nat) (anchors : Bool) (t c : Nat) : Fr :=
  if t < firstTok anchors then
    (decodeRow { scale := h.akScale.getD t 0, el := h.aKeys.getD t [] }).getD c ⟨0, 1⟩
  else if bit h.creamMask c then
    let l := ((List.range c).filter fun i => bit h.creamMask i).length
    let e := h.laneScale.getD l 0
    if e = 255 then ⟨0, 1⟩ else ((e4m3Decode (h.cream.getD (l * 256 + t) 0)).mul (e8m0 e)).norm
  else
    let blk := t / 32 * dim + c
    decCode fmt h.ek (h.kScale.getD blk 0) (h.kOff.getD blk 0) (unpackCode fmt h.kData blk (t % 32))

/-- Decode a value under R131 steps 1 and 5. -/
def ClosedHead.val (h : ClosedHead) (fmt dim : Nat) (anchors : Bool) (t c : Nat) : Fr :=
  if t < firstTok anchors then
    (decodeRow { scale := h.avScale.getD t 0, el := h.aVals.getD t [] }).getD c ⟨0, 1⟩
  else
    let blk := t * ceilDiv dim 32 + c / 32
    decCode fmt h.ev (h.vScale.getD blk 0) (h.vOff.getD blk 0) (unpackCode fmt h.vData blk (c % 32))

/-- L2 norm of a row of exact differences, rounded toward +∞ at every step (R136). -/
def normUp (d : List Fr) : Fr :=
  let s := d.foldl (fun a x => roundTo .up 24 (-149) (a.add (roundTo .up 24 (-149) (x.mul x)))) ⟨0, 1⟩
  sqrtUp 24 (-149) s

/-- Largest row norm between two key readings of 256 tokens. -/
def residual (dim : Nat) (a b : Nat → Nat → Fr) : Fr :=
  ((List.range 256).map fun t => normUp ((List.range dim).map fun c => (a t c).sub (b t c))).foldl Fr.max ⟨0, 1⟩

/-- Key summary (R137): exponent, minima, maxima. -/
def keySummary (dim : Nat) (k : Nat → Nat → Fr) : Nat × List Byte × List Byte :=
  let col := fun c => (List.range 256).map fun t => k t c
  let es := scaleExp ((List.range dim).foldl (fun m c => m.max (maxAbs (col c))) ⟨0, 1⟩)
  (es, (List.range dim).map fun c => e4m3 .down ((minOf (col c)).div (e8m0 es)),
   (List.range dim).map fun c => e4m3 .up ((maxOf (col c)).div (e8m0 es)))

/-- The encoded key and value groups of a head and the number of clipped groups. -/
structure EncHead where
  ek : Nat
  ev : Nat
  keys : List EncGroup
  vals : List EncGroup
  deriving DecidableEq, Repr

/-- Encode the groups of a head in a format (R118–R121, R128). -/
def encHead (p : Profile) (fmt : Nat) (anchors : Bool) (lanes : List Nat) (k v : Mat) : EncHead :=
  let d := p.dim
  let kgs := (List.range 8).flatMap fun g => (List.range d).map fun c => (c, keyGroup anchors k g c)
  let vgs := if p.latent then [] else
    (List.range 256).flatMap fun t => (List.range (ceilDiv d 32)).map fun g => valGroup anchors d v t g
  let ek := headExp fmt ((kgs.filter fun e => !lanes.contains e.1).map (·.2))
  let ev := if p.latent then 0 else headExp fmt vgs
  { ek := ek, ev := ev
    keys := kgs.map fun e => if lanes.contains e.1 then zeroGroup else encGroup fmt ek e.2
    vals := vgs.map (encGroup fmt ev) }

/-- Groups clipped (R580). -/
def EncHead.clipped (e : EncHead) : Nat := ((e.keys ++ e.vals).filter (·.clipped)).length

/-- Put the encoded groups into a head's sections. -/
def ClosedHead.withGroups (h : ClosedHead) (fmt : Nat) (e : EncHead) : ClosedHead :=
  { h with ek := e.ek, ev := e.ev
           kData := e.keys.flatMap fun g => packBlock fmt g.codes, kScale := e.keys.map (·.scale)
           kOff := if fmt = 3 then e.keys.map (·.off) else []
           vData := e.vals.flatMap fun g => packBlock fmt g.codes, vScale := e.vals.map (·.scale)
           vOff := if fmt = 3 then e.vals.map (·.off) else [] }

/-- Set a head's summary from its decoded keys (R137). -/
def ClosedHead.withSummary (h : ClosedHead) (fmt dim : Nat) (anchors : Bool) : ClosedHead :=
  let s := keySummary dim (h.key fmt dim anchors)
  { h with es := s.1, kmin := s.2.1, kmax := s.2.2 }

/-- Rows of one head and role of a layer, as a table keyed by `rowKey`. -/
def headRows (p : Profile) (rows : Tab Row) (role head : Nat) : List Row :=
  (List.range 256).map fun t => tgetD rows (rowKey p role head t) {}

/-- Churn one head of a folio (R138): the closed head and its clipped groups. -/
def churnHead (p : Profile) (anchors : Bool) (rows : Tab Row) (h : Nat) : ClosedHead × Nat :=
  let kr := headRows p rows 0 h
  let vr := headRows p rows 1 h
  let k : Mat := kr.map decodeRow
  let v : Mat := vr.map decodeRow
  let lanes := selectCream anchors p.dim p.cream k
  let e := encHead p p.skim anchors lanes k v
  let laneRow := fun c => fp8Row (((List.range 256).drop (firstTok anchors)).map fun t => k.at_ t c)
  let h0 : ClosedHead :=
    { laneScale := lanes.map fun c => (laneRow c).scale
      creamMask := lanes.foldl (fun m c => m + 2 ^ c) 0
      cream := lanes.flatMap fun c => List.replicate (firstTok anchors) 0 ++ (laneRow c).el
      akScale := if anchors then (kr.take 4).map (·.scale) else []
      avScale := if anchors && !p.latent then (vr.take 4).map (·.scale) else []
      aKeys := if anchors then (kr.take 4).map (·.el) else []
      aVals := if anchors && !p.latent then (vr.take 4).map (·.el) else [] }
  let h1 := h0.withGroups p.skim e
  let rho := residual p.dim k.at_ (h1.key p.skim p.dim anchors)
  ({ h1 with resid := f16Up rho }.withSummary p.skim p.dim anchors, e.clipped)

/-- Churn one folio (R138): its closed form and clipped groups. -/
def churnFolio (p : Profile) (firstPos tick : Nat) (rows : Tab Row) : Closed × Nat :=
  let anchors := firstPos == 0
  let hs := (List.range p.heads).map (churnHead p anchors rows)
  ({ format := p.skim, anchors := anchors, churnTick := tick, heads := hs.map (·.1) }, (hs.map (·.2)).sum)

/-- Transcode one head (R146). -/
def transHead (p : Profile) (c : Closed) (h : ClosedHead) : ClosedHead × Nat :=
  let old := h.key c.format p.dim c.anchors
  let k : Mat := (List.range 256).map fun t => (List.range p.dim).map fun i => fp32 (old t i)
  let v : Mat := (List.range 256).map fun t => (List.range p.dim).map fun i => fp32 (h.val c.format p.dim c.anchors t i)
  let lanes := (List.range p.dim).filter fun i => bit h.creamMask i
  let e := encHead p p.flash c.anchors lanes k v
  let h1 := h.withGroups p.flash e
  let dl := residual p.dim old (h1.key p.flash p.dim c.anchors)
  let rho := match f16Decode h.resid with
    | some r => f16Up (r.add dl)
    | none => h.resid
  ({ h1 with resid := rho }.withSummary p.flash p.dim c.anchors, e.clipped)

/-- Transcode a folio to the flash format (R146); unchanged when the formats are equal. -/
def transcode (p : Profile) (tick : Nat) (c : Closed) : Closed × Nat :=
  if p.flash = c.format then (c, 0) else
  let hs := c.heads.map (transHead p c)
  ({ c with format := p.flash, transcoded := true, churnTick := tick, heads := hs.map (·.1) }, (hs.map (·.2)).sum)

/-! ### Frame images (R111, R112, R134, R135) -/

/-- Bytes padded with zero to a length. -/
def padTo (n : Nat) (b : List Byte) : List Byte := b ++ List.replicate (n - b.length) 0

/-- Offsets of the second and later sections; 0 for an absent one. -/
def sectionOffs (secs : List Nat) : List Nat :=
  ((List.range secs.length).drop 1).map fun i => if secs.getD i 0 = 0 then 0 else (secs.take i).sum

/-- The folio header (R134). -/
def folioHeader (p : Profile) (num layer spanIdx fill firstPos fmt churnTick : Nat) (anchors trans : Bool)
    (secs : List Nat) : List Byte :=
  let offs := sectionOffs secs
  padTo 256 (leBytes 1 fmt ++ leBytes 1 (flag anchors + 2 * flag p.latent + 4 * flag trans) ++ leBytes 2 layer
    ++ leBytes 1 num ++ leBytes 1 p.heads ++ leBytes 2 p.dim ++ leBytes 4 spanIdx ++ leBytes 2 fill
    ++ leBytes 1 p.cream ++ leBytes 1 0 ++ leBytes 8 firstPos ++ leBytes 8 churnTick ++ leBytes 4 (recSize p.dim)
    ++ leBytes 4 0 ++ (List.range 6).flatMap fun i => leBytes 4 (offs.getD i 0))

/-- A head record (R135). -/
def headRecord (p : Profile) (h : ClosedHead) : List Byte :=
  padTo (recSize p.dim) (leBytes 2 h.resid ++ leBytes 1 h.ek ++ leBytes 1 h.ev ++ leBytes 1 h.es
    ++ List.replicate 3 0 ++ padTo 8 (h.laneScale.map (BitVec.ofNat 8)) ++ padTo 4 (h.akScale.map (BitVec.ofNat 8))
    ++ padTo 4 (h.avScale.map (BitVec.ofNat 8)) ++ List.replicate 8 0 ++ leBytes 80 h.creamMask
    ++ List.replicate 16 0 ++ h.kmin ++ h.kmax)

/-- The image of a closed frame of a class (R111). -/
def closedImage (p : Profile) (num layer spanIdx firstPos : Nat) (cls : Nat) (c : Closed) : List Byte :=
  let secs := closedSections p c.format
  let scales := fun (f : ClosedHead → List Byte) (o : ClosedHead → List Byte) (one : Nat) =>
    padTo one (c.heads.flatMap f) ++ (if c.format = 3 then padTo one (c.heads.flatMap o) else [])
  let half := fun n => if c.format = 3 then n / 2 else n
  let anchor := fun (f : ClosedHead → List (List Byte)) =>
    (List.range 4).flatMap fun t => c.heads.flatMap fun h => padTo p.dim ((f h).getD t [])
  padTo (classBytes cls)
    (padTo (secs.getD 0 0) (folioHeader p num layer spanIdx 256 firstPos c.format c.churnTick c.anchors c.transcoded secs
        ++ c.heads.flatMap (headRecord p))
      ++ padTo (secs.getD 1 0) (c.heads.flatMap (·.kData))
      ++ scales (·.kScale) (·.kOff) (half (secs.getD 2 0))
      ++ (if p.latent then [] else padTo (secs.getD 3 0) (c.heads.flatMap (·.vData)))
      ++ (if p.latent then [] else scales (·.vScale) (·.vOff) (half (secs.getD 4 0)))
      ++ padTo (secs.getD 5 0) (c.heads.flatMap (·.cream))
      ++ padTo (secs.getD 6 0) (if c.anchors then anchor (·.aKeys) ++ (if p.latent then [] else anchor (·.aVals)) else []))

/-- The row sections of an open, twin or tail image; rows that nothing has written are the free bytes of draw `n`. -/
def rowSections (p : Profile) (n : Nat) (rows : Tab Row) (first count : Nat) (secs : List Nat) : List Byte :=
  (List.range p.roles).flatMap fun role =>
    padTo (secs.getD (1 + 2 * role) 0) ((List.range p.heads).flatMap fun h => (List.range count).flatMap fun t =>
      match tget rows (rowKey p role h (first + t)) with
      | some r => padTo p.dim r.el
      | none => (List.range p.dim).map fun c => Config.freeByte n (((role * p.heads + h) * 256 + t) * 1024 + c))
    ++ padTo (secs.getD (2 + 2 * role) 0) ((List.range p.heads).flatMap fun h => (List.range count).map fun t =>
      match tget rows (rowKey p role h (first + t)) with
      | some r => BitVec.ofNat 8 r.scale
      | none => Config.freeByte n (((role * p.heads + h) * 256 + t) * 1024 + 1023))

/-- The image of an open or twin frame. -/
def openImage (p : Profile) (num layer spanIdx fill firstPos fmt n cls : Nat) (churnTick : Nat) (rows : Tab Row) : List Byte :=
  let secs := openSections p
  padTo (classBytes cls)
    (padTo (secs.getD 0 0) (folioHeader p num layer spanIdx fill firstPos fmt churnTick false false secs)
      ++ rowSections p n rows 0 256 secs)

/-- The image of a tail frame: tokens 192 to 255 (R132). -/
def tailImage (p : Profile) (num layer spanIdx firstPos n churnTick : Nat) (rows : Tab Row) : List Byte :=
  let secs := tailSections p
  padTo (classBytes p.tailClass)
    (padTo 4096 (folioHeader p num layer spanIdx 64 firstPos 5 churnTick false false secs)
      ++ rowSections p n rows 192 64 secs)

/-! ### Input elements of APPEND (R116, R203) -/

/-- The value of an input element: `none` for NaN and infinities. -/
def bf16Value (w : Nat) : Option Fr :=
  match bf16Decode w with
  | .fin _ v => some v
  | _ => none

/-- The value of an FP8 input element under its scale byte; `none` for NaN and scale 255. A product beyond fp32 cannot be converted
exactly (R116), and the spec says nothing of it: the APPEND goes on, and what the rotation makes of such a row is `overflowRow` (DESIGN
CHOICE, assumption 11). -/
def fp8Value (b : Byte) (scale : Byte) : Option Fr :=
  if b.toNat % 128 = 127 ∨ scale.toNat = 255 then none else some ((e4m3Decode b).mul (e8m0 scale.toNat)).norm

/-- The FP8 row of input whose rotation leaves fp32: the spec states no result, so it is free codes that R114 lets be written, a function
of the input and the rotation alone (R116, R188; DESIGN CHOICE, assumption 11). -/
def overflowRow (p : Profile) (codes : List Nat) : Row :=
  let pick := Config.overflowRow (p.seed :: rotBlock p.latent p.dim :: codes)
  { scale := pick [0] % 255, el := (List.range p.dim).map fun c => rowCode (BitVec.ofNat 8 (pick [c + 1])) }

end Sys2Proof.Machine
end

