-- ==== Sys2Proof/Machine/Frames.lean ====
section
/-! DEFINITION. The reading room's space: the reserve, the frame allocator, metadata pages, charges, floors and shares (R13 to R16, R110, R195, R197, R258 to R260, R583). -/

namespace Sys2Proof.Machine

/-! ### The pool (R16, R258) -/

/-- The reserve in MiB: 980 and the flash map, 100 per TiB of raw flash rounded up, at most 25,600 (R16). -/
def Dev.reserveMiB (d : Dev) : Nat := 980 + min 25600 (ceilDiv (100 * d.stk.rawGiB) 1024)

/-- Bytes of the shared pool. -/
def Dev.poolBytes (d : Dev) : Nat := (786432 - d.reserveMiB) * 2 ^ 20

/-- P: the shared pool in whole GiB (R258). -/
def Dev.poolGiB (d : Dev) : Nat := d.poolBytes / 2 ^ 30

/-- Cores of a cluster. -/
def coresPerCluster : Nat := 8

/-- 32 KiB units of a cluster's channels (R13). -/
def clusterUnits : Nat := 1572864

/-- The first unit of a cluster above the reserve: the areas lie from the lowest offset, spread evenly (R16). -/
def Dev.firstUnit (d : Dev) : Nat := 2 * d.reserveMiB

/-! ### Frame handles (R195) -/

/-- Cluster of a handle. -/
def hCluster (h : Nat) : Nat := bits h 0 4
/-- Offset in 32 KiB units. -/
def hOffset (h : Nat) : Nat := bits h 4 21
/-- Class code. -/
def hClass (h : Nat) : Nat := bits h 25 5
/-- Units of a handle's frame: class v has v + 1; no frame has none. -/
def hUnits (h : Nat) : Nat := if h = 0 then 0 else hClass h + 1
/-- Bytes of a handle's frame. -/
def hBytes (h : Nat) : Nat := 32768 * hUnits h
/-- A handle. -/
def mkHandle (cluster off cls : Nat) : Nat := cluster + 16 * off + 2 ^ 25 * cls

/-! ### The allocator -/

/-- Extents in use, by cluster, ascending. -/
abbrev Used := Tab (List (Nat × Nat))

/-- Insert an extent in order. -/
def extInsert : List (Nat × Nat) → Nat → Nat → List (Nat × Nat)
  | [], a, n => [(a, n)]
  | (b, m) :: t, a, n => if a < b then (a, n) :: (b, m) :: t else (b, m) :: extInsert t a n

/-- The lowest gap of `n` units at or above `pos`. -/
def gapFit : List (Nat × Nat) → Nat → Nat → Option Nat
  | [], pos, n => if pos + n ≤ clusterUnits then some pos else none
  | (a, k) :: t, pos, n => if pos + n ≤ a then some pos else gapFit t (max pos (a + k)) n

/-- Bytes of a page. -/
def pageBytes : Nat := 32768

/-- Pages of every patron. -/
def Dev.allPages (d : Dev) : Nat := (d.seqs.metaBytes.map fun e => ceilDiv e.2 pageBytes).sum

/-- Retired units of a cluster above its reserve that lie in no extent of a list: space that is neither in use nor free (R460). -/
def Dev.retiredOut (d : Dev) (c : Nat) (ext : List (Nat × Nat)) : Nat :=
  ((tgetD d.seqs.retired c []).filter fun x => decide (d.firstUnit ≤ x) && ext.all fun e => decide (x < e.1) || decide (e.1 + e.2 ≤ x)).length

/-- The extents of a cluster that are reserved for edits (R217). -/
def Dev.resvExt (d : Dev) (c : Nat) : List (Nat × Nat) :=
  (d.seqs.resv.filter fun x => hCluster x.2.2 == c).map fun x => (hOffset x.2.2, hUnits x.2.2)

/-- 32 KiB units of a cluster that nothing holds: its 48 GiB less its part of the reserve, the extents in use and reserved, the
region units placed in it, the retired units outside these and its metadata pages (R13, R16, R197; pages lie over the clusters in
turn, assumption 8). -/
def Dev.clusterFree (d : Dev) (u : Used) (c : Nat) : Nat :=
  clusterUnits - d.firstUnit - ((tgetD u c []).map (·.2)).sum - d.retiredOut c (tgetD u c [] ++ d.resvExt c)
    - ((d.resvExt c).map (·.2)).sum
    - 64 * (d.rgn.units.filter fun e => e.2.resident && e.2.cluster == c).length
    - (d.allPages + 15 - c) / 16

/-- Place a frame of a class in one cluster with room for it: the lowest gap (assumption 7). -/
def Dev.placeIn (d : Dev) (u : Used) (cluster cls : Nat) : Option (Nat × Used) :=
  if d.flt.out.contains cluster ∨ d.clusterFree u cluster < cls + 1 then none else
  let ext := (tgetD d.seqs.retired cluster []).foldl (fun e x => extInsert e x 1) (tgetD u cluster [])
  let ext := (d.resvExt cluster).foldl (fun e x => extInsert e x.1 x.2) ext
  match gapFit ext d.firstUnit (cls + 1) with
  | some a => some (mkHandle cluster a cls, tset u cluster (extInsert (tgetD u cluster []) a (cls + 1)))
  | none => none

/-- Place a frame in the first cluster of an order that can form one (R15, R24). -/
def Dev.place (d : Dev) (u : Used) : List Nat → Nat → Option (Nat × Used)
  | [], _ => none
  | c :: cs, cls => match d.placeIn u c cls with
    | some r => some r
    | none => d.place u cs cls

/-- The cluster order of R15 for layer `l` of span `b`. -/
def orderR15 (b l : Nat) : List Nat := (List.range 16).map fun k => (b + l + k) % 16

/-- The cluster order of R24 for an open frame in cluster `c`. -/
def orderR24 (c : Nat) : List Nat := (List.range 8).map fun k => c / 8 * 8 + (c + k) % 8

/-- Place frames of a class for layers `l0 ..` of a span, `n` of them: the handles in order. -/
def Dev.placeSpan (d : Dev) (u : Used) (span cls : Nat) : Nat → Nat → Option (List Nat × Used)
  | _, 0 => some ([], u)
  | l, n + 1 => match d.place u (orderR15 span l) cls with
    | none => none
    | some (h, u) => match d.placeSpan u span cls (l + 1) n with
      | none => none
      | some (hs, u) => some (h :: hs, u)

/-- Put the extents in use back. -/
def Dev.withUsed (d : Dev) (u : Used) : Dev := { d with seqs := { d.seqs with used := u } }

/-- Take an extent out. -/
def usedDrop (u : Used) (c a : Nat) : Used := tmod u c fun e => e.filter fun x => x.1 != a

/-- Free the frame of a handle in this tick's close phase (R47, R56). -/
def Dev.freeLater (d : Dev) (h : Nat) : Dev :=
  if h = 0 then d else
  { d with seqs := { d.seqs with freeing := d.seqs.freeing ++ [(hCluster h, hOffset h, hUnits h)] } }

/-- Free several. -/
def Dev.freeAllLater (d : Dev) (hs : List Nat) : Dev := hs.foldl Dev.freeLater d

/-- Free a frame at once: reserved and not used (R217). -/
def Dev.freeNow (d : Dev) (h : Nat) : Dev :=
  if h = 0 then d else d.withUsed (usedDrop d.seqs.used (hCluster h) (hOffset h))

/-- Release the frames freed in the tick: in its close phase (R47). -/
def Dev.releaseFreed (d : Dev) : Dev :=
  let u := d.seqs.freeing.foldl (fun u x => usedDrop u x.1 x.2.1) d.seqs.used
  { d with seqs := { d.seqs with used := u, freeing := [] } }

/-- Units in use. -/
def Used.units (u : Used) : Nat := (u.map fun e => (e.2.map (·.2)).sum).sum

/-! ### Metadata pages (R197) -/

/-- Pages charged to a patron: its metadata bytes, packed (assumption 8). -/
def Dev.metaPages (d : Dev) (p : Nat) : Nat := ceilDiv (tgetD d.seqs.metaBytes p 0) pageBytes

/-- Charge metadata bytes to a patron. -/
def Dev.addMeta (d : Dev) (p n : Nat) : Dev :=
  { d with seqs := { d.seqs with metaBytes := tset d.seqs.metaBytes p (tgetD d.seqs.metaBytes p 0 + n) } }

/-- Give metadata bytes back. -/
def Dev.dropMeta (d : Dev) (p n : Nat) : Dev :=
  { d with seqs := { d.seqs with metaBytes := tset d.seqs.metaBytes p (tgetD d.seqs.metaBytes p 0 - n) } }

/-! ### Region units (R267, R387) -/

/-- Bytes of a region unit. -/
def unitBytes : Nat := 2 ^ 21

/-- The key of unit `u` of slot `x`. -/
def unitKey (x u : Nat) : Nat := x * 2 ^ 17 + u

/-- Patron that a region's units are charged to at this home (R387). -/
def Dev.unitPatron (d : Dev) (r : Region) : Nat := if r.ownerDev = d.devNo then r.ownerPatron else 0

/-- Allocated and resident units of slot `x`. -/
def Dev.slotUnits (d : Dev) (x : Nat) : Nat := (d.rgn.units.filter fun e => e.1 / 2 ^ 17 == x && e.2.resident).length

/-- Resident units of the device. -/
def Dev.residentUnits (d : Dev) : Nat := (d.rgn.units.filter fun e => e.2.resident).length

/-! ### Profiles, spans and charges -/

/-- A profile; number 0 with an empty body when absent. -/
def Dev.prof (d : Dev) (n : Nat) : Profile := tgetD d.seqs.profiles n { body := [] }

/-- Change a span. -/
def Dev.modSpan (d : Dev) (i : Nat) (f : Span → Span) : Dev :=
  { d with seqs := { d.seqs with spans := tmod d.seqs.spans i f } }

/-- A span, if it exists. -/
def Dev.span? (d : Dev) (i : Nat) : Option Span := tget d.seqs.spans i

/-- All handles of a span. -/
def Span.handles (s : Span) : List Nat := s.frames.flatMap fun f => [f.primary, f.tail, f.twin]

/-- Bytes of a span's frames of every form. -/
def Span.frameBytes (s : Span) : Nat := (s.handles.map hBytes).sum

/-- Bits set in CHARGED. -/
def popcount (n : Nat) : Nat := ((List.range 64).filter fun i => bit n i).length

/-- The lowest patron set in CHARGED. -/
def lowestBit (n : Nat) : Nat := ((List.range 64).find? fun i => bit n i).getD 64

/-- Patron `p`'s part of `n` bytes divided among the bits set, the remainder to the lowest (R259). -/
def divCharge (charged p n : Nat) : Nat :=
  let k := popcount charged
  if k = 0 ∨ !bit charged p then 0 else n / k + (if lowestBit charged = p then n % k else 0)

/-- k of a tight-fit profile: the deepest layers that are streamed (R283). -/
def Profile.deepK (p : Profile) : Nat :=
  if p.shortfall = 0 then 0 else
  let nc := p.hotTokens / 256
  let per := p.hotSeqs * max 1 (nc - 2) * classBytes p.closedClass
  min p.layers (ceilDiv p.shortfall per)

/-- Frames of a span that were promoted for streaming under a tight fit: charged to the profile's owner (R259, R283). -/
def Span.leadBytes (s : Span) : Nat := (s.frames.map fun f => if f.lead then hBytes f.primary else 0).sum

/-- C_p: the charge of a patron (R259). -/
def Dev.charge (d : Dev) (p : Nat) : Nat :=
  let spans := (d.seqs.spans.map fun e =>
    let deep := e.2.leadBytes
    divCharge e.2.charged p (e.2.frameBytes - deep) + (if (d.prof e.2.profile).owner = p then deep else 0)).sum
  let units := (d.rgn.slots.map fun e => if d.unitPatron e.2 = p then d.slotUnits e.1 * unitBytes else 0).sum
  spans + d.metaPages p * pageBytes + units

/-- Free bytes of the shared pool (R583). -/
def Dev.freeBytes (d : Dev) : Nat :=
  d.poolBytes - (Used.units d.seqs.used + ((List.range 16).map fun c => d.retiredOut c (tgetD d.seqs.used c [])).sum) * 32768
    - d.allPages * pageBytes - d.residentUnits * unitBytes

/-- The floor granted to a patron, in GiB. -/
def Dev.floor (d : Dev) (p : Nat) : Nat := tgetD d.tier.floors p 0

/-- S_p in bytes (R258). -/
def Dev.share (d : Dev) (p : Nat) : Nat :=
  let sum := (d.tier.floors.map (·.2)).sum
  let c := d.reg regTirCeilp p
  let room := d.floor p + (d.poolGiB - sum)
  (if c = 0 then min d.poolGiB room else min c room) * 2 ^ 30

/-- Bytes of the frames reserved for a patron's edits (R217). -/
def Dev.reserved (d : Dev) (p : Nat) : Nat :=
  ((d.seqs.resv.filter fun x => x.2.1 == p).map fun x => hBytes x.2.2).sum

/-- Bytes of all reserved frames. -/
def Dev.allReserved (d : Dev) : Nat := (d.seqs.resv.map fun x => hBytes x.2.2).sum

/-- Drop the reservation of a request. -/
def Dev.dropResv (d : Dev) (id : Nat) : Dev :=
  { d with seqs := { d.seqs with resv := d.seqs.resv.filter fun x => x.1 != id } }

/-- An allocation of `n` bytes lies within a patron's share (R260). -/
def Dev.within (d : Dev) (p n : Nat) : Bool := decide (d.charge p + n ≤ d.share p)

/-- Bytes of the pages that `n` more bytes of a patron's metadata take. -/
def Dev.pageNeed (d : Dev) (p n : Nat) : Nat := (ceilDiv (tgetD d.seqs.metaBytes p 0 + n) pageBytes - d.metaPages p) * pageBytes

/-- Metadata of `n` bytes can be had within a patron's share, from free space that no edit has reserved (R197, R217). -/
def Dev.metaFits (d : Dev) (p n : Nat) : Bool :=
  let more := d.pageNeed p n
  more == 0 || (d.within p more && decide (d.allReserved + more ≤ d.freeBytes))

/-- Patron `p` may name profile `n`: it is ACTIVE, and `p`'s own or shared (R148, R201). -/
def Dev.mayName (d : Dev) (p n : Nat) : Bool :=
  match tget d.seqs.profiles n with
  | some r => r.st == 1 && (r.owner == p || r.shared)
  | none => false

/-! ### Span residency (R255) -/

/-- Every layer is resident. -/
def Dev.resident (d : Dev) (s : Span) : Bool := decide ((d.prof s.profile).layers ≤ s.resLayers)

/-- A span is pinned, or held as if pinned under a tight fit (R283): pins are counted in the span. -/
def Span.pinned (s : Span) : Bool := decide (0 < s.pins)

/-- The age of a span (R257). -/
def Dev.ageOf (d : Dev) (last : Nat) : Nat := (d.tim.count % 2 ^ 32 + 2 ^ 32 - last % 2 ^ 32) % 2 ^ 32

/-- Touch a span (R257). -/
def Dev.touch (d : Dev) (i : Nat) : Dev := d.modSpan i fun s => { s with lastTick := d.tim.count % 2 ^ 32 }

end Sys2Proof.Machine
end

