-- ==== Sys2Proof/Machine/CatBase.lean ====
section
/-! DEFINITION. The catalogue's shared operations: span keys, scopes, verification, visibility, insertion, migration and withdrawal (R220 to R236). -/

namespace Sys2Proof.Machine

/-! ### References (R196) -/

/-- A span that exists: one whose REF_COUNT is zero waits for release and counts as absent (assumption 9). -/
def Dev.live? (d : Dev) (i : Nat) : Option Span :=
  match d.span? i with
  | some s => if s.ref = 0 then none else some s
  | none => none

/-- Raise a span's REF_COUNT. -/
def Dev.refUp (d : Dev) (i : Nat) : Dev := d.modSpan i fun s => { s with ref := s.ref + 1 }
/-- Lower a span's REF_COUNT. -/
def Dev.refDown (d : Dev) (i : Nat) : Dev := d.modSpan i fun s => { s with ref := s.ref - 1 }

/-- A count of REF_COUNT may not reach 0xFFFF_FFFF (R196). -/
def Span.refFull (s : Span) : Bool := decide (0xFFFF_FFFE ≤ s.ref)

/-! ### Scopes (R220, R230) -/

/-- Control word of shared scope `k` in force: ENABLE bit 0, die mask bits 2:1, limit from bit 6. -/
def Dev.shareCtrl (d : Dev) (k : Nat) : Nat := tgetD d.cat.ctrl k 0

/-- A patron holds a scope (R220). -/
def Dev.holds (d : Dev) (p scope : Nat) : Bool :=
  scope == p || (decide (64 ≤ scope) && bit (d.shareCtrl (scope - 64)) 0 && bit (tgetD d.cat.members (scope - 64) 0) p)

/-- Die mask of a scope: zero means both dies (R230). -/
def Dev.scopeMask (d : Dev) (scope : Nat) : Nat :=
  let m := if scope < 64 then d.reg regCatPrivp scope 0 0 else bits (d.shareCtrl (scope - 64)) 1 2
  if m = 0 then 3 else m

/-- Limit of a scope: zero for none (R252). -/
def Dev.scopeLimit (d : Dev) (scope : Nat) : Nat :=
  if scope < 64 then d.reg regCatPrivp scope 0 1 else bits (d.shareCtrl (scope - 64)) 6 26

/-- Entries of a scope. -/
def Dev.scopeEnts (d : Dev) (scope : Nat) : Nat := (d.cat.ents.filter fun e => e.2.scope == scope).length

/-! ### Slices and positions (R226, R229, R232) -/

/-- Slots on chip. -/
def onChipSlots : Nat := 262144
/-- Slots of a slice. -/
def sliceSlots : Nat := 16384
/-- A slot of a slice that is a hole (R229). -/
def isHole (i : Nat) : Bool := i % 16 == 15
/-- The global slot index of a way of an overflow bucket. -/
def overflowIndex (bucket way : Nat) : Nat := onChipSlots + 4 * bucket + way
/-- The two buckets of a key (R232). -/
def keyBuckets (key : Nat) : List Nat := [bits key 0 23, bits key 23 23]

/-- The slices of a die mask that are in service. -/
def Dev.slices (d : Dev) (mask : Nat) : List Nat :=
  (List.range 16).filter fun g => bit mask (g / 8) && !d.flt.out.contains g

/-- Entries of a slice, by slot. -/
def Dev.sliceEnts (d : Dev) (g : Nat) : List (Nat × CatEnt) :=
  d.cat.ents.filter fun e => decide (e.1 < onChipSlots) && e.1 / sliceSlots == g

/-- Free slots of a slice that are not holes. -/
def Dev.freeSlots (d : Dev) (g : Nat) : Nat :=
  15360 - ((d.sliceEnts g).filter fun e => !isHole (e.1 % sliceSlots)).length

/-- The next slot that is not a hole. -/
def nextSlot (i : Nat) : Nat := if isHole (i + 1) then i + 2 else i + 1

/-- The lowest number not in a rising list, under a successor. -/
def lowestFree (next : Nat → Nat) : List Nat → Nat → Nat
  | [], i => i
  | k :: t, i => if k = i then lowestFree next t (next i) else i

/-- The lowest free slot of a slice that is not a hole: which of several free ones is taken is the model's choice (DESIGN CHOICE,
assumption 134). -/
def Dev.freeSlot (d : Dev) (g : Nat) : Nat :=
  lowestFree nextSlot (((d.sliceEnts g).map (·.1 % sliceSlots)).filter (!isHole ·)) 0

/-- The lowest free hole of a slice. -/
def Dev.freeHole (d : Dev) (g : Nat) : Option Nat :=
  let h := lowestFree (· + 16) (((d.sliceEnts g).map (·.1 % sliceSlots)).filter isHole) 15
  if h < sliceSlots then some h else none

/-- The slice of a list with the most free slots; ties to the lowest (R230). -/
def Dev.roomiest (d : Dev) (gs : List Nat) : Option Nat :=
  gs.foldl (fun b g => match b with
    | none => some g
    | some h => if d.freeSlots h < d.freeSlots g then some g else b) none

/-! ### Keys (R222, R223) -/

/-- A salt (R221). -/
def Dev.salt (d : Dev) (scope : Nat) : List Byte := tgetD d.cat.salts scope []

/-- K of a span from its parent's key (R222). -/
def spanKeyHash (parentKey uid : Nat) (salt : List Byte) (tokens : List Nat) : Nat :=
  let k := leNat (shake256 (leBytes 8 parentKey ++ leBytes 8 uid ++ salt ++ tokens.flatMap (leBytes 4)) 8)
  if k = 0 then 1 else k

/-- K of a span in a scope, and the keys derived for it (R223). The key of an ancestor that no longer exists is a free
number of the draw in force (assumption 10). -/
def Dev.keyFrom (d : Dev) (scope : Nat) : Nat → Nat → Nat × Nat
  | 0, i => (leNat ((List.range 8).map fun j => Config.freeByte d.free (8 * i + j)), 0)
  | f + 1, i => match d.span? i with
    | none => (leNat ((List.range 8).map fun j => Config.freeByte d.free (8 * i + j)), 0)
    | some s =>
      if scope = s.owner ∧ s.key ≠ 0 then (s.key, 0) else
      let r := if s.firstPos = 0 then (0, 0) else d.keyFrom scope f s.parent
      (spanKeyHash r.1 (d.prof s.profile).uid (d.salt scope) s.tokens, r.2 + 1)

/-- K of a span: a chain of PARENT links is no longer than a table (R191). -/
def Dev.spanKey (d : Dev) (scope i : Nat) : Nat × Nat := d.keyFrom scope 65536 i

/-! ### Lookups and verification (R233, R235) -/

/-- Rank of an entry: class, then slot (R228). -/
def entBefore (a b : Nat × CatEnt) : Bool :=
  decide (a.2.cls < b.2.cls) || (a.2.cls == b.2.cls && decide (a.1 < b.1))

/-- The first of a list by rank. -/
def firstEnt (l : List (Nat × CatEnt)) : Option (Nat × CatEnt) :=
  l.foldl (fun b e => match b with
    | none => some e
    | some x => if entBefore e x then some e else b) none

/-- The checks of R235, the accepted parents given. -/
def Dev.verifies (d : Dev) (e : CatEnt) (tokens : List Nat) (profile firstPos : Nat) (parents : List Nat) : Bool :=
  match d.span? e.span with
  | some s => !s.damaged && s.tokens == tokens && s.profile == profile && s.firstPos == firstPos
      && parents.contains (if firstPos = 0 then 0 else s.parent)
  | none => false

/-- On-chip entries of a key in a scope that a lookup of a die mask finds (R236). -/
def Dev.keyOnChip (d : Dev) (mask scope key : Nat) : List (Nat × CatEnt) :=
  d.cat.ents.filter fun e => decide (e.1 < onChipSlots) && e.2.key == key && e.2.scope == scope
    && (d.slices mask).contains (e.1 / sliceSlots)

/-- Overflow entries of a key in a scope. -/
def Dev.keyOverflow (d : Dev) (scope key : Nat) : List (Nat × CatEnt) :=
  d.cat.ents.filter fun e => decide (onChipSlots ≤ e.1) && e.2.key == key && e.2.scope == scope

/-- The scope has an overflow entry. -/
def Dev.hasOverflow (d : Dev) (scope : Nat) : Bool :=
  d.cat.ents.any fun e => decide (onChipSlots ≤ e.1) && e.2.scope == scope

/-- A lookup finds an entry: its slice is in service, or it lies in the overflow index (R236). -/
def Dev.entServed (d : Dev) (i : Nat) : Bool := decide (onChipSlots ≤ i) || !d.flt.out.contains (i / sliceSlots)

/-- Where the entry of a span under a key in a scope stands: the first by rank that a lookup finds, on chip before overflow (R228, R236). -/
def Dev.entAt (d : Dev) (scope key span : Nat) : Option Nat :=
  let es := d.cat.ents.filter fun e => e.2.span == span && e.2.key == key && e.2.scope == scope && d.entServed e.1
  ((firstEnt (es.filter fun e => decide (e.1 < onChipSlots))).or (firstEnt es)).map (·.1)

/-- Visible to a patron (R236). -/
def Dev.visible (d : Dev) (p i : Nat) (s : Span) : Bool :=
  s.owner == p || d.cat.ents.any fun e =>
    decide (e.1 < onChipSlots) && e.2.span == i && !d.flt.out.contains (e.1 / sliceSlots) && d.holds p e.2.scope

/-- Visible to an edit: as the catalogue stood at the start of the execute phase, without the entries of this tick
(R249). -/
def Dev.visibleBefore (d : Dev) (p i : Nat) (s : Span) : Bool :=
  s.owner == p || d.cat.ents.any fun e =>
    decide (e.1 < onChipSlots) && e.2.span == i && !d.flt.out.contains (e.1 / sliceSlots) && d.holds p e.2.scope
      && e.2.made != d.tim.count

/-! ### Insertion, migration, withdrawal (R229–R234, R246) -/

/-- Put an entry at a position. -/
def Dev.setEnt (d : Dev) (i : Nat) (e : CatEnt) : Dev :=
  let d := if onChipSlots ≤ i then d.cleanReserve (.bucket ((i - onChipSlots) / 4)) else d
  { d with cat := { d.cat with ents := tset d.cat.ents i e } }
/-- Free a position. -/
def Dev.delEnt (d : Dev) (i : Nat) : Dev := { d with cat := { d.cat with ents := tdel d.cat.ents i } }

/-- Withdraw an entry: its reference is dropped. -/
def Dev.withdrawEnt (d : Dev) (i : Nat) : Dev :=
  match tget d.cat.ents i with
  | some e => (d.delEnt i).refDown e.span
  | none => d

/-- Withdraw every entry that passes a test. -/
def Dev.withdrawAll (d : Dev) (f : Nat → CatEnt → Bool) : Dev :=
  ((d.cat.ents.filter fun e => f e.1 e.2).map (·.1)).foldl Dev.withdrawEnt d

/-- Bits 25:10 of the tick number: STAMP (R225). -/
def Dev.stampNow (d : Dev) : Nat := bits d.tim.count 10 16

/-- Age of an entry by its stamp (R231). -/
def Dev.entAge (d : Dev) (e : CatEnt) : Nat := (d.stampNow + 65536 - e.stamp) % 65536

/-- The oldest of a list of entries: ties to the lowest slot. -/
def Dev.oldest (d : Dev) (l : List (Nat × CatEnt)) : Option (Nat × CatEnt) :=
  l.foldl (fun b e => match b with
    | none => some e
    | some x => if d.entAge x.2 < d.entAge e.2 then some e else b) none

/-- The entry a slice may migrate: its oldest of class 3, else of class 2; one whose span another patron owns is passed
over (R231). Nothing migrates while the overflow index is disabled. -/
def Dev.migrant (d : Dev) (g : Nat) : Option (Nat × CatEnt) :=
  if d.reg regCatCtrl 0 0 1 ≠ 1 then none else
  let own := (d.sliceEnts g).filter fun e => match d.span? e.2.span with
    | some s => s.owner == e.2.scope
    | none => false
  match d.oldest (own.filter (·.2.cls == 3)) with
  | some e => some e
  | none => d.oldest (own.filter (·.2.cls == 2))

/-- Move an entry to the overflow index (R232): a free way of its first bucket, of its second, or the place of the worst of
the eight stored and itself, which is withdrawn. Of several free ways the lowest is taken, and a migration is counted also where the
entry that migrates is the one withdrawn (R251; DESIGN CHOICE, assumption 134). -/
def Dev.toOverflow (d : Dev) (i : Nat) (e : CatEnt) : Dev :=
  let ways := (keyBuckets e.key).flatMap fun b => (List.range 4).map (overflowIndex b)
  let d := d.count .migrate 0
  match ways.find? fun w => (tget d.cat.ents w).isNone with
  | some w => (d.setEnt w e).delEnt i
  | none =>
    let stored := ways.filterMap fun w => (tget d.cat.ents w).map fun x => (w, x)
    let worse := fun (x y : Nat × CatEnt) => decide (y.2.cls < x.2.cls) || (y.2.cls == x.2.cls
      && (decide (d.entAge y.2 < d.entAge x.2) || (d.entAge y.2 == d.entAge x.2 && decide (x.1 < y.1))))
    let worst := (stored ++ [(i, e)]).foldl (fun b x => match b with
      | none => some x
      | some y => if worse x y then some x else b) none
    let d := d.count .capWithdraw 0
    match worst with
    | none => d
    | some (w, _) => if w = i then d.withdrawEnt i else ((d.withdrawEnt w).setEnt w e).delEnt i

/-- Place an entry with a free slot of a slice, at most one entry moving across each class boundary (R228, R229): the new
entry's slot and the device. -/
def Dev.placeEnt (d : Dev) (g f : Nat) (e : CatEnt) : Nat × Dev :=
  let base := g * sliceSlots
  let r := [3, 2, 1].foldl (fun (st : Nat × Dev) k =>
    if k ≤ e.cls then st else
    match (st.2.sliceEnts g).find? fun x => x.2.cls == k && decide (x.1 < base + st.1) with
    | some x => (x.1 - base, (st.2.setEnt (base + st.1) x.2).delEnt x.1)
    | none => st) (f, d)
  let r := [0, 1, 2].foldl (fun (st : Nat × Dev) k =>
    if e.cls ≤ k then st else
    match ((st.2.sliceEnts g).reverse).find? fun x => x.2.cls == k && decide (base + st.1 < x.1) with
    | some x => (x.1 - base, (st.2.setEnt (base + st.1) x.2).delEnt x.1)
    | none => st) r
  (base + r.1, r.2.setEnt (base + r.1) e)

/-- Free a slot in one of the slices (R231): by migration, or a hole for class 0 and 1; `none` when every slice fails. -/
def Dev.forceSlot (d : Dev) (cls : Nat) : List Nat → Option (Nat × Nat × Dev)
  | [] => none
  | g :: gs => match d.migrant g with
    | some (i, e) => some (g, i % sliceSlots, d.toOverflow i e)
    | none => match (if cls < 2 then d.freeHole g else none) with
      | some h => some (g, h, d)
      | none => d.forceSlot cls gs

/-- Insert a new entry within a die mask (R230, R231): its index and the device; `none` for QUOTA. -/
def Dev.insertEnt (d : Dev) (mask : Nat) (e : CatEnt) : Option (Nat × Dev) :=
  match d.roomiest (d.slices mask) with
  | none => none
  | some g =>
    if 0 < d.freeSlots g then some (d.placeEnt g (d.freeSlot g) e) else
    match d.forceSlot e.cls (d.slices mask) with
    | some (g, f, d) => some (d.placeEnt g f e)
    | none => none

/-- Move an overflow entry back on chip (R234), where a slice has a free slot. -/
def Dev.returnEnt (d : Dev) (i : Nat) (e : CatEnt) : Nat × Dev :=
  if d.reg regCatCtrl 0 0 0 ≠ 1 then (i, d) else
  match d.roomiest (d.slices (d.scopeMask e.scope)) with
  | none => (i, d)
  | some g => if d.freeSlots g = 0 then (i, d) else
    ((d.delEnt i).placeEnt g (d.freeSlot g) e).map id (·.count .returns 0)

end Sys2Proof.Machine
end

