-- ==== Sys2Proof/Machine/Stacks.lean ====
section
/-! DEFINITION. The stacks' shared operations: geometry, volumes, the governor, acceptance, programs, block states, health and span copies (R291 to R324). -/

namespace Sys2Proof.Machine

/-! ### Geometry (R291–R295) -/

/-- A block's key: channel, die position, block number. -/
def blockKey (ch die b : Nat) : Nat := (ch + 32 * die) * 2 ^ 22 + b
/-- Channel of a block. -/
def keyChannel (k : Nat) : Nat := k / 2 ^ 22 % 32
/-- Die position of a block. -/
def keyDie (k : Nat) : Nat := k / 2 ^ 22 / 32
/-- Number of a block within its die. -/
def keyBlock (k : Nat) : Nat := k % 2 ^ 22

/-- Bytes of a block. -/
def Dev.blockBytes (d : Dev) : Nat := d.stk.unitsPerBlock * 65536

/-- A block's record. -/
def Dev.fblock (d : Dev) (k : Nat) : FBlock := tgetD d.stk.blocks k {}

/-- Change a block's record. -/
def Dev.modBlock (d : Dev) (k : Nat) (f : FBlock → FBlock) : Dev :=
  { d with stk := { d.stk with blocks := tset d.stk.blocks k (f (d.fblock k)) } }

/-- A volume, if it exists. -/
def Dev.vol? (d : Dev) (v : Nat) : Option Volume := tget d.stk.volumes v

/-- Change a volume. -/
def Dev.modVol (d : Dev) (v : Nat) (f : Volume → Volume) : Dev :=
  { d with stk := { d.stk with volumes := tmod d.stk.volumes v f } }

/-- The die positions of a volume. -/
def Volume.dies (v : Volume) : List Nat := (List.range v.dieCount).map (v.dieFirst + ·)

/-- Keys of a volume's blocks outside the system area (R291, R292). -/
def Dev.volBlocks (d : Dev) (v : Volume) : List Nat :=
  v.dies.flatMap fun die => (List.range d.stk.channels).flatMap fun ch =>
    ((List.range d.stk.blocksPerDie).drop d.stk.systemBlocks).map (blockKey ch die)

/-- Blocks in service: not retired and not on a failed die. -/
def Dev.inService (d : Dev) (k : Nat) : Bool :=
  (d.fblock k).st != 7 && !d.stk.failedDies.contains (keyChannel k + 32 * keyDie k)

/-- A block of the system area, in pSLC: the first blocks of a die, and those that replaced retired ones (R291, R317). -/
def Dev.inSystem (d : Dev) (k : Nat) : Bool := decide (keyBlock k < d.stk.systemBlocks) || (d.fblock k).pslc

/-- In-service blocks of a volume. -/
def Dev.liveBlocks (d : Dev) (v : Volume) : Nat := ((d.volBlocks v).filter fun k => d.inService k && !d.inSystem k).length

/-- Units of data that `t` units of blocks hold: logical capacity (R294). -/
def capacityOf (ct210 : Bool) (w op t : Nat) : Nat :=
  if ct210 then t * (1000 - op) / 1000 else t * (w - 1) * (1000 - op) / (w * 1000)

/-- The channels in service at a die position (R293, R311). -/
def Dev.dieChannels (d : Dev) (die : Nat) : List Nat :=
  (List.range d.stk.channels).filter fun ch => !d.stk.failedDies.contains (ch + 32 * die)

/-- W of a volume: the in-service channels at every one of its die positions (R293, R294). -/
def Dev.volWidth (d : Dev) (v : Volume) : Nat := (v.dies.map fun die => (d.dieChannels die).length).foldl min d.stk.channels

/-- Programs and erases of a block's die wait (R323). -/
def Dev.diePaused (d : Dev) (k : Nat) : Bool := d.stk.paused.contains (keyChannel k + 32 * keyDie k)

/-- Blocks needed to hold a capacity under a parity scheme (R323). -/
def Dev.blocksFor (d : Dev) (v : Volume) : Nat :=
  let w := d.volWidth v
  if v.ct210 then ceilDiv v.capacity d.stk.unitsPerBlock
  else ceilDiv (v.capacity * w) ((w - 1) * d.stk.unitsPerBlock)

/-- Spare blocks (R323): a reserve of 4 block groups of W blocks is kept. -/
def Dev.spareBlocks (d : Dev) (v : Volume) : Nat := d.liveBlocks v - d.blocksFor v - 4 * d.volWidth v

/-- Spare level in percent of that at format. -/
def Dev.sparePct (d : Dev) (v : Volume) : Nat := if v.spareAtFormat = 0 then 0 else 100 * d.spareBlocks v / v.spareAtFormat

/-! ### Health (R323, R324) -/

/-- Write the spare events whose condition has arisen, and enter write-protect at no spare (R323, R324): before it every threshold has been
passed, whatever the spare blocks at format were. -/
def Dev.spareCheck (d : Dev) (v : Nat) : Dev :=
  match d.vol? v with
  | none => d
  | some x =>
    let sp := d.spareBlocks x
    let d := [10, 3, 1].foldl (fun d t =>
      match d.vol? v with
      | some x => if (d.spareBlocks x * 100 < t * x.spareAtFormat ∨ d.spareBlocks x = 0) ∧ !x.spareSeen.contains t then
          (d.devEvent 0x0201 (v + 256 * t) sp).modVol v fun x => { x with spareSeen := t :: x.spareSeen }
        else d
      | none => d) d
    if sp = 0 ∧ !x.protected_ then
      (d.devEvent 0x0205 (v + 256) sp).modVol v fun x => { x with protected_ := true }
    else d

/-- Those of some times that lie within the last hour. -/
def Dev.lastHour (d : Dev) (ts : List Nat) : List Nat := ts.filter fun t => decide (d.tim.now < t + 3600 * 10 ^ 9)

/-- A sector no stage recovers (R305, R323): reported when the last hour holds one more than the limit. -/
def Dev.uncorrectable (d : Dev) (v : Nat) : Dev :=
  let d := d.count .uncorr v
  match d.vol? v with
  | none => d
  | some x =>
    let ts := d.lastHour x.uncTimes ++ [d.tim.now]
    let n := ts.length
    let d := d.modVol v fun x => { x with uncTimes := ts }
    if n = d.reg regStkUncLimit + 1 then d.devEvent 0x0202 v n else d

/-! ### The wear governor (R320–R322) -/

/-- N: rated cycles in force for a volume. -/
def Dev.ratedOf (d : Dev) (v : Volume) : Nat := if v.ratedCycles = 0 then d.stk.ratedCycles else v.ratedCycles

/-- WA × 100, rounded up and at least 100, over the last 7 days or since format (R320). -/
def Volume.wa100 (v : Volume) (now : Nat) : Nat :=
  let week := 7 * 86400 * 10 ^ 9
  let base := (v.hist.filter fun s => s.1 + week ≤ now).foldl (fun b s => if b.1 ≤ s.1 then s else b) (0, 0, 0)
  let acc := v.accepted - base.2.1
  let prog := v.programmed - base.2.2
  if acc = 0 then 100 else max 100 (ceilDiv (100 * prog) acc)

/-- The daily budget B_v (R320). -/
def Dev.budgetOf (d : Dev) (v : Volume) : Nat :=
  let days := (d.tim.now - v.formatAt) / (86400 * 10 ^ 9)
  let dv := max 30 (v.lifeDays - days)
  (d.ratedOf v * v.dataBytes - v.erasedBytes) * 100 / (dv * v.wa100 d.tim.now)

/-- Recompute one volume's budget (R320). -/
def Dev.recompute (d : Dev) (v : Nat) : Dev := d.modVol v fun x => { x with budget := d.budgetOf x }

/-- The budgets of volumes whose attributes changed in the tick before are recomputed (R320). -/
def Dev.recalcBudgets (d : Dev) : Dev :=
  { d with stk := { d.stk with volumes := tmap d.stk.volumes fun _ x => if x.recalc then { x with budget := d.budgetOf x, recalc := false } else x } }

/-- Refill every volume's balance for one tick (R321). -/
def Dev.refillGovernor (d : Dev) : Dev :=
  { d with stk := { d.stk with acceptedTick := 0, volumes := tmap d.stk.volumes fun _ x =>
      { x with balance := min ((x.budget / 24 : Nat) : Int) (x.balance + (x.budget * d.tim.tickNs / (86400 * 10 ^ 9) : Nat)) } } }

/-- A demotion refused for lack of balance: counted, and reported once per second of device time (R322). -/
def Dev.throttle (d : Dev) (v bytes : Nat) : Dev :=
  let w := d.tim.now / 10 ^ 9
  let d := d.count .govRefused v bytes
  match d.vol? v with
  | none => d
  | some x =>
    if x.throttled ∧ x.refusedWindow = w then d.modVol v fun x => { x with refused := x.refused + bytes } else
    -- the window before this one
    let prev := if x.throttled ∧ x.refusedWindow + 1 = w then x.refused else 0
    (d.devEvent 0x0204 v prev).modVol v fun x =>
      { x with throttled := true, refusedWindow := w, refused := bytes, refusedPrev := prev }

/-! ### Acceptance (R299–R302) -/

/-- Staging size (R301). -/
def Dev.stagingBytes (d : Dev) : Nat := d.stk.rawGiB * 2 ^ 10

/-- Bytes accepted and not programmed. -/
def Dev.staged (d : Dev) : Nat := (d.stk.staging.map (·.2)).sum

/-- Bytes that may still be accepted in this tick: staging free, and P × L less what the tick accepted (R300). -/
def Dev.acceptRoom (d : Dev) : Nat :=
  min (d.stagingBytes - d.staged) (40 * d.stk.channels * d.tim.tickNs / 32 - d.stk.acceptedTick)

/-- Writes may be accepted: the stacks are enabled, found, and no power loss is in progress (R327, R561). -/
def Dev.stacksOn (d : Dev) : Bool := d.stk.discovered && d.reg regStkCtrl 0 0 0 == 1 && !d.pwr.pwrFail

/-- Units of a 64 KiB segment of the coarse map (R325). -/
def segmentUnits : Nat := 16384

/-- The map entry of a unit changes: its segment belongs to the next checkpoint (R325). -/
def Dev.mapChanged (d : Dev) (v u : Nat) : Dev :=
  let g := v * 2 ^ 32 + u / segmentUnits
  { d with stk := { d.stk with changed := if d.stk.changed.contains g then d.stk.changed else d.stk.changed ++ [g] } }

/-- Next state of a block that lost valid data (R316): RELOCATING or RETIRING and now empty. -/
def Dev.settleBlock (d : Dev) (k : Nat) : Dev :=
  let b := d.fblock k
  if !b.valid.isEmpty then d
  else if b.st = 5 then d.modBlock k fun b => { b with st := 0, refresh := false }
  else if b.st = 6 then
    let d := (d.modBlock k fun b => { b with st := 7 }).count .blkRetired b.volume
    d.spareCheck b.volume
  else d

/-- A sector of a fine-mapped unit among the valid data of a block; a whole unit is there under its own number (R296). -/
def fineKey (u j : Nat) : Nat := 2 ^ 48 + 16 * u + j

/-- Sectors of valid data in a block. -/
def FBlock.load (b : FBlock) : Nat := (b.valid.map fun k => if k < 2 ^ 48 then 16 else 1).sum

/-- A block no longer holds some valid data (R302). -/
def Dev.dropValid (d : Dev) (b k : Nat) : Dev := (d.modBlock b fun x => { x with valid := x.valid.filter (· != k) }).settleBlock b

/-- The location of a sector of a fine-mapped unit becomes invalid. -/
def Dev.unlocateSector (d : Dev) (u j : Nat) (f : FSector) : Dev :=
  match f.place with
  | some (b, _) => d.dropValid b (fineKey u j)
  | none => d

/-- The locations that a unit's data had become invalid (R302). -/
def Dev.unlocate (d : Dev) (u : Nat) (x : FUnit) : Dev :=
  if x.fine then x.sectors.foldl (fun (d : Dev) e => d.unlocateSector u e.1 e.2) d
  else if x.staged then d else d.dropValid x.block u

/-- Count what a volume accepted, into staging (R299, R302). -/
def Dev.staged_ (d : Dev) (v u bytes : Nat) : Dev :=
  let d := d.count .bytesAcc v bytes
  ({ d with stk := { d.stk with
      staging := d.stk.staging ++ [(v * 2 ^ 32 + u, bytes)], acceptedTick := d.stk.acceptedTick + bytes } }).mapChanged v u

/-- Accept a whole unit: the map points to staging, what it replaces is invalid (R302). -/
def Dev.acceptUnit (d : Dev) (v u bytes strm : Nat) (f : FUnit → FUnit) : Dev :=
  match d.vol? v with
  | none => d
  | some x =>
    let old := tget x.units u
    let d := match old with
      | some y => d.unlocate u y
      | none => d
    let y := old.getD {}
    let n : FUnit := f { y with staged := true, fine := false, strm := strm, seq := x.writeSeq,
                                sectors := tmap y.sectors fun _ c => { c with place := none, seq := x.writeSeq } }
    let d := d.modVol v fun x => { x with units := tset x.units u n, writeSeq := x.writeSeq + 1, accepted := x.accepted + bytes }
    d.staged_ v u bytes

/-- A unit as a fine-mapped one: the sectors of a programmed unit are where they were (R296). -/
def FUnit.toFine (y : FUnit) : FUnit :=
  if y.fine then y else
  { y with fine := true, sectors := tmap y.sectors fun j c => if y.staged then c else { c with place := some (y.block, 16 * y.loc + j) } }

/-- Accept one sector of a unit that is fine-mapped or becomes so: only the location of that sector becomes invalid (R296, R302). -/
def Dev.acceptFine (d : Dev) (v u j : Nat) (f : FSector) : Dev :=
  match d.vol? v with
  | none => d
  | some x =>
    let old := (tget x.units u).getD { fine := true }
    let y := old.toFine
    let d := if old.fine || old.staged then d else
      d.modBlock old.block fun b => { b with valid := b.valid.filter (· != u) ++ y.sectors.map fun e => fineKey u e.1 }
    let d := match tget y.sectors j with
      | some c => d.unlocateSector u j c
      | none => d
    let n : FUnit := { y with staged := true, strm := 0, seq := x.writeSeq, sectors := tset y.sectors j { f with place := none, seq := x.writeSeq } }
    let d := d.modVol v fun x => { x with units := tset x.units u n, writeSeq := x.writeSeq + 1, accepted := x.accepted + 4096 }
    d.staged_ v u 4096

/-! ### Span copies (R302, R254) -/

/-- Units of one frame of a class (R301). -/
def frameUnits (cls : Nat) : Nat := ceilDiv (classBytes cls) 65536

/-- Free units of a volume's logical space. -/
def Volume.freeUnits (v : Volume) : Nat := v.capacity - v.units.length

/-- The lowest run of `n` unmapped units at or above `i`: structural in the map. -/
def freeRun : Tab FUnit → Nat → Nat → Nat
  | [], i, _ => i
  | (k, _) :: t, i, n => if i + n ≤ k then i else freeRun t (max i (k + 1)) n

/-- The SPAN volume with the most free logical space (R302): ties to the lowest number. -/
def Dev.spanVolume (d : Dev) : Option Nat :=
  (d.stk.volumes.filter fun e => !e.2.region && !e.2.protected_).foldl (fun b e => match b with
    | none => some e.1
    | some k => match d.vol? k with
      | some x => if x.freeUnits < e.2.freeUnits then some e.1 else b
      | none => b) none

/-- The bytes of a span's copy on the stacks: flash-format frames of every layer. -/
def Profile.copyBytes (p : Profile) : Nat := p.layers * classBytes p.flashClass

/-- Bytes of unit `i` of a span's copy: the last unit of a frame is padded (R301). -/
def copyUnit (cls i : Nat) : Nat := min 65536 (classBytes cls - i % frameUnits cls * 65536)

/-- Where a copy of `n` units goes in a volume: the lowest run of unmapped units that no copy under way takes, within the logical capacity
(R294, R302). -/
def Dev.copyPlace (d : Dev) (v n : Nat) : Option Nat :=
  match d.vol? v with
  | none => none
  | some x =>
    let held := d.tier.demos.foldl (fun (t : Tab FUnit) e =>
      if e.2.target = 2 ∧ e.2.volume = v then (List.range e.2.units).foldl (fun t i => tset t (e.2.offset + i) ({} : FUnit)) t else t) x.units
    let u := freeRun held 0 n
    if u + n ≤ x.capacity then some u else none

/-- Accept `n` units of a span's copy that begins at unit `u`, from its unit `i` on. -/
def Dev.acceptCopy (d : Dev) (v u cls i n : Nat) : Dev :=
  (List.range n).foldl (fun (d : Dev) k => d.acceptUnit v (u + i + k) (copyUnit cls (i + k)) 2 id) d

/-- The object directory records a copy whose units are mapped (R302). -/
def Dev.recordCopy (d : Dev) (span : Nat) (c : FCopy) : Dev := { d with stk := { d.stk with copies := tset d.stk.copies span c } }

/-- Unmap a unit: discard (R318). -/
def Dev.unmapUnit (d : Dev) (v u : Nat) : Dev :=
  match (d.vol? v).bind fun x => tget x.units u with
  | none => d
  | some y =>
    let d := d.unlocate u y
    let d := { d with stk := { d.stk with staging := d.stk.staging.filter fun e => e.1 != v * 2 ^ 32 + u } }
    (d.modVol v fun x => { x with units := tdel x.units u }).mapChanged v u

/-- Remove a span's copy from the stacks: its units become unmapped (R318). -/
def Dev.dropCopy (d : Dev) (span : Nat) : Dev :=
  match tget d.stk.copies span with
  | none => d
  | some c =>
    let d := (List.range c.count).foldl (fun d i => d.unmapUnit c.volume (c.firstUnit + i)) d
    { d with stk := { d.stk with copies := tdel d.stk.copies span } }

/-- A copy on a tier ceases: its bit is cleared in the close phase (R256). -/
def Dev.copyCeases (d : Dev) (span tier : Nat) : Dev :=
  let d := if tier = 2 then d.dropCopy span else
    { d with tier := { d.tier with copies := tkeep d.tier.copies fun _ c => !(c.span == span && c.tier == tier) } }
  { d with tier := { d.tier with ceased := d.tier.ceased ++ [(span, tier)] } }

/-! ### Programs and block groups (R293, R299, R301, R326) -/

/-- The lowest ERASED block of a die outside the system area. -/
def Dev.erasedOn (d : Dev) (ch die : Nat) : Option Nat :=
  (d.stk.blocks.find? fun e => keyChannel e.1 == ch && keyDie e.1 == die && e.2.st == 1 && !d.inSystem e.1 && d.inService e.1).map (·.1)

/-- The members a new group would take at a die position: one ERASED block of each channel in service there (R293, R311). -/
def Dev.groupAt (d : Dev) (die : Nat) : Option (List Nat) :=
  let chs := d.dieChannels die
  if chs.isEmpty then none else allSome (chs.map fun ch => d.erasedOn ch die)

/-- The free block groups of a volume: what its ERASED blocks form, die position by die position (R313). -/
def Dev.freeGroups (d : Dev) (v : Volume) : Nat :=
  (v.dies.map fun die =>
    let n := (d.dieChannels die).map fun ch => (d.stk.blocks.filter fun e => keyChannel e.1 == ch && keyDie e.1 == die && e.2.st == 1
      && !d.inSystem e.1).length
    n.foldl min (n.headD 0)).sum

/-- Blocks that are in the replay set, or OPEN and about to be (R326). -/
def Dev.replaySize (d : Dev) : Nat := (d.stk.replay ++ (d.stk.blocks.filter fun e => e.2.st == 2).map (·.1)).eraseDups.length

/-- Open a block group for a stream where none is open, within the replay limit (R301, R316, R326). -/
def Dev.openGroup (d : Dev) (v strm : Nat) : Option (Nat × Dev) :=
  match tget d.stk.openGroups (v * 8 + strm) with
  | some g => some (g, d)
  | none => match (d.vol? v).bind fun x => x.dies.findSome? d.groupAt with
    | none => none
    | some ms =>
      if 2048 < d.replaySize + ms.length then none else
      let g := tfresh d.stk.groups 1
      let d := ms.foldl (fun d k => d.modBlock k fun b => { b with st := 2, strm := strm, volume := v, group := g }) d
      some (g, { d with stk := { d.stk with groups := tset d.stk.groups g { volume := v, strm := strm, members := ms }
                                            openGroups := tset d.stk.openGroups (v * 8 + strm) g } })

/-- A block has been programmed: it is in the replay set (R326). -/
def Dev.programmed (d : Dev) (k : Nat) : Dev :=
  let put := fun (l : List Nat) => if l.contains k then l else l ++ [k]
  { d with stk := { d.stk with replay := put d.stk.replay, replayNew := if d.stk.ckptRunning then put d.stk.replayNew else d.stk.replayNew } }

/-- Data units of a stripe of W members. -/
def stripeUnits (ct210 : Bool) (w : Nat) : Nat := if ct210 then w else w - 1

/-- Where data unit `k` of a group goes: stripe, and member block (R293): parity at member p mod W under NATIVE. A stripe is taken by 64 KiB
locations, which are one multi-plane page of a 4-plane die and two of a 2-plane die (DESIGN CHOICE for the latter, assumption 136). -/
def groupPlace (ct210 : Bool) (members : List Nat) (k : Nat) : Nat × Nat :=
  let w := members.length
  if ct210 then (k / w, members.getD (k % w) 0) else
  let p := k / (w - 1)
  let j := k % (w - 1)
  (p, members.getD (if j < p % w then j else j + 1) 0)

/-- Stripes that a group's members hold: the two highest UNIT values of a die are not used for data, so that a die's last block ends two
locations early (R295; assumption 118). -/
def Dev.groupStripes (d : Dev) (members : List Nat) : Nat :=
  d.stk.unitsPerBlock - (if members.any fun k => keyBlock k + 1 == d.stk.blocksPerDie then 2 else 0)

/-- Data units a group holds. -/
def Dev.groupSize (d : Dev) (ct210 : Bool) (members : List Nat) : Nat := stripeUnits ct210 members.length * d.groupStripes members

/-- The first data unit of a group at or above `k` that an OPEN member takes: members that failed are passed over (R311, R316). -/
def Dev.nextSlot (d : Dev) (ct210 : Bool) (ms : List Nat) : Nat → Nat → Nat
  | 0, k => k
  | n + 1, k => if (d.fblock (groupPlace ct210 ms k).2).st = 2 then k else d.nextSlot ct210 ms n (k + 1)

/-- The next data unit of an open group. -/
def Dev.groupNext (d : Dev) (ct210 : Bool) (gr : FGroup) : Nat :=
  d.nextSlot ct210 gr.members (d.groupSize ct210 gr.members - gr.filled) gr.filled

/-- Parity of the stripes `a` to `b - 1` of a group: programmed to the parity member under NATIVE (R309), written to the parity log in
pSLC under CT210 (R312). -/
def Dev.programParity (d : Dev) (v : Nat) (ct210 : Bool) (gr : FGroup) (a b : Nat) : Dev :=
  (List.range (b - a)).foldl (fun (d : Dev) i =>
    if ct210 then d.count .bytesPslc v 65536 else
    let m := gr.members.getD ((a + i) % gr.members.length) 0
    if (d.fblock m).st ≠ 2 then d else
    let d := ((d.modBlock m fun b => { b with filled := b.filled + 1 }).programmed m).count .bytesTlc v 65536
    d.modVol v fun x => { x with programmed := x.programmed + 65536 }) d

/-- A group goes on at its next unit: the parity of the stripes that are full is programmed; after the last one its OPEN members are
CLOSED, or VERIFYING under CT210 (R309, R316). -/
def Dev.groupGoesOn (d : Dev) (v strm g n : Nat) : Dev :=
  match d.vol? v, tget d.stk.groups g with
  | some x, some gr =>
    let per := stripeUnits x.ct210 gr.members.length
    let next := d.nextSlot x.ct210 gr.members (d.groupSize x.ct210 gr.members - n) n
    let d := d.programParity v x.ct210 gr (gr.filled / per) (next / per)
    let d := { d with stk := { d.stk with groups := tset d.stk.groups g { gr with filled := next } } }
    if next < d.groupSize x.ct210 gr.members then d else
    let d := gr.members.foldl (fun d k => d.modBlock k fun b =>
      if b.st = 2 then { b with st := if x.ct210 then 3 else 4, closeTick := d.tim.count } else b) d
    { d with stk := { d.stk with openGroups := tdel d.stk.openGroups (v * 8 + strm) } }
  | _, _ => d

/-- The data that a program puts into a block: a whole unit, or sectors of a fine-mapped one. -/
def progKeys (u : Nat) : Option (List Nat) → List Nat
  | none => [u]
  | some js => js.map (fineKey u)

/-- A unit after its program at a location of a block: whole, or some of its sectors (R295, R296). -/
def FUnit.at_ (y : FUnit) (blk loc strm : Nat) : Option (List Nat) → FUnit
  | none => { y with staged := false, fine := false, block := blk, loc := loc, strm := strm, sectors := tmap y.sectors fun _ c => { c with place := none } }
  | some js =>
    let secs := tmap y.sectors fun j c => if js.contains j then { c with place := some (blk, 16 * loc + j) } else c
    { y with strm := strm, sectors := secs, staged := secs.any fun e => e.2.place.isNone }

/-- The locations that a program replaces become invalid. -/
def Dev.unplace (d : Dev) (u : Nat) (y : FUnit) : Option (List Nat) → Dev
  | none => d.unlocate u y
  | some js => (y.sectors.filter fun e => js.contains e.1).foldl (fun (d : Dev) e => d.unlocateSector u e.1 e.2) d

/-- Program a unit, or some sectors of a fine-mapped one, into its stream's open group and map it there; what it replaces is invalid.
`none` when no group can be opened, or the die's programs wait (R323). -/
def Dev.programInto (d : Dev) (v u strm : Nat) (sel : Option (List Nat) := none) : Option Dev :=
  match d.openGroup v strm with
  | none => none
  | some (g, d) => match d.vol? v, tget d.stk.groups g with
    | some x, some gr =>
      let k := d.groupNext x.ct210 gr
      let (p, blk) := groupPlace x.ct210 gr.members k
      if d.groupSize x.ct210 gr.members ≤ k ∨ d.diePaused blk then none else
      let d := ((tget x.units u).map fun y => d.unplace u y sel).getD d
      let d := (d.modBlock blk fun b => { b with valid := b.valid ++ progKeys u sel, filled := b.filled + 1 }).programmed blk
      let d := d.modVol v fun x => { x with programmed := x.programmed + 65536, units := tmod x.units u fun y => y.at_ blk p strm sel }
      some (((d.count .bytesTlc v 65536).mapChanged v u).groupGoesOn v strm g (k + 1))
    | _, _ => none

/-- A retired block of the system area is replaced by the next good block of its die: one that holds no data (R317). -/
def Dev.replaceSystem (d : Dev) (k : Nat) : Dev :=
  if !d.inSystem k then d else
  let good := fun (b : Nat) =>
    let x := blockKey (keyChannel k) (keyDie k) b
    !d.inSystem x && decide ((d.fblock x).st < 2)
  match ((List.range d.stk.blocksPerDie).drop (keyBlock k + 1)).find? good with
  | some b => d.modBlock (blockKey (keyChannel k) (keyDie k) b) fun y => { y with pslc := true }
  | none => d

/-- Retire a block that failed: RETIRING until no valid unit remains (R316, R317). -/
def Dev.retireBlock (d : Dev) (k : Nat) : Dev :=
  let d := d.modBlock k fun b => { b with st := 6 }
  let die := keyChannel k + 32 * keyDie k
  let ts := d.lastHour (tgetD d.stk.retireTimes die []) ++ [d.tim.now]
  ({ d with stk := { d.stk with retireTimes := tset d.stk.retireTimes die ts } }.settleBlock k).replaceSystem k

/-- Every open group passes over the members that have failed. -/
def Dev.refitGroups (d : Dev) : Dev :=
  d.stk.openGroups.foldl (fun (d : Dev) e => match tget d.stk.groups e.2 with
    | some gr => d.groupGoesOn (e.1 / 8) (e.1 % 8) e.2 gr.filled
    | none => d) d

/-- Fail a die (R311): every block on it RETIRING, the event written. -/
def Dev.failDie (d : Dev) (ch die : Nat) : Dev :=
  if d.stk.failedDies.contains (ch + 32 * die) then d else
  let keys := (d.stk.blocks.filter fun e => keyChannel e.1 == ch && keyDie e.1 == die && e.2.st != 7).map (·.1)
  let units := (keys.map fun k => (d.fblock k).load).sum
  let d := { d with stk := { d.stk with failedDies := d.stk.failedDies ++ [ch + 32 * die] } }
  let d := (keys.foldl (fun d k => (d.modBlock k fun b => { b with st := 6 }).settleBlock k) d).refitGroups
  let d := d.devEvent 0x0206 (ch + 256 * die) (ceilDiv units 16)
  (List.range 8).foldl Dev.spareCheck d

/-- Fail the die of a block when more than 8 of its blocks were retired within the hour (R311). -/
def Dev.checkDie (d : Dev) (k : Nat) : Dev :=
  if 8 < (d.lastHour (tgetD d.stk.retireTimes (keyChannel k + 32 * keyDie k) [])).length then d.failDie (keyChannel k) (keyDie k) else d

/-- Relocation of a block that is scheduled for refresh starts: it is CLOSED, and refresh is enabled (R307, R316). -/
def Dev.startRefresh (d : Dev) (k : Nat) : Dev :=
  if (d.fblock k).refresh ∧ (d.fblock k).st = 4 ∧ d.reg regStkCtrl 0 0 2 = 1 then (d.modBlock k fun b => { b with st := 5 }).settleBlock k else d

/-- Schedule a block's refresh (R307, R308): it starts when the block is CLOSED. -/
def Dev.scheduleRefresh (d : Dev) (k : Nat) : Dev := (d.modBlock k fun b => { b with refresh := true }).startRefresh k

/-- Blocks that were scheduled before they were CLOSED, or while refresh was disabled, start at a tick edge. -/
def Dev.refreshWaiting (d : Dev) : Dev := ((d.stk.blocks.filter fun e => e.2.refresh).map (·.1)).foldl Dev.startRefresh d

/-- The blocks of a group. -/
def Dev.groupBlocks (d : Dev) (g : Nat) : List Nat := (d.stk.blocks.filter fun e => e.2.group == g).map (·.1)

/-- The parity log holds a CT210 group: a block of it has not passed its verification (R312). -/
def Dev.parityLogged (d : Dev) (g : Nat) : Bool :=
  (d.groupBlocks g).any fun k => (d.fblock k).st != 7 && !((tget d.stk.groups g).map (·.passed)).any fun l => l.contains k

/-! ### Formatting -/

/-- Make every block of a volume DIRTY, retired and retiring ones apart: those are RETIRED, for they hold nothing valid any more; and forget
its units and copies (R316, R329, R333). -/
def Dev.emptyVolume (d : Dev) (v : Nat) : Dev :=
  match d.vol? v with
  | none => d
  | some x =>
    let spans := (d.stk.copies.filter fun e => e.2.volume == v).map (·.1)
    let d := spans.foldl (fun d s => d.copyCeases s 2) d
    let d := (d.volBlocks x).foldl (fun d k =>
      let old := (d.fblock k).st
      let d := d.modBlock k fun b => if b.st = 7 then b else
        { b with st := if b.st = 6 then 7 else 0, valid := [], filled := 0, group := 0, refresh := false }
      if old = 6 then d.count .blkRetired v else d) d
    let d := { d with stk := { d.stk with
      openGroups := tkeep d.stk.openGroups fun k _ => k / 8 != v
      groups := tkeep d.stk.groups fun _ g => g.volume != v
      staging := d.stk.staging.filter fun e => e.1 / 2 ^ 32 != v }
                      tier := { d.tier with demos := tkeep d.tier.demos fun _ m => !(m.target == 2 && m.volume == v && m.left != 0) } }
    d.modVol v fun x => { x with units := [] }

end Sys2Proof.Machine
end

