-- ==== Sys2Proof/Machine/Spans.lean ====
section
/-! DEFINITION. Spans as objects of the tiers: tables, walks, vacating and release, capacity eviction, growth and the start of a promotion (R196, R214, R217, R255 to R266). -/

namespace Sys2Proof.Machine

/-- The parts of the device that stop with a device fault or a failing supply. -/
def Dev.halted (d : Dev) : Bool := d.flt.deviceFault || d.pwr.pwrFail

/-- The device is powered and not held by a tamper. -/
def Dev.powered (d : Dev) : Bool := !(d.boot.st == .off || d.boot.st == .tamperHold)

/-- The phases run only in their order, in a tick, while the device is not halted (R47). -/
def Dev.inPhase (d : Dev) (p : Phase) : Bool := d.tim.ticking && d.powered && !d.halted && d.tim.phase == p

/-! ### Tables and walks (R193, R213, R214) -/

/-- A table block. -/
def Dev.blk? (d : Dev) (n : Nat) : Option Blk := tget d.seqs.blks n

/-- The leaf blocks of a root. -/
def Dev.leaves (d : Dev) (root : Nat) : List Nat :=
  match d.blk? root with
  | some b => b.entries
  | none => []

/-- The spans a root lists, in order; root 0 lists none. -/
def Dev.listed (d : Dev) (root : Nat) : List Nat := (d.leaves root).flatMap d.leaves

/-- A sequence's last closed span (R132). -/
def Dev.lastListed (d : Dev) (r : Rec) : Option Nat := (d.listed r.root).getLast?

/-- Requests that may hold walks. -/
def AdmSt.held (a : AdmSt) : List Req := a.admitted ++ a.sealed_ ++ a.planned ++ a.waiting ++ a.ended

/-- A slot of a layer stream holds the span by its walk (R213). -/
def Dev.streamHeld (d : Dev) (i : Nat) : Bool :=
  d.tier.streams.any fun e => (e.2.walk.toList ++ e.2.ended).any fun w => w.spans.contains i

/-- A walk holds the span (R214). -/
def Dev.walkHeld (d : Dev) (i : Nat) : Bool :=
  d.adm.held.any (fun q => q.holds.contains i || q.walks.any fun w => w.spans.contains i) || d.streamHeld i

/-- Operations with a deadline (R57). -/
def deadlined (op : Nat) : Bool := [0x01, 0x02, 0x10, 0x32, 0x22].contains op

/-- A sequence's last listed span that is CLOSED (R283). -/
def Dev.lastClosed (d : Dev) (r : Rec) : Option Nat :=
  (d.listed r.root).reverse.find? fun i => ((d.span? i).map fun s => s.st == 3).getD false

/-- Held as if pinned under a tight fit (R283). -/
def Dev.fitHeld (d : Dev) (i : Nat) (s : Span) : Bool :=
  decide ((d.prof s.profile).shortfall ≠ 0)
    && (s.firstPos == 0 || d.seqs.recs.any fun r => d.lastClosed r.2 == some i)

/-! ### Losing frames -/

/-- Forget the poisoned lines of a span's frames that a test selects by layer and form: the frames are freed, and their entries
leave the poison tables with them (R448). -/
def Dev.clearLines (d : Dev) (i : Nat) (sel : Nat → Nat → Bool) : Dev :=
  let gone := d.flt.frames.filter fun x => x.1 == i && sel x.2.1 x.2.2.1
  if gone.isEmpty then d else
  let offs := gone.map (·.2.2.2)
  { d with flt := { d.flt with frames := d.flt.frames.filter (fun x => !(x.1 == i && sel x.2.1 x.2.2.1))
                               tables := tkeep d.flt.tables fun _ x => !offs.contains x } }

/-- Forget the poisoned lines of a span's frames of some forms. -/
def Dev.clearPoison (d : Dev) (i : Nat) (form : Nat → Bool) : Dev := d.clearLines i fun _ f => form f

/-- Free every frame of a span in this tick's close phase: none is resident then. -/
def Dev.loseFrames (d : Dev) (i : Nat) : Dev :=
  match d.span? i with
  | none => d
  | some s => ((d.freeAllLater s.handles).modSpan i fun s => { s with
      frames := s.frames.map fun _ => {}, resLayers := 0, rows := [], tails := [], closed := [], tailHeld := false
      twinHeld := false }).clearPoison i fun _ => true

/-- Release a twin alone (R145, R262). -/
def Dev.loseTwin (d : Dev) (i : Nat) : Dev :=
  match d.span? i with
  | none => d
  | some s => ((d.freeAllLater (s.frames.map (·.twin))).modSpan i fun s => { s with
      frames := s.frames.map fun f => { f with twin := 0 }, rows := [], twinHeld := false }).clearPoison i (· == 2)

/-- Release a tail copy (R132). -/
def Dev.loseTail (d : Dev) (i : Nat) : Dev :=
  match d.span? i with
  | none => d
  | some s => ((d.freeAllLater (s.frames.map (·.tail))).modSpan i fun s => { s with
      frames := s.frames.map fun f => { f with tail := 0 }, tails := [], tailHeld := false }).clearPoison i (· == 1)

/-- A line of a layer's frame of one form is poisoned. -/
def Dev.frameBad (d : Dev) (i layer form : Nat) : Bool := d.flt.frames.any fun f => f.1 == i && f.2.1 == layer && f.2.2.1 == form

/-- A reader reaches a span's tail or twin frames of a layer: the poisoned ones are released, and it uses the skim data (R450). -/
def Dev.shedBad (d : Dev) (layer : Nat) (tail twin : Bool) (i : Nat) : Dev :=
  let d := if tail && d.frameBad i layer 1 then d.loseTail i else d
  if twin && d.frameBad i layer 2 then d.loseTwin i else d

/-- PERSIST of a region (R385). -/
def Region.persist (r : Region) : Bool := bit r.attrs 3

/-- A demotion under way is given up: what the stacks have accepted of it becomes unmapped. -/
def Dev.dropDemo (d : Dev) (i : Nat) : Dev :=
  match tget d.tier.demos i with
  | none => d
  | some m =>
    let d := { d with tier := { d.tier with demos := tdel d.tier.demos i } }
    -- the units of a persisted region are written through, and stay (R408)
    let kept := decide (2 ^ 40 ≤ i) && ((tget d.rgn.slots ((i - 2 ^ 40) / 2 ^ 17)).map (·.persist)).getD false
    if m.target ≠ 2 ∨ m.left = 0 ∨ kept then d else (List.range m.done).foldl (fun (d : Dev) k => d.unmapUnit m.volume (m.offset + k)) d

/-- Stop the movements of a span. -/
def Dev.stopMoves (d : Dev) (i : Nat) : Dev :=
  ({ d.dropDemo i with tier := { (d.dropDemo i).tier with promos := tdel d.tier.promos i } }).modSpan i fun s => { s with moveLock := false }

/-- Remove every lower-tier copy of a span, with the copy records' metadata (R255, R197). -/
def Dev.dropCopies (d : Dev) (i : Nat) : Dev :=
  let n := (d.tier.copies.filter fun e => e.2.span == i).length
  let d := { d.dropCopy i with tier := { d.tier with copies := tkeep d.tier.copies fun _ c => c.span != i } }
  match d.span? i with
  | none => d
  | some s => (d.dropMeta s.owner (32 * n)).modSpan i fun s => { s with onShelf := false, onStacks := false, onRemote := false }

/-- Cancel a churn: what it has written is released in this tick's close phase (R141). -/
def Dev.cancelChurn (d : Dev) (i : Nat) : Dev :=
  let rec_ := tgetD d.seqs.churn i []
  let d := d.freeAllLater (rec_.flatMap fun e => [e.2.primary, e.2.tail])
  let d := { d with seqs := { d.seqs with churn := tdel d.seqs.churn i } }
  let own := ((d.span? i).map (·.owner)).getD 0
  (d.modSpan i fun s => { s with churnAt := none }).count .churnCancel own

/-- A span is vacated or released before its churn has ended (R141). -/
def Dev.stopChurn (d : Dev) (i : Nat) : Dev :=
  if ((d.span? i).bind (·.churnAt)).isSome ∨ (tget d.seqs.churn i).isSome then d.cancelChurn i else d

/-- A span becomes VACANT (R215): frames and copies gone, FILL 0; key, parent and tokens kept. -/
def Dev.vacate (d : Dev) (i : Nat) : Dev :=
  (((d.stopChurn i).loseFrames i).dropCopies i |>.stopMoves i).modSpan i fun s => { s with
    st := 4, fill := 0, refillSeq := 0, streamed := false }

/-- Metadata bytes of a span: descriptor, frame list and token block (R197). -/
def spanMeta (layers : Nat) : Nat := 64 + 16 * layers + 1024

/-- Release a span whose REF_COUNT is zero (R196): its frames, metadata, copies, pins and entries go. -/
def Dev.releaseSpan (d : Dev) (i : Nat) : Dev :=
  match d.span? i with
  | none => d
  | some s =>
    let d := (((d.stopChurn i).loseFrames i).dropCopies i).stopMoves i
    let d := d.dropMeta s.owner (spanMeta s.frames.length)
    let pins := d.tier.pins.filter fun x => x.kind == 0 && x.id == i
    let d := pins.foldl (fun d x => d.dropMeta x.patron 16) d
    let d := { d with tier := { d.tier with pins := d.tier.pins.filter fun x => !(x.kind == 0 && x.id == i) }
                      cat := { d.cat with ents := tkeep d.cat.ents fun _ e => e.span != i } }
    { d with seqs := { d.seqs with spans := tdel d.seqs.spans i } }.cleanReserve (.spanMeta i)

/-- Release every span whose count is zero (R196). -/
def Dev.releaseZero (d : Dev) : Dev :=
  ((d.seqs.spans.filter fun e => e.2.ref == 0).map (·.1)).foldl Dev.releaseSpan d

/-- Spans whose count is zero. -/
def Dev.zeroSpans (d : Dev) : Nat := (d.seqs.spans.filter fun e => e.2.ref == 0).length

/-! ### Region units on the stacks (R262, R267) -/

/-- A region is durable. -/
def Region.durable (r : Region) : Bool := r.attrs % 4 == 3

/-- First 64 KiB unit of flash space of unit `u` of slot `x`. -/
def flashUnit (x u : Nat) : Nat := x * 2 ^ 22 + 32 * u

/-- The volume a region's units go to: its own, or the REGION volume with the most free space (assumption 12). -/
def Dev.regionVolume (d : Dev) (r : Region) : Option Nat :=
  if bit r.attrs 3 then some r.volume else
  (d.stk.volumes.filter fun e => e.2.region && !e.2.protected_ && decide (32 ≤ e.2.freeUnits)).foldl (fun b e => match b with
    | none => some e.1
    | some k => match d.vol? k with
      | some x => if x.freeUnits < e.2.freeUnits then some e.1 else b
      | none => b) none

/-- Change a region unit. -/
def Dev.modUnit (d : Dev) (k : Nat) (f : RUnit → RUnit) : Dev :=
  { d with rgn := { d.rgn with units := tmod d.rgn.units k f } }

/-- Sectors of a flash unit of a region as a whole write leaves them: under the key of the region's owner (R298). Those of a persisted
region hold what was written through (R408). -/
def Dev.wrapUnit (d : Dev) (k : Nat) (y : FUnit) : FUnit :=
  if ((tget d.rgn.slots (k / 2 ^ 17)).map (·.persist)).getD false then y else
  let p := ((tget d.rgn.slots (k / 2 ^ 17)).map d.unitPatron).getD 0
  let e := tgetD d.sec.gens p 0 % 256
  { y with sectors := (List.range 16).foldl (fun t j =>
    tset t j { (tgetD t j ({} : FSector)) with key := p, epoch := e, bad := false, seq := y.seq }) y.sectors }

/-- Accept flash units `i` to `i + n - 1` of a region unit: stream REGION (R301). -/
def Dev.acceptPart (d : Dev) (k v u i n : Nat) : Dev :=
  (List.range n).foldl (fun (d : Dev) j => d.acceptUnit v (u + i + j) 65536 1 (d.wrapUnit k)) d

/-- The stacks hold the whole of a unit: its discarded sectors are written again (R318). -/
def Dev.unitCopied (d : Dev) (k : Nat) : Dev :=
  let d := { d with stk := { d.stk with prior := tkeep d.stk.prior fun s _ => s / 512 != k } }
  (d.modUnit k fun u => { u with onStacks := true }).count2 .demotions 0 2 1

/-- The copy record number of a region unit (R253). -/
def unitTag (k : Nat) : Nat := 2 ^ 40 + k

/-- The demotion of a region unit to the stacks begins: it is accepted part by part (R262, R300). -/
def Dev.startUnitDemo (d : Dev) (k v : Nat) : Dev :=
  let m : Demo := { left := unitBytes, target := 2, volume := v, offset := flashUnit (k / 2 ^ 17) (k % 2 ^ 17), units := 32 }
  { d.startUnit 3 unitBytes with tier := { d.tier with demos := tset d.tier.demos (unitTag k) m } }

/-- The unit's lower-tier copy is stale: its units are unmapped (R302), its copy record goes, and so does a demotion under way. -/
def Dev.staleUnit (d : Dev) (k : Nat) : Dev :=
  let d := d.dropDemo (unitTag k)
  let vs := (d.stk.volumes.filter fun e => e.2.region).map (·.1)
  let d := vs.foldl (fun d v =>
    (List.range 32).foldl (fun d i => d.unmapUnit v (flashUnit (k / 2 ^ 17) (k % 2 ^ 17) + i)) d) d
  let d := { d with tier := { d.tier with copies := tkeep d.tier.copies fun _ c => c.span != unitTag k } }
  d.modUnit k fun u => { u with onStacks := false }

/-! ### Candidates of capacity eviction (R261) -/

/-- Insert into a list ordered by a test. -/
def insertBy {α : Type} (lt : α → α → Bool) (x : α) : List α → List α
  | [] => [x]
  | y :: ys => if lt x y then x :: y :: ys else y :: insertBy lt x ys

/-- Stable sort. -/
def sortBy {α : Type} (lt : α → α → Bool) (l : List α) : List α := l.reverse.foldl (fun r x => insertBy lt x r) []

/-- A span may be a victim. One that is move-locked is looked at for a patron eviction alone (R266, R284). -/
def Dev.spanCand (d : Dev) (i : Nat) (s : Span) : Bool :=
  s.st == 3 && decide (0 < s.resLayers) && s.pins == 0 && !s.tailHeld && !d.walkHeld i && !d.fitHeld i s

/-- A twin may be a victim. -/
def Dev.twinCand (d : Dev) (i : Nat) (s : Span) : Bool :=
  s.st == 3 && s.twinHeld && s.pins == 0 && !s.moveLock && !d.walkHeld i && !d.fitHeld i s

/-- A region unit may be a victim: resident, unpinned, its region not durable and preferring another tier. -/
def Dev.unitCand (d : Dev) (k : Nat) (u : RUnit) : Bool :=
  match tget d.rgn.slots (k / 2 ^ 17) with
  | some r => u.resident && u.pins == 0 && !r.durable && decide (2 ≤ r.pref)
  | none => false

/-- A candidate: group of R261, age, kind 0 span, 1 twin, 2 unit, and key. -/
structure Cand where
  group : Nat
  age : Nat
  kind : Nat
  key : Nat
  deriving DecidableEq, Repr

/-- Order of R261: group, greatest age, spans before units, index. -/
def Cand.before (a b : Cand) : Bool :=
  decide (a.group < b.group) || (a.group == b.group && (decide (b.age < a.age) || (a.age == b.age
    && (decide (a.kind < b.kind) || (a.kind == b.kind && decide (a.key < b.key))))))

/-- The candidates in capacity-eviction order (R261). -/
def Dev.candidates (d : Dev) : List Cand :=
  let twins := (d.seqs.spans.filter fun e => d.twinCand e.1 e.2).map fun e =>
    { group := 0, age := d.ageOf e.2.lastTick, kind := 1, key := e.1 : Cand }
  let spans := (d.seqs.spans.filter fun e => d.spanCand e.1 e.2).map fun e =>
    { group := if e.2.charged = 0 then 1 else 2, age := d.ageOf e.2.lastTick, kind := 0, key := e.1 : Cand }
  let units := (d.rgn.units.filter fun e => d.unitCand e.1 e.2).map fun e =>
    { group := 2, age := d.ageOf e.2.lastTick, kind := 2, key := e.1 : Cand }
  sortBy Cand.before (twins ++ spans ++ units)

/-! ### Taking victims (R217, R260, R262) -/

/-- A span holds a copy on a lower tier. -/
def Span.copied (s : Span) : Bool := s.onShelf || s.onStacks || s.onRemote

/-- What eviction has come to: a scratch device on which the victims are already gone, the victims, the patron evictions,
the demotions refused for lack of balance, and the demotions suppressed. -/
structure Evict where
  dev : Dev
  victims : List (Nat × Nat) := []
  evicts : List Nat := []
  refused : List (Nat × Nat × Nat) := []
  supp : List Nat := []

/-- Take a victim on the scratch device: its frames are free at once there. -/
def Dev.scratchTake (d : Dev) (v : Nat × Nat) : Dev :=
  if v.2 ≤ 2 then (d.loseFrames v.1).releaseFreed
  else if v.2 = 3 then (d.loseTwin v.1).releaseFreed
  else d.modUnit v.1 fun u => { u with resident := false }

/-- Bytes accepted by the stacks on the scratch device (R300). -/
def Dev.scratchAccept (d : Dev) (v bytes : Nat) : Dev :=
  let d := d.modVol v fun x => { x with balance := x.balance - bytes }
  { d with stk := { d.stk with acceptedTick := d.stk.acceptedTick + bytes, staging := d.stk.staging ++ [(0, bytes)] } }

/-- A demotion of `bytes` to a volume: accepted whole in this tick, refused for balance, or refused otherwise (R217, R300,
R321, R436). -/
inductive Room where
  | accepts (volume : Nat)
  | balance (volume : Nat)
  | no
  deriving DecidableEq, Repr

/-- Whether a volume takes `bytes` in this tick. -/
def Dev.demoteRoom (d : Dev) (v : Option Nat) (bytes : Nat) : Room :=
  match v.bind fun k => (d.vol? k).map fun x => (k, x) with
  | none => .no
  | some (k, x) =>
    if !d.stacksOn || x.protected_ then .no
    else if decide (x.balance < bytes) then .balance k
    else if d.acceptRoom < bytes then .no else .accepts k

/-- Flash units of a region unit that the stacks do not map yet. -/
def Volume.unmapped (x : Volume) (k : Nat) : Nat :=
  ((List.range 32).filter fun i => (tget x.units (flashUnit (k / 2 ^ 17) (k % 2 ^ 17) + i)).isNone).length

/-- The volume that takes a region unit: writes may be accepted, and its logical capacity holds the unit (R262, R294). -/
def Dev.unitRoom (d : Dev) (k : Nat) (r : Region) : Option Nat :=
  match (d.regionVolume r).bind fun v => (d.vol? v).map fun x => (v, x) with
  | none => none
  | some (v, x) => if !d.stacksOn || x.protected_ || decide (x.freeUnits < x.unmapped k) then none else some v

/-- Flash units of a span's copy. -/
def Profile.copyUnits (p : Profile) : Nat := p.layers * frameUnits p.flashClass

/-- A span's frames lie in a cluster that is out of service: it cannot be read (R26, R32). -/
def Dev.frameOut (d : Dev) (s : Span) : Bool :=
  !d.flt.out.isEmpty && s.frames.any fun f => [f.primary, f.tail, f.twin].any fun h => h != 0 && d.flt.out.contains (hCluster h)

/-- Take one victim, with or without dropping, or note why not; what would be demoted is no victim while it cannot be read (R26, R32). -/
def Evict.take (e : Evict) (drop demote : Bool) (c : Cand) : Evict :=
  let put := fun (e : Evict) act => { e with dev := e.dev.scratchTake (c.key, act), victims := e.victims ++ [(c.key, act)] }
  let move := fun (e : Evict) (room : Room) (bytes act : Nat) => match room with
    | .accepts v => put { e with dev := e.dev.scratchAccept v bytes } act
    | .balance v => if e.refused.contains (c.key, v, bytes) then e else { e with refused := e.refused ++ [(c.key, v, bytes)] }
    | .no => e
  if c.kind = 1 then (if drop then e else put e 3)
  else if c.kind = 2 then
    if drop then e else
    match tget e.dev.rgn.units c.key, tget e.dev.rgn.slots (c.key / 2 ^ 17) with
    | some u, some r =>
      if u.onStacks then put e 4
      else if e.dev.flt.out.contains u.cluster ∨ (e.dev.unitRoom c.key r).isNone then e
      else if !e.dev.mayStart 3 then (if e.supp.contains c.key then e else { e with supp := e.supp ++ [c.key] })
      else put e 5
    | _, _ => e
  else match e.dev.span? c.key with
    | none => e
    | some s =>
      if s.moveLock then e
      else if s.copied then (if drop then e else put e 1)
      else if drop then put e 0
      else if !demote ∨ e.dev.frameOut s then e
      else if !e.dev.mayStart 3 then (if e.supp.contains c.key then e else { e with supp := e.supp ++ [c.key] })
      else
        let n := (e.dev.prof s.profile).copyBytes
        let fits := fun k => (e.dev.copyPlace k (e.dev.prof s.profile).copyUnits).isSome
        move e (e.dev.demoteRoom (e.dev.spanVolume.filter fits) n) n 2

/-- Patrons a candidate is charged to. -/
def Dev.candCharged (d : Dev) (c : Cand) : Nat :=
  if c.kind = 2 then
    match tget d.rgn.slots (c.key / 2 ^ 17) with
    | some r => 2 ^ d.unitPatron r
    | none => 0
  else match d.span? c.key with
    | some s => s.charged
    | none => 0

/-- Taking the candidate leaves every other patron at or above its floor (R260): region units are held to it as spans are (DESIGN CHOICE,
assumption 135). -/
def Dev.floorsKept (d : Dev) (p : Nat) (c : Cand) : Bool :=
  let ch := d.candCharged c
  let bytes := if c.kind = 2 then unitBytes else match d.span? c.key with
    | some s => s.frameBytes
    | none => 0
  (List.range 64).all fun q => q == p || !bit ch q || decide (d.floor q * 2 ^ 30 ≤ d.charge q - divCharge ch q bytes)

/-- A span whose promotion for another patron is under way (R266). -/
def Dev.lockedFor (d : Dev) (p : Nat) (c : Cand) : Bool :=
  c.kind == 0 && ((d.span? c.key).map (·.moveLock)).getD false && ((tget d.tier.promos c.key).map fun m => m.patron != p).getD false

/-- One candidate under the restriction for an allocation beyond the share (R260): a victim when charged to the patron
alone, a patron eviction when others are charged too, or when it is being promoted for another (R266, R284). -/
def Evict.stepOver (e : Evict) (drop demote : Bool) (p : Nat) (c : Cand) : Evict :=
  let ch := e.dev.candCharged c
  let locked := c.kind == 0 && ((e.dev.span? c.key).map (·.moveLock)).getD false
  if !bit ch p ∨ (locked ∧ !e.dev.lockedFor p c) then e
  else if ch = 2 ^ p ∧ !locked then e.take drop demote c
  else if drop then e
  else { e with dev := e.dev.modSpan c.key fun s => { s with charged := s.charged - 2 ^ p }, evicts := e.evicts ++ [c.key] }

/-- One pass over the candidates of the scratch device: beyond the share while it is exceeded, within it until the need
fits. -/
def Evict.pass (e : Evict) (beyond : Bool) (drop demote lim : Bool) (p : Nat) (isOver fits : Dev → Bool) : Evict :=
  e.dev.candidates.foldl (fun e c =>
    if beyond then (if lim && isOver e.dev then e.stepOver drop demote p c else e)
    else if (lim && isOver e.dev) || fits e.dev then e
    else if !lim || e.dev.floorsKept p c then e.take drop demote c else e) e

/-- Free space for a need (R217, R260): `none` when no choice of victims meets it. With `lim` the restrictions of R260 hold
for patron `p`. -/
def Dev.evictFor (d : Dev) (lim demote : Bool) (p : Nat) (isOver fits : Dev → Bool) : Option Evict × Evict :=
  let e0 : Evict := { dev := { d with seqs := { d.seqs with freeing := [] } } }
  let run := fun (e : Evict) (beyond drop : Bool) => e.pass beyond drop demote lim p isOver fits
  let e := run (run (run (run (run e0 true false) false false) true true) false false) false true
  (if !(lim && isOver e.dev) && fits e.dev then some e else none, e)

/-- Report the demotions refused for lack of balance and those suppressed (R322, R436, R442). -/
def Dev.noteRefused (d : Dev) (e : Evict) : Dev :=
  let d := e.refused.foldl (fun d x => d.throttle x.2.1 x.2.2) d
  d.count .growthSupp 0 e.supp.length

/-- Make the patron evictions of a plan for patron `p` (R260); a promotion that it joined does not set its bit again (R284). -/
def Dev.evictPatron (d : Dev) (p i : Nat) : Dev :=
  let d := { d with tier := { d.tier with promos := tmod d.tier.promos i fun m =>
    { m with joined := if bit m.joined p then m.joined - 2 ^ p else m.joined } } }
  match d.span? i with
  | some s => if bit s.charged p then
      (d.modSpan i fun s => { s with charged := s.charged - 2 ^ p }).count .patronEvict p else d
  | none => d

/-! ### Applying victims (R262): end of the execute phase, or at once -/

/-- The folio a tier holds of a layer. -/
def Dev.folioOn (d : Dev) (i layer tier : Nat) : Option Closed :=
  if tier = 2 then (tget d.stk.copies i).bind fun c => tget c.folios layer
  else ((d.tier.copies.find? fun e => e.2.span == i && e.2.tier == tier).map (·.2)).bind fun c => tget c.folios layer

/-- The source of a promotion: loan shelves, remote, stacks. -/
def Span.source (s : Span) : Nat := if s.onShelf then 1 else if s.onRemote then 3 else 2

/-- The closed folios of every layer: from the reading room, or from the copy that a promotion would read (R262, R264). -/
def Dev.wholeFolios (d : Dev) (i : Nat) (s : Span) : Option (Tab Closed) :=
  allSome ((List.range s.frames.length).map fun l =>
    ((if l < s.resLayers then tget s.closed l else none).or (if s.copied then d.folioOn i l s.source else none)).map fun c => (l, c))

/-- The stacks hold the whole of a span, in the flash format: the object directory records the copy (R146, R262, R302). -/
def Dev.spanCopied (d : Dev) (i v u : Nat) : Dev :=
  match d.span? i with
  | none => d
  | some s =>
    let pr := d.prof s.profile
    let tr := ((d.wholeFolios i s).getD s.closed).map fun e => (e.1, transcode pr d.tim.count e.2)
    let d := d.count .clipped 0 ((tr.map fun e => e.2.2).sum)
    let d := d.count .transcoded 0 (s.closed.filter fun e => e.2.format != pr.flash).length
    let d := d.recordCopy i { volume := v, firstUnit := u, count := pr.copyUnits, folios := tr.map fun e => (e.1, e.2.1)
                              key := s.owner, epoch := tgetD d.sec.gens s.owner 0 % 256 }
    (d.modSpan i fun s => { s with onStacks := true }).count2 .demotions 0 2 1

/-- Demote a span to the stacks at once: accepted whole (R217, R262). -/
def Dev.demoteSpan (d : Dev) (i v u : Nat) : Dev :=
  match d.span? i with
  | none => d
  | some s =>
    let pr := d.prof s.profile
    (d.acceptCopy v u pr.flashClass 0 pr.copyUnits).spanCopied i v u

/-- What a victim's number says: 16 is added where a promotion or a unit takes it, for growth and churn alone are counted (R219). -/
def victimAct (v : Nat × Nat) : Nat := v.2 % 16
/-- The victim was taken for growth or a churn. -/
def victimGrowth (v : Nat × Nat) : Bool := decide (v.2 < 16)
/-- Victims taken for something else. -/
def notGrowth (vs : List (Nat × Nat)) : List (Nat × Nat) := vs.map fun v => (v.1, victimAct v + 16)

/-- A victim waits: a walk holds it (R262), or it is to be demoted and cannot be read. -/
def Dev.victimWaits (d : Dev) (v : Nat × Nat) : Bool :=
  if 4 ≤ victimAct v then
    match tget d.rgn.units v.1 with
    | some u => u.resident && !u.onStacks && d.flt.out.contains u.cluster
    | none => false
  else match d.span? v.1 with
    | some s => s.st == 3 && (d.walkHeld v.1 || (victimAct v == 2 && !s.copied && d.frameOut s))
    | none => false

/-- Apply one victim (R262): 0 drop, 1 release, 2 demote, 3 twin alone, 4 and 5 region unit. A span whose promotion has begun
since then stays (R266). -/
def Dev.applyVictim (d : Dev) (v : Nat × Nat) : Dev :=
  let act := victimAct v
  if 4 ≤ act then
    match tget d.rgn.units v.1, tget d.rgn.slots (v.1 / 2 ^ 17) with
    | some u, some r =>
      if !u.resident then d
      else if u.onStacks then (d.modUnit v.1 fun u => { u with resident := false }).count .releases 0
      else if (tget d.tier.demos (unitTag v.1)).isSome then d
      else match d.unitRoom v.1 r with
        | some k => d.startUnitDemo v.1 k
        | none => d
    | _, _ => d
  else match d.span? v.1 with
    | none => d
    | some s =>
      if s.st ≠ 3 ∨ s.moveLock then d
      else if act = 3 then (if s.twinHeld then (d.loseTwin v.1).count .twinsAlone 0 else d)
      else if s.copied then (d.loseFrames v.1).count .releases 0
      else match (if act = 2 then d.spanVolume.bind fun k => (d.copyPlace k (d.prof s.profile).copyUnits).map fun u => (k, u) else none) with
        | some (k, u) =>
          let n := (d.prof s.profile).copyBytes
          let d := (d.dropDemo v.1).modVol k fun x => { x with balance := x.balance - n }
          let d := ((d.startUnit 3 n).demoteSpan v.1 k u).loseFrames v.1
          if victimGrowth v then d.count .demoteGrowth 0 else d
        | none =>
          let d := (d.vacate v.1).count .dropped s.owner
          if victimGrowth v then d.count .dropGrowth 0 else d

/-- Apply the victims chosen in the tick (R54 step 5); one that a walk holds goes when the walk has ended (R262). -/
def Dev.applyVictims (d : Dev) : Dev :=
  let v := d.tier.victims
  (v.filter fun x => !d.victimWaits x).foldl Dev.applyVictim { d with tier := { d.tier with victims := v.filter d.victimWaits } }

/-! ### Growth (R217) -/

/-- Place `n` frames of a class for layers of a new span, seeing the free bytes of the pool as well, beside `pages` bytes of metadata
(R583). -/
def Dev.placeNew (d : Dev) (span cls n pages : Nat) : Option (List Nat) :=
  if d.freeBytes < d.allReserved + n * classBytes cls + pages then none else
  (d.placeSpan d.seqs.used span cls 0 n).map (·.1)

/-- What growth for a request comes to. -/
inductive Growth where
  /-- The frames are reserved. -/
  | ready
  /-- Victims are taken in this tick; the edit executes in the next one. -/
  | waits
  /-- No victim is taken: NO_FOLIO. -/
  | none_
  deriving DecidableEq, Repr

/-- Reserve frames under a request. -/
def Dev.reserve (d : Dev) (id p : Nat) (hs : List Nat) : Dev :=
  { d with seqs := { d.seqs with resv := d.seqs.resv ++ hs.map fun h => (id, p, h) } }

/-- The number under which frames stay reserved that an edit did not use, until the close phase (R217). -/
def returning : Nat := 2 ^ 64

/-- Those frames are free again. -/
def Dev.returnResv (d : Dev) : Dev := { d with seqs := { d.seqs with resv := d.seqs.resv.filter fun x => x.1 != returning } }

/-- A frame lies beside every extent in use. -/
def Dev.frameFree (d : Dev) (h : Nat) : Bool :=
  (tgetD d.seqs.used (hCluster h) []).all fun e => decide (hOffset h + hUnits h ≤ e.1) || decide (e.1 + e.2 ≤ hOffset h)

/-- A victim already chosen in the tick, on a scratch device: its frames are free there, and its bytes counted as accepted. -/
def Dev.scratchGone (x : Dev) (v : Nat × Nat) : Dev :=
  let act := victimAct v
  let taken := match act with
    | 2 => match x.span? v.1 with
      | some s => if s.copied then none else x.spanVolume.map fun k => (k, (x.prof s.profile).copyBytes)
      | none => none
    | _ => none
  let x := match taken with
    | some e => x.scratchAccept e.1 e.2
    | none => x
  x.scratchTake (v.1, act)

/-- A scratch device on which the victims chosen so far are gone, and the region units whose demotion is under way: an allocation waits
for it (R262). -/
def Dev.scratch (d : Dev) : Dev :=
  let x := d.tier.victims.foldl Dev.scratchGone { d with seqs := { d.seqs with freeing := [] } }
  d.tier.demos.foldl (fun (x : Dev) e => if 2 ^ 40 ≤ e.1 then x.scratchTake (e.1 - 2 ^ 40, 5) else x) x

/-- Plan the growth of a request that needs `n` frames of a class beside `pages` bytes of metadata (R217): victims are taken as long as
those chosen so far do not free what it needs (R583). -/
def Dev.grow (d : Dev) (id p cls n pages : Nat) : Growth × Dev :=
  if n = 0 then (.ready, d) else
  let span := tfresh d.seqs.spans 1
  let bytes := n * classBytes cls + pages
  let isOver := fun (x : Dev) => !x.within p (x.reserved p + bytes)
  let place := fun (x : Dev) => x.placeNew span cls n pages
  match (if isOver d then none else place d) with
  | some hs => (.ready, d.reserve id p hs)
  | none =>
    match d.scratch.evictFor true true p isOver (fun x => (place x).isSome) with
    | (some e, _) =>
      let d := e.evicts.foldl (fun d i => d.evictPatron p i) (d.noteRefused e)
      let d := { d with tier := { d.tier with victims := d.tier.victims ++ e.victims } }
      let hs := (place e.dev).getD []
      (if e.victims.isEmpty && !isOver d && (place d).isSome && hs.all d.frameFree then .ready else .waits, d.reserve id p hs)
    | (none, e) => (.none_, d.noteRefused e)

/-! ### Promotions (R264–R266) -/

/-- Frame class of a layer as a promotion writes it (R147, R264). -/
def Dev.promoClass (d : Dev) (i layer tier : Nat) (p : Profile) : Nat :=
  match d.folioOn i layer tier with
  | some c => if c.format = p.skim then p.closedClass else p.flashClass
  | none => p.flashClass

/-- Bytes a promotion to layer `l` brings in. -/
def Dev.promoBytes (d : Dev) (i l : Nat) (s : Span) : Nat :=
  let p := d.prof s.profile
  (((List.range (l + 1)).drop s.resLayers).map fun k => classBytes (d.promoClass i k s.source p)).sum

/-- Start a promotion of layers RES_LAYERS to `l`, or merge it into the running one (R264, R266). -/
def Dev.startPromo (d : Dev) (i l p kind cls : Nat) (adm : Option (Nat × Nat) := none) (tight : Bool := false) : Dev :=
  match d.span? i with
  | none => d
  | some s =>
    if s.st ≠ 3 ∨ l < s.resLayers then d else
    let adm := adm.getD (d.tim.count, 0)
    match tget d.tier.promos i with
    | some m =>
      -- a demand request gives a lead or hint promotion its priority, class and place, and makes a demand promotion of it (R266, R285)
      let raised := decide (kind = 0 ∧ m.kind ≠ 0)
      let m := { m with upTo := max m.upTo l, joined := if m.patron = p ∨ bit m.joined p then m.joined else m.joined + 2 ^ p
                        kind := if kind = 0 then 0 else m.kind, cls := if raised then cls else m.cls
                        adm := if raised then adm else m.adm, tight := m.tight || tight }
      let d := if raised then d.count .demandPromo p else d
      { d with tier := { d.tier with promos := tset d.tier.promos i m } }
    | none =>
      let d := if kind = 0 then d.count .demandPromo p else d
      let m : Promo := { upTo := l, patron := p, kind := kind, cls := cls, source := s.source, adm := adm, tight := tight }
      let d := d.dropDemo i
      let d := { d with tier := { d.tier with promos := tset d.tier.promos i m } }
      d.modSpan i fun s => { s with moveLock := true, charged := if bit s.charged p then s.charged else s.charged + 2 ^ p }

end Sys2Proof.Machine
end

