-- ==== Sys2Proof/Machine/Edits.lean ====
section
/-! DEFINITION. Sequence edits: records, tables, APPEND, ADOPT, FORK, TRIM and DROP (R190 to R218, R584). -/

namespace Sys2Proof.Machine

/-! ### Records and tables (R190–R193) -/

/-- Records of a device (R4). -/
def maxRecs : Nat := 4194304

/-- A patron's sequence: its record's index and the record. -/
def Dev.seq? (d : Dev) (p number : Nat) : Option (Nat × Rec) :=
  d.seqs.recs.find? fun e => e.2.owner == p && e.2.number == number

/-- Put a record. -/
def Dev.setRec (d : Dev) (i : Nat) (r : Rec) : Dev := { d with seqs := { d.seqs with recs := tset d.seqs.recs i r } }

/-- A free record. -/
def Dev.freeRec (d : Dev) : Option Nat :=
  let i := tfresh d.seqs.recs 0
  if i < maxRecs then some i else none

/-- The generation after an edit (R192). -/
def nextGen (g : Nat) : Nat := if g = 0xFFFF_FFFE then 1 else g + 1

/-- The CONFLICT of an edit (R200). -/
def Rec.conflict (r : Rec) : Ans :=
  { status := stConflict, r0 := r.gen, r1 := r.length + 2 ^ 32 * r.pendCount + 2 ^ 45 * r.pendLayers }

/-- The same with another RESULT1 bits 31:0. -/
def Rec.conflict1 (r : Rec) (low : Nat) : Ans := { r.conflict with r1 := r.conflict.r1 / 2 ^ 32 * 2 ^ 32 + low }

/-- Change a block. -/
def Dev.modBlk (d : Dev) (n : Nat) (f : Blk → Blk) : Dev := { d with seqs := { d.seqs with blks := tmod d.seqs.blks n f } }

/-- Bytes of a block. -/
def Blk.bytes (b : Blk) : Nat := if b.root then 512 else 4096

/-- Drop one share of a leaf; at zero its spans lose a reference and its page bytes return (R193, R196). -/
def Dev.dropLeaf (d : Dev) (n : Nat) : Dev :=
  match d.blk? n with
  | none => d
  | some b =>
    if 1 < b.share then d.modBlk n fun b => { b with share := b.share - 1 } else
    let d := b.entries.foldl Dev.refDown d
    { d.dropMeta b.patron b.bytes with seqs := { (d.dropMeta b.patron b.bytes).seqs with blks := tdel d.seqs.blks n } }

/-- Drop one share of a root, and at zero of its leaves. -/
def Dev.dropRoot (d : Dev) (n : Nat) : Dev :=
  match d.blk? n with
  | none => d
  | some b =>
    if 1 < b.share then d.modBlk n fun b => { b with share := b.share - 1 } else
    let d := b.entries.foldl Dev.dropLeaf d
    { d.dropMeta b.patron b.bytes with seqs := { (d.dropMeta b.patron b.bytes).seqs with blks := tdel d.seqs.blks n } }

/-- One more share of a root. -/
def Dev.shareRoot (d : Dev) (n : Nat) : Dev := d.modBlk n fun b => { b with share := b.share + 1 }

/-- Begin a walk: a share of its root and a reference to each span it will read. -/
def Dev.beginWalk (d : Dev) (w : Walk) : Dev := w.spans.foldl Dev.refUp (d.shareRoot w.root)

/-- End a walk: its references are dropped. -/
def Dev.endWalk (d : Dev) (w : Walk) : Dev := (w.spans.foldl Dev.refDown d).dropRoot w.root

/-- A new block, its page charged to a patron. -/
def Dev.newBlk (d : Dev) (p : Nat) (root : Bool) (es : List Nat) : Nat × Dev :=
  let n := tfresh d.seqs.blks 1
  let b : Blk := { root := root, entries := es, patron := p }
  let d := (d.addMeta p b.bytes).count .tableBlks 0
  (n, { d with seqs := { d.seqs with blks := tset d.seqs.blks n b } })

/-- Leaves of up to 1,024 entries. -/
def chunks : Nat → List Nat → List (List Nat)
  | 0, _ => []
  | f + 1, l => if l.isEmpty then [] else l.take 1024 :: chunks f (l.drop 1024)

/-- The leaves a table of spans needs anew beside an old root: those whose entries differ (R193). -/
def Dev.newLeaves (d : Dev) (root : Nat) (spans : List Nat) : Nat :=
  (((chunks 65 spans).zipIdx).filter fun e => match (d.leaves root)[e.2]? with
    | some k => d.leaves k != e.1
    | none => true).length

/-- Metadata bytes a table of spans needs anew. -/
def Dev.tableMeta (d : Dev) (root : Nat) (spans : List Nat) : Nat :=
  if spans.isEmpty then 0 else 512 + 4096 * d.newLeaves root spans

/-- Write a table anew by copy (R193): equal leaves are shared, the others written; the old root loses a share. -/
def Dev.setTable (d : Dev) (p root : Nat) (spans : List Nat) : Nat × Dev :=
  if spans.isEmpty then (0, d.dropRoot root) else
  let step := fun (st : List Nat × Dev) (e : List Nat × Nat) =>
    match (d.leaves root)[e.2]? with
    | some k => if d.leaves k = e.1 then (st.1 ++ [k], st.2.modBlk k fun b => { b with share := b.share + 1 })
        else let r := (e.1.foldl Dev.refUp st.2).newBlk p false e.1; (st.1 ++ [r.1], r.2)
    | none => let r := (e.1.foldl Dev.refUp st.2).newBlk p false e.1; (st.1 ++ [r.1], r.2)
  let r := (chunks 65 spans).zipIdx.foldl step ([], d)
  let w := r.2.newBlk p true r.1
  (w.1, w.2.dropRoot root)

/-- The spans of a table whose count writing it anew raises: those of a leaf that differs gain a reference, and lose that of the old
leaf where that leaf goes (R193, R196). -/
def Dev.raised (d : Dev) (root : Nat) (spans : List Nat) : List Nat :=
  let shared := fun n => ((d.blk? n).map fun b => decide (1 < b.share)).getD false
  ((chunks 65 spans).zipIdx).flatMap fun e => match (d.leaves root)[e.2]? with
    | some k => if d.leaves k = e.1 then [] else if shared root || shared k then e.1 else e.1.filter fun i => !(d.leaves k).contains i
    | none => e.1

/-- A span of a list stands at the limit of references (R196). -/
def Dev.anyFull (d : Dev) (spans : List Nat) : Bool := spans.any fun i => match d.span? i with
  | some s => s.refFull
  | none => false

/-! ### New spans (R204) -/

/-- A new open span in given frames. -/
def Dev.newSpan (d : Dev) (p prof firstPos parent : Nat) (hs : List Nat) : Nat × Dev :=
  let i := tfresh d.seqs.spans 1
  let s : Span :=
    { st := 1, profile := prof, owner := p, ref := 1, firstPos := firstPos, parent := parent
      tokens := List.replicate 256 0, frames := hs.map fun h => { primary := h }
      resLayers := hs.length, lastTick := d.tim.count % 2 ^ 32, charged := 2 ^ p, keyGen := tgetD d.sec.gens p 0 }
  let d := d.addMeta p (spanMeta hs.length)
  (i, { d with seqs := { d.seqs with spans := tset d.seqs.spans i s } })

/-- A new open span whose frames the allocator gives (R15); `none` without frames. -/
def Dev.openSpan (d : Dev) (p prof firstPos parent : Nat) : Option (Nat × Dev) :=
  let pr := d.prof prof
  if d.freeBytes < d.allReserved + pr.layers * classBytes pr.openClass then none else
  match d.placeSpan d.seqs.used (tfresh d.seqs.spans 1) pr.openClass 0 pr.layers with
  | none => none
  | some (hs, u) => some ((d.withUsed u).newSpan p prof firstPos parent hs)

/-- Set a row of a span. -/
def Span.setRow (s : Span) (layer key : Nat) (r : Row) : Span :=
  { s with rows := tset s.rows layer (tset (tgetD s.rows layer []) key r) }

/-! ### The payload of APPEND (R203) -/

/-- Rounded up to 64. -/
def up64 (n : Nat) : Nat := ceilDiv n 64 * 64

/-- The fields of APPEND. -/
structure AppF where
  count : Nat
  layer : Nat
  layers : Nat
  fp8 : Bool
  create : Bool
  twin : Bool
  refill : Bool
  ids : Bool
  prof : Nat
  pos : Nat
  gen : Nat
  deriving DecidableEq, Repr

/-- Read the fields. -/
def appF (d : DescIn) : AppF :=
  { count := d.fld 0 0 16, layer := d.fld 2 0 16, layers := d.fld 4 0 16, fp8 := d.fld 6 0 1 == 1
    create := d.fld 6 1 1 == 1, twin := d.fld 6 2 1 == 1, refill := d.fld 6 3 1 == 1, ids := d.fld 6 4 1 == 1
    prof := d.fld 7 0 8, pos := d.fld 8 0 32, gen := d.fld 12 0 32 }

/-- Rows of a payload. -/
def AppF.rows (f : AppF) (p : Profile) : Nat := f.layers * f.count * p.roles * p.heads
/-- Where the elements begin. -/
def AppF.elemAt (f : AppF) : Nat := if f.ids then up64 (4 * f.count) else 0
/-- Where the elements end. -/
def AppF.elemEnd (f : AppF) (p : Profile) : Nat := f.elemAt + f.rows p * p.dim * (if f.fp8 then 1 else 2)
/-- The size of the payload. -/
def AppF.size (f : AppF) (p : Profile) : Nat := if f.fp8 then up64 (f.elemEnd p) + f.rows p else f.elemEnd p

/-- Row number of a layer, token, role and head. -/
def AppF.rowNo (f : AppF) (p : Profile) (l t r h : Nat) : Nat := ((l * f.count + t) * p.roles + r) * p.heads + h

/-- Values of a row; `none` for a NaN or infinity, or a scale byte 255 (R116). -/
def AppF.row (f : AppF) (p : Profile) (b : List Byte) (n : Nat) : Option (List Fr) :=
  if f.fp8 then
    let sc := b.getD (up64 (f.elemEnd p) + n) 0
    allSome (((b.drop (f.elemAt + n * p.dim)).take p.dim).map fun x => fp8Value x sc)
  else
    allSome ((List.range p.dim).map fun c => bf16Value (fieldAt b (f.elemAt + 2 * (n * p.dim + c)) 2))

/-- The codes of a row of the payload: its elements and, of FP8 input, its scale. -/
def AppF.codes (f : AppF) (p : Profile) (b : List Byte) (n : Nat) : List Nat :=
  if f.fp8 then (256 + (b.getD (up64 (f.elemEnd p) + n) 0).toNat) :: ((b.drop (f.elemAt + n * p.dim)).take p.dim).map (·.toNat)
  else (List.range p.dim).map fun c => fieldAt b (f.elemAt + 2 * (n * p.dim + c)) 2

/-- Token identifier `t` of the payload. -/
def AppF.id (b : List Byte) (t : Nat) : Nat := fieldAt b (4 * t) 4

/-- The checks of an APPEND that need its profile (R584). -/
def appendProfileCheck (x : DescIn) (p : Profile) : Option Ans :=
  let f := appF x
  if 2 ^ 30 < f.size p then some (.bad 0x05 16)
  else if x.inLen 16 ≠ f.size p then some (.bad 0x05 32)
  else if (List.range (f.rows p)).all fun n => (f.row p (x.input 0 16) n).isSome then none
  else some (.bad 0x05 noField)

/-- The form of APPEND (R200, R201, R202). -/
def formAppend : Form :=
  { entries := (· == 0), classes := [0, 1, 2], object := (· != 0)
    items := fun d =>
      let c := d.fld 6 1 1 == 1
      [.val 0 0 16 fun v => decide (1 ≤ v) && decide (v ≤ 4096), .val 2 0 16 fun v => !c || v == 0, .val 4 0 16 (· != 0),
       .rsv 6 5 3, .val 7 0 8 fun v => c || v == 0, .val 8 0 32 fun v => !c || v == 0, .val 12 0 32 fun v => !c || v == 0,
       .inBuf 16 fun _ => true, .optBuf 32]
    inputs := fun _ => [16] }

/-- The form of ADOPT (R206). -/
def formAdopt : Form :=
  { entries := (· == 0), classes := [0, 1], object := (· != 0)
    items := fun d =>
      let c := d.fld 4 0 1 == 1
      [.val 0 0 32 (· % 256 == 0), .rsv 4 1 7, .val 5 0 8 fun v => c || v == 0] ++ rsvBytes 6 2
        ++ [.val 8 0 32 fun v => !c || v == 0] ++ rsvBytes 12 4
        ++ [.inBuf 16 fun n => decide (4 ≤ n) && decide (n ≤ 16384) && n % 4 == 0] ++ rsvBytes 32 16
    inputs := fun _ => [16] }

/-- The form of FORK (R208). -/
def formFork : Form :=
  { entries := (· == 0), classes := [0, 1], object := (· != 0)
    items := fun _ => .val 0 0 32 (· != 0) :: rsvBytes 8 40 }

/-- The form of TRIM (R209). -/
def formTrim : Form :=
  { entries := (· == 0), classes := [0, 1], object := (· != 0), items := fun _ => rsvBytes 8 40 }

/-- The form of DROP (R211). -/
def formDrop : Form :=
  { entries := (· == 0), classes := [0, 1], object := (· != 0), items := fun _ => rsvBytes 4 44 }

/-! ### Streams that end (R279) -/

/-- End a layer stream: slots that are planned and not written are abandoned, with their walks; STREAM_ENDED unless the reason is 0
(R213, R277, R279). -/
def Dev.endStream (d : Dev) (p id reason : Nat) : Dev :=
  match tget d.tier.streams (16 * p + id) with
  | none => d
  | some s =>
    let d := (s.walk.toList ++ s.ended).foldl Dev.endWalk d
    let d := { d with tier := { d.tier with streams := tdel d.tier.streams (16 * p + id) } }
    if reason = 0 then d else d.patEvent p 0x0101 (id + 256 * reason) s.delivered

/-- End the streams of a patron that pass a test. -/
def Dev.endStreams (d : Dev) (p reason : Nat) (f : StreamSt → Bool) : Dev :=
  ((d.tier.streams.filter fun e => e.1 / 16 == p && f e.2).map (·.1 % 16)).foldl (fun d id => d.endStream p id reason) d

/-! ### Common parts of edits -/

/-- What an edit comes to: the device and its answer, or none when it waits. -/
abbrev EdRes := Dev × Option Ans

/-- Count an edit's outcome (R219). -/
def countEdit (p : Nat) (r : EdRes) : EdRes :=
  match r.2 with
  | none => r
  | some a => (if a.status = stOk then r.1.count .editOk p
      else if a.status = stConflict then r.1.count .editConflict p
      else if a.status = stNoFolio then r.1.count .noFolio p else r.1, some a)

/-- A vacant run's answer (R96). -/
def recomputeAns (first n : Nat) : Ans := { status := stRecompute, r0 := first + 2 ^ 32 * n }

/-- The generation named differs from the current one (R200). -/
def genDiffers (expect : Nat) (r : Rec) : Bool := expect != 0 && expect != r.gen

/-! ### APPEND (R202–R205, R218) -/

/-- Encode and write the rows of a payload into a span (R117, R127): tokens `t0 .. t0 + n − 1` of the payload at places
`at0 ..`. A row whose rotation leaves fp32 is `overflowRow` (assumption 11). -/
def Dev.writeRows (d : Dev) (i : Nat) (f : AppF) (p : Profile) (b : List Byte) (t0 n at0 : Nat) : Dev :=
  let signs := signVector p.seed p.dim
  let blk := rotBlock p.latent p.dim
  let places := (List.range f.layers).flatMap fun l => (List.range n).flatMap fun t =>
    (List.range p.roles).flatMap fun r => (List.range p.heads).map fun h => (l, t, r, h)
  places.foldl (fun d x =>
    let (l, t, r, h) := x
    let n := f.rowNo p l (t0 + t) r h
    let w := (((f.row p b n).bind (rotate signs blk)).map fp8Row).getD (overflowRow p (f.codes p b n))
    d.modSpan i fun s => s.setRow (f.layer + l) (rowKey p r h (at0 + t)) w) d

/-- Token identifiers into a span's token block. -/
def Dev.writeIds (d : Dev) (i : Nat) (b : List Byte) (t0 n at0 : Nat) : Dev :=
  d.modSpan i fun s => { s with tokens := (List.range n).foldl (fun l t => l.set (at0 + t) (AppF.id b (t0 + t))) s.tokens }

/-- Write one segment of an APPEND: rows, identifiers, touch, twin mark. -/
def Dev.writeSeg (d : Dev) (i : Nat) (f : AppF) (p : Profile) (b : List Byte) (t0 n at0 : Nat) : Dev :=
  let d := d.writeRows i f p b t0 n at0
  let d := if f.ids then d.writeIds i b t0 n at0 else d
  d.modSpan i fun s => { s with lastTick := d.tim.count % 2 ^ 32, twinMark := s.twinMark || f.twin }

/-- The segments of positions `pos ..` of `n` tokens, span by span: payload token, count, place, each at most 256. -/
def segments : Nat → Nat → Nat → Nat → List (Nat × Nat × Nat)
  | 0, _, _, _ => []
  | f + 1, t0, pos, n =>
    if n = 0 then [] else
    let k := min n (256 - pos % 256)
    (t0, k, pos % 256) :: segments f (t0 + k) (pos + k) (n - k)

/-- What an APPEND has built: the open span, the spans made FULL, the device. -/
structure Build where
  dev : Dev
  cur : Nat
  last : Nat
  full : List Nat := []

/-- Commit `n` tokens of the current span: at 256 it is FULL and its churn is scheduled for the next tick (R24, R204). -/
def Build.commit (b : Build) (n : Nat) : Build :=
  let d := b.dev.modSpan b.cur fun s => { s with fill := s.fill + n }
  match d.span? b.cur with
  | some s =>
    if 256 ≤ s.fill then
      { dev := d.modSpan b.cur fun s => { s with st := 2, fill := 256, churnAt := some (d.tim.count + 1) }
        cur := 0, last := b.cur, full := b.full ++ [b.cur] }
    else { b with dev := d }
  | none => { b with dev := d }

/-- One segment of an APPEND: open a span at its first position, write, and commit when every layer is written. -/
def Build.seg (b : Build) (own prof : Nat) (f : AppF) (p : Profile) (x : List Byte) (pos : Nat) (all : Bool)
    (e : Nat × Nat × Nat) : Option Build :=
  let (t0, n, at0) := e
  let opened : Option Build :=
    if b.cur = 0 then (b.dev.openSpan own prof (pos + t0 - at0) b.last).map fun r => { b with cur := r.1, dev := r.2 }
    else some b
  opened.map fun b =>
    let b := { b with dev := b.dev.writeSeg b.cur f p x t0 n at0 }
    if all then b.commit n else b

/-- Fold the segments; `none` when frames are lacking. -/
def Build.segs (b : Build) (own prof : Nat) (f : AppF) (p : Profile) (x : List Byte) (pos : Nat) (all : Bool) :
    List (Nat × Nat × Nat) → Option Build
  | [] => some b
  | e :: es => match b.seg own prof f p x pos all e with
    | some b => b.segs own prof f p x pos all es
    | none => none

/-- New spans an APPEND opens: the positions that begin a span. -/
def newSpans (pos n : Nat) : Nat := (pos + n + 255) / 256 - (pos + 255) / 256

/-- The NO_FOLIO answer of an APPEND, with its spill-back (R218). -/
def Dev.appendNoFolio (d : Dev) (q : Req) (p : Profile) : Dev × Ans :=
  let f := appF q.d
  let a : Ans := { status := stNoFolio, r0 := f.pos + 2 ^ 32 * f.count }
  let sp := q.d.buf 32
  let bytes := ((q.d.input 0 16).take (f.size p)).drop f.elemAt
  if sp.absent ∨ q.d.outLen 32 < bytes.length then (d, a)
  else if q.d.refuses 32 then (d, .bad 0x08 (bodyOff 32))
  else ((d.writeOut q.d 32 0 bytes).count .spillBytes q.d.patron bytes.length,
    { a with r1 := bytes.length })

/-- Metadata bytes an APPEND needs: descriptors of the spans it opens, and the table when spans become FULL (R197). -/
def Dev.appendMeta (d : Dev) (p : Profile) (f : AppF) (r : Rec) : Nat :=
  let all := f.layer + f.layers == p.layers
  let opens := if f.layer = 0 then newSpans f.pos f.count else 0
  let fulls := if all then (f.pos + f.count) / 256 - f.pos / 256 else 0
  let table := if fulls = 0 then 0 else d.tableMeta r.root (d.listed r.root ++ List.replicate fulls 0)
  opens * spanMeta p.layers + table

/-- The state checks of an APPEND outside refill (R198, R202, R204). -/
def appendState (f : AppF) (p : Profile) (r : Rec) : Bool :=
  f.pos == r.length && decide (f.layer + f.layers ≤ p.layers) && decide (f.pos + f.count ≤ 16777216)
    && (if r.pendCount = 0 then f.ids && f.layer == 0 && (f.layers == p.layers || decide (f.pos % 256 + f.count ≤ 256))
        else !f.ids && f.count == r.pendCount && f.layer == r.pendLayers)

/-- The effect of an APPEND outside refill on a record that passes its checks. -/
def Dev.appendRun (d : Dev) (q : Req) (i : Nat) (r : Rec) (isNew : Bool) : EdRes :=
  let f := appF q.d
  let own := q.d.patron
  let p := d.prof r.profile
  let x := q.d.input 0 16
  let all := f.layer + f.layers == p.layers
  let begins := r.pendCount == 0
  if !d.metaFits own (d.appendMeta p f r) then (d, some { status := stQuota }) else
  let fulls := if all then (f.pos + f.count) / 256 - f.pos / 256 else 0
  if fulls ≠ 0 ∧ d.anyFull (d.raised r.root (d.listed r.root ++ List.replicate fulls 0)) then (d, some { status := stQuota }) else
  -- a step that covers every layer at once commits segment by segment; any other lies within one span
  let b0 : Build := { dev := d, cur := r.openSpan, last := (d.lastListed r).getD 0 }
  match b0.segs own r.profile f p x f.pos (begins && all) (segments 65 0 f.pos f.count) with
  | none => let (d, a) := d.appendNoFolio q p; (d, some a)
  | some b =>
    let b := if !begins && all then b.commit f.count else b
    let committed := all
    -- spans made FULL enter the table; the record's reference to them as its open span falls
    let (root, d) := if b.full.isEmpty then (r.root, b.dev) else
      b.dev.setTable own r.root (b.dev.listed r.root ++ b.full)
    let d := b.full.foldl Dev.refDown d
    let r' : Rec := { r with
      gen := if isNew then 1 else nextGen r.gen
      length := if committed then r.length + f.count else r.length
      pendCount := if committed then 0 else f.count
      pendLayers := if committed then 0 else f.layer + f.layers
      spans := r.spans + b.full.length, root := root, openSpan := b.cur, editTick := d.tim.count }
    (d.setRec i r', some { r0 := r'.gen + 2 ^ 32 * r'.length, r1 := r'.openSpan + 2 ^ 32 * b.full.length })

/-- First position whose identifier differs from a span's token block (R205). -/
def idsDiffer (f : AppF) (s : Span) (x : List Byte) : Option Nat :=
  (List.range f.count).find? (fun t => AppF.id x t != s.tokens.getD (f.pos % 256 + t) 0) |>.map (f.pos + ·)

/-- A refill APPEND (R205). -/
def Dev.refillRun (d : Dev) (q : Req) (i : Nat) (r : Rec) : EdRes :=
  let f := appF q.d
  let own := q.d.patron
  let p := d.prof r.profile
  let x := q.d.input 0 16
  match (d.listed r.root)[f.pos / 256]? with
  | none => (d, some r.conflict)
  | some k => match d.span? k with
    | none => (d, some r.conflict)
    | some s =>
      if s.st ≠ 4 ∧ ¬(s.st = 5 ∧ s.refillSeq = i) then (d, some { status := stPresent, r0 := k })
      else if f.layer ≠ 0 ∨ f.layers ≠ p.layers ∨ f.pos ≠ s.firstPos + s.fill ∨ 256 < f.pos % 256 + f.count ∨ !f.ids then
        (d, some r.conflict)
      else match idsDiffer f s x with
        | some pos => (d, some (r.conflict1 pos))
        | none =>
          let opened : Option Dev :=
            if s.st = 5 then some d else
            if d.freeBytes < d.allReserved + p.layers * classBytes p.openClass then none else
            match d.placeSpan d.seqs.used k p.openClass 0 p.layers with
            | none => none
            | some (hs, u) => some ((d.withUsed u).modSpan k fun s => { s with
                st := 5, refillSeq := i, frames := hs.map fun h => { primary := h }, resLayers := p.layers
                fill := 0, rows := [], charged := if bit s.charged own then s.charged else s.charged + 2 ^ own })
          match opened with
          | none => let (d, a) := d.appendNoFolio q p; (d, some a)
          | some d =>
            let d := d.writeSeg k f p x 0 f.count (f.pos % 256)
            let fill := f.pos % 256 + f.count
            let d := d.modSpan k fun s => { s with fill := fill }
            let d := if fill = 256 then
                (d.modSpan k fun s => { s with st := 2, refillSeq := 0, churnAt := some (d.tim.count + 1) }).count .refills own
              else d
            let r' := { r with gen := nextGen r.gen, editTick := d.tim.count }
            (d.setRec i r', some { r0 := r'.gen + 2 ^ 32 * r'.length
                                   r1 := r'.openSpan + 2 ^ 32 * (if fill = 256 then 1 else 0) })

/-- APPEND: the checks that need the profile are made here on the profile as it stands now (R584); those made at fetch pass again. They
come before EXPECT_GEN; CREATE together with REFILL is a CONFLICT of a record with zeros (DESIGN CHOICE, assumption 133). -/
def Dev.opAppend (d : Dev) (q : Req) : EdRes :=
  let f := appF q.d
  let own := q.d.patron
  countEdit own <|
  if f.create then
    match d.seq? own q.d.object with
    | some (i, _) => (d, some { status := stPresent, r0 := i })
    | none => match d.freeRec with
      | none => (d, some { status := stQuota })
      | some i =>
        if !d.mayName own f.prof then (d, some { status := stNotFound }) else
        match appendProfileCheck q.d (d.prof f.prof) with
        | some a => (d, some a)
        | none =>
          let r : Rec := { profile := f.prof, owner := own, number := q.d.object, gen := 0 }
          if f.refill ∨ !appendState f (d.prof f.prof) r then (d, some r.conflict) else d.appendRun q i r true
  else match d.seq? own q.d.object with
    | none => (d, some { status := stNotFound })
    | some (i, r) =>
      if r.damaged then (d, some { status := stPoison }) else
      match appendProfileCheck q.d (d.prof r.profile) with
      | some a => (d, some a)
      | none =>
        if genDiffers f.gen r then (d, some r.conflict)
        else if f.refill then d.refillRun q i r
        else if !appendState f (d.prof r.profile) r then (d, some r.conflict)
        else d.appendRun q i r false

/-! ### ADOPT (R206, R207) -/

/-- The reason a listed span fails, 0 for none (R207): its place in the sequence, the span before it. -/
def Dev.adoptReason (d : Dev) (own prof firstPos before k : Nat) : Nat :=
  match d.live? k with
  | none => 1
  | some s =>
    if !d.visibleBefore own k s then 1
    else if s.st ≠ 2 ∧ s.st ≠ 3 then 2
    else if s.profile ≠ prof then 3
    else if s.firstPos ≠ firstPos then 4
    else if s.parent ≠ (if firstPos = 0 then 0 else before) then 5 else 0

/-- The first listed span that fails: index and reason. -/
def Dev.adoptFail (d : Dev) (own prof : Nat) : Nat → Nat → Nat → List Nat → Option (Nat × Nat)
  | _, _, _, [] => none
  | i, pos, before, k :: ks =>
    let c := d.adoptReason own prof pos before k
    if c = 0 then d.adoptFail own prof (i + 1) (pos + 256) k ks else some (i, c)

/-- The spans ADOPT lists. -/
def adoptList (q : Req) : List Nat :=
  (List.range (q.d.inLen 16 / 4)).map fun i => fieldAt (q.d.input 0 16) (4 * i) 4

/-- The effect of ADOPT on a record. -/
def Dev.adoptRun (d : Dev) (q : Req) (i : Nat) (r : Rec) (isNew : Bool) : EdRes :=
  let own := q.d.patron
  let ks := adoptList q
  if r.length ≠ q.d.fld 0 0 32 ∨ r.pendCount ≠ 0 ∨ 65536 < r.spans + ks.length then (d, some r.conflict) else
  match d.adoptFail own r.profile 0 r.length ((d.lastListed r).getD 0) ks with
  | some (k, c) => (d, some { status := stNotFound, r0 := k + 2 ^ 32 * c })
  | none =>
    let spans := d.listed r.root ++ ks
    if !d.metaFits own (d.tableMeta r.root spans) ∨ d.anyFull (d.raised r.root spans) then (d, some { status := stQuota }) else
    let (root, d) := d.setTable own r.root spans
    let d := ks.foldl (fun d k => d.modSpan k fun s => { s with
      charged := if bit s.charged own then s.charged else s.charged + 2 ^ own }) d
    let r' : Rec := { r with
      gen := if isNew then 1 else nextGen r.gen, length := r.length + 256 * ks.length, spans := r.spans + ks.length
      root := root, editTick := d.tim.count }
    (d.setRec i r', some { r0 := r'.gen + 2 ^ 32 * r'.length, r1 := ks.length })

/-- ADOPT. -/
def Dev.opAdopt (d : Dev) (q : Req) : EdRes :=
  let own := q.d.patron
  let create := q.d.fld 4 0 1 == 1
  let prof := q.d.fld 5 0 8
  countEdit own <|
  if create then
    match d.seq? own q.d.object with
    | some (i, _) => (d, some { status := stPresent, r0 := i })
    | none => match d.freeRec with
      | none => (d, some { status := stQuota })
      | some i =>
        if !d.mayName own prof then (d, some { status := stNotFound }) else
        d.adoptRun q i { profile := prof, owner := own, number := q.d.object, gen := 0 } true
  else match d.seq? own q.d.object with
    | none => (d, some { status := stNotFound })
    | some (i, r) =>
      if r.damaged then (d, some { status := stPoison })
      else if genDiffers (q.d.fld 8 0 32) r then (d, some r.conflict)
      else d.adoptRun q i r false

/-! ### Copies of open spans (R204, R208) -/

/-- Copy an open span for a patron, keeping the rows of tokens below `keep` (all when `none`): the new span's index;
`none` without frames. The copy has the TWIN_MARK of the span it copies, where a span that TRIM reopens has none (DESIGN CHOICE,
assumption 132). -/
def Dev.copyOpen (d : Dev) (own k : Nat) (keep : Option Nat) : Option (Nat × Dev) :=
  match d.span? k with
  | none => none
  | some s => (d.openSpan own s.profile s.firstPos s.parent).map fun r =>
    let rows := match keep with
      | none => s.rows
      | some n => s.rows.map fun e => (e.1, e.2.filter fun x => decide (x.1 % 256 < n))
    (r.1, (r.2.modSpan r.1 fun t => { t with
      rows := rows, tokens := s.tokens, fill := s.fill, twinMark := s.twinMark }).count .openCopies own)

/-! ### FORK (R208) -/

/-- FORK. -/
def Dev.opFork (d : Dev) (q : Req) : EdRes :=
  let own := q.d.patron
  let child := q.d.fld 0 0 32
  countEdit own <|
  match d.seq? own q.d.object with
  | none => (d, some { status := stNotFound })
  | some (_, r) =>
    if r.damaged then (d, some { status := stPoison })
    else if genDiffers (q.d.fld 4 0 32) r then (d, some r.conflict)
    else match d.seq? own child with
      | some (j, _) => (d, some { status := stPresent, r0 := j })
      | none => match d.freeRec with
        | none => (d, some { status := stQuota })
        | some j =>
          let p := d.prof r.profile
          if p.st = 2 then (d, some { status := stNotFound }) else
          if r.openSpan ≠ 0 ∧ !d.metaFits own (spanMeta p.layers) then (d, some { status := stQuota }) else
          let copy : Option (Nat × Dev) := if r.openSpan = 0 then some (0, d) else d.copyOpen own r.openSpan none
          match copy with
          | none => (d, some { status := stNoFolio })
          | some (k, d) =>
            let d := d.shareRoot r.root
            let c : Rec := { r with number := child, gen := 1, openSpan := k, editTick := d.tim.count }
            let rows := if r.openSpan = 0 then 0 else r.length - 256 * r.spans + r.pendCount
            (d.setRec j c, some { r0 := r.gen + 2 ^ 32 * r.length, r1 := rows })

/-! ### TRIM (R209, R210) -/

/-- A reopened row (R210): the first source that holds it, decoded and encoded again without a rotation. -/
def Span.reopenRow (s : Span) (p : Profile) (layer role head t : Nat) : Row :=
  let key := rowKey p role head t
  let dec := fun (r : Row) => fp8Row (decodeRow r)
  match tget s.closed layer with
  | none => match tget (tgetD s.rows layer []) key with
    | some r => dec r
    | none => {}
  | some c =>
    let h := c.heads.getD head {}
    let skim := fun (_ : Unit) => fp8Row ((List.range p.dim).map fun i =>
      fp32 (if role = 0 then h.key c.format p.dim c.anchors t i else h.val c.format p.dim c.anchors t i))
    if c.anchors ∧ t < 4 then skim ()
    else match tget (tgetD s.tails layer []) key with
      | some r => dec r
      | none => match tget (tgetD s.rows layer []) key with
        | some r => dec r
        | none => skim ()

/-- The rows of the first `k` tokens of a span, reopened. -/
def Span.reopenRows (s : Span) (p : Profile) (k : Nat) : Tab (Tab Row) :=
  (List.range p.layers).map fun l => (l, (List.range p.roles).flatMap fun r => (List.range p.heads).flatMap fun h =>
    (List.range k).map fun t => (rowKey p r h t, s.reopenRow p l r h t))

/-- Spans that leave a table: those refilling by the record become VACANT (R215). -/
def Dev.leaveRefill (d : Dev) (i : Nat) (ks : List Nat) : Dev :=
  ks.foldl (fun d k => match d.span? k with
    | some s => if s.st = 5 ∧ s.refillSeq = i then d.vacate k else d
    | none => d) d

/-- Metadata that a table cut to its first `k` spans needs anew. -/
def Dev.trimMeta (d : Dev) (r : Rec) (k : Nat) : Nat :=
  let spans := d.listed r.root
  if (spans.drop k).isEmpty then 0 else d.tableMeta r.root (spans.take k)

/-- Cutting the table to its first `k` spans would raise a count to the limit (R196). -/
def Dev.trimFull (d : Dev) (r : Rec) (k : Nat) : Bool := d.anyFull (d.raised r.root ((d.listed r.root).take k))

/-- TRIM of a record to a length that its checks allow. -/
def Dev.trimRun (d : Dev) (own i : Nat) (r : Rec) (nl : Nat) : EdRes :=
  let p := d.prof r.profile
  let spans := d.listed r.root
  let base := 256 * spans.length
  let fin := fun (d : Dev) (r' : Rec) (n : Nat) =>
    let r' := { r' with gen := nextGen r.gen, length := nl, pendCount := 0, pendLayers := 0, editTick := d.tim.count }
    (d.setRec i r', some { r0 := r'.gen + 2 ^ 32 * nl, r1 := n : Ans })
  if base < nl ∨ (nl = r.length ∧ r.pendCount = 0) then
    -- in the open span
    match d.span? r.openSpan with
    | none => fin d r 0
    | some s =>
      let lowered := nl < r.length ∨ r.pendCount ≠ 0
      if lowered ∧ 1 < s.ref then
        if !d.metaFits own (spanMeta p.layers) then (d, some { status := stQuota }) else
        match d.copyOpen own r.openSpan (some (nl - base)) with
        | none => (d, some { status := stNoFolio })
        | some (k, d) =>
          let d := (d.modSpan k fun s => { s with fill := nl - base }).refDown r.openSpan
          fin d { r with openSpan := k } 0
      else fin (d.modSpan r.openSpan fun s => { s with fill := nl - base }) r 0
  else
    let k := nl / 256
    let left := spans.drop k
    let shrink := fun (d : Dev) (open_ : Nat) (n : Nat) =>
      let d := if r.openSpan = 0 then d else d.refDown r.openSpan
      let (root, d) := if left.isEmpty then (r.root, d) else d.setTable own r.root (spans.take k)
      fin (d.leaveRefill i left) { r with root := root, spans := k, openSpan := open_ } n
    let need := d.trimMeta r k
    -- the leaf cut short is written anew beside the shared one: its spans gain a reference (R193, R196)
    if d.trimFull r k then (d, some { status := stQuota }) else
    if nl % 256 = 0 then
      if !d.metaFits own need then (d, some { status := stQuota }) else shrink d 0 0
    else match (spans[k]?).bind d.span? with
      | none => (d, some r.conflict)
      | some s =>
        if s.st = 4 ∨ s.st = 5 then (d, some (recomputeAns s.firstPos 256))
        else if !d.metaFits own (need + spanMeta p.layers) then (d, some { status := stQuota })
        else if !d.resident s then (d, none)
        else match d.openSpan own r.profile s.firstPos s.parent with
          | none => (d, some { status := stNoFolio })
          | some (j, d) =>
            let n := nl % 256
            let d := d.modSpan j fun t => { t with
              rows := s.reopenRows p n, fill := n
              tokens := s.tokens.take n ++ List.replicate (256 - n) 0 }
            shrink (d.count .reopens own) j n

/-- TRIM. -/
def Dev.opTrim (d : Dev) (q : Req) : EdRes :=
  let own := q.d.patron
  let nl := q.d.fld 0 0 32
  countEdit own <|
  match d.seq? own q.d.object with
  | none => (d, some { status := stNotFound })
  | some (i, r) =>
    if r.damaged then (d, some { status := stPoison })
    else if genDiffers (q.d.fld 4 0 32) r ∨ r.length < nl then (d, some r.conflict)
    else d.trimRun own i r nl

/-! ### DROP (R211) -/

/-- Free a record: its references to the root and the open span go, and a span it was refilling becomes VACANT. -/
def Dev.freeRecord (d : Dev) (i : Nat) (r : Rec) : Dev :=
  let d := { d with seqs := { d.seqs with recs := tdel d.seqs.recs i } }
  -- a damaged record's references are reconciled by the reference sweep (R451)
  if r.damaged then { d with flt := { d.flt with sweep := true } }.cleanReserve (.record i) else
  let d := d.leaveRefill i (d.listed r.root)
  let d := d.dropRoot r.root
  if r.openSpan = 0 then d else d.refDown r.openSpan

/-- DROP. -/
def Dev.opDrop (d : Dev) (q : Req) : EdRes :=
  let own := q.d.patron
  countEdit own <|
  match d.seq? own q.d.object with
  | none => (d, some { status := stNotFound })
  | some (i, r) =>
    if genDiffers (q.d.fld 0 0 32) r then (d, some r.conflict) else
    let z := d.zeroSpans
    let d := d.freeRecord i r
    let n := d.zeroSpans - z
    (d.endStreams own 2 (fun s => s.record == i), some { r0 := r.gen, r1 := n })

/-! ### Planning of edits (R210, R217) -/

/-- An opcode is a sequence edit. -/
def isEdit (op : Nat) : Bool := decide (3 ≤ op) && decide (op ≤ 7)

/-- The profile of a patron's sequence after some edits still to execute: what they make or drop, else the record's. -/
def Dev.soonProfile (d : Dev) (p : Nat) (made : List (Nat × Option Nat)) (n : Nat) : Option Nat :=
  match made.find? fun e => e.1 == n with
  | some e => e.2
  | none => (d.seq? p n).map fun r => r.2.profile

/-- The profile an edit works under, from the state and from the patron's edits planned before it. -/
def Dev.planProfile (d : Dev) (earlier : List Req) (q : Req) : Option Nat :=
  let p := q.d.patron
  let made := earlier.foldl (fun (m : List (Nat × Option Nat)) e =>
    let create := fun n v => if (d.soonProfile p m n).isNone then (n, v) :: m else m
    if e.d.patron ≠ p then m
    else if e.op = 3 ∧ (appF e.d).create then create e.d.object (some (appF e.d).prof)
    else if e.op = 4 ∧ e.d.fld 4 0 1 = 1 then create e.d.object (some (e.d.fld 5 0 8))
    else if e.op = 5 then create (e.d.fld 0 0 32) (d.soonProfile p m e.d.object)
    else if e.op = 7 then (e.d.object, none) :: m
    else m) []
  match d.soonProfile p made q.d.object with
  | some n => some n
  | none => if q.op = 3 ∧ (appF q.d).create then some (appF q.d).prof else none

/-- The record that an edit finds, as far as it is known when the edit is planned: the sequence's own; that of the parent, for a child
that an earlier edit forks; an empty one, for the sequence an APPEND creates. -/
def Dev.planRec (d : Dev) (earlier : List Req) (q : Req) : Option (Nat × Rec) :=
  let p := q.d.patron
  match d.seq? p q.d.object with
  | some r => some r
  | none => match earlier.reverse.find? fun e => e.op == 5 && e.d.patron == p && e.d.fld 0 0 32 == q.d.object with
    | some e => (d.seq? p e.d.object).map fun r => (maxRecs, r.2)
    | none => if q.op = 3 ∧ (appF q.d).create then
        some (maxRecs, { profile := (appF q.d).prof, owner := p, number := q.d.object, gen := 0 }) else none

/-- Frames an edit can need at most, in spans' worth of layers (R217). -/
def Dev.planSpans (d : Dev) (earlier : List Req) (q : Req) : Nat :=
  let touched := earlier.any fun e => isEdit e.op && e.d.patron == q.d.patron
    && (e.d.object == q.d.object || (e.op == 5 && e.d.fld 0 0 32 == q.d.object))
  let f := appF q.d
  match d.planRec earlier q with
  | none => if q.op = 3 ∧ !f.refill ∧ f.layer = 0 then newSpans f.pos f.count else if touched ∧ (q.op = 3 ∨ q.op = 5 ∨ q.op = 6) then 1 else 0
  | some (i, r) =>
    if q.op = 3 then
      if f.refill then
        match ((d.listed r.root)[f.pos / 256]?).bind d.span? with
        | some s => if s.st = 5 ∧ s.refillSeq = i then 0 else 1
        | none => if touched then 1 else 0
      else if f.layer = 0 then newSpans f.pos f.count else 0
    else if q.op = 5 then (if r.openSpan ≠ 0 ∨ touched then 1 else 0)
    else if q.op = 6 then
      let nl := q.d.fld 0 0 32
      let base := 256 * (d.listed r.root).length
      if touched then 1
      else if base < nl then
        (match d.span? r.openSpan with
          | some s => if 1 < s.ref ∧ (nl < r.length ∨ r.pendCount ≠ 0) then 1 else 0
          | none => 0)
      else if nl % 256 = 0 then 0 else 1
    else 0

/-- Metadata bytes an edit needs, its table's among them (R197); `n` spans' worth of frames. -/
def Dev.planMeta (d : Dev) (earlier : List Req) (q : Req) (p : Profile) (n : Nat) : Nat :=
  match d.planRec earlier q with
  | none => n * spanMeta p.layers
  | some (_, r) =>
    if q.op = 3 then (if (appF q.d).refill then 0 else d.appendMeta p (appF q.d) r)
    else if q.op = 6 then
      let nl := q.d.fld 0 0 32
      let inOpen := decide (256 * (d.listed r.root).length < nl) || (nl == r.length && r.pendCount == 0)
      (if inOpen then 0 else d.trimMeta r (nl / 256)) + n * spanMeta p.layers
    else n * spanMeta p.layers

/-- The span a TRIM reopens that is not resident (R210). -/
def Dev.trimAwaits (d : Dev) (q : Req) : Option Nat :=
  if q.op ≠ 6 then none else
  match d.seq? q.d.patron q.d.object with
  | none => none
  | some (_, r) =>
    let nl := q.d.fld 0 0 32
    if nl % 256 = 0 ∨ 256 * (d.listed r.root).length < nl then none else
    match (d.listed r.root)[nl / 256]? with
    | none => none
    | some k => match d.span? k with
      | some s => if s.st = 3 ∧ !d.resident s then some k else none
      | none => none

/-- The NO_FOLIO answer of an edit (R208, R217, R218). -/
def Dev.editNoFolio (d : Dev) (q : Req) (p : Profile) : Dev × Ans :=
  if q.op = 3 then d.appendNoFolio q p else (d, { status := stNoFolio })

/-- Plan one edit: reserve its frames (R217), start the promotion it waits for (R210). -/
def Dev.planEdit (d : Dev) (earlier : List Req) (q : Req) : Growth × Dev :=
  match d.trimAwaits q with
  | some k =>
    let l := (d.prof ((d.span? k).map (·.profile) |>.getD 0)).layers - 1
    (.waits, d.startPromo k l q.d.patron 0 q.d.tclass (some (q.admTick, q.admNo)))
  | none => match d.planProfile earlier q with
    | none => (.ready, d)
    | some n =>
      let p := d.prof n
      let k := d.planSpans earlier q
      let m := d.planMeta earlier q p k
      -- one that cannot have its pages takes no frames and completes with QUOTA (R197)
      if !d.metaFits q.d.patron m then (.ready, d)
      else d.grow q.id q.d.patron p.openClass (k * p.layers) (d.pageNeed q.d.patron m)

end Sys2Proof.Machine
end

