-- ==== Sys2Proof/Machine/Attend.lean ====
section
/-! DEFINITION. ATTEND up to its arithmetic: the form, views of a generation, visibility, walks, waiting (R155 to R164, R178 to R183, R280, R281). -/

namespace Sys2Proof.Machine

/-! ### The form (R155–R157) -/

/-- fp32 bits: zero, or finite and positive. -/
def f32ZeroOrPos (v : Nat) : Bool := decide (v < 0x7F80_0000)
/-- fp16 bits: finite and positive. -/
def f16Pos (v : Nat) : Bool := decide (0 < v) && decide (v < 0x7C00)

/-- BATCH. -/
def atnBatch (x : DescIn) : Bool := x.fld 3 0 1 == 1
/-- PARTIAL. -/
def atnPartial (x : DescIn) : Bool := x.fld 3 2 1 == 1
/-- Bytes of an output element. -/
def atnElem (x : DescIn) : Nat := if x.fld 3 3 1 = 1 then 4 else 2
/-- TREE. -/
def atnTree (x : DescIn) : Bool := x.fld 3 6 1 == 1
/-- MASK. -/
def atnMask (x : DescIn) : Nat := x.fld 4 0 2
/-- LAYER. -/
def atnLayer (x : DescIn) : Nat := x.fld 0 0 16
/-- STRICT. -/
def atnStrict (x : DescIn) : Bool := x.fld 3 1 1 == 1

/-- One sequence of an ATTEND: number, query vectors, position field. -/
structure AtnEnt where
  seq : Nat
  count : Nat
  pos : Nat
  deriving DecidableEq, Repr

/-- The entries of an ATTEND (R157). -/
def attendEnts (x : DescIn) : List AtnEnt :=
  if atnBatch x then
    let b := x.input 1 96
    (List.range (b.length / 16)).map fun i => ⟨fieldAt b (16 * i) 4, fieldAt b (16 * i + 4) 1, fieldAt b (16 * i + 8) 8⟩
  else [⟨x.object, x.fld 2 0 8, x.fld 32 0 64⟩]

/-- N: query vectors of an ATTEND. -/
def attendN (x : DescIn) : Nat := ((attendEnts x).map (·.count)).sum

/-- The form of ATTEND: checks 1 and 2 of R158 up to the batch entries' contents. -/
def formAttend (x : DescIn) : Form :=
  { entries := (· == 1), classes := [0, 1], object := fun o => !atnBatch x || o == 0
    items := fun d =>
      let b := atnBatch d
      let slide := atnMask d == 2
      [.val 2 0 8 fun v => if b then v == 0 else decide (1 ≤ v) && decide (v ≤ 64),
       .val 3 6 1 fun v => v == 0 || atnMask d != 1, .rsv 3 7 1, .val 4 0 2 (· != 3), .rsv 4 2 6,
       .val 8 0 32 fun v => if slide then decide (1 ≤ v) && decide (v < 2 ^ 31) else v == 0,
       .val 12 0 16 fun v => if slide then decide (v ≤ 256) else v == 0,
       .val 16 0 32 f32ZeroOrPos, .val 20 0 32 f32ZeroOrPos, .val 24 0 8 fun v => decide (v ≤ 16), .rsv 25 0 8,
       .val 26 0 16 fun v => if d.fld 3 4 1 = 1 then f16Pos v else v == 0,
       .val 28 0 16 fun v => v == 0 || f16Pos v] ++ rsvBytes 30 2 ++ [.val 32 0 64 fun v => !b || v == 0] ++ rsvBytes 40 8
      ++ [.need (b || (d.buf 96).absent) 0x05 96, .inBuf 48 fun _ => true, .outBuf 64 fun _ => true,
          .need (!b || !(d.buf 80).absent) 0x07 80, .optBuf 80,
          .need (!b || !(d.buf 96).absent) 0x07 96]
      ++ (if b then [.inBuf 96 fun n => n % 16 == 0 && decide (16 ≤ n) && decide (n ≤ 4096)] else [])
    inputs := fun d => if atnBatch d then [48, 96] else [48] }

/-- The batch entries' contents and RECORD's length (R157, R180). -/
def attendBatchCheck (x : DescIn) : Option Ans :=
  let es := attendEnts x
  let b := x.input 1 96
  let ent := (List.range es.length).findSome? fun i =>
    if fieldAt b (16 * i + 5) 3 ≠ 0 then some (Ans.bad 0x02 (bodyOff 96))
    else match es[i]? with
      | some e => if e.count = 0 ∨ 64 < e.count then some (Ans.bad 0x05 (bodyOff 96)) else none
      | none => none
  match (if atnBatch x then ent else none) with
  | some a => some a
  | none =>
    if !(es.map (·.seq)).Nodup ∨ 1024 < attendN x then some (.bad 0x05 (bodyOff 96))
    else if !(x.buf 80).absent ∧ x.outLen 80 < 32 * es.length then some (.bad 0x05 (bodyOff 80))
    else none

/-! ### A sequence at a generation, as one entry sees it (R159, R161, R199, R213) -/

/-- What one entry of an ATTEND sees. -/
structure AtnView where
  gen : Nat
  /-- L of the layer attended. -/
  len : Nat
  /-- Position of query 0. -/
  pos : Nat
  count : Nat
  /-- Every span, by table index, the open one last. -/
  spans : List Nat
  /-- Parents of the query tokens: 0xFF off position QPOS − 1; empty without TREE. -/
  parents : List Nat
  deriving DecidableEq, Repr

/-- L for a layer (R199). -/
def tokensAt (length pendCount pendLayers layer : Nat) : Nat :=
  if layer < pendLayers then length + pendCount else length

/-- Query payload bytes before the parent section. -/
def queryBytes (p : Profile) (n : Nat) : Nat := n * p.qHeads * p.dim * 2

/-- The parents of entry `k` (R161). -/
def attendParents (x : DescIn) (p : Profile) (k count : Nat) : List Nat :=
  if atnTree x then
    (List.range count).map fun j => fieldAt (x.input 0 48) (up64 (queryBytes p (attendN x)) + 64 * k + j) 1
  else []

/-- The parent section of entry `k` is legal (R161). -/
def parentsOk (x : DescIn) (p : Profile) (k count : Nat) : Bool :=
  let at_ := up64 (queryBytes p (attendN x)) + 64 * k
  (List.range 64).all fun j =>
    let b := fieldAt (x.input 0 48) (at_ + j) 1
    if j < count then b == 0xFF || decide (b < j) else b == 0

/-- QPOS of all ones. -/
def lastTokens : Nat := 2 ^ 64 - 1

/-- A walk as begun for a record, before its spans are referenced. -/
def Rec.walk (r : Rec) (i : Nat) : Walk :=
  { record := i, gen := r.gen, length := r.length, pendCount := r.pendCount, pendLayers := r.pendLayers
    root := r.root, openSpan := r.openSpan }

/-- The spans of a walk by table index. -/
def Dev.walkSpans (d : Dev) (w : Walk) : List Nat := d.listed w.root ++ (if w.openSpan = 0 then [] else [w.openSpan])

/-- The view of entry `k` under a walk. -/
def Dev.atnView (d : Dev) (x : DescIn) (p : Profile) (k : Nat) (e : AtnEnt) (w : Walk) : AtnView :=
  let l := tokensAt w.length w.pendCount w.pendLayers (atnLayer x)
  { gen := w.gen, len := l, pos := if e.pos = lastTokens then l - e.count else e.pos, count := e.count
    spans := d.walkSpans w, parents := attendParents x p k e.count }

/-! ### Visibility (R161, R162) -/

/-- Depths δ of the tree nodes. -/
def AtnView.depths (v : AtnView) : List Nat :=
  v.parents.foldl (fun ds b => ds ++ [if b = 0xFF then 0 else ds.getD b 0 + 1]) []

/-- A node and its ancestors. -/
def ancestors (parents : List Nat) : Nat → Nat → List Nat
  | 0, _ => []
  | f + 1, j => j :: (match parents[j]? with
    | some b => if b = 0xFF then [] else ancestors parents f b
    | none => [])

/-- Logical position of a key (R161). -/
def AtnView.logical (v : AtnView) (p : Nat) : Nat :=
  if v.pos ≤ p ∧ p < v.pos + v.parents.length then v.pos + v.depths.getD (p - v.pos) 0 else p

/-- Key `p` is visible to query `j` (R162). -/
def AtnView.visible (v : AtnView) (x : DescIn) (j p : Nat) : Bool :=
  let pj := v.pos + j
  let window := x.fld 8 0 32
  let sinks := x.fld 12 0 16
  decide (p < v.len) &&
  if atnMask x = 1 then true
  else if atnTree x then
    (decide (p < v.pos) || (decide (v.pos ≤ p) && (ancestors v.parents 64 j).contains (p - v.pos)))
      && (atnMask x == 0 || decide (v.pos + v.depths.getD j 0 < v.logical p + window) || decide (p < sinks))
  else if atnMask x = 0 then decide (p ≤ pj)
  else (decide (pj < p + window) && decide (p ≤ pj)) || decide (p < sinks)

/-- Some query sees token `t` of the span at table index `k`. -/
def AtnView.sees (v : AtnView) (x : DescIn) (k t : Nat) : Bool :=
  (List.range v.count).any fun j => v.visible x j (256 * k + t)

/-- First visible token of the span at table index `k`. -/
def AtnView.firstSeen (v : AtnView) (x : DescIn) (k : Nat) : Option Nat :=
  (List.range (min 256 (v.len - 256 * k))).find? fun t => v.sees x k t

/-- The spans with a visible key: table index and span. -/
def AtnView.reads (v : AtnView) (x : DescIn) : List (Nat × Nat) :=
  (v.spans.zipIdx.map fun e => (e.2, e.1)).filter fun e => (v.firstSeen x e.1).isSome

/-- Visible keys, summed over the queries (R179). -/
def AtnView.keys (v : AtnView) (x : DescIn) : Nat :=
  ((List.range v.count).map fun j => ((List.range v.len).filter fun p => v.visible x j p).length).sum

/-! ### Resolution: checks 3 and 4 of R158 -/

/-- The channels of the output (R168). -/
def attendOd (x : DescIn) (p : Profile) : Nat := let v := x.fld 14 0 16; if p.latent ∧ v ≠ 0 then v else p.dim

/-- Offsets of the sections after ACC and the size of the output: A, B and the end (R168, R169). -/
def partialLayout (n heads od e : Nat) : Nat × Nat × Nat :=
  let a := up64 (n * heads * od * e)
  let b := up64 (a + n * heads * 4)
  (a, b, b + n * heads * 4)

/-- Bytes an output needs. -/
def outSize (part : Bool) (n heads od e : Nat) : Nat :=
  if part then (partialLayout n heads od e).2.2 else n * heads * od * e

/-- Check 4 for one entry: the positions (R159). -/
def attendPosOk (x : DescIn) (e : AtnEnt) (r : Rec) : Bool :=
  let l := tokensAt r.length r.pendCount r.pendLayers (atnLayer x)
  if e.pos = lastTokens then decide (e.count ≤ l)
  else if atnMask x = 1 then decide (e.pos < 2 ^ 48) else decide (e.pos + e.count ≤ l)

/-- Checks 3 and 4 against the state as it stands: the answer of the first failure, and the records. -/
def Dev.attendResolve (d : Dev) (x : DescIn) (own : Nat) : Option Ans × List (AtnEnt × Nat × Rec) :=
  let es := attendEnts x
  match es.findIdx? fun e => (d.seq? own e.seq).isNone with
  | some k => (some { status := stNotFound, r0 := if atnBatch x then k else 0 }, [])
  | none =>
    let rs := es.filterMap fun e => (d.seq? own e.seq).map fun r => (e, r.1, r.2)
    if rs.any (·.2.2.damaged) then (some { status := stPoison }, rs) else
    let n := (rs.head?.map (·.2.2.profile)).getD 0
    let p := d.prof n
    let at_ := if atnBatch x then 112 else 48
    let fails : List (Bool × Nat) :=
      [(rs.any fun r => r.2.2.profile != n, 112), (decide (p.layers ≤ atnLayer x), 16),
       (x.fld 5 0 8 != 0 && x.fld 5 0 8 != p.qGroup, 21), (x.fld 6 0 16 != 0 && x.fld 6 0 16 != p.dim, 22),
       (!(x.fld 14 0 16 == 0 || (p.latent && x.fld 14 0 16 % 64 == 0 && decide (x.fld 14 0 16 ≤ p.dim))), 30),
       (rs.any fun r => !attendPosOk x r.1 r.2.2, at_),
       (x.inLen 48 != (if atnTree x then up64 (queryBytes p (attendN x)) + 64 * es.length else queryBytes p (attendN x)), 64),
       (atnTree x && !(es.zipIdx.all fun e => parentsOk x p e.2 e.1.count), 64),
       (decide (x.outLen 64 < outSize (atnPartial x) (attendN x) p.qHeads (attendOd x p) (atnElem x)), 80)]
    ((fails.find? (·.1)).map fun f => Ans.bad 0x05 f.2, rs)

/-- Check 5 (R165): the first NaN or infinity among the query elements. With no profile known the vector and head read 0. -/
def attendQuery (x : DescIn) (p : Option Profile) : Option Ans :=
  let b := x.input 0 48
  let n := match p with
    | some p => attendN x * p.qHeads * p.dim
    | none => (b.length - (if atnTree x then 64 * (attendEnts x).length else 0)) / 2
  ((List.range n).find? fun i => fieldAt b (2 * i) 2 / 128 % 256 == 255).map fun i =>
    match p with
    | some p => { status := stBadQuery, r0 := i / p.dim / p.qHeads + 2 ^ 32 * (i / p.dim % p.qHeads) }
    | none => { status := stBadQuery }

/-- An edit of one of the sequences is admitted and still to execute. -/
def Dev.editPending (d : Dev) (own : Nat) (seqs : List Nat) : Bool :=
  d.adm.held.any fun q => isEdit q.op && q.d.patron == own
    && (seqs.contains q.d.object || (q.op == 5 && seqs.contains (q.d.fld 0 0 32)))

/-- The profile of a sequence: its record's, or that with which the latest admitted edit still to execute creates it. -/
def Dev.profileSoon (d : Dev) (own seq : Nat) : Option Nat :=
  match d.seq? own seq with
  | some r => some r.2.profile
  | none => (d.adm.held.filterMap fun q =>
      if q.d.patron ≠ own then none
      else if q.op = 3 ∧ q.d.object = seq ∧ q.d.fld 6 1 1 = 1 then some (q.d.fld 7 0 8)
      else if q.op = 4 ∧ q.d.object = seq ∧ q.d.fld 4 0 1 = 1 then some (q.d.fld 5 0 8)
      else if q.op = 5 ∧ q.d.fld 0 0 32 = seq then (d.seq? own q.d.object).map fun r => r.2.profile
      else none).getLast?

/-- The checks of an ATTEND made at fetch (R158). -/
def Dev.attendCheck (d : Dev) (x : DescIn) : Option Ans :=
  match (formAttend x).check x with
  | some a => some a
  | none => match attendBatchCheck x with
    | some a => some a
    | none =>
      let pend := d.editPending x.patron ((attendEnts x).map (·.seq))
      let r := d.attendResolve x x.patron
      match (if pend then none else r.1) with
      | some a => some a
      | none => attendQuery x (((attendEnts x).head?.bind fun e => d.profileSoon x.patron e.seq).map d.prof)

/-! ### Walks (R213) -/

/-- A request has its answer: its completion is due, its walks stay until the close phase. -/
def Dev.finish (d : Dev) (q : Req) (a : Ans) : Dev :=
  let d := d.complete q a
  if q.walks.isEmpty then d else { d with adm := { d.adm with ended := d.adm.ended ++ [q] } }

/-! ### Vacant spans (R164, R180, R181) -/

/-- A span whose tokens are vacant. -/
def Span.vacant (s : Span) : Bool := s.st == 4 || s.st == 5

/-- The span at an index is vacant. -/
def Dev.vacantAt (d : Dev) (i : Nat) : Bool := match d.span? i with
  | some s => s.vacant
  | none => true

/-- Consecutive vacant spans at the head of a list. -/
def Dev.vacantRun (d : Dev) : List Nat → Nat
  | [] => 0
  | i :: is => if d.vacantAt i then d.vacantRun is + 1 else 0

/-- First vacant token with a visible key and the tokens of that vacant run from it on (R180, assumption 14). -/
def Dev.attendVacant (d : Dev) (x : DescIn) (v : AtnView) : Option (Nat × Nat) :=
  ((v.reads x).find? fun e => d.vacantAt e.2).map fun e =>
    let t := (v.firstSeen x e.1).getD 0
    (256 * e.1 + t, 256 * d.vacantRun (v.spans.drop e.1) - t)

/-- An entry record (R180). -/
def entryRecord (gen screened offending g : Nat) (vac : Option (Nat × Nat)) (twin guard : Bool) (tokens : Nat) : List Byte :=
  let v := vac.getD (0, 0)
  leBytes 4 gen ++ leBytes 2 screened ++ leBytes 2 offending ++ leBytes 2 g
    ++ leBytes 1 (flag vac.isSome + 2 * flag twin + 4 * flag guard) ++ leBytes 1 0 ++ leBytes 4 v.1 ++ leBytes 4 v.2
    ++ leBytes 4 (min tokens (2 ^ 32 - 1)) ++ leBytes 8 0

/-- Write the entry records where RECORD is present; `false` when the translation agent refuses the buffer (R581). -/
def Dev.writeRecords (d : Dev) (q : Req) (rs : List (List Byte)) : Dev × Bool :=
  if (q.d.buf 80).absent then (d, true)
  else if q.d.refuses 80 then (d, false)
  else (d.writeOut q.d 80 0 rs.flatten, true)

/-- The NEEDS_RECOMPUTE answer of an ATTEND, if a view has a vacant span with a visible key (R181). -/
def Dev.attendRecompute (d : Dev) (q : Req) (vs : List AtnView) : Option (Dev × Ans) :=
  match vs.findIdx? fun v => (d.attendVacant q.d v).isSome with
  | none => none
  | some k =>
    let vac := ((vs[k]?).bind fun v => d.attendVacant q.d v).getD (0, 0)
    let rs := vs.map fun v => entryRecord v.gen 0 0 0 (d.attendVacant q.d v) false false 0
    let w := d.writeRecords q rs
    some (w.1, if w.2 then { (recomputeAns vac.1 vac.2) with r1 := k } else .bad 0x08 (bodyOff 80))

/-! ### Planning (R55, R213) -/

/-- The views of a request's walks. -/
def Dev.attendViews (d : Dev) (q : Req) : List AtnView :=
  ((attendEnts q.d).zip q.walks).zipIdx.map fun e => d.atnView q.d (d.prof q.prof) e.2 e.1.1 e.1.2

/-- Begin the walks of an ATTEND in the state that its earlier edits produced (R55, R158): the request with its walks, or
its answer. -/
def Dev.attendPlan (d : Dev) (q : Req) : Dev × Req × Option Ans :=
  match d.attendResolve q.d q.d.patron with
  | (some a, _) => (d, q, some a)
  | (none, rs) =>
    let prof := (rs.head?.map (·.2.2.profile)).getD 0
    let p := d.prof prof
    let ws := rs.zipIdx.map fun r =>
      let w := r.1.2.2.walk r.1.2.1
      { w with spans := ((d.atnView q.d p r.2 r.1.1 w).reads q.d).map (·.2) }
    let d := ws.foldl Dev.beginWalk d
    let q := { q with walks := ws, prof := prof }
    match d.attendRecompute q (d.attendViews q) with
    | some (d, a) => (d, q, some a)
    | none => (d, q, none)

/-! ### Waiting (R265, R280, R281) -/

/-- A flash block that holds units of a layer of a span's copy in the stacks is being relocated (R281, R294). -/
def Dev.relocating (d : Dev) (i : Nat) (s : Span) : Bool :=
  match tget d.stk.copies i with
  | some c =>
    let per := frameUnits (d.prof s.profile).flashClass
    (List.range per).any fun k =>
      match (d.vol? c.volume).bind fun v => tget v.units (c.firstUnit + s.resLayers * per + k) with
      | some u => !u.staged && ((d.fblock u.block).st == 5 || (d.fblock u.block).st == 6)
      | none => false
  | none => false

/-- The stall cause of a folio that is not resident: from its source, its block and its class (R281, assumption 15). -/
def Dev.stallCause (d : Dev) (i : Nat) (s : Span) : Nat :=
  let m := tgetD d.tier.promos i { upTo := 0, patron := 0, kind := 0, source := s.source }
  if m.source = 2 then (if d.relocating i s then 6 else 1)
  else if m.source = 1 then 3 else 4

/-- The folios a set of reads still awaits: spans with their layer not resident, first in table order. -/
def Dev.awaited (d : Dev) (layer : Nat) (spans : List Nat) : List Nat :=
  spans.filter fun i => match d.span? i with
    | some s => s.st == 3 && decide (s.resLayers ≤ layer)
    | none => false

/-- Start the demand promotions of awaited spans; the request waits with the cause of the first (R264, R280). -/
def Dev.awaitSpans (d : Dev) (q : Req) (layer : Nat) (spans : List Nat) : Dev × Req :=
  let c := (spans.head?.bind fun i => (d.span? i).map fun s => d.stallCause i s).getD 1
  (spans.foldl (fun d i => d.startPromo i layer q.d.patron 0 q.d.tclass (some (q.admTick, q.admNo))) d, { q with stall := c, waits := true })

/-- Layers of a span that neither are resident nor have a promotion under way: from this one on. -/
def Dev.promoFrom (d : Dev) (i : Nat) (s : Span) : Nat := match tget d.tier.promos i with
  | some m => max s.resLayers (m.upTo + 1)
  | none => s.resLayers

/-- Lead promotions of a tight fit (R283): the deepest layers of streamed spans when layer LAYERS − 2k or above is attended; `adm` is the
admission of the ATTEND. -/
def Dev.deepLead (d : Dev) (own layer : Nat) (spans : List Nat) (adm : Option (Nat × Nat) := none) : Dev :=
  spans.foldl (fun d i => match d.span? i with
    | some s =>
      let p := d.prof s.profile
      if s.streamed ∧ p.layers ≤ layer + 2 * p.deepK ∧ s.resLayers < p.layers then
        (d.startPromo i (p.layers - 1) own 1 2 adm true).count .tightPromo 0 (p.layers - d.promoFrom i s)
      else d
    | none => d) d

end Sys2Proof.Machine
end

