-- ==== Sys2Proof/Machine/Real.lean ====
section
/-! DEFINITION. The arithmetic of attention (R163, R166, R167): fp32 with round to nearest even as whole numbers of 2^−149, sums in a free
order, and the vector unit's functions to a relative error of 2^−21. -/

namespace Sys2Proof.Machine

/-! ### fp32 values -/

/-- An fp32 value; a finite one counts units of 2^−149, in which every finite fp32 number is whole. -/
inductive Fx where
  | fin (n : Int)
  | inf (neg : Bool)
  | nan
  deriving DecidableEq, Repr

/-- A magnitude of `n / 2^s` units at 24 significant bits. -/
def roundMag (m : Rnd) (n s : Nat) : Nat :=
  let k := max s (Nat.log2 n - 23)
  roundNat m false n (2 ^ k) * 2 ^ (k - s)

/-- `n / 2^s` units rounded to nearest even at 24 bits. -/
def roundUnits (n : Int) (s : Nat) : Int := let v := roundMag .nearest n.natAbs s; if n < 0 then -(v : Int) else v

/-- A rounded number of units as an fp32 value: past the largest finite number it is an infinity. -/
def Fx.ofUnits (n : Int) : Fx := if n.natAbs < 2 ^ 277 then .fin n else .inf (decide (n < 0))

/-- Units of an exact value that fp32 represents. -/
def units (x : Fr) : Int := x.n * 2 ^ 149 / x.d

/-- An exact value rounded to fp32. -/
def Fx.ofFr (x : Fr) : Fx := match f32 .nearest x with
  | some r => .fin (units r)
  | none => .inf (decide (x.n < 0))

/-- The value of fp32 bits. -/
def Fx.ofBits (b : Nat) : Fx := match f32Decode b with
  | .fin _ v => .fin (units v)
  | .inf s => .inf s
  | .nan => .nan

/-- The exact value of a number of units. -/
def unitsFr (n : Int) : Fr := (Fr.mk n (2 ^ 149)).norm

/-- Negation. -/
def Fx.neg : Fx → Fx
  | .fin n => .fin (-n)
  | .inf s => .inf (!s)
  | .nan => .nan

/-- Sum. -/
def Fx.add : Fx → Fx → Fx
  | .fin a, .fin b => .ofUnits (roundUnits (a + b) 0)
  | .inf s, .fin _ => .inf s
  | .fin _, .inf s => .inf s
  | .inf s, .inf t => if s = t then .inf s else .nan
  | _, _ => .nan

/-- Difference. -/
def Fx.sub (a b : Fx) : Fx := a.add b.neg

/-- The sign of a value. -/
def Fx.isNeg : Fx → Bool
  | .fin n => decide (n < 0)
  | .inf s => s
  | .nan => false

/-- Product. -/
def Fx.mul : Fx → Fx → Fx
  | .fin a, .fin b => .ofUnits (roundUnits (a * b) 149)
  | .nan, _ => .nan
  | _, .nan => .nan
  | a, b => if a = .fin 0 ∨ b = .fin 0 then .nan else .inf (a.isNeg != b.isNeg)

/-- Quotient. -/
def Fx.div : Fx → Fx → Fx
  | .fin a, .fin b =>
    if b = 0 then (if a = 0 then .nan else .inf (decide (a < 0)))
    else
      let q := a.natAbs * 2 ^ 213 / b.natAbs
      let s := if a.natAbs * 2 ^ 213 % b.natAbs = 0 then 0 else 1
      .ofUnits (roundUnits (if decide (a < 0) != decide (b < 0) then -((2 * q + s : Nat) : Int) else ((2 * q + s : Nat) : Int)) 65)
  | .fin _, .inf _ => .fin 0
  | .inf s, .fin b => .inf (s != decide (b < 0))
  | _, _ => .nan

/-- Strictly less; false with a NaN. -/
def Fx.lt : Fx → Fx → Bool
  | .fin a, .fin b => decide (a < b)
  | .inf s, .inf t => s && !t
  | .inf s, .fin _ => s
  | .fin _, .inf t => !t
  | _, _ => false

/-- The larger; a NaN stays one. -/
def Fx.max (a b : Fx) : Fx := if a = .nan ∨ b = .nan then .nan else if a.lt b then b else a

/-- A finite value. -/
def Fx.isFin : Fx → Bool
  | .fin _ => true
  | _ => false

/-- Units of a finite value, 0 otherwise. -/
def Fx.get : Fx → Int
  | .fin n => n
  | _ => 0

/-- fp32 bits; `neg` gives the sign of a zero. -/
def Fx.bits (neg : Bool) : Fx → Nat
  | .fin n => f32Encode (neg && n == 0) (unitsFr n)
  | .inf s => f32Inf s
  | .nan => f32NaN

/-- Times 2^−k. -/
def Fx.half (k : Nat) : Fx → Fx
  | .fin n => .fin (roundUnits n k)
  | x => x

/-- The sum of a list in a free order (R6, R166): `pick` chooses two of what is left until one value is. -/
def sumAny (pick : List Nat → Nat) : Nat → List Fx → Fx
  | 0, xs => xs.headD (.fin 0)
  | _, [] => .fin 0
  | _, [x] => x
  | f + 1, xs =>
    let i := pick [f, 0] % xs.length
    let ys := xs.eraseIdx i
    let j := pick [f, 1] % ys.length
    sumAny pick f ((xs.getD i (.fin 0)).add (ys.getD j (.fin 0)) :: ys.eraseIdx j)

/-- The sum of a list in a free order. -/
def Fx.sum (pick : List Nat → Nat) (xs : List Fx) : Fx := sumAny pick xs.length xs

/-! ### Real functions, as whole numbers of 2^−300 -/

/-- One. -/
def one300 : Nat := 2 ^ 300

/-- Units to 2^−300. -/
def up300 (n : Int) : Int := n * 2 ^ 151

/-- e^(−y) for y below 1: the alternating series, innermost term first. -/
def expSmall (y : Nat) : Nat := (List.range 60).foldl (fun acc i => one300 - y * acc / ((60 - i) * one300)) one300

/-- `n` squarings. -/
def squares : Nat → Nat → Nat
  | 0, x => x
  | n + 1, x => squares n (x * x / one300)

/-- e^(−x) for x ≥ 0. -/
def expNeg (x : Nat) : Nat := if 210 * one300 ≤ x then 0 else squares 9 (expSmall (x / 512))

/-- e^x. -/
def exp300 (x : Int) : Nat :=
  let pos := fun (y : Nat) => one300 * one300 / expNeg y
  if x < 0 then expNeg x.natAbs else if 256 * one300 ≤ x.natAbs then one300 * 2 ^ 369
  else if 128 * one300 ≤ x.natAbs then pos (x.natAbs / 2) * pos (x.natAbs / 2) / one300 else pos x.natAbs

/-- The inverse hyperbolic tangent of z up to 1/3, doubled: the logarithm of (1 + z) / (1 − z). -/
def logRatio (z : Nat) : Nat :=
  let z2 := z * z / one300
  2 * (z * ((List.range 100).foldl (fun acc i => acc * z2 / one300 + one300 / (2 * (99 - i) + 1)) 0) / one300)

/-- ln 2. -/
def ln2 : Nat := logRatio (one300 / 3)

/-- ln of a positive number of units. -/
def ln300 (n : Nat) : Int :=
  let e := Nat.log2 n
  let f := n * one300 / 2 ^ e
  ((e : Int) - 149) * ln2 + logRatio ((f - one300) * one300 / (f + one300))

/-- tanh. -/
def tanh300 (x : Int) : Int :=
  let a := x.natAbs
  let v := if a < 2 ^ 220 then a else
    let e := expNeg (2 * a)
    (one300 - e) * one300 / (one300 + e)
  if x < 0 then -(v : Int) else v

/-- An fp32 value within a relative error of 2^−21 of a real number: any of them, as `c` chooses; the nearest where there is none. -/
def nearReal (c : Nat) (x : Int) : Fx :=
  let a := x.natAbs
  let w := a / 2 ^ 21
  let lo := roundMag .up (a - w) 151
  let hi := roundMag .down (a + w) 151
  let v := if hi < lo then roundMag .nearest a 151 else
    let step := 2 ^ (Nat.log2 lo - 23)
    roundMag .down (lo + c % ((hi - lo) / step + 1) * step) 0
  .ofUnits (if x < 0 then -(v : Int) else v)

/-- exp by the vector unit (R167). -/
def Fx.exp (c : Nat) : Fx → Fx
  | .fin n => nearReal c (exp300 (up300 n))
  | .inf true => .fin 0
  | .inf false => .inf false
  | .nan => .nan

/-- ln by the vector unit, of a positive value. -/
def Fx.ln (c : Nat) : Fx → Fx
  | .fin n => if 0 < n then nearReal c (ln300 n.natAbs) else if n = 0 then .inf true else .nan
  | .inf false => .inf false
  | _ => .nan

/-- tanh by the vector unit. -/
def Fx.tanh (c : Nat) : Fx → Fx
  | .fin n => nearReal c (tanh300 (up300 n))
  | .inf s => .fin (if s then -(2 ^ 149) else 2 ^ 149)
  | .nan => .nan

end Sys2Proof.Machine
end

