-- ==== Sys2Proof/Machine/Score.lean ====
section
/-! DEFINITION. The arithmetic of ATTEND: which place each token is read from, query encoding, scores, the online softmax, screening, the
guard, partials and their merging, and the error bound of the output (R126, R131, R163 to R177, R184 to R187). -/

namespace Sys2Proof.Machine

/-! ### Where a token is read (R131) -/

/-- The places of R131. -/
inductive Place where
  | anchor
  | openFrame
  | tail
  | twin
  | skim
  deriving DecidableEq, Repr

/-- The place of token `t` of a span in a layer. -/
def Span.placeOf (s : Span) (layer : Nat) (strict : Bool) (t : Nat) : Place :=
  if s.st ≠ 3 then .openFrame
  else if decide (t < 4) && (match tget s.closed layer with
    | some c => c.anchors
    | none => s.firstPos == 0) then .anchor
  else if s.tailHeld && decide (192 ≤ t) then .tail
  else if strict && s.twinHeld then .twin
  else .skim

/-- Data that churn wrote: skim data with the anchor area, not the rows of an open, tail or twin frame (R137, R174, R176). -/
def Place.closed (p : Place) : Bool := p == .anchor || p == .skim

/-- The frame that a place of a layer lies in. -/
def Span.handleAt (s : Span) (layer : Nat) (p : Place) : Nat :=
  let f := s.frames.getD layer {}
  match p with
  | .tail => f.tail
  | .twin => f.twin
  | _ => f.primary

/-- The visible tokens of the span at table index `k`, for query `j`. -/
def AtnView.tokens (v : AtnView) (x : DescIn) (k j : Nat) : List Nat :=
  (List.range (min 256 (v.len - 256 * k))).filter fun t => v.visible x j (256 * k + t)

/-- How a folio is read: which places hold a visible token, and whether skim data serves the fresh window (R133). -/
structure ReadOf where
  skim : Bool := false
  tail : Bool := false
  twin : Bool := false
  anchor : Bool := false
  fresh : Bool := false
  deriving DecidableEq, Repr

/-- How the folio of the span at table index `k` is read in one view. -/
def readOf (x : DescIn) (v : AtnView) (k layer : Nat) (s : Span) : ReadOf :=
  let ts := (List.range (min 256 (v.len - 256 * k))).filter fun t => v.sees x k t
  let has := fun p => ts.any fun t => s.placeOf layer (atnStrict x) t == p
  { skim := has .skim, tail := has .tail, twin := has .twin, anchor := has .anchor
    fresh := ts.any fun t => s.placeOf layer (atnStrict x) t == .skim && decide (192 ≤ t) && decide (v.len < 256 * k + t + 65) }

/-- The decoded row of a token: role 0 key, role 1 value (R111, R115, R119–R121). -/
def Span.rowAt (p : Profile) (s : Span) (layer h role : Nat) (pl : Place) (t : Nat) : List Fr :=
  let stored := fun (rows : Tab (Tab Row)) => decodeRow (tgetD (tgetD rows layer []) (rowKey p role h t) {})
  match pl with
  | .openFrame => stored s.rows
  | .twin => stored s.rows
  | .tail => stored s.tails
  | _ => match tget s.closed layer with
    | none => List.replicate p.dim ⟨0, 1⟩
    | some c =>
      let hd := c.heads.getD h {}
      (List.range p.dim).map fun i => if role = 0 then hd.key c.format p.dim c.anchors t i else hd.val c.format p.dim c.anchors t i

/-! ### One request -/

/-- What a request's arithmetic is done with (R155, R163, R175). -/
structure Arith where
  qHeads : Nat
  heads : Nat
  dim : Nat
  od : Nat
  scale : Fx
  cap : Int
  bias : Nat
  slopes : List Fx
  screen : Bool
  thr : Fx
  guard : Bool
  tau : Fr

/-- A query vector of the request: its entry, its number there, its view, its decoded heads q̂ (R165). -/
structure QVec where
  entry : Nat
  j : Nat
  view : AtnView
  qs : List (List Int)

/-- A folio of the request: its span index and span, who reads it (entry and table index), and its decoded rows by head and token:
key, value. -/
structure Folio where
  index : Nat
  span : Span
  layer : Nat
  readers : List (Nat × Nat)
  rows : List (List (List Int × List Int))
  /-- The tokens of it that a cluster reads; all of them outside `Arith.attend`. -/
  mine : Nat → Bool := fun _ => true

/-- A choice at a site within a site. -/
def pickAt (pick : List Nat → Nat) (site : List Nat) : List Nat → Nat := fun l => pick (site ++ l)

/-- The decoded query head `i` of vector `n`: widened, rotated, encoded as an FP8 row, decoded (R165). A rotation that leaves
fp32 leaves the row open: it depends on the elements and the rotation alone (R188). -/
def queryRow (x : DescIn) (p : Profile) (signs : List Bool) (n i : Nat) : List Int :=
  let b := x.input 0 48
  let el := (List.range p.dim).map fun c => fieldAt b (((n * p.qHeads + i) * p.dim + c) * 2) 2
  let raw := el.map fun v => (bf16Value v).getD ⟨0, 1⟩
  let row := match rotate signs (rotBlock p.latent p.dim) raw with
    | some y => fp8Row y
    | none => overflowRow p el
  (decodeRow row).map units

/-- The query vectors of a request. -/
def queryVecs (x : DescIn) (p : Profile) (vs : List AtnView) : List QVec :=
  let signs := signVector p.seed p.dim
  let ns := vs.zipIdx.flatMap fun e => (List.range e.1.count).map fun j => (e.2, j, e.1)
  ns.zipIdx.map fun e =>
    { entry := e.1.1, j := e.1.2.1, view := e.1.2.2
      qs := (List.range p.qHeads).map fun i => queryRow x p signs e.2 i }

/-- The parameters of a request (R155, R163, R173, R175). -/
def arithOf (pick : List Nat → Nat) (x : DescIn) (p : Profile) (screen guard : Bool) (tau : Nat) : Arith :=
  let sc := x.fld 16 0 32
  let bias := x.fld 24 0 8
  { qHeads := p.qHeads, heads := p.heads, dim := p.dim, od := attendOd x p
    scale := if sc = 0 then .fin (units (invSqrt p.dim)) else .ofBits sc
    cap := (Fx.ofBits (x.fld 20 0 32)).get, bias := bias
    slopes := (List.range p.qHeads).map fun i => nearReal (pick [1, i]) (expNeg (bias * (i + 1) * ln2 / p.qHeads))
    screen := screen, thr := .fin (units ((f16Decode (x.fld 26 0 16)).getD ⟨0, 1⟩))
    guard := guard, tau := (f16Decode tau).getD ⟨0, 1⟩ }

/-! ### Scores (R163, R166, R184, R185) -/

/-- The distance d of R163 step 3: negative for a sink key that lies behind the query. -/
def AtnView.dist (v : AtnView) (x : DescIn) (j p : Nat) : Int :=
  if atnMask x = 1 then ((v.pos + j : Nat) - (p : Int)).natAbs
  else ((if atnTree x then v.pos + v.depths.getD j 0 else v.pos + j : Nat) : Int) - (v.logical p : Nat)

/-- The products of a query head and a key row, each rounded once. -/
def products (q k : List Int) : List Fx := List.zipWith (fun a b => Fx.ofUnits (roundUnits (a * b) 149)) q k

/-- The dot product: passes of up to 128 channels, each summed in a free order, then added (R166, R184, R185). -/
def dotProduct (pick : List Nat → Nat) (q k : List Int) : Fx :=
  let ps := products q k
  Fx.sum (pickAt pick [0]) ((List.range (ceilDiv ps.length 128)).map fun n =>
    Fx.sum (pickAt pick [1, n]) ((ps.drop (128 * n)).take 128))

/-- The soft-cap (R163 step 2). -/
def Arith.capped (a : Arith) (c : Nat) (t : Fx) : Fx :=
  if a.cap = 0 then t else (Fx.fin a.cap).mul ((t.div (.fin a.cap)).tanh c)

/-- The bias (R163 step 3). -/
def Arith.biased (a : Arith) (i : Nat) (d : Int) (t : Fx) : Fx :=
  if a.bias = 0 then t else t.sub ((a.slopes.getD i (.fin 0)).mul (.ofUnits (roundUnits (d * 2 ^ 149) 0)))

/-- The score of a key at distance `d` for query head `i` (R163). -/
def Arith.score (a : Arith) (pick : List Nat → Nat) (i : Nat) (d : Int) (q k : List Int) : Fx :=
  a.biased i d (a.capped (pick [1]) (a.scale.mul (dotProduct (pickAt pick [0]) q k)))

/-! ### The online softmax (R167, R170) -/

/-- A partial of one query head of one vector: running maximum, weight sum, accumulator, guard sum, and the weight sum of
each folio and head that R177 asks for. -/
structure Partial where
  m : Fx := .inf true
  l : Fx := .fin 0
  a : List Fx
  g : Fx := .fin 0
  ws : List (Nat × Fx) := []

/-- The FP8 weight of an exponential at a block's exponent. -/
def weight (k : Nat) : Fx → Fx
  | .fin n => .fin (units (e4m3Decode (e4m3 .nearest (unitsFr (n * 2 ^ k)))))
  | x => x

/-- Lists of equal length as columns. -/
def columns {α : Type} (n : Nat) (rows : List (List α)) : List (List α) :=
  rows.foldr (fun r cs => List.zipWith (· :: ·) r cs) (List.replicate n [])

/-- One block: the score and the value row of each visible token of a folio, and its guard term (R167). -/
def Partial.block (pick : List Nat → Nat) (item : Nat) (eg : Fx) (xs : List (Fx × List Int)) (p : Partial) : Partial :=
  let mb := xs.foldl (fun m e => m.max e.1) p.m
  if mb = .inf true then p else
  let r := if p.m = .inf true then .fin 0 else (p.m.sub mb).exp (pick [0])
  let es := xs.zipIdx.map fun e => (e.1.1.sub mb).exp (pick [1, e.2])
  let x := (es.foldl Fx.max (.fin 0)).get
  let k := if x ≤ 0 then 0 else min 126 (149 - Nat.log2 x.natAbs)
  let w := es.map (weight k)
  let s := (Fx.sum (pickAt pick [2]) w).half k
  let cols := columns p.a.length (List.zipWith (fun w (e : Fx × List Int) => (e.2.take p.a.length).map fun v => w.mul (.fin v)) w xs)
  { m := mb, l := (p.l.mul r).add s
    a := (p.a.zip cols).zipIdx.map fun e => (e.1.1.mul r).add ((Fx.sum (pickAt pick [3, e.2]) e.1.2).half k)
    g := (p.g.mul r).add (s.mul eg)
    ws := (item, s) :: p.ws.map fun e => (e.1, e.2.mul r) }

/-- Two partials merged (R170). -/
def Partial.merge (pick : List Nat → Nat) (p q : Partial) : Partial :=
  if p.m = .inf true then q else if q.m = .inf true then p else
  let m := p.m.max q.m
  let f := (p.m.sub m).exp (pick [0])
  let h := (q.m.sub m).exp (pick [1])
  { m := m, l := (p.l.mul f).add (q.l.mul h), a := List.zipWith (fun u v => (u.mul f).add (v.mul h)) p.a q.a
    g := (p.g.mul f).add (q.g.mul h)
    ws := p.ws.map (fun e => (e.1, e.2.mul f)) ++ q.ws.map (fun e => (e.1, e.2.mul h)) }

/-- Partials merged pairwise in a free order. -/
def mergeAny (pick : List Nat → Nat) : Nat → List Partial → Partial
  | 0, ps => ps.headD { a := [] }
  | _, [] => { a := [] }
  | _, [p] => p
  | f + 1, ps =>
    let i := pick [f, 0] % ps.length
    let rest := ps.eraseIdx i
    let j := pick [f, 1] % rest.length
    mergeAny pick f ((ps.getD i { a := [] }).merge (pickAt pick [f]) (rest.getD j { a := [] }) :: rest.eraseIdx j)

/-! ### Screening and the guard (R173, R174, R176) -/

/-- The upper bound U of a query head over the visible keys of a folio, the nearest at distance `d` (R173). -/
def Arith.upper (a : Arith) (pick : List Nat → Nat) (i : Nat) (d : Int) (q : List Int) (hd : ClosedHead) : Fx :=
  let bound := fun (b : Byte) => units ((e4m3Decode b).mul (e8m0 hd.es))
  let lohi := (hd.kmin.map bound).zip (hd.kmax.map bound)
  let s := Fx.sum (pickAt pick [0]) ((q.zip lohi).map fun e =>
    (Fx.ofUnits (roundUnits (e.1 * e.2.1) 149)).max (Fx.ofUnits (roundUnits (e.1 * e.2.2) 149)))
  let slack := Fx.sum (pickAt pick [1]) ((q.zip lohi).map fun e =>
    Fx.ofUnits (roundUnits ((e.1.natAbs : Int) * (max e.2.1.natAbs e.2.2.natAbs : Nat)) 149))
  a.biased i d (a.capped (pick [2]) (a.scale.mul (s.add (slack.half 14))))

/-- The guard term of a query head for a head's residual bound: SCALE × ‖q̂‖ × ρ rounded upward (R176); an infinite ρ makes it
infinite. -/
def Arith.guardTerm (a : Arith) (q : List Int) (resid : Nat) : Fx :=
  match f16Decode resid with
  | none => .inf false
  | some rho =>
    let up := fun (x : Fr) => roundTo .up 24 (-149) x
    let v := up ((up ((unitsFr a.scale.get).mul (normUp (q.map unitsFr)))).mul rho)
    .ofUnits (units v)

/-- Query heads of a key–value head. -/
def Arith.group (a : Arith) (h : Nat) : List Nat := (List.range a.qHeads).filter fun i => i / (a.qHeads / a.heads) == h

/-- The closed head of a folio. -/
def Folio.head (it : Folio) (h : Nat) : ClosedHead := ((tget it.span.closed it.layer).map fun c => c.heads.getD h {}).getD {}

/-- The visible tokens of a folio for a vector. -/
def Folio.seen (x : DescIn) (it : Folio) (v : QVec) : List Nat :=
  it.readers.flatMap fun r => if r.1 = v.entry then v.view.tokens x r.2 v.j else []

/-- Those of them that the cluster at work reads. -/
def Folio.tokens (x : DescIn) (it : Folio) (v : QVec) : List Nat := (it.seen x v).filter it.mine

/-- The cluster that owns the frame a token is read from (R14). -/
def Folio.clusterOf (x : DescIn) (it : Folio) (t : Nat) : Nat :=
  hCluster (it.span.handleAt it.layer (it.span.placeOf it.layer (atnStrict x) t))

/-- What a cluster reads of a folio: the visible tokens in frames of its own channels (R14). -/
def Folio.inCluster (x : DescIn) (vs : List QVec) (c : Nat) (it : Folio) : Option Folio :=
  let f := { it with mine := fun t => it.clusterOf x t == c }
  if vs.any fun v => !(f.tokens x v).isEmpty then some f else none

/-- Position of a folio's token 0 in a vector's sequence. -/
def Folio.base (it : Folio) (v : QVec) : Nat := 256 * ((it.readers.find? fun r => r.1 == v.entry).map (·.2)).getD 0

/-- The folio is read from skim data, not from an open, tail or twin frame (R174). -/
def Folio.skimOnly (x : DescIn) (it : Folio) (vs : List QVec) : Bool :=
  vs.all fun v => (it.seen x v).all fun t => (it.span.placeOf it.layer (atnStrict x) t).closed

/-- Head `h` of a folio is skipped by the request at a core's running maxima (R174). -/
def Arith.skips (a : Arith) (pick : List Nat → Nat) (x : DescIn) (vs : List QVec) (it : Folio) (h : Nat) (ps : List Partial) : Bool :=
  a.screen && it.skimOnly x vs && vs.zipIdx.all fun e =>
    let ts := it.tokens x e.1
    ts.isEmpty || (a.group h).all fun i =>
      let m := (ps.getD (e.2 * a.qHeads + i) { a := [] }).m
      let d := (ts.map fun t => e.1.view.dist x e.1.j (it.base e.1 + t)).foldl min (2 ^ 64 : Int)
      m.isFin && (a.upper (pickAt pick [e.2, i]) i d (e.1.qs.getD i []) (it.head h)).lt (m.sub a.thr)

/-- The blocks of a folio: runs of up to 32 tokens, cut where the tail begins (R167). -/
def folioBlocks (pick : List Nat → Nat) (tail : Bool) : Nat → Nat → List (Nat × Nat)
  | 0, _ => []
  | f + 1, lo =>
    if 256 ≤ lo then [] else
    let hi := min 256 (lo + (32 - pick [lo] % 32))
    let hi := if tail ∧ lo < 192 ∧ 192 < hi then 192 else hi
    (lo, hi) :: folioBlocks pick tail f hi

/-- Head `h` of a folio for one vector and query head: every block in turn. -/
def Arith.folioHead (a : Arith) (pick : List Nat → Nat) (x : DescIn) (it : Folio) (h i : Nat) (blocks : List (Nat × Nat)) (v : QVec)
    (p : Partial) : Partial :=
  let ts := it.tokens x v
  let q := v.qs.getD i []
  let rows := it.rows.getD h []
  let eg := if a.guard then a.guardTerm q (it.head h).resid else .fin 0
  blocks.foldl (fun p b =>
    let mine := ts.filter fun t => decide (b.1 ≤ t) && decide (t < b.2)
    if mine.isEmpty then p else
    let skim := mine.any fun t => (it.span.placeOf it.layer (atnStrict x) t).closed
    p.block (pickAt pick [b.1, 1]) (it.index * 256 + h) (if skim then eg else .fin 0)
      (mine.map fun t => (a.score (pickAt pick [b.1, 0, t]) i (v.view.dist x v.j (it.base v + t)) q (rows.getD t ([], [])).1,
        (rows.getD t ([], [])).2))) p

/-- What a core holds: the partials of every vector and query head, and the folio and head pairs it skipped. -/
structure CoreSt where
  parts : List Partial
  skipped : List (Nat × Nat) := []

/-- A core processes one folio (R167, R174). -/
def Arith.folio (a : Arith) (pick : List Nat → Nat) (x : DescIn) (vs : List QVec) (st : CoreSt) (it : Folio) : CoreSt :=
  (List.range a.heads).foldl (fun st h =>
    let pk := pickAt pick [it.index, h]
    if a.skips (pickAt pk [0]) x vs it h st.parts then { st with skipped := st.skipped ++ [(it.index, h)] } else
    let blocks := folioBlocks (pickAt pk [1]) it.span.tailHeld 256 0
    { st with parts := st.parts.zipIdx.map fun e =>
        let n := e.2 / a.qHeads
        let i := e.2 % a.qHeads
        match vs[n]? with
        | some v => if (a.group h).contains i then a.folioHead (pickAt pk [2, n, i]) x it h i blocks v e.1 else e.1
        | none => e.1 }) st

/-- A list in a free order. -/
def anyOrder {α : Type} (pick : List Nat → Nat) : Nat → List α → List α
  | 0, xs => xs
  | f + 1, xs => match xs[pick [f] % xs.length]? with
    | some v => v :: anyOrder pick f (xs.eraseIdx (pick [f] % xs.length))
    | none => xs

/-- The result of a request: the merged partials and the pairs skipped. Each folio is processed by one free core of each
cluster that holds a frame it is read from, each core takes its folios in a free order, and the partials merge within the cluster, within the die, then across the
bridge (R21, R167, R170). -/
def Arith.attend (a : Arith) (pick : List Nat → Nat) (x : DescIn) (vs : List QVec) (its : List Folio) : CoreSt :=
  let empty := List.replicate (vs.length * a.qHeads) ({ a := List.replicate a.od (.fin 0) } : Partial)
  let core := fun (it : Folio) => pick [2, it.index] % coresPerCluster
  let clusters := (List.range 16).map fun c =>
    (List.range coresPerCluster).filterMap fun k =>
      let mine := (its.filter fun it => core it == k).filterMap (Folio.inCluster x vs c)
      if mine.isEmpty then none else
        some ((anyOrder (pickAt pick [3, c, k]) mine.length mine).foldl (a.folio (pickAt pick [4, c, k]) x vs) { parts := empty })
  let die := fun n (site : List Nat) (cs : List (List CoreSt)) =>
    mergeAny (pickAt pick (6 :: site)) 16 (cs.zipIdx.filterMap fun e =>
      if e.1.isEmpty then none else some (mergeAny (pickAt pick (5 :: site ++ [e.2])) e.1.length
        (e.1.map fun st => st.parts.getD n { a := [] })))
  { parts := empty.zipIdx.map fun e =>
      let merged := mergeAny (pickAt pick [7, e.2]) 2 ([(clusters.take 8, 0), (clusters.drop 8, 1)].filterMap fun d =>
        if d.1.all (·.isEmpty) then none else some (die e.2 [e.2, d.2] d.1))
      if merged.a.isEmpty then e.1 else merged
    skipped := clusters.flatten.flatMap (·.skipped) }

/-! ### The inverse rotation (R126) -/

/-- One butterfly stage. -/
def butterfly (stride : Nat) (y : List Fx) : List Fx :=
  (List.range y.length).map fun i =>
    if i / stride % 2 = 0 then (y.getD i (.fin 0)).add (y.getD (i + stride) (.fin 0))
    else (y.getD (i - stride) (.fin 0)).sub (y.getD i (.fin 0))

/-- The inverse of R126 over whole blocks: step 2, step 3, then the signs. -/
def unrotate (signs : List Bool) (b : Nat) (y : List Fx) : List Fx :=
  let z := (List.range (Nat.log2 b)).foldl (fun y n => butterfly (2 ^ n) y) y
  (z.zip signs).map fun e =>
    let v := e.1.mul (.fin (units (invSqrt b)))
    if e.2 then v.neg else v

/-! ### The bound of the output (R186), as whole numbers of 2^−300 -/

/-- The exact score and the sum of the products' magnitudes. -/
def Arith.exactScore (a : Arith) (i : Nat) (d : Int) (q k : List Int) : Int × Int :=
  let ps := List.zipWith (· * ·) q k
  let t := a.scale.get * (4 * ps.sum) / 2 ^ 149
  let t := if a.cap = 0 then t else a.cap * tanh300 (t * 2 ^ 149 / a.cap) / 2 ^ 149
  let t := if a.bias = 0 then t else t - (expNeg (a.bias * (i + 1) * ln2 / a.qHeads) : Int) * d
  (t, 4 * (ps.map fun v => (v.natAbs : Int)).sum)

/-- The exact inverse rotation. -/
def exactUnrotate (signs : List Bool) (b : Nat) (y : List Int) : List Int :=
  let z := (List.range (Nat.log2 b)).foldl (fun (y : List Int) n => (List.range y.length).map fun i =>
    if i / 2 ^ n % 2 = 0 then y.getD i 0 + y.getD (i + 2 ^ n) 0 else y.getD (i - 2 ^ n) 0 - y.getD i 0) y
  let c : Int := Nat.sqrt (one300 * one300 / b)
  (z.zip signs).map fun e => (if e.2 then -1 else 1) * (e.1 * c / one300)

/-- The reference output o* and the bound of each channel but for the rounding of the output; no bound where ε passes 1/4. -/
def Arith.reference (a : Arith) (signs : List Bool) (b i : Nat) (xs : List (Int × List Int × (List Int × List Int))) :
    Option (List (Int × Int)) :=
  let ss := xs.map fun e => a.exactScore i e.1 e.2.1 e.2.2.1
  let mx := ss.foldl (fun m s => max m s.1) ((ss.headD (0, 0)).1)
  let ws := ss.map fun s => expNeg (mx - s.1).natAbs
  let sum := max 1 ws.sum
  let vals := xs.map fun e => exactUnrotate signs b ((e.2.2.2.take a.od).map up300)
  let o := (columns a.od (List.zipWith (fun (w : Nat) (v : List Int) => v.map fun u => (w : Int) * u) ws vals)).map fun c => c.sum / (sum : Int)
  let delta := a.scale.get * (ss.foldl (fun m s => max m s.2) 0) / 2 ^ 163 + (ss.foldl (fun m s => max m s.1.natAbs) 0 : Nat) / 2 ^ 20
  let eps : Int := 3 * one300 / 32 + 3 * delta + 2 ^ 282
  if (one300 : Int) < 4 * eps then none else
  some (((o.zip (columns a.od vals)).map fun e =>
    (e.1, eps * ((e.2.map fun v => (v - e.1).natAbs).foldl max 0 : Nat) / ((one300 : Int) - eps))))

/-- A value rounded to the output type (R168). -/
def Fx.narrow (wide : Bool) : Fx → Fx
  | .fin n => if wide then .fin n else .fin (units (roundTo .nearest 8 (-133) (unitsFr n)))
  | v => v

/-- Hold a channel within the bound of R186: an output outside it is the reference rounded. -/
def confine (wide : Bool) (ref : Int × Int) (v : Fx) : Fx :=
  let rho : Nat := if wide then 23 else 8
  match v with
  | .fin n =>
    if decide ((up300 n - ref.1).natAbs ≤ ref.2.natAbs + (up300 n).natAbs / 2 ^ rho) then v
    else (Fx.ofUnits (roundUnits ref.1 151)).narrow wide
  | _ => (Fx.ofUnits (roundUnits ref.1 151)).narrow wide

/-! ### Writing values (R168, R169) -/

/-- Bits of an output element: fp32 or bf16 rounded to nearest even. What the arithmetic leaves without a finite value is free,
and never an infinity (R169); the sign of a zero is free. -/
def outBits (c : Nat) (wide : Bool) (v : Fx) : Nat :=
  let free := if wide then (if c % 2 ^ 31 = 0x7F80_0000 then c % 2 ^ 32 + 1 else c % 2 ^ 32)
    else if c % 2 ^ 15 = 0x7F80 then c % 2 ^ 16 + 1 else c % 2 ^ 16
  match v with
  | .fin n =>
    let w := if wide then v.bits (c % 2 == 1) else bf16Encode (c % 2 == 1 && n == 0) (unitsFr n)
    if wide ∨ w % 2 ^ 15 ≠ 0x7F80 then w else free
  | _ => free

/-- The bytes of a list of output elements. -/
def outBytes (pick : List Nat → Nat) (wide : Bool) (vs : List Fx) : List Byte :=
  vs.zipIdx.flatMap fun e => leBytes (if wide then 4 else 2) (outBits (pick [e.2]) wide e.1)

/-- fp16 bits rounded upward of a guard value (R179). -/
def guardBits : Fx → Nat
  | .fin n => if n ≤ 0 then 0 else f16Up (unitsFr n)
  | _ => 0x7C00

end Sys2Proof.Machine
end

