-- ==== Sys2Proof/Machine/AttendRun.lean ====
section
/-! DEFINITION. Executing an ATTEND: poisoned folios, the output, the entry records, the result (R22, R168, R169, R174 to R182, R186). -/

namespace Sys2Proof.Machine

/-! ### Poison (R182, R450) -/

/-- The folio a read finds poisoned (R182, R450): open or closed frames only. -/
def Dev.readPoisoned (d : Dev) (i layer : Nat) (r : ReadOf) (s : Span) : Bool :=
  s.damaged || ((s.st != 3 || r.skim || r.anchor) && d.frameBad i layer 0)

/-- Release the poisoned tail that a read would use, then the poisoned twin (R450). -/
def Dev.shedRead (x : DescIn) (v : AtnView) (layer : Nat) (d : Dev) (e : Nat × Nat) : Dev :=
  let use := fun (d : Dev) => ((d.span? e.2).map (readOf x v e.1 layer)).getD {}
  let d := d.shedBad layer (use d).tail false e.2
  d.shedBad layer false (use d).twin e.2

/-! ### The folios of a request -/

/-- The folio of a span in the request: who reads it, and the decoded rows of the tokens some reader sees. -/
def folioOf (x : DescIn) (p : Profile) (layer : Nat) (vs : List AtnView) (i : Nat) (s : Span) : Folio :=
  let readers := vs.zipIdx.flatMap fun e => ((e.1.reads x).filter fun r => r.2 == i).map fun r => (e.2, r.1)
  let seen := (List.range 256).map fun t => readers.any fun r => (vs[r.1]?).any fun v => decide (256 * r.2 + t < v.len) && v.sees x r.2 t
  { index := i, span := s, layer := layer, readers := readers
    rows := (List.range p.heads).map fun h => seen.zipIdx.map fun e =>
      if e.1 then
        let row := fun role => (s.rowAt p layer h role (s.placeOf layer (atnStrict x) e.2) e.2).map units
        let k := row 0
        (k, if p.latent then k else row 1)
      else ([], []) }

/-- Every folio the request reads, once (R54). -/
def Dev.folios (d : Dev) (x : DescIn) (p : Profile) (vs : List AtnView) : List Folio :=
  (vs.flatMap fun v => (v.reads x).map (·.2)).eraseDups.filterMap fun i =>
    (d.span? i).map fun s => folioOf x p (atnLayer x) vs i s

/-- Every head of a folio was skipped. -/
def Folio.avoided (f : Folio) (heads : Nat) (skipped : List (Nat × Nat)) : Bool :=
  (List.range heads).all fun h => skipped.contains (f.index, h)

/-- Join the tick's groups of readers: a folio is read once for all of them (R54); one that no reader needs stays unread
(R174). -/
def Dev.groupRead (d : Dev) (p : Profile) (layer : Nat) (skipped : List (Nat × Nat)) (f : Folio) : Dev :=
  let k := (f.index, layer)
  let read := !f.avoided p.heads skipped
  let was := (d.adm.grouped.find? fun e => e.1 == k).map (·.2)
  let rest := d.adm.grouped.filter fun e => e.1 != k
  let d := { d with adm := { d.adm with grouped := rest ++ [(k, read || was.getD false)] } }
  if read && !(was.getD false) then
    let d := d.count .folioReads 0
    if p.twoPass then d.count .twoPass 0 else d
  else d

/-! ### The guard's report (R176, R177) -/

/-- The guard value of a query head (R176); 0 where no key is visible. -/
def Partial.guardValue (p : Partial) : Fx := if p.m = .inf true then .fin 0 else p.g.div p.l

/-- A folio and head offends for a vector (R177). -/
def Arith.offends (a : Arith) (x : DescIn) (st : CoreSt) (n : Nat) (v : QVec) (f : Folio) (h : Nat) : Bool :=
  ((f.tokens x v).any fun t => (f.span.placeOf f.layer (atnStrict x) t).closed) && (a.group h).any fun i =>
    let p := st.parts.getD (n * a.qHeads + i) { a := [] }
    let eg := a.guardTerm (v.qs.getD i []) (f.head h).resid
    (!eg.isFin || a.tau.lt (unitsFr eg.get)) &&
      decide (p.l.get ≤ 2 ^ 10 * ((p.ws.filter fun e => e.1 == f.index * 256 + h).map fun e => e.2.get).sum)

/-! ### Output (R168, R169, R186) -/

/-- The unscreened output of a query head is held within R186. -/
def Arith.normalised (a : Arith) (x : DescIn) (p : Profile) (signs : List Bool) (fs : List Folio) (screened wide : Bool) (v : QVec)
    (i : Nat) (t : Partial) : List Fx :=
  let b := rotBlock p.latent p.dim
  let o := (unrotate signs b (t.a.map fun e => e.div t.l)).map (Fx.narrow wide)
  if screened then o else
  let q := v.qs.getD i []
  let h := i / (a.qHeads / a.heads)
  let xs := fs.flatMap fun f => (f.tokens x v).map fun tok =>
    (v.view.dist x v.j (f.base v + tok), q, ((f.rows.getD h []).getD tok ([], [])))
  match a.reference signs b i xs with
  | none => o
  | some refs => List.zipWith (confine wide) refs o

/-- Write one query vector's output: zeros or the empty partial for a head that sees no key (R168, R169). -/
def Dev.writeVector (d : Dev) (q : Req) (a : Arith) (pick : List Nat → Nat) (p : Profile) (fs : List Folio) (st : CoreSt) (total n : Nat)
    (v : QVec) : Dev :=
  let x := q.d
  let e := atnElem x
  let wide := e == 4
  let signs := signVector p.seed p.dim
  let seen := fs.any fun f => !(f.tokens x v).isEmpty
  let parts := (List.range a.qHeads).map fun i => st.parts.getD (n * a.qHeads + i) { a := List.replicate a.od (.fin 0) }
  let dead := fun (t : Partial) => !seen || (atnPartial x && t.m == .inf true)
  let acc := parts.zipIdx.flatMap fun t =>
    if dead t.1 then List.replicate (a.od * e) 0 else
    outBytes (pickAt pick [8, n, t.2]) wide (if atnPartial x then unrotate signs (rotBlock p.latent p.dim) t.1.a
      else a.normalised x p signs fs (!st.skipped.isEmpty) wide v t.2 t.1)
  let put := fun (d : Dev) off b => d.writeOut x 64 off b
  let d := put d (n * a.qHeads * a.od * e) acc
  if atnPartial x then
    let l := partialLayout total a.qHeads a.od e
    let sect := fun (s : Nat) (f : Partial → Nat → Fx) => parts.zipIdx.flatMap fun t =>
      if dead t.1 then leBytes 4 (f32Inf true) else leBytes 4 (outBits (pick [s, n, t.2]) true (f t.1 (pick [s + 1, n, t.2])))
    put (put d (l.1 + n * a.qHeads * 4) (sect 9 fun t _ => t.m)) (l.2.1 + n * a.qHeads * 4) (sect 11 fun t c => t.m.add (t.l.ln c))
  else d

/-! ### The result (R179, R180) -/

/-- What one entry reports. -/
structure EntSum where
  screened : Nat
  offending : Nat
  g : Nat
  twins : Nat
  freshes : Nat
  tokens : Nat

/-- The figures of entry `k`. -/
def Arith.entSum (a : Arith) (x : DescIn) (vs : List QVec) (fs : List Folio) (st : CoreSt) (k : Nat) (view : AtnView) : EntSum :=
  let mine := fs.filter fun f => f.readers.any fun r => r.1 == k
  let vecs := vs.zipIdx.filter fun e => e.1.entry == k
  let reads := (mine.filter fun f => !f.avoided a.heads st.skipped).flatMap fun f =>
    (f.readers.filter fun r => r.1 == k).map fun r => readOf x view r.2 f.layer f.span
  { screened := (st.skipped.filter fun e => mine.any fun f => f.index == e.1).length
    offending := if a.guard then
        (vecs.map fun e => (mine.map fun f => ((List.range a.heads).filter fun h => a.offends x st e.2 e.1 f h).length).sum).sum
      else 0
    g := if a.guard then (vecs.flatMap fun e => (List.range a.qHeads).map fun i =>
        guardBits (st.parts.getD (e.2 * a.qHeads + i) { a := [] }).guardValue).foldl max 0 else 0
    twins := (reads.filter (·.twin)).length, freshes := (reads.filter (·.fresh)).length, tokens := view.keys x }

/-- The result of an ATTEND whose folios can all be read (R179). -/
def Dev.attendCompute (d : Dev) (q : Req) (p : Profile) (vs : List AtnView) : Dev × Ans :=
  let x := q.d
  let allow := fun f => d.reg regAtnCtrl 0 0 f == 1
  let tol := x.fld 28 0 16
  let tau := if tol ≠ 0 then tol else d.reg regAtnGuardTolp x.patron
  let guard := x.fld 3 5 1 == 1 && allow 1 && tau != 0
  if x.refuses 64 then (d, .bad 0x08 (bodyOff 64)) else
  if !(x.buf 80).absent && x.refuses 80 then (d, .bad 0x08 (bodyOff 80)) else
  let pick := Config.choice d.free
  let a := arithOf pick x p (x.fld 3 4 1 == 1 && allow 0) guard tau
  let vecs := queryVecs x p vs
  let fs := d.folios x p vs
  let st := a.attend pick x vecs fs
  let ents := vs.zipIdx.map fun e => a.entSum x vecs fs st e.2 e.1
  let total := fun (f : EntSum → Nat) => (ents.map f).sum
  let g := (ents.map (·.g)).foldl max 0
  let screened := st.skipped.length
  let d := (fs.filter fun f => !f.avoided a.heads st.skipped).foldl (fun d f => d.touch f.index) d.draw.2
  let d := fs.foldl (fun d f => d.groupRead p (atnLayer x) st.skipped f) d
  let d := (d.count .twinReads x.patron (total (·.twins))).count .freshSkim x.patron (total (·.freshes))
  let d := (d.count .screened x.patron screened).count .qvecs x.patron vecs.length
  let d := vecs.zipIdx.foldl (fun d e => d.writeVector q a pick p fs st vecs.length e.2 e.1) d
  let d := (d.writeRecords q ((vs.zip ents).map fun e =>
    entryRecord e.1.gen (min e.2.screened 65535) (min e.2.offending 65535) e.2.g none (decide (0 < e.2.twins))
      (guard && decide (tau < e.2.g)) e.2.tokens)).1
  let exceeded := guard && decide (tau < g)
  let d := if exceeded then d.count .guardEx x.patron else d
  (d, { flags := flGuard * flag exceeded + flScreened * flag (decide (0 < screened)) + flTwin * flag (decide (0 < total (·.twins)))
        r0 := (if atnBatch x then 0xFFFF_FFFF else (vs.head?.map (·.gen)).getD 0) + 2 ^ 32 * min screened 65535
          + 2 ^ 48 * min (total (·.offending)) 65535
        r1 := min (total (·.tokens)) (2 ^ 32 - 1) + 2 ^ 32 * g })

/-- Execute an ATTEND whose walks have begun: its answer, or none when it waits (R181, R182, R280). -/
def Dev.attendRun (d : Dev) (q : Req) : Dev × Req × Option Ans :=
  let x := q.d
  let layer := atnLayer x
  let vs := d.attendViews q
  match d.attendRecompute q vs with
  | some (d, a) => (d, q, some a)
  | none =>
    let spans := vs.flatMap fun v => (v.reads x).map (·.2)
    let d := d.deepLead q.d.patron layer spans (some (q.admTick, q.admNo))
    match d.awaited layer spans with
    | i :: is => let r := d.awaitSpans q layer (i :: is); (r.1, r.2, none)
    | [] =>
      let d := vs.foldl (fun (d : Dev) v => (v.reads x).foldl (Dev.shedRead x v layer) d) d
      let bad := vs.findSome? fun v => (v.reads x).findSome? fun e => match d.span? e.2 with
        | some s => if d.readPoisoned e.2 layer (readOf x v e.1 layer s) s then some (e.2, s.firstPos) else none
        | none => none
      match (bad : Option (Nat × Nat)) with
      | some (i, pos) => (d.vacate i, q, some { status := stPoison, r0 := pos + 2 ^ 32 * 256 })
      | none =>
        let r := d.attendCompute q (d.prof q.prof) vs
        (r.1, { q with waits := false, stall := 0 }, some r.2)

/-- An ATTEND from its walks to its answer, all in the state as it stands. -/
def Dev.opAttend (d : Dev) (q : Req) : Dev × Req × Option Ans :=
  if q.walks.isEmpty then
    match d.attendPlan q with
    | (d, q, some a) => (d, q, some a)
    | (d, q, none) => d.attendRun q
  else d.attendRun q

end Sys2Proof.Machine
end

