-- ==== Sys2Proof/Machine/Merge.lean ====
section
/-! DEFINITION. MERGE: the form, its checks, merging partials (R168 to R172, R187). -/

namespace Sys2Proof.Machine

/-! ### The form (R171) -/

/-- The form of MERGE. -/
def formMerge : Form :=
  { entries := (· == 0), classes := [0, 1], object := (· == 0)
    items := fun d =>
      let n := d.fld 4 0 16
      let h := d.fld 6 0 16
      let c := d.fld 8 0 16
      let size := (partialLayout n h c (if d.fld 1 0 1 = 1 then 4 else 2)).2.2
      [.val 0 0 8 fun v => decide (2 ≤ v) && decide (v ≤ 16), .rsv 1 3 5] ++ rsvBytes 2 2
      ++ [.val 4 0 16 fun v => decide (1 ≤ v) && decide (v ≤ 1024), .val 6 0 16 fun v => decide (1 ≤ v) && decide (v ≤ 256),
          .val 8 0 16 fun v => decide (16 ≤ v) && decide (v ≤ 576) && v % 16 == 0] ++ rsvBytes 10 6
      ++ [.inBuf 16 fun _ => true, .need ((d.buf 16).list) 0x05 16, .need ((d.buf 16).len == d.fld 0 0 8) 0x05 16,
          .need ((d.parts 16).all fun b => decide (size ≤ b.length)) 0x05 16,
          .outBuf 32 fun l => decide (outSize (d.fld 1 2 1 == 1) n h c (if d.fld 1 1 1 = 1 then 4 else 2) ≤ l)]
    inputs := fun _ => [16] }

/-- The sections of one input: element bytes, the first offset of each section. -/
def mergeGeom (x : DescIn) : Nat × Nat × Nat × Nat × Nat × Nat :=
  let n := x.fld 4 0 16
  let h := x.fld 6 0 16
  let c := x.fld 8 0 16
  let e := if x.fld 1 0 1 = 1 then 4 else 2
  let l := partialLayout n h c e
  (n, h, c, e, l.1, l.2.1)

/-- fp32 bits of an ACC element. -/
def accBits (e : Nat) (b : List Byte) (off : Nat) : Nat :=
  if e = 4 then fieldAt b off 4 else fieldAt b off 2 * 65536

/-- fp32 bits that are a NaN or an infinity. -/
def nonFinite (v : Nat) : Bool := v / 2 ^ 23 % 256 == 255

/-- Partial (j, i) of an input is empty: MAX and LSE are −∞ and its ACC is zero (R169). -/
def emptyAt (x : DescIn) (b : List Byte) (k : Nat) : Bool :=
  let (_, _, c, e, a, l) := mergeGeom x
  fieldAt b (a + 4 * k) 4 == f32Inf true && fieldAt b (l + 4 * k) 4 == f32Inf true
    && (List.range c).all fun i => accBits e b (e * (k * c + i)) % 2 ^ 31 == 0

/-- The first value an input may not hold (R172): its byte offset. -/
def mergeBad (x : DescIn) (b : List Byte) : Option Nat :=
  let (n, h, c, e, a, l) := mergeGeom x
  let acc := ((List.range (n * h * c)).find? fun i => nonFinite (accBits e b (e * i))).map (e * ·)
  let bad := fun base => ((List.range (n * h)).find? fun k =>
    nonFinite (fieldAt b (base + 4 * k) 4) && !emptyAt x b k).map (base + 4 * ·)
  match acc with
  | some o => some o
  | none => match bad a with
    | some o => some o
    | none => bad l

/-- The checks of a MERGE made at fetch. -/
def mergeCheck (x : DescIn) : Option Ans :=
  match formMerge.check x with
  | some a => some a
  | none => (x.parts 16).zipIdx.findSome? fun e => (mergeBad x e.1).map fun o =>
    { status := stBadQuery, r0 := e.2 + 2 ^ 32 * (o / 4 % 65536) }

/-- The largest MAX of a partial over the inputs, as fp32 bits. -/
def mergeMax (x : DescIn) (k : Nat) : Nat :=
  let a := (mergeGeom x).2.2.2.2.1
  (x.parts 16).foldl (fun m b =>
    let v := fieldAt b (a + 4 * k) 4
    match f32Decode m, f32Decode v with
    | .fin _ y, .fin _ z => if y.lt z then v else m
    | .fin _ _, _ => m
    | _, _ => v) (f32Inf true)

/-- The partial (j, i) number `k` of an input: l is exp(LSE − MAX) (R169). -/
def mergeInput (pick : List Nat → Nat) (x : DescIn) (k : Nat) (b : List Byte) : Partial :=
  let (_, _, c, e, a, l) := mergeGeom x
  let m := Fx.ofBits (fieldAt b (a + 4 * k) 4)
  { m := m, l := ((Fx.ofBits (fieldAt b (l + 4 * k) 4)).sub m).exp (pick [0])
    a := (List.range c).map fun i => .ofBits (accBits e b (e * (k * c + i))) }

/-- The exact LSE of a merged head, as a whole number of 2^−300: the largest LSE and ln Σ exp(LSE − largest). -/
def mergeLse (x : DescIn) (k : Nat) (live : List (List Byte)) : Int :=
  let l := (mergeGeom x).2.2.2.2.2
  let ls := live.map fun b => up300 (Fx.ofBits (fieldAt b (l + 4 * k) 4)).get
  let mx := ls.foldl max (ls.headD 0)
  mx + ln300 (ls.map fun v => exp300 (v - mx)).sum - 151 * (ln2 : Int)

/-- The exact merged channels, normalised or not, each with the sum of the contributions' magnitudes in units of 2^−20 (R187), as whole
numbers of 2^−300; none where a contribution lies beyond fp32. -/
def mergeExact (x : DescIn) (norm : Bool) (k : Nat) (live : List (List Byte)) : List (Option (Int × Int)) :=
  let (_, _, c, e, a, _) := mergeGeom x
  let at_ := fun (b : List Byte) => up300 (Fx.ofBits (fieldAt b (a + 4 * k) 4)).get
  -- o = Σ a × exp(MAX − LSE of the result); without normalisation the exponent is taken from the largest MAX
  let base := if norm then mergeLse x k live else live.foldl (fun m b => max m (at_ b)) ((live.head?.map at_).getD 0)
  (List.range c).map fun i =>
    let cs := live.map fun b => up300 (Fx.ofBits (accBits e b (e * (k * c + i)))).get * exp300 (at_ b - base) / (one300 : Int)
    if cs.any fun v => decide (2 ^ 428 ≤ v.natAbs) then none else some (cs.sum, (cs.map fun v => (v.natAbs : Int)).sum / 2 ^ 20)

/-- An LSE held within 2^−20 of the exact one, but for its rounding (R187). -/
def confineLse (ref : Int) (v : Fx) : Fx :=
  match v with
  | .fin n => if decide ((up300 n - ref).natAbs ≤ one300 / 2 ^ 20 + (up300 n).natAbs / 2 ^ 23) then v else .ofUnits (roundUnits ref 151)
  | _ => .ofUnits (roundUnits ref 151)

/-- Write the merged head (j, i) number `k` (R168–R170, R187): the inputs with a visible key merge in ascending order. -/
def Dev.mergeHead (d : Dev) (q : Req) (pick : List Nat → Nat) (k : Nat) : Dev :=
  let x := q.d
  let (n, h, c, e, _, l) := mergeGeom x
  let wide := x.fld 1 1 1 == 1
  let eo := if wide then 4 else 2
  let part := x.fld 1 2 1 == 1
  let lay := partialLayout n h c eo
  let live := (x.parts 16).filter fun b => !emptyAt x b k
  let out := fun (d : Dev) off (b : List Byte) => d.writeOut x 32 off b
  let ends := fun (d : Dev) (m s : List Byte) => if part then out (out d (lay.1 + 4 * k) m) (lay.2.1 + 4 * k) s else d
  match live with
  | [] => ends (out d (k * c * eo) (List.replicate (c * eo) 0)) (leBytes 4 (f32Inf true)) (leBytes 4 (f32Inf true))
  | b :: bs =>
    let t := bs.zipIdx.foldl (fun t e => t.merge (pickAt pick [1, e.2]) (mergeInput (pickAt pick [2, e.2]) x k e.1))
      (mergeInput (pickAt pick [3]) x k b)
    let m := leBytes 4 (mergeMax x k)
    if part ∧ bs = [] then
      let acc := (List.range c).flatMap fun i =>
        let v := accBits e b (e * (k * c + i))
        leBytes eo (outBits (2 * pick [4, i] + flag (bit v 31)) wide (.ofBits v))
      ends (out d (k * c * eo) acc) m ((b.drop (l + 4 * k)).take 4)
    else
      let vals := (if part then t.a else t.a.map fun v => v.div t.l).map (Fx.narrow wide)
      let vals := List.zipWith (fun (r : Option (Int × Int)) v => match r with
        | some r => confine wide r v
        | none => v) (mergeExact x (!part) k live) vals
      ends (out d (k * c * eo) (outBytes (pickAt pick [5]) wide vals)) m
        (leBytes 4 (outBits (pick [6]) true (confineLse (mergeLse x k live) (t.m.add (t.l.ln (pick [7]))))))

/-- MERGE. -/
def Dev.opMerge (d : Dev) (q : Req) : EdRes :=
  if q.d.refuses 32 then (d, some (.bad 0x08 (bodyOff 32))) else
  let g := mergeGeom q.d
  ((List.range (g.1 * g.2.1)).foldl (fun d' k => d'.mergeHead q (pickAt (Config.choice d.free) [k]) k) d.draw.2, some {})

end Sys2Proof.Machine
end

