-- ==== Sys2Proof/Machine/Controls.lean ====
section
/-! DEFINITION. Changing the traffic controls: shapers, quanta, gate lists and their cycles (R427 to R434, R440). -/

namespace Sys2Proof.Machine

/-! ### Registers whose change waits for the next edge (R434, R554) -/

/-- The word a register will hold after the writes that wait. -/
def Dev.nextWord (d : Dev) (a cold : Nat) : Nat := ((d.pendRegs.filter fun x => x.1 == a).getLast?.map (·.2)).getD (tgetD d.regs a cold)

/-- A register word that is stored at the next tick edge. -/
def Dev.pendWord (d : Dev) (a w : Nat) : Dev := { d with pendRegs := d.pendRegs.filter (fun x => x.1 != a) ++ [(a, w)] }

/-! ### SHAPER_SET (R440) -/

/-- Targets of SHAPER_SET: class buckets, policer, fabric shaper, quantum; device buckets. -/
def shaperTarget (device t : Nat) : Bool := (if device = 1 then [3, 4, 5, 7] else [0, 1, 2, 6, 8, 9, 10]).contains t

/-- The form of SHAPER_SET. -/
def formShaperSet (d : Dev) : Form :=
  { entries := (· == 0), classes := [6], admin := true, object := (· == 0)
    items := fun x =>
      let dev := x.fld 0 6 1
      let t := x.fld 1 0 4
      let rate := x.fld 4 0 32
      [.val 0 0 6 fun v => if dev = 1 then v == 0 else d.exists_ v, .rsv 0 7 1, .val 1 0 4 (shaperTarget dev), .rsv 1 4 4, .rsv 2 0 16,
        .val 4 0 32 fun v => if dev = 0 ∧ t = 10 then decide (1 ≤ v) && decide (v ≤ 65535) else decide (v < 2 ^ 31),
        .val 8 0 32 fun v => if (dev = 0 ∧ (t = 9 ∨ t = 10)) ∨ rate = 0 then v == 0 else decide (rate ≤ v) && decide (v < 2 ^ 31)]
      ++ rsvBytes 12 36 }

/-- The registers a target's RATE and BURST are held in, and its bucket (none for a quantum). -/
def shaperRegs (device p t : Nat) : Nat × Option Nat × Option Nat :=
  if device = 1 then (regTrfDratec.addr (devK t), some (regTrfDburstc.addr (devK t)), some (bktDev t))
  else if t = 8 then (regTrfPoliceRatep.addr p, some (regTrfPoliceBurstp.addr p), some (bktPol p))
  else if t = 9 then (regRgnRatep.addr p, none, some (bktFab p))
  else if t = 10 then (regTrfQuantump.addr p, none, none)
  else (regTrfPratei.addr (bktPat p t), some (regTrfPbursti.addr (bktPat p t)), some (bktPat p t))

/-- SHAPER_SET: the setting changes at the next refill; RESULT0 is the balance, or the deficit counter, at execution. -/
def Dev.opShaperSet (d : Dev) (q : Req) : Dev × Ans :=
  let p := q.d.fld 0 0 6
  let r := shaperRegs (q.d.fld 0 6 1) p (q.d.fld 1 0 4)
  let d1 := d.pendWord r.1 (q.d.fld 4 0 32)
  let d1 := match r.2.1 with
    | some b => d1.pendWord b (q.d.fld 8 0 32)
    | none => d1
  let r0 := match r.2.2 with
    | some b => ofSigned 64 (d.bal b)
    | none => tgetD d.adm.deficit p 0
  (d1, { r0 := r0, r1 := (d.tim.count + 1) % 2 ^ 32 })

/-! ### GATE_SET and the gate cycle (R427, R428, R431) -/

/-- The entries of a gate list as the descriptor's buffer holds them. -/
def gateEntries (b : List Byte) (n : Nat) : List (Nat × Nat) :=
  (List.range n).map fun i => (leNat ((b.drop (8 * i)).take 4), leNat ((b.drop (8 * i + 4)).take 1))

/-- The form of GATE_SET. -/
def formGateSet : Form :=
  { entries := (· == 0), classes := [6], admin := true, object := (· == 0)
    items := fun x =>
      let per := x.fld 0 0 32
      let n := x.fld 8 0 7
      let b := x.input 0 16
      [.val 0 0 32 fun v => v == 0 || (decide (10 ≤ v) && decide (v ≤ 1000000)),
        .val 4 0 32 fun v => if per = 0 then v == 0 else decide (v < per),
        .val 8 0 7 fun v => if per = 0 then v == 0 else decide (1 ≤ v) && decide (v ≤ 64), .rsv 8 7 1] ++ rsvBytes 9 7
      ++ (if per = 0 then [.need (x.buf 16).absent 0x05 (bodyOff 16)]
          else [.inBuf 16 (· == 8 * n)]) ++ rsvBytes 32 16
      ++ (if per = 0 ∨ x.host.inputs.getD 0 none = none then [] else
          [.need ((gateEntries b n).all fun e => decide (1 ≤ e.1)) 0x05 (bodyOff 16),
            .need ((List.range n).all fun i => leNat ((b.drop (8 * i + 5)).take 3) == 0) 0x05 (bodyOff 16)])
    inputs := fun x => if (x.buf 16).absent then [] else [16] }

/-- GATE_SET: the new list waits for the first cycle start under it; an open list (PERIOD 0) starts at once (R427, R431). -/
def Dev.opGateSet (d : Dev) (q : Req) : Dev × Ans :=
  let x := q.d
  let per := x.fld 0 0 32
  let g : GateList := { period := per, phase := x.fld 4 0 32, entries := if per = 0 then [(0, 0)] else gateEntries (x.input 0 16) (x.fld 8 0 7) }
  let d := if per = 0 then { d.useGates g d.tim.now with adm := { (d.useGates g d.tim.now).adm with gatePend := none } }
    else { d with adm := { d.adm with gatePend := some g } }
  (d, { r0 := g.nextStart d.tim.now })

/-- GATE_CYCLE_START at a device time: entry 0 of the list in force, or of the one that waits for this start. -/
def execGateCycleStart (t : Nat) (s : State) : Host.Outcome State Fault Refusal :=
  .next <| s.onDev fun d =>
    let starts := fun (g : GateList) => g.period != 0 && g.startAt t == t
    let use := fun (g : GateList) =>
      ({ d with adm := { d.adm with gates := g, cycleStart := t, gateEntry := 0 } }).count .gateCycles 0
    match d.adm.gatePend with
    | some g => if starts g ∧ d.tim.now ≤ t then
        let d := use g
        { d with adm := { d.adm with gatePend := none } }
      else if starts d.adm.gates ∧ d.adm.cycleStart < t then use d.adm.gates else d
    | none => if starts d.adm.gates ∧ d.adm.cycleStart < t then use d.adm.gates else d

/-- GATE_ENTRY_CHANGE: the next entry of the cycle; the last stays in force (R428). -/
def execGateEntryChange (s : State) : Host.Outcome State Fault Refusal :=
  .next <| s.onDev fun d =>
    if d.adm.gates.period = 0 ∨ d.adm.gates.entries.length ≤ d.adm.gateEntry + 1 then d
    else { d with adm := { d.adm with gateEntry := d.adm.gateEntry + 1 } }

end Sys2Proof.Machine
end

