-- ==== Sys2Proof/Machine/Catalog.lean ====
section
/-! DEFINITION. PROBE, ACCESSION and WITHDRAW (R237 to R252). -/

namespace Sys2Proof.Machine

/-! ### Forms -/

/-- The scopes a PROBE searches: the private one first, then the shared ones ascending. -/
def probeScopes (x : DescIn) : List Nat :=
  (if x.fld 0 0 1 = 1 then [x.patron] else []) ++ ((List.range 64).filter (bit (x.fld 8 0 64))).map (64 + ·)

/-- The form of PROBE (R237). -/
def formProbe (d : Dev) (p : Nat) : Form :=
  { entries := (· == 0), classes := [0, 1, 2], object := (· == 0)
    items := fun x => [.rsv 0 1 7] ++ rsvBytes 2 2
      ++ [.val 4 0 32 fun v => decide (1 ≤ v) && decide (v ≤ 4096),
          .val 8 0 64 fun v => decide (popcount v ≤ 8) && (v != 0 || x.fld 0 0 1 == 1),
          .perm 8 0 64 fun v => (List.range 64).all fun k => !bit v k || d.holds p (64 + k),
          .inBuf 16 fun n => n == 1024 * x.fld 4 0 32, .outBuf 32 fun n => decide (16 * x.fld 4 0 32 ≤ n)]
    inputs := fun _ => [16] }

/-- The form of ACCESSION (R242). -/
def formAccession (d : Dev) (p : Nat) : Form :=
  { entries := (· == 0), classes := anyClass
    items := fun x => [.val 0 0 16 fun v => decide (1 ≤ v) && decide (v ≤ 4096), .perm 2 0 7 (d.holds p ·), .rsv 2 7 1,
      .val 3 0 2 fun v => decide (v < 2) == decide (64 ≤ x.fld 2 0 7), .perm 3 0 2 fun v => v != 0 || p == 0,
      .rsv 3 2 6] ++ rsvBytes 4 44 }

/-- The form of WITHDRAW (R246): its SCOPE as ACCESSION's, except that patron 0 may name any shared scope. -/
def formWithdraw (d : Dev) (p : Nat) : Form :=
  { entries := (· == 0), classes := anyClass
    items := fun _ => [.val 0 0 16 fun v => decide (1 ≤ v) && decide (v ≤ 4096),
      .perm 2 0 7 fun v => (p == 0 && decide (64 ≤ v)) || d.holds p v, .rsv 2 7 1] ++ rsvBytes 3 45 }

/-! ### PROBE (R238–R241) -/

/-- A matched position: span, key, class, resident at verification. -/
structure Hit where
  span : Nat
  key : Nat
  cls : Nat
  slot : Nat
  resident : Bool
  deriving DecidableEq, Repr

/-- Entries of a list that verify, and the number that do not up to the first that does (R235). -/
def Dev.firstVerified (d : Dev) (es : List (Nat × CatEnt)) (tokens : List Nat) (prof firstPos : Nat) (parents : List Nat) :
    Option (Nat × CatEnt) × Nat :=
  let ranked := sortBy entBefore es
  let ok := fun (e : Nat × CatEnt) => d.verifies e.2 tokens prof firstPos parents
  (ranked.find? ok, ((ranked.takeWhile fun e => !ok e)).length)

/-- Look up one position in one scope (R233, R235): the hit, and the device with counters and any return on chip (R234). -/
def Dev.probeAt (d : Dev) (mask scope key : Nat) (tokens : List Nat) (prof k before : Nat) : Dev × Option Hit :=
  let hit := fun (d : Dev) i (e : CatEnt) => some
    { span := e.span, key := key, cls := e.cls, slot := i
      resident := match d.span? e.span with
        | some s => d.resident s
        | none => false : Hit }
  let r := d.firstVerified (d.keyOnChip mask scope key) tokens prof (256 * k) [before]
  let d := d.count .keyColl 0 r.2
  match r.1 with
  | some (i, e) => (d, hit d i e)
  | none =>
    if !d.hasOverflow scope then (d, none) else
    let d := d.count .ovfLookup 0
    let r := d.firstVerified (d.keyOverflow scope key) tokens prof (256 * k) [before]
    let d := d.count .keyColl 0 r.2
    match r.1 with
    | none => (d, none)
    | some (i, e) => let m := d.returnEnt i e; (m.2, hit m.2 m.1 e)

/-- The run of one scope from position `k` on: fuel, previous key, previous span. -/
def Dev.probeRun (d : Dev) (mask scope prof : Nat) (salt : List Byte) (uid : Nat) :
    List (List Nat) → Nat → Nat → Nat → Dev × List Hit
  | [], _, _, _ => (d, [])
  | ts :: rest, k, prevKey, before =>
    let key := spanKeyHash prevKey uid salt ts
    let r := (d.count .keysDerived 0).probeAt mask scope key ts prof k before
    match r.2 with
    | none => (r.1, [])
    | some h => let t := r.1.probeRun mask scope prof salt uid rest (k + 1) key h.span; (t.1, h :: t.2)

/-- A PROBE record (R240). -/
def probeRecord (scope matches_ : Nat) (h : Hit) (slot : Nat) : List Byte :=
  leBytes 4 h.span ++ leBytes 4 slot ++ leBytes 1 scope ++ leBytes 1 (h.cls + 4 * flag h.resident)
    ++ leBytes 1 (min matches_ 255) ++ leBytes 5 0

/-- PROBE. -/
def Dev.opProbe (d : Dev) (q : Req) : EdRes :=
  let x := q.d
  let prof := x.fld 1 0 8
  if !d.mayName q.d.patron prof then (d, some { status := stNotFound }) else
  let b := x.input 0 16
  let stream := (List.range (x.fld 4 0 32)).map fun k => (List.range 256).map fun t => fieldAt b (1024 * k + 4 * t) 4
  let scopes := probeScopes x
  let mask := scopes.foldl (fun m s => m ||| d.scopeMask s) 0
  let uid := (d.prof prof).uid
  let r := scopes.foldl (fun (st : Dev × List (Nat × List Hit)) s =>
    let t := st.1.probeRun mask s prof (st.1.salt s) uid stream 0 0 0
    (t.1, st.2 ++ [(s, t.2)])) (d, [])
  let d := r.1
  let runs := r.2
  -- the chosen scope: longest run, ties by the rank of the entry at position 0 (R239)
  let better := fun (a b : Nat × List Hit) => decide (b.2.length < a.2.length) || (a.2.length == b.2.length &&
    match a.2.head?, b.2.head? with
    | some u, some v => decide (u.cls < v.cls) || (u.cls == v.cls && decide (u.slot < v.slot))
    | _, _ => false)
  let best := runs.foldl (fun c e => if better e c then e else c) (runs.headD (0, []))
  let live := best.2.takeWhile fun h => match d.span? h.span with
    | some s => s.st == 2 || s.st == 3
    | none => false
  let n := live.length
  let cnt := fun k => (runs.filter fun e => decide (k < e.2.length)).length
  let big := ((List.range n).map cnt).foldl max 0
  -- MULTI looks at every position of the chosen run, before R240 cuts it
  let multi := (List.range best.2.length).any fun k => decide (1 < cnt k)
  let end_ := if n < best.2.length then 2 else if n = stream.length then 0 else 1
  let slotOf := fun (h : Hit) => (d.entAt best.1 h.key h.span).getD h.slot
  let recs := live.zipIdx.map fun e => probeRecord best.1 (cnt e.2) e.1 (slotOf e.1)
  if q.d.refuses 32 ∧ 0 < n then (d, some (.bad 0x08 (bodyOff 32))) else
  let d := if n = 0 then d else d.writeOut q.d 32 0 recs.flatten
  let d := d.count .probeSpans q.d.patron n
  let d := if multi then d.count .multi q.d.patron else d
  (d, some { flags := flMulti * flag multi, r0 := n + 2 ^ 32 * big + 2 ^ 48 * end_
             r1 := if end_ = 2 then ((best.2[n]?).map (·.span)).getD 0 else 0 })

/-! ### ACCESSION (R243–R245) -/

/-- A span and its nearest ancestors: newest first, `none` where one is gone, stopping at position 0. -/
def Dev.chain (d : Dev) : Nat → Nat → List (Option (Nat × Span))
  | 0, _ => []
  | n + 1, i => match d.span? i with
    | none => [none]
    | some s => some (i, s) :: (if s.firstPos = 0 then [] else d.chain n s.parent)

/-- The first span of the chain that fails, by number i, and the reason (R243, assumption 16). -/
def Dev.accessionFail (d : Dev) (p count : Nat) (c : List (Option (Nat × Span))) : Option (Nat × Nat) :=
  let oldest := count - c.length
  if c.getLast? = some none then some (count - c.length, 1)
  else if c.length < count then some (0, 3)
  else (c.reverse.zipIdx).findSome? fun e => match e.1 with
    | none => some (oldest + e.2, 1)
    | some (i, s) => if s.ref = 0 ∨ !d.visible p i s then some (oldest + e.2, 1)
        else if s.st ≠ 2 ∧ s.st ≠ 3 then some (oldest + e.2, 2) else none

/-- What an ACCESSION plans for one span: the span, its key, the entry that stands for it already. -/
structure AccPlan where
  span : Nat
  key : Nat
  present : Option (Nat × CatEnt)

/-- The key of a span in a scope from its parent's key, as R223 takes it: the key and the derivations. -/
def Dev.chainKey (d : Dev) (scope prevKey : Nat) (s : Span) : Nat × Nat :=
  if scope = s.owner ∧ s.key ≠ 0 then (s.key, 0)
  else (spanKeyHash prevKey (d.prof s.profile).uid (d.salt scope) s.tokens, 1)

/-- Plan the spans of a chain in order (R244). -/
def Dev.accessionPlan (d : Dev) (scope : Nat) : List (Nat × Span) → Option Nat → Nat → Dev × List AccPlan
  | [], _, _ => (d, [])
  | (i, s) :: rest, prevKey, before =>
    let (k, n) := match prevKey with
      | some k => d.chainKey scope k s
      | none => d.spanKey scope i
    -- the draw that a gone ancestor's key takes is spent (assumption 10)
    let d := { d.count .keysDerived 0 n with free := d.free + 1 }
    let all := d.keyOnChip 3 scope k ++ d.keyOverflow scope k
    let d := if d.hasOverflow scope then d.count .ovfLookup 0 else d
    let r := d.firstVerified all s.tokens s.profile s.firstPos [before, if s.firstPos = 0 then 0 else s.parent]
    let d := d.count .keyColl 0 r.2
    let here := match r.1 with
      | some e => e.2.span
      | none => i
    let t := d.accessionPlan scope rest (some k) here
    (t.1, { span := i, key := k, present := r.1 } :: t.2)

/-- Insert the planned entries; `none` when a slice cannot take one. -/
def Dev.accessionInsert (d : Dev) (scope cls p : Nat) : List AccPlan → Option Dev
  | [] => some d
  | a :: rest => match a.present with
    | some _ => d.accessionInsert scope cls p rest
    | none =>
      let e : CatEnt := { key := a.key, span := a.span, scope := scope, cls := cls, publisher := p
                          stamp := d.stampNow, made := d.tim.count }
      match d.insertEnt (d.scopeMask scope) e with
      | some (_, d) => (d.refUp a.span).accessionInsert scope cls p rest
      | none => none

/-- The address of an entry (R226). -/
def entAddr (slot span : Nat) : Nat := slot + 2 ^ 32 * span

/-- ACCESSION. -/
def Dev.opAccession (d : Dev) (q : Req) : EdRes :=
  let p := q.d.patron
  let count := q.d.fld 0 0 16
  let scope := q.d.fld 2 0 7
  let c := d.chain count q.d.object
  match d.accessionFail p count c with
  | some (i, why) => (d, some { status := stNotFound, r0 := i + 2 ^ 32 * why })
  | none =>
    let spans := (c.reverse).filterMap id
    let before := match spans.head? with
      | some (_, s) => if s.firstPos = 0 then 0 else s.parent
      | none => 0
    let r := d.accessionPlan scope spans none before
    let d := r.1
    let new := (r.2.filter (·.present.isNone)).length
    let lim := d.scopeLimit scope
    if (lim ≠ 0 ∧ lim < d.scopeEnts scope + new) ∨ (r.2.any fun a => a.present.isNone && d.anyFull [a.span]) then
      (d, some { status := stQuota })
    else match d.accessionInsert scope (q.d.fld 3 0 2) p r.2 with
      | none => (d, some { status := stQuota })
      | some d =>
        let old := r.2.length - new
        let d := (d.count .entsIns p new).count .entsPresent p old
        let lst := r.2.getLast?
        let named := fun (a : AccPlan) => (a.present.map (·.2.span)).getD a.span
        let addr := (lst.bind fun a => (d.entAt scope a.key (named a)).map fun i => entAddr i (named a)).getD 0
        (d, some { status := if new = 0 then stPresent else stOk, r0 := addr, r1 := new + 65536 * old })

/-! ### WITHDRAW (R246) -/

/-- The spans of a chain up to the first that is absent: gone, or with a REF_COUNT of zero (R248). -/
def presentSpans (c : List (Option (Nat × Span))) : List Nat :=
  (c.takeWhile fun x => (x.map fun e => decide (e.2.ref ≠ 0)).getD false).filterMap fun x => x.map (·.1)

/-- WITHDRAW. -/
def Dev.opWithdraw (d : Dev) (q : Req) : EdRes :=
  let p := q.d.patron
  let scope := q.d.fld 2 0 7
  let spans := presentSpans (d.chain (q.d.fld 0 0 16) q.d.object)
  let found := spans.flatMap fun i => (d.cat.ents.filter fun e =>
    e.2.span == i && e.2.scope == scope && d.entServed e.1
      && (decide (scope < 64) || e.2.publisher == p || p == 0)).map (·.1)
  if found.isEmpty then (d, some { status := stNotFound }) else
  ((found.foldl Dev.withdrawEnt d).count .entsWithdrawn p found.length, some { r0 := found.length })

end Sys2Proof.Machine
end

