-- ==== Sys2Proof/Machine/FabBase.lean ====
section
/-! DEFINITION. The Chaig fabric's shared operations: ports and routes, sending, message channels, the directory, region lines and poison, held responses, jobs, and what a home does with a load or an update (R337 to R380, R383 to R387, R393, R394, R407 to R411, R448 to R455). -/

namespace Sys2Proof.Machine

/-! ### Ports, partners and routes (R337–R340, R370, R376) -/

/-- This device's wing. -/
def Dev.wing (d : Dev) : Nat := d.boot.straps.wing
/-- This device's position. -/
def Dev.pos (d : Dev) : Nat := d.boot.straps.pos
/-- Position that mesh port `k` of position `i` reaches (R339). -/
def meshPartner (i k : Nat) : Nat := if k < i then k else k + 1
/-- The `m`-th other wing (R340). -/
def otherWing (w m : Nat) : Nat := if m < w then m else m + 1

/-- The device a port is wired to, where the straps populate it. -/
def Dev.partnerOf (d : Dev) (port : Nat) : Option Nat :=
  if port < 15 then
    let j := meshPartner d.pos port
    if j ≤ d.boot.straps.wingSize then some (16 * d.wing + j) else none
  else
    let w := otherWing d.wing (port - 15)
    if w ≤ d.boot.straps.wings then some (16 * w + d.pos) else none

/-- The mesh port toward a position. -/
def Dev.meshPort (d : Dev) (j : Nat) : Nat := if j < d.pos then j else j - 1
/-- Number of a wing among the other wings. -/
def Dev.wingNo (d : Dev) (w : Nat) : Nat := if w < d.wing then w else w - 1

/-- A port's record. -/
def Dev.port (d : Dev) (k : Nat) : Port := tgetD d.fab.ports k {}
/-- Change a port. -/
def Dev.modPort (d : Dev) (k : Nat) (f : Port → Port) : Dev :=
  { d with fab := { d.fab with ports := tset d.fab.ports k (f (d.port k)) } }
/-- A port is UP. -/
def Dev.portUp (d : Dev) (k : Nat) : Bool := (d.port k).st == .up

/-- A port begins to train: this end draws a fresh LINK_NONCE, and the keys of the link end (R479). -/
def Dev.startTraining (d : Dev) (k : Nat) (st : PortState) : Dev :=
  let (b, d) := d.drawBytes 16
  d.modPort k fun p => { p with st := st, nonce := b, keyOut := [], keyIn := [], flits := 0 }

/-- The key of one direction of a link: the pool secret, the label, the sender, the receiver, and the LINK_NONCE of each (R479). -/
def linkKey (secret : List Byte) (sender receiver : Nat) (senderNonce receiverNonce : List Byte) : List Byte :=
  shake256 (secret ++ ascii "chaig-link" ++ leBytes 1 sender ++ leBytes 1 receiver ++ senderNonce ++ receiverNonce) 32

/-- Lanes lock: the keys of both directions are loaded, with the nonce that the partner's training flits carry, and the port exchanges
identities (R347, R479). -/
def Dev.lockLanes (d : Dev) (k lanes : Nat) : Dev :=
  let (far, d) := d.drawBytes 16
  let s := d.sec.poolSecret.getD []
  let other := (d.partnerOf k).getD 0
  d.modPort k fun p => { p with
    st := .exchange, lanes := lanes, degraded := lanes == 2, flits := 0
    keyOut := linkKey s d.devNo other p.nonce far, keyIn := linkKey s other d.devNo far p.nonce }

/-- What is known of a device. -/
def Dev.peer (d : Dev) (dev : Nat) : Peer := tgetD d.fab.peers dev {}
/-- Change it. -/
def Dev.modPeer (d : Dev) (dev : Nat) (f : Peer → Peer) : Dev :=
  { d with fab := { d.fab with peers := tset d.fab.peers dev (f (d.peer dev)) } }
/-- A device is declared dead (R371). -/
def Dev.isDead (d : Dev) (dev : Nat) : Bool := (d.peer dev).dead

/-- The other devices of the wing that are not dead. -/
def Dev.wingOthers (d : Dev) : List Nat :=
  ((List.range (d.boot.straps.wingSize + 1)).filter (· != d.pos)).map (16 * d.wing + ·) |>.filter (!d.isDead ·)

/-- The relay toward a position: the lowest whose KEEPALIVE shows both links (R370). -/
def Dev.relayFor (d : Dev) (j : Nat) : Option Nat :=
  if d.reg regChgCtrl 0 0 2 = 0 then none else
  (List.range (d.boot.straps.wingSize + 1)).find? fun r =>
    let x := d.peer (16 * d.wing + r)
    r != d.pos && r != j && !x.dead && bit x.reach d.pos && bit x.reach j

/-- How a message reaches a device. -/
inductive Route where
  | direct
  | relay (position : Nat)
  | none
  deriving DecidableEq, Repr

/-- A gateway toward a wing: this device's own, or one that a KEEPALIVE shows up (R376). -/
def Dev.gatewayTo (d : Dev) (w : Nat) : Bool :=
  d.portUp (15 + d.wingNo w) || d.wingOthers.any fun x => bit (d.peer x).gate (d.wingNo w)

/-- The route toward a device. -/
def Dev.route (d : Dev) (dest : Nat) : Route :=
  if dest / 16 = d.wing then
    let j := dest % 16
    let up := d.portUp (d.meshPort j)
    if up && !d.fab.relays.contains j then .direct
    else match d.relayFor j with
      | some r => .relay r
      | none => if up then .direct else .none
  else if d.gatewayTo (dest / 16) then .direct else .none

/-! ### Sending (R344, R350, R367, R395) -/

/-- Slots of a message. -/
def slotCount (m : Msg) : Nat := 1 + m.slots.length / 16

/-- Requests that a device sends for a patron. -/
def patronReq (code : Nat) : Bool := [0x01, 0x03, 0x08, 0x09, 0x0A, 0x10, 0x50].contains code

/-- Patron of a SOURCE (R383). -/
def srcPatron (source : Nat) : Nat := bits source 6 6
/-- Device of a SOURCE. -/
def srcDev (source : Nat) : Nat := source % 64
/-- A SOURCE of this device: patron and issuing unit (R383). -/
def Dev.srcOf (d : Dev) (p unit : Nat) : Nat := d.devNo + 64 * p + 4096 * unit

/-- The source's limit of unacknowledged updates toward a home (R367). -/
def Dev.atLimit (d : Dev) (dest code : Nat) : Bool :=
  let n := fun (cs : List Nat) => (d.fab.outst.filter fun o => o.dest == dest && o.sent && cs.contains o.code).length
  (code == 0x10 && decide (256 ≤ n [0x10])) || ([0x08, 0x09, 0x0A].contains code && decide (512 ≤ n [0x08, 0x09, 0x0A]))

/-- The port a message leaves by: toward its destination, its relay, or the gateway (R339, R340, R376). -/
def Dev.egressPort (d : Dev) (dest : Nat) (r : Route) : Nat :=
  match r with
  | .relay j => d.meshPort j
  | _ =>
    if dest / 16 = d.wing then d.meshPort (dest % 16)
    else
      let n := d.wingNo (dest / 16)
      if d.portUp (15 + n) ∧ dest % 16 = d.pos then 15 + n
      else
        -- the destination's position first, then the lowest whose gateway is up
        let q := if bit (d.peer (16 * d.wing + dest % 16)).gate n then some (16 * d.wing + dest % 16)
          else d.wingOthers.find? fun x => bit (d.peer x).gate n
        match q with
        | some x => if d.portUp (15 + n) ∧ d.pos < x % 16 ∧ x % 16 ≠ dest % 16 then 15 + n else d.meshPort (x % 16)
        | none => 15 + n

/-- Slots the port may send on a virtual channel (R344). -/
def Port.credit (p : Port) (vc : Nat) : Nat := p.credits.getD vc 0

/-- Flits of the replay buffer (R346). -/
def replayFlits : Nat := 256

/-- `n` flits leave a port: they enter the replay buffer, and each returns the credits of one channel (R342–R344, R346). -/
def Port.sendFlits (p : Port) : Nat → Port
  | 0 => p
  | n + 1 =>
    let p := p.sendFlits n
    let vc := (p.owed.findIdx? (0 < ·)).getD 7
    { p with nextSeq := (p.nextSeq + 1) % 4096, replay := p.replay + 1, flits := p.flits + 1
             owed := p.owed.set vc (p.owed.getD vc 0 - 1023) }

/-- The flits of the replay buffer that an acknowledgement of FSEQ `a` leaves there. -/
def Port.after (p : Port) (a : Nat) : Nat := (p.nextSeq + 4095 - a % 4096) % 4096

/-- An acknowledgement frees the flits up to the one it names. -/
def Port.acked (p : Port) (a : Nat) : Port := if p.after a < p.replay then { p with replay := p.after a } else p

/-- Slots of message data are taken as their flit is accepted: their buffers are free, and owed to the partner (R344). -/
def Port.owe (p : Port) (slots : List Nat) : Port :=
  { p with owed := (List.range 6).map fun vc => p.owed.getD vc 0 + slots.getD vc 0 }

/-- The message belongs to the device's own request for a patron. -/
def Dev.ownReq (d : Dev) (code : Nat) (m : Msg) : Bool := patronReq code && srcDev m.source == d.devNo

/-- An update. -/
def isUpdate (code : Nat) : Bool := [0x08, 0x09, 0x0A, 0x10].contains code

/-- An earlier store of a RELEASE store's source has no DONE yet: sent or waiting at egress, in a combining window, or held at this
home (R359, R360). -/
def Dev.releaseWaits (d : Dev) (m : Msg) : Bool :=
  let mine := fun (o : Outst) => o.m.release && o.m.tag == m.tag
  let since := ((d.fab.outst.find? mine).map (·.sentAt)).getD d.tim.now
  m.release && ((d.fab.outst.takeWhile (!mine ·)).any (fun o => isUpdate o.code && o.m.source == m.source)
    || d.fab.comb.any (fun e => e.2.m.source == m.source && decide (e.2.openedAt ≤ since))
    || d.fab.heldRsp.any fun h => h.dest == d.devNo && h.code == 0x29 && ((h.job.bind (tget d.fab.jobs)).map (·.x.patron)) == some (srcPatron m.source))

/-- Put a message on a link, where a route, the patron's fabric shaper and the order of stores allow it. -/
def Dev.tryEmit (d : Dev) (dest code : Nat) (m : Msg) : Option Dev :=
  let own := d.ownReq code m
  let p := srcPatron m.source
  if (own && (!d.bktPass (bktFab p) || d.atLimit dest code)) || d.releaseWaits m then none else
  match d.route dest with
  | .none => none
  | r =>
    let k := d.egressPort dest r
    let n := ceilDiv (slotCount m) 30
    if (d.port k).credit m.vc < slotCount m ∨ replayFlits < (d.port k).replay + n then none else
    let d := (d.modPort k fun p => { p with credits := p.credits.set m.vc (p.credit m.vc - slotCount m) }.sendFlits n).count2 .flitsSent k 0 n
    let m := match r with
      | .relay _ => { m with relayed := true }
      | _ => m
    let d := d.emit (.chaig dest code m)
    let d := match r with
      | .relay _ => if patronReq code then d.count .relaySent 0 else d
      | _ => d
    let d := if own then d.chargeBkt (bktFab p) (slotCount m) else d
    some { d with fab := { d.fab with outst := d.fab.outst.map fun o =>
      if o.dest = dest ∧ o.m.tag = m.tag ∧ o.code = code ∧ own then { o with m := m, sent := true, sentAt := d.tim.now } else o } }

/-- Messages wait at egress in order, per destination, channel and patron. -/
def egressKey (dest : Nat) (m : Msg) : Nat × Nat × Nat := (dest, m.vc, srcPatron m.source)

/-- Priority of a virtual channel on the link (R344). -/
def vcRank (vc : Nat) : Nat := [5, 3, 2, 6, 4, 1].getD vc 7

/-- Traffic class of a message: that of the descriptor its request serves; class 0 where it serves none. -/
def Dev.msgClass (d : Dev) (m : Msg) : Nat :=
  match (d.fab.outst.find? fun o => o.m.tag == m.tag && o.m.source == m.source).bind fun o => o.job.bind (tget d.fab.jobs) with
  | some j => j.x.tclass
  | none => 0

/-- Rank at egress: the channel's priority, then the class (R344, R439). -/
def Dev.egressRank (d : Dev) (m : Msg) : Nat := 16 * vcRank m.vc + classRank (d.msgClass m)

/-- Updates of one source to one line: they leave in issue order (R359). -/
def sameLine (a b : Msg) : Bool := a.source == b.source && a.addr / 64 == b.addr / 64

/-- A waiting message holds a later one back: one of its own queue, unless it is a RELEASE store that waits for DONEs alone; or one of
no lower class that lacks credits on the same channel of the same port. -/
def Dev.holdsBack (d : Dev) (e : Nat × Nat × Msg) (dest : Nat) (m : Msg) : Bool :=
  let k := d.egressPort e.1 (d.route e.1)
  (egressKey e.1 e.2.2 == egressKey dest m && (!e.2.2.release || (sameLine e.2.2 m && !m.retry)))
    || (e.2.2.vc == m.vc && k == d.egressPort dest (d.route dest) && decide ((d.port k).credit m.vc < slotCount e.2.2)
      && decide (d.egressRank e.2.2 ≤ d.egressRank m))

/-- Send a message, or let it wait at egress. -/
def Dev.put (d : Dev) (dest code : Nat) (m : Msg) : Dev :=
  if d.flt.deviceFault then d else
  let wait := { d with fab := { d.fab with egress := d.fab.egress ++ [(dest, code, m)] } }
  if d.fab.egress.any fun e => d.holdsBack e dest m then wait
  else (d.tryEmit dest code m).getD wait

/-- Send what waits at egress and may go, in the order of channels and classes (R344, R439). -/
def Dev.flushEgress (d : Dev) : Dev :=
  let e := byRank (fun x => d.egressRank x.2.2) (fun a b => sameLine a.2.2 b.2.2) d.fab.egress
  e.foldl (fun d x => d.put x.1 x.2.1 x.2.2) { d with fab := { d.fab with egress := [] } }

/-- A fresh tag. -/
def Dev.freshTag (d : Dev) : Nat × Dev :=
  (d.fab.nextTag, { d with fab := { d.fab with nextTag := (d.fab.nextTag + 1) % 65536 } })

/-- What outstanding loads of lines bring is not kept (R357). -/
def Dev.staleLoads (d : Dev) (f : Nat → Bool) : Dev :=
  { d with fab := { d.fab with outst := d.fab.outst.map fun o => if o.code = 0x01 ∧ f (o.m.addr / 64) then { o with stale := true } else o } }

/-- Send a request and remember it until its response (R367). -/
def Dev.sendReq (d : Dev) (dest code : Nat) (m : Msg) (region : Nat) (job : Option Nat) (members : List (Nat × Nat) := []) :
    Nat × Dev :=
  let (t, d) := d.freshTag
  let m := { m with tag := t }
  -- an update ends the use of what earlier loads of its lines bring (R357)
  let last := m.addr / 64 + if code = 0x0A then m.arg else 0
  let d := if isUpdate code then d.staleLoads fun l => decide (m.addr / 64 ≤ l) && decide (l ≤ last) else d
  let o : Outst := { dest := dest, code := code, m := m, region := region, patron := srcPatron m.source, job := job,
                     members := members, sentAt := d.tim.now, sent := !d.ownReq code m }
  (t, ({ d with fab := { d.fab with outst := d.fab.outst ++ [o] } }).put dest code m)

/-- Take the request that a response answers. -/
def Dev.takeOutst (d : Dev) (tag : Nat) : Option (Outst × Dev) :=
  match d.fab.outst.find? fun o => o.m.tag == tag with
  | some o => some (o, { d with fab := { d.fab with outst := d.fab.outst.filter fun x => x.m.tag != tag } })
  | none => none

/-- Relaying to a position ends once the link is UP and every relayed request there is answered (R370). -/
def Dev.settleRelays (d : Dev) : Dev :=
  let keep := fun (j : Nat) => !d.portUp (d.meshPort j) || d.fab.outst.any fun o => o.dest == 16 * d.wing + j && o.m.relayed
  { d with fab := { d.fab with relays := d.fab.relays.filter keep } }

/-! ### Messages as bytes (R350, R377) -/

/-- A message with its opcode as bytes. -/
def encMsg (code : Nat) (m : Msg) : List Byte :=
  leBytes 1 code
    ++ leBytes 1 (flag m.release + 2 * flag m.poison + 4 * flag m.combined + 8 * flag m.relayed + 16 * flag m.retry + 32 * m.vc)
    ++ leBytes 2 m.tag ++ leBytes 2 m.source ++ leBytes 7 m.addr ++ leBytes 1 m.arg ++ leBytes 1 m.load
    ++ leBytes 1 m.backoff ++ m.slots

/-- The field of `n` bytes at a byte offset. -/
def fieldOf (b : List Byte) (off n : Nat) : Nat := leNat ((b.drop off).take n)

/-- The opcode and message that bytes spell. -/
def decMsg (b : List Byte) : Nat × Msg :=
  let f := fieldOf b 1 1
  (fieldOf b 0 1,
   { release := bit f 0, poison := bit f 1, combined := bit f 2, relayed := bit f 3, retry := bit f 4, vc := bits f 5 3
     tag := fieldOf b 2 2, source := fieldOf b 4 2, addr := fieldOf b 6 7, arg := fieldOf b 13 1, load := fieldOf b 14 1
     backoff := fieldOf b 15 1, slots := b.drop 16 })

/-- Zero padding to whole slots. -/
def padSlots (b : List Byte) : List Byte := b ++ List.replicate ((16 - b.length % 16) % 16) 0

/-- The key of a message channel. -/
def chanKey (dest cls : Nat) : Nat := 4 * dest + cls

/-- A message channel. -/
def Dev.chan (d : Dev) (k : Nat) : MsgChan := tgetD d.fab.chans k {}
/-- Change it. -/
def Dev.modChan (d : Dev) (k : Nat) (f : MsgChan → MsgChan) : Dev :=
  { d with fab := { d.fab with chans := tset d.fab.chans k (f (d.chan k)) } }

/-- Messages that may be unacknowledged (R379). -/
def msgWindow : Nat := 64

/-- Send a MESSAGE of a class: it goes out while fewer than 64 are unacknowledged (R377, R379). -/
def Dev.sendMessage (d : Dev) (dest cls : Nat) (payload : List Byte) : Dev :=
  let k := chanKey dest cls
  let c := d.chan k
  let body := leBytes 1 dest ++ leBytes 1 cls ++ leBytes 2 payload.length ++ leBytes 4 c.nextSeq ++ leBytes 8 d.tim.now
  let m : Msg := { vc := 3, source := d.devNo, slots := body ++ padSlots payload }
  let d := d.modChan k fun c => { c with nextSeq := (c.nextSeq + 1) % 2 ^ 32, unacked := c.unacked ++ [(c.nextSeq, d.tim.now, m)] }
  if c.unacked.length < msgWindow then (d.count .msgSent 0).put dest 0x30 m else d

/-! ### Aperture answers (R77, R78) -/

/-- An aperture access that misses: counted, and reported at most once per slot and tick (R78). -/
def Dev.apertureMiss (d : Dev) (owner : Nat) (enabled : Bool) (bar : Nat) : Dev :=
  let slot := bar / 2 ^ 30
  let d := d.count .apMiss slot
  if tgetD d.host.missTick slot 0 = d.tim.count + 1 then d else
  let d := { d with host := { d.host with missTick := tset d.host.missTick slot (d.tim.count + 1) } }
  let p := if enabled then owner else 0
  d.patEvent p 0x0006 slot bar

/-- Answer an aperture access whose parts are all there. -/
def Dev.apertureDone (d : Dev) (j : Job) : Dev :=
  if j.ans.status ≠ stOk then
    let d := d.apertureMiss j.x.patron true j.x.object
    if j.op = 0x100 then d.emit (.aperture (List.replicate j.len 0xFF) (j.ans.status == stPoison)) else d
  else if j.op = 0x100 then
    let b := (List.range (ceilDiv (j.at_ % 64 + j.len) 64)).flatMap fun i => tgetD j.got (j.at_ / 64 + i) []
    d.emit (.aperture ((b.drop (j.at_ % 64)).take j.len) false)
  else if j.op = 0x102 then d.emit (.aperture (leBytes j.len j.ans.r0) false)
  else d

/-! ### Jobs -/

/-- Complete a region or near-memory descriptor at its issuer, with its counters (R418). -/
def Dev.finishReq (d : Dev) (q : Req) (a : Ans) : Dev :=
  let p := q.d.patron
  let d := if a.status ≠ stOk then d
    else if q.op = 0x30 ∨ q.op = 0x31 then d.count .nearBytes p a.r0
    else if q.op = 0x33 then d.count .nearBytes p (a.r0 * (if q.d.fld 0 2 2 = 1 then 2 else 4))
    else if q.op = 0x34 then d.count2 .pubOk p 0 1
    else if q.op = 0x35 then d.count .revokes p else d
  let d := if q.op = 0x34 ∧ a.status = stConflict then d.count2 .pubConflict p 0 1 else d
  -- produced in the last 100 ns of its deadline tick, or with data that landed on that tick's edge (R63)
  let next := deadlined q.op && q.dl == d.tim.count && d.tim.phase == .close && d.adm.late.contains q.id
  let edge := deadlined q.op && a.status == stOk && (q.lateEdge || next)
  let a := if edge then { a with flags := a.flags + flLateEdge } else a
  let d := if edge then d.count .lateEdge p else d
  if next then d.completeNext q a else d.complete q a

/-- The last completion carries the load feedback of a home's response (R396). -/
def Dev.stampLoad (d : Dev) (l : Option (Nat × Nat)) : Dev :=
  let n := d.adm.due.length
  { d with adm := { d.adm with due := lmod d.adm.due (n - 1) fun x => { x with load := l } } }

/-- Send a message of a region operation: direct within the wing, in a MESSAGE of class 0 between wings (R416). -/
def Dev.putRegion (d : Dev) (dest code : Nat) (m : Msg) : Dev :=
  if dest / 16 = d.wing then d.put dest code m else d.sendMessage dest 0 (encMsg code m)

/-- LOAD_INDEX and BACKOFF of a response (R353). -/
def Dev.rspBackoff (d : Dev) : Nat := if d.adm.load < 192 then 0 else ceilDiv (d.adm.load - 191) 16

/-- A response to a request. -/
def Dev.rsp (d : Dev) (m : Msg) (status : Nat) (slots : List Byte) (poison : Bool := false) : Msg :=
  { vc := 1, tag := m.tag, source := d.devNo, arg := status, load := d.adm.load, backoff := d.rspBackoff, slots := slots, poison := poison }

/-- Send a REGION_DONE (R416); CAUSE travels in byte 15 (assumption 17). -/
def Dev.answerRegion (d : Dev) (dev tag : Nat) (a : Ans) : Dev :=
  d.putRegion dev 0x51 (d.rsp { tag := tag } a.status (leBytes 8 a.r0 ++ leBytes 7 a.r1 ++ leBytes 1 a.cause))

/-- A job ends: its descriptor completes, its asker is answered, its aperture access is answered. -/
def Dev.finishJob (d : Dev) (k : Nat) : Dev :=
  match tget d.fab.jobs k with
  | none => d
  | some j =>
    let d := { d with fab := { d.fab with jobs := tdel d.fab.jobs k } }
    let d := match j.q with
      | some q => (d.finishReq q j.ans).stampLoad j.load
      | none => d
    let d := match j.asker with
      | some (dev, tag) => d.answerRegion dev tag j.ans
      | none => d
    if 0x100 ≤ j.op then d.apertureDone j else d

/-- Start a job. -/
def Dev.newJob (d : Dev) (j : Job) : Nat × Dev :=
  let k := tfresh d.fab.jobs 0
  (k, { d with fab := { d.fab with jobs := tset d.fab.jobs k j } })

/-- Change a job. -/
def Dev.modJob (d : Dev) (k : Nat) (f : Job → Job) : Dev := { d with fab := { d.fab with jobs := tmod d.fab.jobs k f } }

/-- End a job that awaits nothing more and fetches nothing. -/
def Dev.settleJob (d : Dev) (k : Nat) : Dev :=
  match tget d.fab.jobs k with
  | some j => if j.wait = 0 ∧ !j.fetching then d.finishJob k else d
  | none => d

/-- A part of a job is answered: data of a line, an old value, a status. -/
def Dev.jobPart (d : Dev) (k code addr : Nat) (m : Msg) : Dev :=
  let d := d.modJob k fun j =>
    let j := { j with wait := j.wait - 1 }
    if m.arg ≠ stOk then
      (if j.ans.status = stOk then { j with ans := { j.ans with status := m.arg, r0 := if m.arg = stPoison then addr else j.ans.r0 } } else j)
    else if code = 0x28 then { j with got := tset j.got (addr / 64) m.slots }
    else if code = 0x2A then { j with ans := { j.ans with r0 := leNat m.slots } } else j
  d.settleJob k

/-- Deliver a response: on a link, or to the local access it answers. -/
def Dev.deliver (d : Dev) (dest code addr : Nat) (m : Msg) (job : Option Nat) : Dev :=
  if dest = d.devNo then
    match job with
    | some k => d.jobPart k code addr m
    | none => d
  else d.put dest code m

/-- Send the held responses whose waits are over, in order (R356, R408, R411). -/
def Dev.flushHeld (d : Dev) : Dev :=
  let ready := fun (h : HeldRsp) => h.lines.isEmpty && h.accept.isEmpty && h.mirror.isEmpty
  let r := d.fab.heldRsp.filter ready
  let d := { d with fab := { d.fab with heldRsp := d.fab.heldRsp.filter fun h => !ready h } }
  r.foldl (fun d h => d.deliver h.dest h.code 0 h.m h.job) d

/-! ### The directory (R354–R356, R407, R454) -/

/-- Sets of the directory. -/
def dirSets : Nat := 262144
/-- The set of a line (assumption 18). -/
def dirSet (line : Nat) : Nat := line % dirSets
/-- The line number that stands for the whole set while it is reinitialised (R454). -/
def setLine (set : Nat) : Nat := 2 ^ 44 + set

/-- Entries of a set. -/
def Dev.dirEnts (d : Dev) (set : Nat) : List DirEnt := tgetD d.fab.dir set []

/-- Put the entries of a set. -/
def Dev.setDir (d : Dev) (set : Nat) (es : List DirEnt) : Dev :=
  { d with fab := { d.fab with dir := if es.isEmpty then tdel d.fab.dir set else tset d.fab.dir set es } }

/-- Change an entry. -/
def Dev.modDir (d : Dev) (set line : Nat) (f : DirEnt → DirEnt) : Dev :=
  d.setDir set ((d.dirEnts set).map fun e => if e.line = line then f e else e)

/-- The next value of the replacement clock. -/
def Dev.dirTick (d : Dev) : Nat × Dev := (d.fab.dirClock, { d with fab := { d.fab with dirClock := d.fab.dirClock + 1 } })

/-- Send INVALIDATE for an address to devices of the wing (R355). -/
def Dev.sendInv (d : Dev) (addr : Nat) (devs : List Nat) : Dev :=
  devs.foldl (fun d x => (d.count .invSent 0).put x 0x20 { vc := 2, source := d.devNo, addr := addr }) d

/-- The pool address of one of this home's lines. -/
def Dev.lineAddr (d : Dev) (line : Nat) : Nat := d.devNo * 2 ^ 50 + 64 * line

/-- The entry that holds back a load of a run of lines: of a set that is reinitialised, or INVALIDATING (R356, R454). -/
def Dev.dirHolds (d : Dev) (line lines : Nat) : Option Nat :=
  (List.range lines).findSome? fun i =>
    let set := dirSet (line + i)
    ((d.dirEnts set).find? fun e => e.line == setLine set || (e.line == line + i && e.inval)).map (·.line)

/-- A load waits at a directory entry. -/
def Dev.holdLoad (d : Dev) (l : Nat) (h : HeldReq) : Dev := d.modDir (dirSet l) l fun e => { e with loads := e.loads ++ [h] }

/-- A load that no invalidation holds back reaches the directory: served, or held until a victim has left. -/
def Dev.dirLoad (d : Dev) (line : Nat) (h : HeldReq) (track : Bool) : Bool × Dev :=
  let set := dirSet line
  let (t, d) := d.dirTick
  let es := d.dirEnts set
  let dev := srcDev h.m.source
  match es.find? fun e => e.line == line with
  | some _ =>
      if !track then (true, d)
      else (true, d.modDir set line fun e => { e with
        holders := if bit e.holders (dev % 16) then e.holders else e.holders + 2 ^ (dev % 16), used := t })
  | none =>
    if !track then (true, d)
    else if (es.filter fun e => !e.untracked).length < 16 then
      (true, d.setDir set (es ++ [{ line := line, holders := 2 ^ (dev % 16), used := t }]))
    else
      -- the way used least recently leaves (R355)
      let old := (es.filter fun e => !e.untracked).foldl (fun b e => match b with
        | none => some e
        | some x => if !e.leaving && (x.leaving || decide (e.used < x.used)) then some e else b) none
      match old with
      | none => (true, d)
      | some v =>
        let oth := d.wingOthers
        if v.leaving then (false, d.holdLoad v.line h)
        else if oth.isEmpty then
          (true, (d.setDir set ((es.filter fun e => e.line != v.line) ++ [{ line := line, holders := 2 ^ (dev % 16), used := t }])).count .dirOvf 0)
        else
          let d := (d.count .dirOvf 0).modDir set v.line fun e => { e with
            inval := true, leaving := true, awaited := e.awaited ++ oth.map (· % 16), holders := 0, loads := e.loads ++ [h] }
          (false, d.sendInv (d.lineAddr v.line) oth)

/-- An update reaches the directory: INVALIDATE goes to the holders other than the writer (R356), or to the whole wing for
a reference region (R407). `true`: its response is held. -/
def Dev.dirUpdate (d : Dev) (line writer : Nat) (reference : Bool) : Bool × Dev :=
  let set := dirSet line
  let es := d.dirEnts set
  if es.any fun e => e.line == setLine set then (true, d) else
  let cur := es.find? fun e => e.line == line
  let devs := if reference then d.wingOthers else
    match cur with
    | some e => d.wingOthers.filter fun x => bit e.holders (x % 16) && x != writer
    | none => []
  match cur with
  | none =>
    if devs.isEmpty then (false, d) else
    let d := d.setDir set (es ++ [{ line := line, inval := true, leaving := true, untracked := true, awaited := devs.map (· % 16) }])
    (true, d.sendInv (d.lineAddr line) devs)
  | some e =>
    if devs.isEmpty then (e.inval, d) else
    let d := d.modDir set line fun e => { e with holders := 0, inval := true, awaited := e.awaited ++ devs.map (· % 16) }
    (true, d.sendInv (d.lineAddr line) devs)

/-- The line a response of an update awaits: the set's while it is reinitialised. -/
def Dev.heldLine (d : Dev) (line : Nat) : Nat :=
  let set := dirSet line
  if (d.dirEnts set).any fun e => e.line == setLine set then setLine set else line

/-- One INV_ACK of a position arrives, or counts as arrived (R356, R374): the loads that were held, to be served again. -/
def Dev.invAck (d : Dev) (set line pos : Nat) : List HeldReq × Dev :=
  match (d.dirEnts set).find? fun e => e.line == line && e.awaited.contains pos with
  | none => ([], d)
  | some e =>
    let a := e.awaited.erase pos
    if !a.isEmpty then ([], d.modDir set line fun e => { e with awaited := a })
    else
      let d := if e.line = setLine set then (d.setDir set []).cleanReserve (.directory set)
        else if e.leaving then d.setDir set ((d.dirEnts set).filter fun x => x.line != line)
        else d.modDir set line fun e => { e with awaited := [], inval := false, loads := [] }
      -- a set that is reinitialised releases the holds of all its lines
      let keep := fun (l : Nat) => !(l == line || (line == setLine set && dirSet l == set))
      let hs := d.fab.heldRsp.map fun h => { h with lines := h.lines.filter keep }
      let d := { d with fab := { d.fab with heldRsp := hs } }
      (e.loads, d.flushHeld)

/-! ### Regions at the home (R383–R387, R393, R394) -/

/-- Bytes of a region window. -/
def windowBytes : Nat := 2 ^ 38
/-- Window offset of the version line. -/
def versionOff : Nat := 2 ^ 38 - 64
/-- Slot of a pool address. -/
def slotOf (addr : Nat) : Nat := addr % 2 ^ 50 / windowBytes
/-- Device of a pool address. -/
def addrDev (addr : Nat) : Nat := addr / 2 ^ 50
/-- REGION_ID of a slot. -/
def regionId (dev slot : Nat) : Nat := dev + 64 * slot
/-- REGION_ID that a pool address lies in. -/
def addrRegion (addr : Nat) : Nat := regionId (addrDev addr) (slotOf addr)
/-- First pool address of a region. -/
def regionAddr (id : Nat) : Nat := id % 64 * 2 ^ 50 + id / 64 * windowBytes
/-- Key of the unit that an address lies in. -/
def addrUnit (addr : Nat) : Nat := unitKey (slotOf addr) (addr % windowBytes / unitBytes)

/-- The region that an address lies in, if this device holds it. -/
def Dev.regionOf (d : Dev) (addr : Nat) : Option Region :=
  match tget d.rgn.slots (slotOf addr) with
  | some r => if r.id = addrRegion addr then some r else none
  | none => none

/-- Lines of other devices that the borrow cache holds, put at a job's hand (R28, R354). -/
def Dev.fromBorrow (d : Dev) (k : Nat) (addrs : List Nat) : Dev :=
  addrs.foldl (fun d a => if (d.regionOf a).isSome then d else match tget d.fab.borrow (a / 64) with
    | some b => d.modJob k fun j => { j with got := tset j.got (a / 64) b }
    | none => d) d

/-- Change a region. -/
def Dev.modRegion (d : Dev) (x : Nat) (f : Region → Region) : Dev :=
  { d with rgn := { d.rgn with slots := tmod d.rgn.slots x f } }

/-- Kind of a region (R385). -/
def Region.kind (r : Region) : Nat := r.attrs % 4
/-- TEARDOWN mode. -/
def Region.teardown (r : Region) : Bool := bit r.attrs 2
/-- The owner. -/
def Region.isOwner (r : Region) (dev p : Nat) : Bool := r.ownerDev == dev && r.ownerPatron == p

/-- A requester holds a right (bit number) over a unit; any unit where `unit` is none. -/
def Region.grants_ (r : Region) (dev p right : Nat) (unit : Option Nat) : Bool :=
  r.isOwner dev p || r.grants.any fun g => g.dev == dev && g.patron == p && !g.revoking && bit g.rights right
    && match unit with
      | some u => decide (g.first ≤ u) && decide (u < g.first + g.count)
      | none => true

/-- A requester stands behind a revoke point (R401). -/
def Region.revoked (r : Region) (dev p : Nat) : Bool :=
  r.destroy || r.grants.any fun g => g.dev == dev && g.patron == p && g.revoking

/-- The region as it stood before its revoke point: what a request that its home had admitted by then is checked against (R401). -/
def Region.beforeRevoke (r : Region) : Region :=
  { r with destroy := false, st := if r.st = 5 then 1 else r.st, grants := r.grants.map fun g => { g with revoking := false } }

/-- Right that a request needs: 0 READ, 1 WRITE, 2 ATOMIC (R392). -/
def rightOf (code : Nat) : Nat := if code = 0x10 then 2 else if code = 0x01 ∨ code = 0x03 then 0 else 1

/-- Lines of a request. -/
def reqLines (code : Nat) (m : Msg) : Nat := if code = 0x03 ∨ code = 0x0A then m.arg + 1 else 1

/-- Why a home does not serve a request (R384, R393, R394): a status, or none. `pass`: it was admitted before a revoke point. -/
def Dev.homeRefuses (d : Dev) (code : Nat) (m : Msg) (pass : Bool := false) : Option Nat :=
  match d.regionOf m.addr with
  | none => some stNotFound
  | some r =>
    let r := if pass then r.beforeRevoke else r
    let w := m.addr % windowBytes
    let last := w / 64 * 64 + 64 * reqLines code m
    let ver := decide (w / 64 * 64 = versionOff)
    if !(decide (last ≤ r.size) || (ver && rightOf code == 0)) then some stNotFound
    else if r.st = 4 then some stTorn
    else if r.st = 5 then some stRevoked
    else
      let dev := srcDev m.source
      let p := srcPatron m.source
      if r.revoked dev p then some stRevoked
      else if d.reg regRgnCtrl 0 0 0 = 1 ∧ !(if ver then r.grants_ dev p 0 none
          else (List.range ((last - 1) / unitBytes + 1 - w / unitBytes)).all fun i => r.grants_ dev p (rightOf code) (some (w / unitBytes + i)))
        then some stRevoked
      else none

/-- Count a refusal at the home (R418), and in the revocation it belongs to (R402). -/
def Dev.countRefusal (d : Dev) (m : Msg) (status : Nat) : Dev :=
  if status = stNotFound then d.count .homeNotFound 0
  else if status = stRevoked then
    (d.modRegion (slotOf m.addr) fun r =>
      if r.revoke.isSome ∧ r.revoked (srcDev m.source) (srcPatron m.source) then { r with refused := r.refused + 1 } else r).count .homeRevoked 0
  else d

/-! ### Poison of region lines (R448, R449) -/

/-- Device offset of a region line: the spec does not fix its place. -/
def regionLineOff (line : Nat) : Nat := Config.metaOffset 3 line

/-- A region line reads as poisoned. -/
def Dev.linePoisoned (d : Dev) (line : Nat) : Bool :=
  d.flt.lines.contains (64 * line) ||
    match tget d.rgn.units (addrUnit (64 * line)) with
    | some u => u.poisoned && !u.rewritten.contains line
    | none => false

/-- Take an entry of a cluster's poison table, if one is free. -/
def Dev.poisonEntry (d : Dev) (cluster off : Nat) : Option Dev :=
  let k := tfresh (tkeep d.flt.tables fun i _ => i / 8192 == cluster) (8192 * cluster)
  if k < 8192 * (cluster + 1) then some { d with flt := { d.flt with tables := tset d.flt.tables k off } } else none

/-- Give the entry of a device offset back. -/
def Dev.dropPoisonEntry (d : Dev) (off : Nat) : Dev :=
  { d with flt := { d.flt with tables := tkeep d.flt.tables fun _ x => x != off } }

/-- Report a newly poisoned line (R467): its kind, the patron that owns it, and the channel and syndrome of a line-code event. -/
def Dev.poisonEvent (d : Dev) (p cluster off kind : Nat) (i : LogInfo := {}) : Dev :=
  (d.count .linesPois cluster).bothEvent p 0x0502 (eventBlock 0x0502) off kind { i with cls := 1, cluster := cluster, addr := off }

/-- A region line becomes poisoned (R448, R449); `i`: the channel and syndrome of a read that found it. -/
def Dev.poisonLine (d : Dev) (line : Nat) (i : LogInfo := {}) : Dev :=
  let k := addrUnit (64 * line)
  if d.linePoisoned line then d else
  match tget d.rgn.units k with
  | none => d
  | some u =>
    let p := match tget d.rgn.slots (k / 2 ^ 17) with
      | some r => d.unitPatron r
      | none => 0
    let off := regionLineOff line
    let d := match d.poisonEntry u.cluster off with
      | some d => { d with flt := { d.flt with lines := d.flt.lines ++ [64 * line] } }
      | none => (d.modUnit k fun u => { u with poisoned := true, rewritten := [] }).count .unitsPois 0
    d.poisonEvent p u.cluster off 3 i

/-- A full-line write clears a line's poison. -/
def Dev.cleanLine (d : Dev) (line : Nat) : Dev :=
  let d := if d.flt.lines.contains (64 * line) then
      ({ d with flt := { d.flt with lines := d.flt.lines.filter (· != 64 * line) } }).dropPoisonEntry (regionLineOff line) else d
  d.modUnit (addrUnit (64 * line)) fun u =>
    if u.poisoned ∧ !u.rewritten.contains line then { u with rewritten := u.rewritten ++ [line] } else u

/-! ### Units (R260, R267, R387) -/

/-- The cluster in which unit `u` of slot `x` finds room, within the free bytes of the pool (R15, R583). -/
def Dev.unitPlace (d : Dev) (x u : Nat) : Option Nat :=
  if d.freeBytes < unitBytes then none
  else (orderR15 x u).find? fun c => !d.flt.out.contains c && decide (64 ≤ d.clusterFree d.seqs.used c)

/-- One more unit takes a patron beyond its share (R260). -/
def Dev.unitOver (d : Dev) (p : Nat) : Bool := !d.within p unitBytes

/-- Allocate unit `u` of slot `x` where there is room for it. -/
def Dev.allocUnit (d : Dev) (x u : Nat) (r : Region) : Option Dev :=
  if d.unitOver (d.unitPatron r) then none else
  (d.unitPlace x u).map fun c =>
    { d with rgn := { d.rgn with units := tset d.rgn.units (unitKey x u) ({ lastTick := d.tim.count % 2 ^ 32, cluster := c } : RUnit) } }

/-- What an allocation of units comes to: made, awaiting the victims it has chosen (R260, R262), or QUOTA. -/
inductive Alloc where
  | made (d : Dev)
  | waits (d : Dev)
  | refused

/-- Allocate a unit, or choose the victims that make room for it: they go as those of growth do, and the allocation waits. -/
def Dev.takeUnit (d : Dev) (x u : Nat) (r : Region) : Alloc :=
  match d.allocUnit x u r with
  | some d => .made d
  | none =>
    let p := d.unitPatron r
    match (d.scratch.evictFor true true p (fun y => y.unitOver p) fun y => (y.unitPlace x u).isSome).1 with
    | none => .refused
    | some e =>
      let d := e.evicts.foldl (fun d i => d.evictPatron p i) (d.noteRefused e)
      let d := { d with tier := { d.tier with victims := d.tier.victims ++ notGrowth e.victims } }
      match d.allocUnit x u r with
      | some d => .made d
      | none => .waits d

/-- The units `first ..` of a request, `n` of them. -/
def Dev.takeUnits (d : Dev) (x first : Nat) (r : Region) : Nat → Alloc
  | 0 => .made d
  | n + 1 => match d.takeUnits x first r n with
    | .made d => if (tget d.rgn.units (unitKey x (first + n))).isSome then .made d else d.takeUnit x (first + n) r
    | a => a

/-- Units that a run of lines touches: the first and how many. -/
def unitRun (addr lines : Nat) : Nat × Nat :=
  let w := addr % windowBytes
  (w / unitBytes, (w / 64 * 64 + 64 * lines - 1) / unitBytes + 1 - w / unitBytes)

/-- A touched unit is not resident. -/
def Dev.awaitsUnit (d : Dev) (addr lines : Nat) : List Nat :=
  let (a, n) := unitRun addr lines
  ((List.range n).map fun i => unitKey (slotOf addr) (a + i)).filter fun k => match tget d.rgn.units k with
    | some u => !u.resident
    | none => false

/-- A touched unit lies in a fenced cluster (R463). -/
def Dev.fencedUnit (d : Dev) (addr lines : Nat) : Bool :=
  let (a, n) := unitRun addr lines
  (List.range n).any fun i => match tget d.rgn.units (unitKey (slotOf addr) (a + i)) with
    | some u => d.flt.out.contains u.cluster
    | none => false

/-- Position of a request's replay record: its poisoned-line number (R455), atomic records two to a line, store records
eight. -/
def replayLine (code : Nat) (m : Msg) : Nat :=
  let h := Config.replayHash m.source m.tag
  if code = 0x10 then h % 65536 / 2 else 32768 + h % 262144 / 8

/-- The cluster of a reserve line: each area is interleaved in 64 KiB units (R16). -/
def reserveCluster (off : Nat) : Nat := off / 65536 % 16

/-- The areas of the reserve in MiB, in the order of R16 from the lowest device offset: firmware staging, sequence records, catalogue
overflow index, directory cache, borrow cache, atomic replay tables, event log; the flash map follows. -/
def reserveAreas : List Nat := [64, 256, 512, 64, 64, 4, 16]

/-- The device offset at which area `k` of the reserve begins. -/
def areaBase (k : Nat) : Nat := (reserveAreas.take k).sum * 2 ^ 20

/-- The place of a replay line within its area: atomic records first. -/
def replayOff (line : Nat) : Nat := 64 * line

/-- Whether a device offset holds what a line row says: lines of the reserve lie in their area, at their object's place and in the
cluster of its interleave (R16); everything that patrons own lies above the reserve. The kind `other` names any line. -/
def Dev.lineAt (d : Dev) (off cluster : Nat) : LineOf → Bool
  | .record k => off / 64 == areaBase 1 / 64 + k && reserveCluster off == cluster
  | .bucket b => off / 64 == areaBase 2 / 64 + b && reserveCluster off == cluster
  | .directory s => off / 256 == areaBase 3 / 256 + s && reserveCluster off == cluster
  | .atomicReplay k => off / 64 == areaBase 5 / 64 + k / 2 && reserveCluster off == cluster
  | .storeReplay k => off / 64 == areaBase 5 / 64 + 32768 + k / 8 && reserveCluster off == cluster
  | .log slot => off / 64 == areaBase 6 / 64 + slot && reserveCluster off == cluster
  | .flashMap _ _ => decide (areaBase 7 ≤ off) && decide (off < d.reserveMiB * 2 ^ 20) && reserveCluster off == cluster
  | .other => true
  | _ => decide (d.reserveMiB * 2 ^ 20 ≤ off)

/-- What a home request needs lies in a fenced cluster: its units, its directory set, its replay record (R463). -/
def Dev.fencedHome (d : Dev) (code : Nat) (m : Msg) (lines : Nat) : Bool :=
  !d.flt.out.isEmpty && (d.fencedUnit m.addr lines
    || (List.range lines).any (fun i => d.flt.out.contains (reserveCluster (256 * dirSet (m.addr % 2 ^ 50 / 64 + i))))
    || (isUpdate code && d.flt.out.contains (reserveCluster (replayOff (replayLine code m)))))

/-- Touch the units of a run of lines. -/
def Dev.touchUnits (d : Dev) (addr lines : Nat) : Dev :=
  let (a, n) := unitRun addr lines
  (List.range n).foldl (fun d i => d.modUnit (unitKey (slotOf addr) (a + i)) fun u => { u with lastTick := d.tim.count % 2 ^ 32 }) d

/-- The read of a unit's copy in a loan window, peer to peer (R27); copies on the stacks are read by the flash controller (R26). -/
def Dev.unitRead (d : Dev) (k : Nat) : Dev :=
  match d.tier.copies.find? fun e => e.2.span == unitTag k && e.2.tier == 1 with
  | some e => d.emit (.peerRead e.2.window e.2.offset e.2.bytes)
  | none => d

/-- Start the promotion of units, with demand priority for an access (R267); one under way goes on. A demand promotion counts for the patron
that the region is charged to (R285; DESIGN CHOICE, assumption 137). -/
def Dev.promoteUnits (d : Dev) (ks : List Nat) (demand : Bool := true) : Dev :=
  ks.foldl (fun d k => match tget d.rgn.units k with
    | some u =>
      if u.promoting then d else
      let d := (d.modUnit k fun u => { u with promoting := true }).unitRead k
      let p := (tget d.rgn.slots (k / 2 ^ 17)).map d.unitPatron
      if demand then (p.map fun p => d.count .demandPromo p).getD d else d
    | none => d) d

/-- Hold a request at the home. -/
def Dev.holdReq (d : Dev) (h : HeldReq) : Dev := { d with fab := { d.fab with held := d.fab.held ++ [h] } }

/-- An admitted request ends with a refusal after all (R401): it leaves the count of R402. -/
def Dev.notAdmitted (d : Dev) (addr : Nat) (pass : Bool) : Dev :=
  if pass then d.modRegion (slotOf addr) fun r => { r with admitted := r.admitted - 1 } else d

/-! ### Atomics (R352) -/

/-- Bytes of an atomic's operand; 0 for a combination that R352 does not give. -/
def atomicWidth (arg : Nat) : Nat :=
  let op := arg % 16
  let w := arg / 16
  if 2 < w ∨ 8 < op ∨ (w = 2 ∧ op ≠ 8) then 0 else 4 * 2 ^ w

/-- The new value of an operand of `n` bits. -/
def atomicNew (op n old a b : Nat) : Nat :=
  match op with
  | 0 => (old + a) % 2 ^ n
  | 1 => if toSigned n a < toSigned n old then a else old
  | 2 => if toSigned n old < toSigned n a then a else old
  | 3 => min old a
  | 4 => max old a
  | 5 => old ||| a
  | 6 => old &&& a
  | 7 => a
  | _ => if old = a then b else old

/-- Operand and swap value of an atomic's slots. -/
def atomicArgs (arg : Nat) (slots : List Byte) : Nat × Nat :=
  let n := atomicWidth arg
  if arg % 16 = 8 then (if n = 16 then (fieldOf slots 0 16, fieldOf slots 16 16) else (fieldOf slots 0 n, fieldOf slots 8 n))
  else (fieldOf slots 0 n, 0)

/-! ### A home serves a request (R354–R357, R365–R368, R387, R408–R411, R450) -/

/-- The content of one line as a load returns it (R397 for the version line). -/
def State.lineData (s : State) (addr : Nat) : List Byte :=
  if addr % windowBytes / 64 * 64 = versionOff then
    match s.dev.regionOf addr with
    | some r => leBytes 8 r.version ++ leBytes 8 r.versionTick ++ List.replicate 48 0
    | none => List.replicate 64 0
  else memRead s.mem (addr % 2 ^ 50 / 64 * 64) 64

/-- Opcode of the response to a request. -/
def rspCode (code : Nat) : Nat := if code = 0x10 then 0x2A else if code = 0x01 ∨ code = 0x03 then 0x28 else 0x29

/-- Answer a request with a status and no effect. -/
def Dev.answer (d : Dev) (code : Nat) (m : Msg) (job : Option Nat) (status : Nat) : Dev :=
  let n := if rspCode code = 0x28 then 64 * reqLines code m else if code = 0x10 then 16 else 0
  d.deliver (srcDev m.source) (rspCode code) m.addr (d.rsp m status (List.replicate n 0) (status == stPoison)) job

/-- Serve a load or READ_BLOCK that passed the checks. -/
def State.homeLoad (s : State) (port code : Nat) (m : Msg) (job : Option Nat) (track : Bool) (pass : Bool := false) : State :=
  let lines := reqLines code m
  let line := m.addr % 2 ^ 50 / 64
  let dev := srcDev m.source
  let h : HeldReq := { port := port, code := code, m := m, why := 7, job := job, pass := pass }
  let (served, d) := match s.dev.dirHolds line lines with
    | some l => (false, s.dev.holdLoad l h)
    | none => if code = 0x01 then s.dev.dirLoad line h (track && dev != s.dev.devNo) else (true, s.dev)
  if !served then { s with dev := d } else
  let d := d.touchUnits m.addr lines
  let bad := (List.range lines).any fun i => d.linePoisoned (line + i)
  if bad then
    let (b, d) := d.drawBytes (64 * lines)
    { s with dev := d.deliver dev 0x28 m.addr (d.rsp m stPoison b true) job }
  else
    let b := (List.range lines).flatMap fun i => s.lineData (m.addr / 64 * 64 + 64 * i)
    { s with dev := d.deliver dev 0x28 m.addr (d.rsp m stOk b) job }

/-- Write one line of a region under a byte mask: content, poison, changed sector, directory. The lines whose
acknowledgements the response awaits come back. -/
def State.putLine (s : State) (r : Region) (off mask : Nat) (b : List Byte) (writer : Nat) (poison : Bool) : List Nat × State :=
  let line := off / 64
  let k := addrUnit off
  let full := decide (mask = 2 ^ 64 - 1)
  let mem := if full then memWrite s.mem (64 * line) b else memWriteMask s.mem (64 * line) mask b
  let d := if full then s.dev.cleanLine line else s.dev
  let d := if poison then d.poisonLine line else d
  let d := if r.persist then d.modUnit k fun u =>
      let sec := off % unitBytes / 4096
      { u with changed := if u.changed.contains sec then u.changed else u.changed ++ [sec] }
    else match tget d.rgn.units k with
      | some u => if u.onStacks || (tget d.tier.demos (unitTag k)).isSome then d.staleUnit k else d
      | none => d
  let h := d.heldLine line
  let (held, d) := d.dirUpdate line writer (r.kind == 2)
  (if held then [h] else [], { s with mem := mem, dev := d })

/-- The sector a write of a persisted region awaits (R408). -/
def Dev.acceptOf (d : Dev) (r : Region) (off : Nat) : List (Nat × Nat × Nat) :=
  if r.persist then [(addrUnit off, off % unitBytes / 4096, d.tim.count)] else []

/-- Where a durable primary's updates go (R411, R413): its mirror, or a rebuild target the copy has reached. -/
def Dev.mirrorOf (d : Dev) (r : Region) (unit : Nat) : Option Nat :=
  if !r.durable || r.mirror then none
  else if r.st = 1 then (if d.isDead r.partner then none else some r.partner)
  else if r.st = 3 then (match r.rebuild with
    | some t => if unit ≤ r.copyFront then some t else none
    | none => none)
  else none

/-- Send one update to the mirror (R411): the tag its DONE will carry. -/
def Dev.mirrorWrite (d : Dev) (x code off : Nat) (m : Msg) (b : List Byte) : List Nat × Dev :=
  match tget d.rgn.slots x with
  | none => ([], d)
  | some r => match d.mirrorOf r (off % windowBytes / unitBytes) with
    | none => ([], d)
    | some t =>
      let d := d.modRegion x fun r => { r with mirrorSeq := r.mirrorSeq + 1 }
      let head := leBytes 8 (r.mirrorSeq + 1) ++ leBytes 2 m.source ++ leBytes 2 m.tag ++ leBytes 1 code ++ List.replicate 3 0
      let w : Msg := { source := d.srcOf 0 2, addr := r.id % 64 * 2 ^ 50 + off, arg := m.arg, slots := head ++ b }
      let (tag, d) := (d.count .mirrorSent 0).sendReq t 0x58 w r.id none
      ([tag], d)

/-- Keep the replay record of an update of another device (R368). -/
def Dev.record (d : Dev) (code : Nat) (m : Msg) (result : Nat) : Dev :=
  if srcDev m.source = d.devNo then d else
  let k := m.source * 65536 + m.tag
  let x : Replay := { src := m.source, tag := m.tag, arg := m.arg, result := result }
  if code = 0x10 then { d with fab := { d.fab with replayA := tset d.fab.replayA k x } }
  else { d with fab := { d.fab with replayS := tset d.fab.replayS k { x with arg := 0, result := 0 } } }

/-- The data slots of a store: its mask and its lines. -/
def storeParts (code : Nat) (m : Msg) : Nat × List Byte :=
  if code = 0x09 then (fieldOf m.slots 0 8, m.slots.drop 16) else (2 ^ 64 - 1, m.slots)

/-- Apply an update that passed every check: lines written, record kept, mirror told, response sent or held. -/
def State.applyUpdate (s : State) (code : Nat) (m : Msg) (job : Option Nat) (r : Region) : State :=
  let x := slotOf m.addr
  let off := m.addr % 2 ^ 50
  let dev := srcDev m.source
  let (lines, mirror, acc, old, s) :=
    if code = 0x10 then
      let n := atomicWidth m.arg
      let old := leNat (memRead s.mem off n)
      let (a, b) := atomicArgs m.arg m.slots
      let new := leBytes n (atomicNew (m.arg % 16) (8 * n) old a b)
      let at_ := off % 64
      let data := List.replicate at_ 0 ++ new ++ List.replicate (64 - at_ - n) 0
      let (l, s) := s.putLine r off ((2 ^ n - 1) * 2 ^ at_) data dev false
      let (t, d) := s.dev.mirrorWrite x code off m (leBytes 16 old)
      (l, t, d.acceptOf r off, old, { s with dev := d })
    else
      let (mask, data) := storeParts code m
      (List.range (reqLines code m)).foldl (fun (p : List Nat × List Nat × List (Nat × Nat × Nat) × Nat × State) i =>
        let o := off / 64 * 64 + 64 * i
        let s := p.2.2.2.2
        let (l, s) := s.putLine r o mask ((data.drop (64 * i)).take 64) dev m.poison
        -- a masked store travels to the mirror as the whole line it leaves (assumption 19)
        let (t, d) := s.dev.mirrorWrite x code o m (memRead s.mem o 64)
        (p.1 ++ l, p.2.1 ++ t, p.2.2.1 ++ d.acceptOf r o, 0, { s with dev := d })) ([], [], [], 0, s)
  let d := (s.dev.record code m old).touchUnits m.addr (reqLines code m)
  let rm := d.rsp m stOk (if code = 0x10 then leBytes 16 old else [])
  let h : HeldRsp := { dest := dev, code := rspCode code, m := rm, job := job, source := m.source, region := r.id, lines := lines, accept := acc, mirror := mirror }
  { s with dev := ({ d with fab := { d.fab with heldRsp := d.fab.heldRsp ++ [h] } }).flushHeld }

/-- Ask the mirror for its copy of a poisoned line (R450): the request waits for it. -/
def Dev.askMirror (d : Dev) (r : Region) (h : HeldReq) (line : Nat) : Dev :=
  let a := r.id % 64 * 2 ^ 50 + 64 * line
  let d := d.holdReq h
  if d.fab.outst.any fun o => o.code == 0x03 && o.job.isNone && o.m.addr == a then d
  else (d.sendReq r.partner 0x03 { source := d.srcOf 0 2, addr := a } r.id none).2

/-- Lines of a request that a poisoned line stops: every one of a load, those a masked store or an atomic reaches. -/
def Dev.poisonStops (d : Dev) (code : Nat) (m : Msg) : Option Nat :=
  let line := m.addr % 2 ^ 50 / 64
  if code = 0x08 ∨ code = 0x0A ∨ (code = 0x09 ∧ (storeParts code m).1 = 2 ^ 64 - 1) then none
  else ((List.range (reqLines code m)).map (line + ·)).find? d.linePoisoned

/-! ### Combining at home ingress (R362, R364, R365) -/

/-- Combining is on (CHG_CTRL.1). -/
def Dev.combines (d : Dev) : Bool := d.reg regChgCtrl 0 0 1 == 1

/-- A window opened at a time is open now: always within one cycle, else for W ns (R362). -/
def Dev.windowOpen (d : Dev) (opened : Nat) : Bool := d.tim.now == opened || decide (d.tim.now < opened + d.reg regChgCombineWindow)

/-- A request that may join another: not SWAP, CAS, RELEASE, block or ordered traffic (R363). -/
def joinable (code : Nat) (m : Msg) : Bool :=
  !m.release && m.vc != 4 && ([0x01, 0x08, 0x09].contains code || (code == 0x10 && decide (m.arg % 16 ≤ 6)))

/-- Two joinable updates of one line combine: two stores, or two atomics of one operation, width and address (R363). -/
def joins (c1 : Nat) (m1 : Msg) (c2 : Nat) (m2 : Msg) : Bool :=
  if c1 = 0x10 then c2 == 0x10 && m1.arg == m2.arg && m1.addr == m2.addr else c2 != 0x10

/-- An update of the line is queued at its serialiser: acknowledgements of an earlier one are awaited, or a window is open. -/
def Dev.lineQueued (d : Dev) (line : Nat) : Bool :=
  ((d.dirEnts (dirSet (line % 2 ^ 44))).any fun e => e.line == line % 2 ^ 44 && e.inval) || d.fab.homeComb.any fun c => c.line == line

/-- An update waits in the window of its line: the last one opened, where that is open and takes it, or a new one. -/
def Dev.joinHome (d : Dev) (port code : Nat) (m : Msg) (job : Option Nat) : Dev :=
  let line := m.addr / 64
  let mine := (d.fab.homeComb.filter fun c => c.line == line).getLast?
  let put := fun (l : List HomeComb) => { d with fab := { d.fab with homeComb := l } }
  match mine with
  | some c =>
    if d.windowOpen c.openedAt && c.members.all fun x => joins x.2.1 x.2.2.1 code m then
      (put (d.fab.homeComb.map fun y => if y = c then { y with members := y.members ++ [(port, code, m, job)] } else y)).count .joinHome 0
    else put (d.fab.homeComb ++ [{ line := line, openedAt := d.tim.now, members := [(port, code, m, job)] }])
  | none => put (d.fab.homeComb ++ [{ line := line, openedAt := d.tim.now, members := [(port, code, m, job)] }])

/-- A load shares a read of its line that began less than W earlier, or begins one. -/
def Dev.shareRead (d : Dev) (line : Nat) (reference : Bool) : Dev :=
  if !(d.combines || reference) then d else
  match tget d.fab.lineReads line with
  | some t => if d.windowOpen t then d.count .joinHome 0
      else { d with fab := { d.fab with lineReads := tset (tkeep d.fab.lineReads fun _ t => d.windowOpen t) line d.tim.now } }
  | none => { d with fab := { d.fab with lineReads := tset (tkeep d.fab.lineReads fun _ t => d.windowOpen t) line d.tim.now } }

/-- An update of lines ends the reads that later loads could share (R357). -/
def Dev.endReads (d : Dev) (line lines : Nat) : Dev :=
  { d with fab := { d.fab with lineReads := tkeep d.fab.lineReads fun l _ => !(decide (line ≤ l) && decide (l < line + lines)) } }

/-- Apply an update whose units may have to be allocated. -/
def State.applyOne (s : State) (code : Nat) (m : Msg) (job : Option Nat) (r : Region) : State :=
  let lines := reqLines code m
  let (a, n) := unitRun m.addr lines
  match s.dev.takeUnits (slotOf m.addr) a r n with
  | .refused => s.onDev fun d => d.answer code m job stQuota
  | .waits d => { s with dev := d.holdReq { port := 0, code := code, m := m, why := 0, job := job } }
  | .made d => ({ s with dev := d.endReads (m.addr / 64) lines }).applyUpdate code m job r

/-- The windows that pass a test close: their members are applied as one update, as if serially in order of arrival (R364, R365). -/
def State.closeHome (s : State) (f : HomeComb → Bool) : State :=
  let cs := s.dev.fab.homeComb.filter f
  let s := s.onDev fun d => { d with fab := { d.fab with homeComb := d.fab.homeComb.filter fun c => !f c } }
  (cs.flatMap (·.members)).foldl (fun s x => match s.dev.regionOf x.2.2.1.addr with
    | some r => s.applyOne x.2.1 x.2.2.1 x.2.2.2 r
    | none => s.onDev fun d => d.answer x.2.1 x.2.2.1 x.2.2.2 stNotFound) s

/-- An update that passed every check: it waits in a window behind one that is queued, or is applied; one that joins none first closes
the windows of its lines. -/
def State.serialise (s : State) (port code : Nat) (m : Msg) (job : Option Nat) (r : Region) : State :=
  let line := m.addr / 64
  if (s.dev.combines || r.kind == 2) && joinable code m && s.dev.lineQueued line then s.onDev fun d => d.joinHome port code m job
  else
    let s := s.closeHome fun c => decide (line ≤ c.line) && decide (c.line < line + reqLines code m)
    match s.dev.regionOf m.addr with
    | some r => s.applyOne code m job r
    | none => s

/-- A home serves a request: refused, held, or carried out. `tried`: the mirror's copy was poisoned too. -/
def State.homeServe (s : State) (port code : Nat) (m : Msg) (job : Option Nat) (tried : Bool) (pass : Bool := false) : State :=
  let d := s.dev
  let lines := reqLines code m
  match d.regionOf m.addr with
  | none => { s with dev := (d.countRefusal m stNotFound).answer code m job stNotFound }
  | some r =>
    if r.mirror ∧ code = 0x03 ∧ srcDev m.source = r.partner then s.homeLoad port code m job false
    else if r.mirror ∧ !d.isDead r.partner then
      { s with dev := d.holdReq { port := port, code := code, m := m, why := 1, job := job, pass := pass } }
    else if d.fencedHome code m lines then
      { s with dev := d.holdReq { port := port, code := code, m := m, why := 3, job := job, pass := pass } }
    else match d.homeRefuses code m pass with
    | some st => { s with dev := (d.countRefusal m st).answer code m job st }
    | none =>
      let out := d.awaitsUnit m.addr lines
      -- an admitted request of a revoked requester does not wait for its unit (R401)
      if !out.isEmpty && pass then
        { s with dev := ((d.countRefusal m stRevoked).notAdmitted m.addr true).answer code m job stRevoked }
      else if !out.isEmpty then
        let d := (d.promoteUnits out).count .heldAcc 0
        { s with dev := d.holdReq { port := port, code := code, m := m, why := 0, job := job } }
      else match d.poisonStops code m with
      | some l =>
        if r.durable && !r.mirror && !tried && r.st == 1 && !d.isDead r.partner then
          { s with dev := d.askMirror r { port := port, code := code, m := m, why := 2, job := job, pass := pass } l }
        else if rightOf code = 0 then s.homeLoad port code m job (r.kind != 2) pass
        else { s with dev := d.answer code m job stPoison }
      | none =>
        if rightOf code = 0 then
          (s.onDev fun d => if code = 0x01 then d.shareRead (m.addr / 64) (r.kind == 2) else d).homeLoad port code m job (r.kind != 2) pass
        else if r.persist && (match d.vol? r.volume with
            | some v => v.protected_
            | none => false) then { s with dev := d.answer code m job stMedia }
        else s.serialise port code m job r

/-- Requests of the ordered channel that wait at this home. -/
def Dev.ordHeld (d : Dev) : List HeldReq :=
  (d.fab.held ++ d.fab.dir.flatMap fun e => e.2.flatMap (·.loads)).filter fun h => h.m.vc == 4

/-- One of them waits for something other than those before it. -/
def Dev.ordBlocked (d : Dev) : Bool := d.ordHeld.any (·.why != 8)

/-- A home request arrives to be served: one of the ordered channel waits behind those that wait (R361). -/
def State.homeArrive (s : State) (port code : Nat) (m : Msg) (job : Option Nat) : State :=
  if m.vc = 4 ∧ !s.dev.ordHeld.isEmpty then s.onDev fun d => d.holdReq { port := port, code := code, m := m, why := 8, job := job }
  else s.homeServe port code m job false

/-- Region service is open: from step 11 of bring-up on, while it is enabled (R506, R560). Requests that arrive before are held. -/
def Dev.regionOpen (d : Dev) : Bool := d.boot.st == .serving && d.reg regRgnCtrl 0 0 1 == 1

/-- Serve loads that an invalidation held (R356). -/
def State.serveLoads (s : State) (l : List HeldReq) : State :=
  l.foldl (fun s h => s.homeServe h.port h.code h.m h.job false h.pass) s

/-- INV_ACK of a position for a line of a set. -/
def State.invAck (s : State) (set line pos : Nat) : State :=
  let (l, d) := s.dev.invAck set line pos
  ({ s with dev := d }).serveLoads l

/-! ### Mappings (R389, R392) -/

/-- A patron's mapping of a region that carries a right over a unit (any unit where none is named). -/
def Dev.mapped (d : Dev) (id p right : Nat) (unit : Option Nat) : Bool :=
  d.rgn.maps.any fun x => x.region == id && x.patron == p && bit x.rights right && match unit with
    | some u => decide (x.first ≤ u) && decide (u < x.first + x.count)
    | none => true

/-- An access of a patron passes the mapping table (R392). -/
def Dev.mapAllows (d : Dev) (p addr right lines : Nat) : Bool :=
  let w := addr % windowBytes
  if w / 64 * 64 = versionOff then right == 0 && d.mapped (addrRegion addr) p 0 none else
  let (a, n) := unitRun addr lines
  (List.range n).all fun i => d.mapped (addrRegion addr) p right (some (a + i))

/-- Install or replace a mapping. -/
def Dev.installMap (d : Dev) (x : Mapping) : Dev :=
  let rest := d.rgn.maps.filter fun y => !(y.region == x.region && y.patron == x.patron)
  { d with rgn := { d.rgn with maps := rest ++ [x] } }

/-- Remove a mapping; borrowed lines go when no other mapping of the region remains (R401). -/
def Dev.removeMap (d : Dev) (id p : Nat) : Dev :=
  let maps := d.rgn.maps.filter fun y => !(y.region == id && y.patron == p)
  let d := { d with rgn := { d.rgn with maps := maps } }
  if maps.any fun y => y.region == id then d
  else { d with fab := { d.fab with borrow := tkeep d.fab.borrow fun l _ => addrRegion (64 * l) != id } }

/-- Drop a borrowed line. -/
def Dev.dropBorrow (d : Dev) (line : Nat) : Dev := { d with fab := { d.fab with borrow := tdel d.fab.borrow line } }

/-- Lines of the borrow cache (R4, R16): 64 MiB. -/
def borrowLines : Nat := 2 ^ 20

/-- Install a line in the borrow cache; a full cache silently replaces a line of its choice (R354, assumption 34). -/
def Dev.installLine (d : Dev) (line : Nat) (b : List Byte) : Dev :=
  let put := fun (d : Dev) => { d with fab := { d.fab with borrow := tset d.fab.borrow line b } }
  if (tget d.fab.borrow line).isSome ∨ d.fab.borrow.length < borrowLines then put d else
  let (n, d) := d.draw
  put (d.dropBorrow ((d.fab.borrow.getD (Config.freeNat n % borrowLines) (line, [])).1))

end Sys2Proof.Machine
end

