-- ==== Sys2Proof/Machine/AsmBase.lean ====
section
/-! DEFINITION. Pool assembly: heads, announces, reports and the roster (R513 to R516). -/

namespace Sys2Proof.Machine

/-- HEAD as this device announces it: HEAD_N asserted and the host link up (R513). -/
def Dev.headSet (d : Dev) : Bool := !d.boot.straps.headN && d.host.linkUp

/-- The presenting head (R514). -/
def Dev.presenting (d : Dev) : Option Nat :=
  d.boot.heads.foldl (fun b x => match b with
    | none => some x
    | some y => some (min x y)) none

/-- A device's HEAD as last announced changes. The next lowest that takes over writes HEAD_CHANGED (R514). -/
def Dev.setHead (d : Dev) (dev : Nat) (on : Bool) : Dev :=
  let prev := d.presenting
  let rest := d.boot.heads.filter (· != dev)
  let d := { d with boot := { d.boot with heads := if on then rest ++ [dev] else rest } }
  match prev, d.presenting with
  | some a, some b => if a = dev ∧ !on ∧ b = d.devNo then (d.devEvent 0x0025 b a).count .headChanges 0 else d
  | _, _ => d

/-- Devices the head expects, by the sizes its wings reported (R515). -/
def Dev.expected (d : Dev) : List Nat :=
  (List.range (d.boot.straps.wings + 1)).flatMap fun w =>
    (List.range (tgetD d.boot.wingSizes w d.boot.straps.wingSize + 1)).map (16 * w + ·)

/-- A roster entry: ABSENT when none is kept. -/
def Dev.rosterEnt (d : Dev) (dev : Nat) : RosterEnt := tgetD d.boot.roster dev {}

/-- Set a roster entry. -/
def Dev.setRoster (d : Dev) (dev : Nat) (e : RosterEnt) : Dev :=
  { d with boot := { d.boot with roster := tset d.boot.roster dev e } }

/-- Bring the roster in line with the expected set: EXPECTED where nothing is known, ABSENT outside it. -/
def Dev.refreshRoster (d : Dev) : Dev :=
  let ex := d.expected
  (List.range 64).foldl (fun d v =>
    let e := d.rosterEnt v
    if ex.contains v ∧ e.st = 6 then d.setRoster v { e with st := 0 }
    else if !ex.contains v ∧ e.st = 0 then d.setRoster v { e with st := 6 } else d) d

/-- Expected devices in a roster state. -/
def Dev.rosterCount (d : Dev) (f : Nat → Bool) : Nat := (d.expected.filter fun v => f (d.rosterEnt v).st).length

/-- POOL_ASSEMBLED, and POOL_MEMBER_MISSING for the entries still EXPECTED (R516). -/
def Dev.poolAssembled (d : Dev) (ms : Nat) : Dev :=
  let d := d.devEvent 0x0020 (d.expected.length + 256 * d.rosterCount fun s => s == 1 || s == 2) ms
  let d := { d with boot := { d.boot with assembled := true, assembledMs := ms } }
  (d.expected.filter fun v => (d.rosterEnt v).st == 0).foldl (fun d v => d.devEvent 0x0022 v 0) d

/-- The presenting head's checks after a change of the roster (R516). -/
def Dev.rosterCheck (d : Dev) (ms : Nat) : Dev :=
  if !d.boot.rosterOn ∨ d.presenting ≠ some d.devNo then d else
  let d := if !d.boot.assembled ∧ d.rosterCount (· == 0) = 0 then d.poolAssembled ms else d
  if !d.boot.serving ∧ d.rosterCount (· == 2) = d.expected.length then
    { d.devEvent 0x0021 (d.rosterCount (· == 2)) ms with boot := { d.boot with serving := true, servingMs := ms } }
  else d

/-- A READY or SERVING report enters the roster (R515, R516). -/
def Dev.rosterReport (d : Dev) (topic : Nat) (b : List Byte) (ms : Nat) : Dev :=
  if !d.boot.rosterOn then d else
  let f := fieldOf b 1 1 % 64
  let x := fieldOf b 2 1
  let w := f / 16
  let d := if topic = 2 ∧ (tget d.boot.wingSizes w).isNone ∧ w ≤ d.boot.straps.wings then
      ({ d with boot := { d.boot with wingSizes := tset d.boot.wingSizes w (bits x 0 4) } }).refreshRoster else d
  let old := d.rosterEnt f
  let size := tgetD d.boot.wingSizes w d.boot.straps.wingSize
  let el := min 65535 (fieldOf b 12 4)
  let st := if !d.expected.contains f then 5
    else if bits x 4 2 ≠ d.boot.straps.wings ∨ bits x 0 4 ≠ size then 4 else topic - 1
  let e : RosterEnt := { st := st, head := bit x 6, recovered := bit x 7, portsUp := fieldOf b 8 3, epoch := fieldOf b 4 4
                         readyMs := if topic = 2 then el else old.readyMs, servingMs := if topic = 3 then el else old.servingMs }
  let d := d.setRoster f e
  let d := if st = 4 then d.devEvent 0x0024 f (bits x 0 4 + 16 * bits x 4 2) else d
  let d := if d.boot.assembled ∧ old.st = 0 ∧ d.presenting = some d.devNo ∧ (st = 1 ∨ st = 2) then d.devEvent 0x0023 f e.epoch else d
  d.rosterCheck ms

/-- PORTS_UP. -/
def Dev.portsUp (d : Dev) : Nat := ((List.range 18).map fun k => flag (d.portUp k) * 2 ^ k).sum

/-- The payload of an assembly message (R513). -/
def Dev.asmPayload (d : Dev) (topic ms : Nat) : List Byte :=
  leBytes 1 topic ++ leBytes 1 d.devNo
    ++ leBytes 1 (d.boot.straps.wingSize + 16 * d.boot.straps.wings + 64 * flag d.headSet + 128 * flag d.boot.recovered)
    ++ leBytes 1 0 ++ leBytes 4 d.fab.epoch ++ leBytes 3 d.portsUp ++ leBytes 1 0 ++ leBytes 4 ms ++ List.replicate 16 0

/-- Send HEAD_ANNOUNCE to every other device of the pool (R513). -/
def Dev.announce (d : Dev) (ms : Nat) : Dev :=
  let all := (List.range (d.boot.straps.wings + 1)).flatMap fun w =>
    (List.range (tgetD d.boot.wingSizes w d.boot.straps.wingSize + 1)).map (16 * w + ·)
  (all.filter (· != d.devNo)).foldl (fun d x => d.sendMessage x 2 (d.asmPayload 1 ms)) d

/-- READY or SERVING has been reached. -/
def Dev.readyDue (d : Dev) : Bool := d.boot.st == .ready || d.boot.st == .serving

/-- Send the reports that are due to the heads heard, each once (R513). -/
def Dev.sendReports (d : Dev) : Dev :=
  d.boot.heard.foldl (fun d x =>
    let d := if d.readyDue ∧ !d.boot.readySent.contains x then
        let d := d.sendMessage x 2 (d.asmPayload 2 (tgetD d.boot.endMs 7 0))
        { d with boot := { d.boot with readySent := d.boot.readySent ++ [x] } } else d
    if d.boot.st = .serving ∧ !d.boot.servingSent.contains x then
      let d := d.sendMessage x 2 (d.asmPayload 3 (tgetD d.boot.endMs 11 0))
      { d with boot := { d.boot with servingSent := d.boot.servingSent ++ [x] } } else d) d

/-- This device reaches READY or SERVING: its own roster entry, and the reports (R513). -/
def Dev.ownReport (d : Dev) (topic ms : Nat) : Dev := (d.rosterReport topic (d.asmPayload topic ms) ms).sendReports

/-- HEAD of this device follows its host link (R513, R514): announce, keep the roster from then on. -/
def Dev.headLink (d : Dev) (ms : Nat) : Dev :=
  if d.boot.straps.headN ∨ !d.readyDue then d else
  let on := d.host.linkUp
  let d := d.setHead d.devNo on
  let d := if on ∧ !d.boot.rosterOn then ({ d with boot := { d.boot with rosterOn := true } }).refreshRoster else d
  let d := d.announce ms
  if on then
    let d := d.rosterReport 2 (d.asmPayload 2 (tgetD d.boot.endMs 7 0)) ms
    if d.boot.st = .serving then d.rosterReport 3 (d.asmPayload 3 (tgetD d.boot.endMs 11 0)) ms else d
  else d

/-- An assembly message arrives (R513–R515). -/
def Dev.assembly (d : Dev) (b : List Byte) : Dev :=
  let d := d.count2 .asmRecv 0 0 1
  let (ms, d) := d.drawBits 32
  let topic := fieldOf b 0 1
  let dev := fieldOf b 1 1 % 64
  if topic = 1 then
    let on := bit (fieldOf b 2 1) 6
    let d := d.setHead dev on
    if on then
      let d := { d with boot := { d.boot with heard := if d.boot.heard.contains dev then d.boot.heard else d.boot.heard ++ [dev] } }
      d.sendReports
    else d
  else if topic = 2 ∨ topic = 3 then d.rosterReport topic b ms
  else d.count2 .asmBad 0 0 1

/-- A device declared dead, or returned with a new epoch, in the roster (R514, R515). -/
def Dev.rosterDead (d : Dev) (dev : Nat) : Dev :=
  let d := d.setHead dev false
  if d.boot.rosterOn ∧ (d.rosterEnt dev).st ≠ 6 then d.setRoster dev { d.rosterEnt dev with st := 3 } else d

/-- A device that returned with a new epoch is EXPECTED again. -/
def Dev.rosterBack (d : Dev) (dev : Nat) : Dev :=
  if d.boot.rosterOn ∧ (d.rosterEnt dev).st = 3 then d.setRoster dev { d.rosterEnt dev with st := 0 } else d

/-- The device of a wing whose HEAD_N strap is asserted, as it announced itself (R468): this device, or one heard. -/
def Dev.headOfWing (d : Dev) : Option Nat :=
  if !d.boot.straps.headN then some d.devNo else d.boot.heard.find? fun x => x / 16 == d.wing

/-- A fault notice to the head of the wing (R468): payload TOPIC 0x10, device and class (assumption 21). -/
def Dev.faultNotice (d : Dev) (cls : Nat) : Dev :=
  match d.headOfWing with
  | none => d
  | some h =>
    if h = d.devNo then d.devEvent 0x050D d.devNo cls
    else d.sendMessage h 2 (leBytes 1 0x10 ++ leBytes 1 d.devNo ++ leBytes 1 cls ++ List.replicate 29 0)

end Sys2Proof.Machine
end

