-- ==== Sys2Proof/Machine/Near.lean ====
section
/-! DEFINITION. Near-memory operations: FILL, COPY, COMPARE and REDUCE at the issuer and at the home (R403 to R406). -/

namespace Sys2Proof.Machine

/-! ### REDUCE arithmetic (R406) -/

/-- fp32 bits of an exact value rounded to nearest even; overflow follows fp32. -/
def f32Round (neg : Bool) (v : Fr) : Nat :=
  match f32 .nearest v with
  | some r => f32Encode (if v.isZero then neg else decide (v.n < 0)) r
  | none => f32Inf (decide (v.n < 0))

/-- fp32 sum of two bit patterns: an exact zero is +0 unless both are −0. -/
def f32Add (a b : Nat) : Nat :=
  match f32Decode a, f32Decode b with
  | .nan, _ => f32NaN
  | _, .nan => f32NaN
  | .inf x, .inf y => if x = y then f32Inf x else f32NaN
  | .inf x, .fin _ _ => f32Inf x
  | .fin _ _, .inf y => f32Inf y
  | .fin x u, .fin y v => f32Round (x && y && u.isZero && v.isZero) (u.add v)

/-- An fp32 pattern stands before another: −0 before +0, infinities at the ends. -/
def f32Before (a b : Nat) : Bool :=
  match f32Decode a, f32Decode b with
  | .inf x, .inf y => x && !y
  | .inf x, _ => x
  | _, .inf y => !y
  | .fin x u, .fin y v => if u.isZero && v.isZero then x && !y else u.lt v
  | _, _ => false

/-- Minimum and maximum of fp32 patterns. -/
def f32MinMax (mx : Bool) (a b : Nat) : Nat :=
  if f32Decode a = .nan ∨ f32Decode b = .nan then f32NaN
  else if f32Before a b then (if mx then b else a) else (if mx then a else b)

/-- One step of REDUCE in fp32 bits: 0 sum, 1 min, 2 max. -/
def f32Step (oper a b : Nat) : Nat := if oper = 0 then f32Add a b else f32MinMax (oper == 2) a b

/-- One step in int32. -/
def i32Step (oper a b : Nat) : Nat :=
  let lt := decide (toSigned 32 a < toSigned 32 b)
  if oper = 0 then (a + b) % 2 ^ 32 else if oper = 1 then (if lt then a else b) else (if lt then b else a)

/-- bf16 bits of an fp32 pattern, rounded to nearest even. -/
def bf16Of (w : Nat) : Nat :=
  match f32Decode w with
  | .nan => 0x7FC0
  | .inf s => f32Inf s / 65536
  | .fin s v => bf16Encode (s && v.isZero) v

/-- Element `i` of a REDUCE over its sources' bytes. -/
def reduceElem (type oper : Nat) (srcs : List (List Byte)) (i : Nat) : List Byte :=
  let w := if type = 1 then 2 else 4
  let vals := srcs.map fun b => leNat ((b.drop (w * i)).take w)
  if type = 2 then leBytes 4 (vals.tail.foldl (i32Step oper) (vals.headD 0))
  else if type = 0 then leBytes 4 (vals.tail.foldl (f32Step oper) (vals.headD 0))
  else
    let wide := vals.map (· * 65536)
    leBytes 2 (bf16Of (wide.tail.foldl (f32Step oper) (wide.headD 0)))

/-! ### The form (R403) -/

/-- LENGTH. -/
def nearLen (x : DescIn) : Nat := x.fld 8 0 64
/-- DST, or extent A. -/
def nearDst (x : DescIn) : Nat := x.fld 16 0 64
/-- SRC, extent B or pattern. -/
def nearSrc (x : DescIn) : Nat := x.fld 24 0 64
/-- HOST_SRC. -/
def hostSrc (x : DescIn) : Bool := x.fld 0 0 1 == 1
/-- HOST_DST. -/
def hostDst (x : DescIn) : Bool := x.fld 0 1 1 == 1
/-- NSRC. -/
def nearNsrc (x : DescIn) : Nat := x.fld 1 0 8
/-- Source `i` of a REDUCE. -/
def nearSrcAt (x : DescIn) (i : Nat) : Nat := x.fld (48 + 8 * i) 0 64

/-- A pool extent is aligned, within the pool address and within one region window. -/
def extentOk (len addr : Nat) : Bool :=
  addr % 64 == 0 && decide (addr < 2 ^ 56) && decide (addr % windowBytes + len ≤ versionOff)

/-- A source lies in the wing of the home that executes the operation, the one of DST or of extent A (R403). -/
def homeWing (x : DescIn) (addr : Nat) : Bool := addrDev addr / 16 == addrDev (nearDst x) / 16

/-- Two extents of one length overlap. -/
def overlaps (len a b : Nat) : Bool := decide (a < b + len) && decide (b < a + len)

/-- The pool extents an operation reads, with the body offset of each address. -/
def nearReads (op : Nat) (x : DescIn) : List (Nat × Nat) :=
  if op = 0x31 then (if hostSrc x then [] else [(nearSrc x, 24)])
  else if op = 0x32 then [(nearDst x, 16), (nearSrc x, 24)]
  else if op = 0x33 then (List.range (nearNsrc x)).map fun i => (nearSrcAt x i, 48 + 8 * i)
  else []

/-- The extent it writes. -/
def nearWrites (op : Nat) (x : DescIn) : List (Nat × Nat) := if op = 0x32 ∨ hostDst x then [] else [(nearDst x, 16)]

/-- The form of the near-memory operations. -/
def formNear (op : Nat) : Form :=
  { entries := (· == if op = 0x33 then 2 else 0), classes := anyClass, object := (· == 0)
    items := fun x =>
      let len := nearLen x
      let copy := op == 0x31
      let red := op == 0x33
      let host := copy && (hostSrc x || hostDst x)
      [.val 0 0 2 (fun v => if copy then v != 3 else v == 0), .val 0 2 2 (fun v => if red then v != 3 else v == 0),
       .val 0 4 2 (fun v => if red then v != 3 else v == 0), .rsv 0 6 2,
       .val 1 0 8 (fun v => if red then decide (2 ≤ v) && decide (v ≤ 16) else v == 0)]
      ++ rsvBytes 2 6
      ++ [.val 8 0 64 (fun v => v % 64 == 0 && decide (64 ≤ v) && decide (v ≤ 2 ^ 30)),
          .val 16 0 64 (fun v => if copy && hostDst x then v == 0 else extentOk len v),
          .val 24 0 64 (fun v =>
            if op = 0x30 then true else if red then v == 0 else if copy && hostSrc x then v == 0
            else extentOk len v && (copy && hostDst x || (homeWing x v && !(copy && overlaps len (nearDst x) v))))]
      ++ (if host then
            [if hostSrc x then .inBuf 32 (· == len) else .outBuf 32 (· == len)]
          else [.val 32 0 64 (· == 0), .val 40 0 64 (· == 0)])
      ++ (if red then (List.range 16).map fun i => .val (48 + 8 * i) 0 64 fun v =>
            if i < nearNsrc x then extentOk len v && homeWing x v && (v == nearDst x || !overlaps len (nearDst x) v)
              && !(v == nearDst x && ((List.range i).any fun j => nearSrcAt x j == nearDst x))
            else v == 0
          else [])
    inputs := fun x => if op == 0x31 && hostSrc x then [32] else [] }

/-! ### At the issuer (R349, R392, R404) -/

/-- VC of a patron's requests (R361). -/
def reqVc (p cls : Nat) : Nat := if p = 0 ∧ cls = 6 then 4 else 0

/-- The mapping's ATTRS of a region, where the device maps it. -/
def Dev.mapOf (d : Dev) (id : Nat) : Option Mapping := d.rgn.maps.find? fun m => m.region == id

/-- The device that serves a region now: its home, or the mirror of a durable one whose home is dead (R412). -/
def Dev.servesRegion (d : Dev) (id : Nat) : Nat :=
  let home := id % 64
  match d.mapOf id with
  | some m => if d.isDead home ∧ m.attrs % 4 = 3 then m.partner else home
  | none => home

/-- The status of a new request toward a dead device (R372): a load, or anything else. -/
def Dev.deadStatus (d : Dev) (id : Nat) (isLoad : Bool) : Nat :=
  match d.mapOf id with
  | some m => if bit m.attrs 2 then stTorn else if isLoad then stPoison else stDead
  | none => stDead

/-- The first extent that R392 or R349 refuses: its answer. -/
def Dev.extentRefused (d : Dev) (p len : Nat) (es : List (Nat × Nat × Nat)) : Option Ans :=
  es.findSome? fun e =>
    if d.rgn.torn.contains (addrRegion e.1) then some { status := stTorn }
    else if addrDev e.1 / 16 ≠ d.wing ∨ !d.mapAllows p e.1 e.2.2 (len / 64) then some (.bad 0x08 (bodyOff e.2.1)) else none

/-- Device time at the end of a request's deadline tick; 0 for none (R416). -/
def Dev.deadlineNs (d : Dev) (q : Req) : Nat :=
  if q.d.deadline = 0 then 0 else d.tim.edgeAt + (q.dl + 1 - d.tim.count) * d.tim.tickNs

/-- Send a region descriptor to the device that executes it (R416): its job waits for the REGION_DONE. -/
def Dev.sendRegion (d : Dev) (q : Req) (dest id : Nat) : Dev :=
  let p := q.d.patron
  let body := leBytes 2 (d.devNo + 64 * p) ++ leBytes 1 q.op ++ List.replicate 5 0 ++ leBytes 8 (d.deadlineNs q) ++ padSlots q.d.body
  let (k, d) := d.newJob { q := some q, op := q.op, x := q.d, dev := d.devNo }
  let m : Msg := { vc := reqVc p q.d.tclass, source := d.srcOf p 1, addr := regionAddr id, slots := body }
  if dest / 16 = d.wing then (d.sendReq dest 0x50 m id (some k)).2
  else
    let (t, d) := d.freshTag
    let m := { m with tag := t }
    let o : Outst := { dest := dest, code := 0x50, m := m, region := id, patron := p, job := some k, sent := true, sentAt := d.tim.now }
    ({ d with fab := { d.fab with outst := d.fab.outst ++ [o] } }).sendMessage dest 0 (encMsg 0x50 m)

/-! ### At the home (R404, R405) -/

/-- Where a line is read from: this home's memory, the mirror of a poisoned durable line (R450), or another device. -/
def Dev.lineFrom (d : Dev) (addr : Nat) : Option Nat :=
  match d.regionOf addr with
  | some r => if d.linePoisoned (addr % 2 ^ 50 / 64) ∧ r.durable ∧ !r.mirror ∧ r.st = 1 ∧ !d.isDead r.partner then some r.partner else none
  | none => if addrDev addr = d.devNo then none else some (d.servesRegion (addrRegion addr))

/-- Every line of an extent. -/
def extentLines (len addr : Nat) : List Nat := (List.range (len / 64)).map fun i => addr + 64 * i

/-- A line of a source as the operation reads it: received, or this home's. -/
def State.sourceLine (s : State) (j : Job) (addr : Nat) : List Byte := (tget j.got (addr / 64)).getD (s.lineData addr)

/-- The bytes of an extent. -/
def State.extent (s : State) (j : Job) (len addr : Nat) : List Byte := (extentLines len addr).flatMap (s.sourceLine j)

/-- The check a home makes of one extent for the requester: a status, or none. -/
def Dev.extentStatus (d : Dev) (j : Job) (len : Nat) (write : Bool) (addr : Nat) : Option Nat :=
  let m : Msg := { source := j.dev + 64 * j.x.patron, addr := addr, arg := len / 64 - 1 }
  if addrDev addr ≠ d.devNo ∧ (d.regionOf addr).isNone ∧ !write then none
  else d.homeRefuses (if write then 0x0A else 0x03) m j.pass

/-- First byte at which two byte strings differ. -/
def firstDiff : List Byte → List Byte → Nat → Option Nat
  | a :: as, b :: bs, i => if a = b then firstDiff as bs (i + 1) else some i
  | _, _, _ => none

/-- What an operation writes, and its answer with OK. -/
def State.nearResult (s : State) (j : Job) (op : Nat) : List Byte × Ans :=
  let x := j.x
  let len := nearLen x
  if op = 0x30 then (((List.range (len / 8)).flatMap fun _ => leBytes 8 (nearSrc x)), { r0 := len })
  else if op = 0x31 then (if hostSrc x then x.input 0 32 else s.extent j len (nearSrc x), { r0 := len })
  else if op = 0x32 then
    ([], { r0 := (firstDiff (s.extent j len (nearDst x)) (s.extent j len (nearSrc x)) 0).getD noField, r1 := len })
  else
    let n := len / (if x.fld 0 2 2 = 1 then 2 else 4)
    let srcs := (List.range (nearNsrc x)).map fun i => s.extent j len (nearSrcAt x i)
    ((List.range n).flatMap (reduceElem (x.fld 0 2 2) (x.fld 0 4 2) srcs), { r0 := n })

/-- End a job with an answer. -/
def State.endJob (s : State) (k : Nat) (a : Ans) : State :=
  s.onDev fun d => (d.modJob k fun j => { j with ans := a, wait := 0, fetching := false }).finishJob k

/-- A near-memory job runs at the home that owns its destination: refused, held for its units, or carried out line by line. -/
def State.runNear (s : State) (k : Nat) : State :=
  match tget s.dev.fab.jobs k with
  | none => s
  | some j =>
    let x := j.x
    let len := nearLen x
    let lines := len / 64
    let d := s.dev
    let rd := (nearReads j.op x).map (·.1)
    let wr := (nearWrites j.op x).map (·.1)
    let own := (rd ++ wr).filter fun a => (d.regionOf a).isSome
    match (wr.findSome? (d.extentStatus j len true)).or (rd.findSome? (d.extentStatus j len false)) with
    | some st => (s.onDev fun d => d.countRefusal { source := j.dev + 64 * x.patron, addr := wr.headD (rd.headD 0) } st).endJob k { status := st }
    | none =>
      let hold := fun (why : Nat) (d : Dev) => { s with dev := d.holdReq { port := 0, code := 0x50, m := {}, why := why, job := some k, pass := j.pass } }
      let out := own.flatMap fun a => d.awaitsUnit a lines
      if own.any fun a => d.fencedUnit a lines then hold 3 d
      else if !out.isEmpty && j.pass then
        -- admitted before its requester was revoked, it does not wait for a unit (R401)
        let a := wr.headD (rd.headD 0)
        (s.onDev fun d => (d.countRefusal { source := j.dev + 64 * x.patron, addr := a } stRevoked).notAdmitted a true).endJob k { status := stRevoked }
      else if !out.isEmpty then hold 0 ((d.promoteUnits out).count .heldAcc 0)
      else
        let poisoned := (rd.flatMap (extentLines len)).find? fun a =>
          (d.regionOf a).isSome && (tget j.got (a / 64)).isNone && d.linePoisoned (a % 2 ^ 50 / 64)
        match poisoned with
        | some a =>
          -- the destination of an operation that ends with POISON is poisoned (R405, R448)
          let d := (wr.flatMap (extentLines len)).foldl (fun d b => d.poisonLine (b % 2 ^ 50 / 64)) d
          ({ s with dev := d }).endJob k { status := stPoison, r0 := a }
        | none =>
          let (b, a) := s.nearResult j j.op
          match wr.head? with
          | none => s.endJob k a
          | some dst => match d.regionOf dst with
            | none => s.endJob k { status := stNotFound }
            | some r =>
              if r.persist && (match d.vol? r.volume with
                  | some v => v.protected_
                  | none => false) then s.endJob k { status := stMedia }
              else
                let (u, n) := unitRun dst lines
                match d.takeUnits (slotOf dst) u r n with
                | .refused => s.endJob k { status := stQuota }
                | .waits d => hold 0 d
                | .made d =>
                  let d := d.modJob k fun j => { j with ans := a, wait := lines, fetching := false }
                  (List.range lines).foldl (fun s i =>
                    let m : Msg := { source := s.dev.srcOf x.patron 2, addr := dst + 64 * i, slots := (b.drop (64 * i)).take 64 }
                    s.applyUpdate 0x08 m (some k) r) { s with dev := d }

/-- Start a near-memory job at its home: lines of other devices are read first, one READ_BLOCK a line (assumption 22). -/
def State.startNear (s : State) (k : Nat) : State :=
  match tget s.dev.fab.jobs k with
  | none => s
  | some j =>
    let reads := (nearReads j.op j.x).flatMap fun e => extentLines (nearLen j.x) e.1
    let s := s.onDev fun d => d.fromBorrow k reads
    let far := (reads.filter fun a => (s.dev.regionOf a).isSome || (tget s.dev.fab.borrow (a / 64)).isNone).filterMap fun a =>
      (s.dev.lineFrom a).map fun t => (a, t)
    if far.isEmpty then s.runNear k else
    let d := s.dev.modJob k fun j => { j with wait := far.length, fetching := true }
    let d := far.foldl (fun d e =>
      (d.sendReq e.2 0x03 { vc := reqVc j.x.patron j.x.tclass, source := d.srcOf j.x.patron 2, addr := e.1 } (addrRegion e.1) (some k)).2) d
    { s with dev := d }

/-! ### COPY with a host buffer, at the issuing device (R404) -/

/-- A job of a host copy has all its lines: write the buffer. -/
def Dev.hostCopyOut (d : Dev) (k : Nat) : Dev :=
  match tget d.fab.jobs k with
  | none => d
  | some j =>
    let len := nearLen j.x
    let b := (extentLines len (nearSrc j.x)).flatMap fun a => tgetD j.got (a / 64) []
    let d := match j.ans.status, j.q with
      | 0, some q =>
        if q.d.refuses 32 then d.modJob k fun j => { j with ans := .bad 0x08 (bodyOff 32) }
        else d.writeOut q.d 32 0 b
      | _, _ => d
    (d.modJob k fun j => { j with fetching := false }).finishJob k

/-- Start a COPY with a HOST bit: WRITE_BLOCK or READ_BLOCK of each line, here or at its home. -/
def State.startHostCopy (s : State) (k : Nat) : State :=
  match tget s.dev.fab.jobs k with
  | none => s
  | some j =>
    let x := j.x
    let len := nearLen x
    let lines := len / 64
    let inb := hostSrc x
    let addr := if inb then nearDst x else nearSrc x
    let b := x.input 0 32
    let t := s.dev.servesRegion (addrRegion addr)
    let s := s.onDev fun d => d.modJob k fun j => { j with wait := lines, fetching := !inb, ans := { r0 := len } }
    let s := (List.range lines).foldl (fun s i =>
      let m : Msg := { vc := reqVc x.patron x.tclass, source := s.dev.srcOf x.patron 1, addr := addr + 64 * i
                       slots := if inb then (b.drop (64 * i)).take 64 else [] }
      if t = s.dev.devNo then s.homeArrive 0 (if inb then 0x0A else 0x03) m (some k)
      else match (if inb then none else tget s.dev.fab.borrow (m.addr / 64)) with
      | some l => s.onDev fun d => d.jobPart k 0x28 m.addr { m with slots := l }
      | none => s.onDev fun d => ((d.dropBorrow (m.addr / 64)).sendReq t (if inb then 0x0A else 0x03) m (addrRegion addr) (some k)).2) s
    match tget s.dev.fab.jobs k with
    | some j => if j.wait = 0 ∧ j.fetching then s.onDev fun d => d.hostCopyOut k else s
    | none => s

/-- A near-memory descriptor executes at its issuer (R392, R404): completed with a refusal, started here, or sent. -/
def State.opNear (s : State) (q : Req) : State :=
  let x := q.d
  let p := x.patron
  let len := nearLen x
  let es := (nearWrites q.op x).map (fun e => (e.1, e.2, 1)) ++ (nearReads q.op x).map fun e => (e.1, e.2, 0)
  match s.dev.extentRefused p len es with
  | some a => s.onDev fun d => d.finishReq q a
  | none =>
    let host := q.op == 0x31 && (hostSrc x || hostDst x)
    let addr := if hostDst x ∧ q.op = 0x31 then nearSrc x else nearDst x
    let id := addrRegion addr
    let t := s.dev.servesRegion id
    if t ≠ s.dev.devNo ∧ s.dev.isDead t then s.onDev fun d => d.finishReq q { status := d.deadStatus id false }
    else if host ∨ t = s.dev.devNo then
      let (k, d) := s.dev.newJob { q := some q, op := q.op, x := x, dev := s.dev.devNo }
      let s := { s with dev := d }
      if host then s.startHostCopy k else s.startNear k
    else s.onDev fun d => d.sendRegion q t id

end Sys2Proof.Machine
end

