-- ==== Sys2Proof/Machine/Regions.lean ====
section
/-! DEFINITION. Regions: creation, grants, PUBLISH, revocation, persistence, durable copies and rebuilds (R388 to R391, R398 to R402, R408 to R417). -/

namespace Sys2Proof.Machine

/-! ### Forms (R388–R390, R398, R400) -/

/-- OBJECT of a region descriptor: bits 31:18 of a REGION_ID are zero (R384). -/
def isRegionId (o : Nat) : Bool := decide (o < 2 ^ 18)

/-- A device of the pool, by the straps. -/
def Dev.inPool (d : Dev) (dev : Nat) : Bool := decide (dev / 16 ≤ d.boot.straps.wings) && decide (dev % 16 ≤ d.boot.straps.wingSize)

/-- The form of REGION_CREATE (R388). -/
def formRegionCreate (d : Dev) : Form :=
  { entries := (· == 0), classes := [6], admin := true, object := isRegionId
    items := fun x =>
      let kind := x.fld 0 0 2
      let persist := x.fld 0 3 1
      let lend := x.fld 0 5 1 == 1
      let home := x.object % 64
      [.val 0 3 1 (fun v => kind != 3 || v == 1), .val 0 4 1 (fun v => v == 0 || kind == 0 || kind == 2),
       .val 0 5 1 (fun v => v == 0 || (kind == 0 && persist == 0 && x.fld 0 2 1 == 0)), .rsv 0 6 2,
       .val 1 0 6 d.inPool, .rsv 1 6 2, .val 2 0 6 (fun v => !lend || v == 0), .rsv 2 6 2,
       .val 3 0 6 (fun v => if kind = 3 then v / 16 == home / 16 && v != home && d.inPool v else v == 0), .rsv 3 6 2,
       .val 4 0 3 (fun v => persist == 1 || v == 0), .rsv 4 3 5]
      ++ rsvBytes 5 3
      ++ [.val 8 0 64 (fun v => v % unitBytes == 0 && decide (unitBytes ≤ v) && decide (v ≤ windowBytes - unitBytes))]
      ++ rsvBytes 16 32 }

/-- The form of REGION_GRANT (R389). -/
def formRegionGrant (d : Dev) : Form :=
  { entries := (· == 0), classes := [6], admin := true, object := isRegionId
    items := fun _ => [.val 0 0 6 d.inPool, .rsv 0 6 2, .rsv 1 6 2, .val 2 0 4 (· != 0), .rsv 2 4 4] ++ rsvBytes 3 1
      ++ [.val 8 0 32 (· != 0)] ++ rsvBytes 12 36 }

/-- The form of REGION_DESTROY (R390). -/
def formRegionDestroy : Form :=
  { entries := (· == 0), classes := [6], admin := true, object := isRegionId, items := fun _ => rsvBytes 0 48 }

/-- The form of PUBLISH (R398). -/
def formPublish : Form :=
  { entries := (· == 0), classes := anyClass, object := isRegionId, items := fun _ => rsvBytes 8 40 }

/-- The form of REVOKE (R400). -/
def formRevoke : Form :=
  { entries := (· == 0), classes := [0, 1, 6], object := isRegionId
    items := fun x =>
      let all := x.fld 2 0 1 == 1
      [.val 0 0 6 (fun v => !all || v == 0), .rsv 0 6 2, .val 1 0 6 (fun v => !all || v == 0), .rsv 1 6 2, .rsv 2 1 7] ++ rsvBytes 3 45 }

/-! ### Limits and notices (R389) -/

/-- Range entries in use at a home: one per grant and owner. -/
def Dev.rangeEntries (d : Dev) : Nat := (d.rgn.slots.map fun e => if e.2.mirror then 0 else 1 + e.2.grants.length).sum

/-- Tell a requester's device of a mapping, or of its removal with `count` zero (R416): `true` when an answer is awaited. -/
def Dev.mapNotice (d : Dev) (r : Region) (dev p rights first count : Nat) (job : Option Nat) : Bool × Dev :=
  if dev = d.devNo then
    (false, if count = 0 then d.removeMap r.id p
      else d.installMap { region := r.id, patron := p, rights := rights, first := first, count := count, attrs := r.attrs, partner := r.partner })
  else if d.isDead dev then (false, d)
  else
    let b := leBytes 4 r.id ++ leBytes 2 (dev + 64 * p) ++ leBytes 1 rights ++ leBytes 1 r.attrs ++ leBytes 4 first ++ leBytes 4 count
    let m : Msg := { source := d.srcOf 0 2, addr := regionAddr r.id, arg := r.partner, slots := b }
    if dev / 16 = d.wing then (true, (d.sendReq dev 0x52 m r.id job).2)
    else
      let (t, d) := d.freshTag
      let m := { m with tag := t }
      let o : Outst := { dest := dev, code := 0x52, m := m, region := r.id, job := job, sent := true, sentAt := d.tim.now }
      (true, ({ d with fab := { d.fab with outst := d.fab.outst ++ [o] } }).sendMessage dev 0 (encMsg 0x52 m))

/-! ### REGION_CREATE (R388, R410, R411, R413) -/

/-- Units of a region. -/
def Region.unitCount (r : Region) : Nat := r.size / unitBytes

/-- The record that a REGION_CREATE body describes. -/
def regionFrom (x : DescIn) (id : Nat) : Region :=
  { attrs := x.fld 0 0 6, ownerDev := x.fld 1 0 6, ownerPatron := x.fld 2 0 6, partner := x.fld 3 0 6, volume := x.fld 4 0 3
    size := x.fld 8 0 64, id := id }

/-- The volume of a persisted region is a REGION volume here. -/
def Dev.volumeOk (d : Dev) (r : Region) : Bool :=
  !r.persist || match d.vol? r.volume with
    | some v => v.region
    | none => false

/-- Put a region's record. -/
def Dev.putSlot (d : Dev) (x : Nat) (r : Region) : Dev := { d with rgn := { d.rgn with slots := tset d.rgn.slots x r } }

/-- Put a region and, for a durable one, its units. -/
def Dev.putRegionRec (d : Dev) (x : Nat) (r : Region) : Alloc :=
  if r.durable then
    match d.takeUnits x 0 r r.unitCount with
    | .made d => .made (d.putSlot x r)
    | a => a
  else .made (d.putSlot x r)

/-- A creation waits for the victims that make room for its units; those it has stay with it. -/
def Dev.holdCreate (d : Dev) (k : Nat) : Dev := d.holdReq { port := 0, code := 0x50, m := {}, why := 0, job := some k }

/-- Units that a creation took which ends with QUOTA go. -/
def Dev.dropUnits (d : Dev) (x : Nat) : Dev := { d with rgn := { d.rgn with units := tkeep d.rgn.units fun k _ => k / 2 ^ 17 != x } }

/-- Take a region's record and units away: its memory reads as empty, its stacks copy is unmapped. -/
def State.freeRegion (s : State) (x : Nat) : State :=
  match tget s.dev.rgn.slots x with
  | none => s
  | some r =>
    let d := s.dev
    let ks := (d.rgn.units.filter fun e => e.1 / 2 ^ 17 == x).map (·.1)
    let d := ks.foldl (fun (d : Dev) k => d.staleUnit k) d
    let pins := d.tier.pins.filter fun (e : PinEnt) => e.kind == 2 && e.id == r.id
    let d := pins.foldl (fun (d : Dev) (e : PinEnt) => d.dropMeta e.patron 16) d
    let lo := x * windowBytes
    let d := { d with
      tier := { d.tier with pins := d.tier.pins.filter fun (e : PinEnt) => !(e.kind == 2 && e.id == r.id) }
      rgn := { d.rgn with slots := tdel d.rgn.slots x, units := tkeep d.rgn.units fun k _ => k / 2 ^ 17 != x
                          handed := d.rgn.handed.filter fun h => h.1 / 2 ^ 17 != x }
      flt := { d.flt with lines := d.flt.lines.filter fun a => a / windowBytes != x } }
    { s with mem := memDrop s.mem lo (lo + windowBytes), dev := d }

/-- The last part of a creation: the owner's mapping. -/
def Dev.createMap (d : Dev) (k x : Nat) : Dev :=
  match tget d.rgn.slots x with
  | none => d
  | some r =>
    let (w, d) := d.mapNotice r r.ownerDev r.ownerPatron 15 0 r.unitCount (some k)
    (d.modJob k fun j => { j with
      fetching := false, wait := if w then 1 else 0, ans := { r0 := r.id, r1 := r.unitCount } }).settleJob k

/-- A stale half that a returning device discards when the survivor rebuilds into it (R414). -/
def Dev.staleHalf (d : Dev) (x : Nat) (id asker : Nat) : Bool :=
  match tget d.rgn.slots x with
  | some r => r.id == id && r.durable && r.partner == asker
  | none => false

/-- REGION_CREATE at the home, or the creation of a mirror's record. -/
def State.homeCreate (s : State) (k : Nat) (j : Job) : State :=
  let id := j.x.object
  let x := id / 64
  let r := regionFrom j.x id
  let asMirror := r.durable && r.partner == s.dev.devNo
  let s := if asMirror && s.dev.staleHalf x id j.dev then s.freeRegion x else s
  let d := s.dev
  if (tget d.rgn.slots x).isSome then s.endJob k { status := stPresent, r0 := id }
  else if !d.volumeOk r then s.endJob k (.bad 0x05 (bodyOff 4))
  else if asMirror then
    match d.putRegionRec x { r with mirror := true, partner := j.dev, st := if j.x.fld 5 0 8 = 1 then 3 else 1 } with
    | .refused => ({ s with dev := s.dev.dropUnits x }).endJob k { status := stQuota }
    | .waits d => { s with dev := d.holdCreate k }
    | .made d => ({ s with dev := d }).endJob k { r0 := id, r1 := r.unitCount }
  else if r.kind = 3 ∧ d.isDead r.partner then s.endJob k { status := stDead }
  else if 65536 < d.rangeEntries + 1 then s.endJob k { status := stQuota }
  else match d.putRegionRec x r with
    | .refused => ({ s with dev := s.dev.dropUnits x }).endJob k { status := stQuota }
    | .waits d => { s with dev := d.holdCreate k }
    | .made d =>
      if r.kind = 3 then
        -- the mirror's record is asked for first
        let d := d.modJob k fun j => { j with fetching := true }
        let b := leBytes 2 d.devNo ++ leBytes 1 0x86 ++ List.replicate 13 0 ++ padSlots j.x.body
        let m : Msg := { source := d.srcOf 0 1, addr := regionAddr id, slots := b }
        { s with dev := (d.sendReq r.partner 0x50 m id (some k)).2 }
      else { s with dev := d.createMap k x }

/-! ### Rebuilds (R413, R414) -/

/-- The wing's hot spare: enabled, and its device number. -/
def Dev.spare (d : Dev) : Option Nat :=
  if d.reg regRgnSpare 0 0 0 = 1 then some (16 * d.wing + d.reg regRgnSpare 0 0 1) else none

/-- The body that creates a region's record at a rebuild target: byte 5, reserved elsewhere, marks the rebuild (assumption 24). -/
def createBody (r : Region) (mirror : Nat) : List Byte :=
  leBytes 1 r.attrs ++ leBytes 1 r.ownerDev ++ leBytes 1 r.ownerPatron ++ leBytes 1 mirror ++ leBytes 1 r.volume
    ++ leBytes 1 1 ++ List.replicate 2 0 ++ leBytes 8 r.size ++ List.replicate 32 0

/-- Ask a device to take a copy of a DEGRADED region; REBUILD_BLOCKED where there is none to ask (R413). -/
def Dev.askRebuild (d : Dev) (x : Nat) (target : Option Nat) : Dev :=
  match tget d.rgn.slots x with
  | none => d
  | some r =>
    if r.st ≠ 2 ∨ r.mirror then d else
    match target with
    | none => d.devEvent 0x0404 r.id 1
    | some t =>
      if t = d.devNo ∨ d.isDead t then d.devEvent 0x0404 r.id 1 else
      let (k, d) := d.newJob { op := 0x200, x := { patron := 0, object := r.id }, dev := t, fetching := true }
      let b := leBytes 2 d.devNo ++ leBytes 1 0x86 ++ List.replicate 13 0 ++ createBody r t
      (d.sendReq t 0x50 { source := d.srcOf 0 1, addr := regionAddr r.id, slots := b } r.id (some k)).2

/-- Lines of one MIRROR_BLOCK: 64, or one each where a poisoned line stands among them. -/
def State.copyChunk (s : State) (r : Region) (t off : Nat) : State :=
  let d := s.dev
  let bad := (List.range 64).any fun i => d.linePoisoned (off / 64 + i)
  let pieces := if bad then (List.range 64).map fun i => (off + 64 * i, 1) else [(off, 64)]
  pieces.foldl (fun s p =>
    let d := s.dev
    let head := leBytes 8 r.mirrorSeq ++ List.replicate 8 0
    let m : Msg := { source := d.srcOf 0 2, addr := r.id % 64 * 2 ^ 50 + p.1, arg := p.2 - 1, poison := d.linePoisoned (p.1 / 64)
                     slots := head ++ memRead s.mem p.1 (64 * p.2) }
    { s with dev := ((d.sendReq t 0x59 m r.id none).2).modRegion (slotOf m.addr) fun r => { r with copyWait := r.copyWait + 1 } }) s

/-- Send the next unit of a rebuild in class 7, where the class may start and no block of the last one is awaited. -/
def State.rebuildUnit (s : State) (x : Nat) : State :=
  match tget s.dev.rgn.slots x with
  | none => s
  | some r => match r.rebuild with
    | none => s
    | some t =>
      if r.st ≠ 3 ∨ r.copyWait ≠ 0 ∨ !s.dev.mayStart 7 then s else
      let s := s.onDev fun d => d.startUnit 7 unitBytes
      let base := x * windowBytes + r.copyFront * unitBytes
      (List.range (unitBytes / 4096)).foldl (fun s i => s.copyChunk r t (base + 4096 * i)) s

/-- Every rebuild that may go on. -/
def State.rebuildStep (s : State) : State := (s.dev.rgn.slots.map (·.1)).foldl State.rebuildUnit s

/-- A MIRROR_BLOCK is answered: after the last one of the last unit the target is the mirror (R413). -/
def State.copyDone (s : State) (x : Nat) : State :=
  match tget s.dev.rgn.slots x with
  | none => s
  | some r =>
    if r.st ≠ 3 then s else
    let w := r.copyWait - 1
    let s := s.onDev fun d => d.modRegion x fun r => { r with copyWait := w }
    if w ≠ 0 then s
    else if r.copyFront + 1 < r.unitCount then
      (s.onDev fun d => d.modRegion x fun r => { r with copyFront := r.copyFront + 1 }).rebuildUnit x
    else
      let t := r.rebuild.getD 0
      s.onDev fun d => (d.modRegion x fun r => { r with st := 1, partner := t, rebuild := none, copyFront := 0 }).devEvent 0x0403 r.id t

/-- The answer of a rebuild target to its creation. -/
def State.rebuildAnswer (s : State) (k : Nat) (j : Job) (a : Ans) : State :=
  let x := j.x.object / 64
  let s := s.onDev fun d => { d with fab := { d.fab with jobs := tdel d.fab.jobs k } }
  if a.status = stOk then
    (s.onDev fun d => d.modRegion x fun r =>
      if r.st = 2 then { r with st := 3, rebuild := some j.dev, copyFront := 0, copyWait := 0 } else r).rebuildUnit x
  else s.onDev fun d => d.devEvent 0x0404 j.x.object (if a.status = stPresent then 2 else if a.status = stQuota then 3 else 1)

/-- A durable region loses its other half (R412): it goes on alone, DEGRADED, and a rebuild is sought. -/
def Dev.degrade (d : Dev) (x lost : Nat) : Dev :=
  match tget d.rgn.slots x with
  | none => d
  | some r =>
    if !r.durable ∨ r.st = 4 ∨ r.st = 5 then d
    else if r.rebuild = some lost then
      (d.modRegion x fun r => { r with st := 2, rebuild := none, copyFront := 0, copyWait := 0 })
    else if r.partner ≠ lost ∨ r.st ≠ 1 then d
    else
      let d := if r.mirror then d.count .failovers 0 else d
      let d := (d.modRegion x fun r => { r with st := 2, mirror := false }).devEvent 0x0402 r.id lost
      d.askRebuild x d.spare

/-! ### REGION_GRANT (R389) -/

/-- The status of a region that a home operation names: absent, torn down, or being destroyed. -/
def Region.live (r : Region) : Option Nat := if r.st = 4 then some stTorn else if r.st = 5 then some stRevoked else none

/-- Only patron 0 of the home administers a region whose owner was lost (R391). -/
def Dev.mayAdmin (d : Dev) (r : Region) (j : Job) : Bool := !r.orphan || (j.dev == d.devNo && j.x.patron == 0)

/-- REGION_GRANT at the home. -/
def State.homeGrant (s : State) (k : Nat) (j : Job) : State :=
  let x := j.x
  let slot := x.object / 64
  match s.dev.regionOf (regionAddr x.object) with
  | none => s.endJob k { status := stNotFound }
  | some r =>
    let dev := x.fld 0 0 6
    let p := x.fld 1 0 6
    let rights := x.fld 2 0 4
    let first := x.fld 4 0 32
    let n := x.fld 8 0 32
    let at_ := r.grants.findIdx? fun g => g.dev == dev && g.patron == p && !g.revoking
    match r.live with
    | some st => s.endJob k { status := st }
    | none =>
      if !s.dev.mayAdmin r j then s.endJob k (.bad 0x06 0)
      else if r.kind = 0 then s.endJob k (.bad 0x05 4)
      else if r.isOwner dev p then s.endJob k (.bad 0x05 (bodyOff 1))
      else if r.kind = 2 ∧ rights ≠ 1 then s.endJob k (.bad 0x05 (bodyOff 2))
      else if r.unitCount ≤ first then s.endJob k (.bad 0x05 (bodyOff 4))
      else if r.unitCount < first + n then s.endJob k (.bad 0x05 (bodyOff 8))
      else if at_.isNone ∧ (64 ≤ r.grants.length ∨ 65536 ≤ s.dev.rangeEntries) then s.endJob k { status := stQuota }
      else if at_.isNone ∧ dev = s.dev.devNo ∧ 16384 ≤ s.dev.rgn.maps.length then s.endJob k { status := stQuota }
      else
        let g : Grant := { dev := dev, patron := p, rights := rights, first := first, count := n }
        let i := at_.getD r.grants.length
        let d := s.dev.modRegion slot fun r => { r with grants := if at_.isSome then r.grants.set i g else r.grants ++ [g] }
        let (w, d) := d.mapNotice r dev p rights first n (some k)
        { s with dev := (d.modJob k fun j => { j with ans := { r0 := i }, wait := if w then 1 else 0 }).settleJob k }

/-! ### PUBLISH (R397–R399) -/

/-- PUBLISH at the home: the version line changes when the expected version matches. -/
def State.homePublish (s : State) (k : Nat) (j : Job) : State :=
  let x := j.x
  let slot := x.object / 64
  let addr := regionAddr x.object + versionOff
  let refuse := fun (st : Nat) => (s.onDev fun d => d.countRefusal { source := j.dev + 64 * x.patron, addr := addr } st).endJob k { status := st }
  match s.dev.regionOf addr with
  | none => refuse stNotFound
  | some r =>
    if r.mirror ∧ !s.dev.isDead r.partner then s.onDev fun d => d.holdReq { port := 0, code := 0x50, m := {}, why := 1, job := some k }
    else match r.live with
    | some st => refuse st
    | none =>
      if r.revoked j.dev x.patron ∨ (s.dev.reg regRgnCtrl 0 0 0 = 1 ∧ !r.grants_ j.dev x.patron 3 none) then refuse stRevoked
      else if x.fld 0 0 64 ≠ r.version then s.endJob k { status := stConflict, r0 := r.version }
      else
        let v := r.version + 1
        let line := (addr % 2 ^ 50) / 64
        let d := s.dev.modRegion slot fun r => { r with version := v, versionTick := s.dev.tim.count }
        let h := d.heldLine line
        let (held, d) := d.dirUpdate line d.devNo (r.kind == 2)
        let m : Msg := { source := d.srcOf x.patron 2, addr := addr }
        let (t, d) := d.mirrorWrite slot 0x08 (addr % 2 ^ 50) m (leBytes 8 v ++ leBytes 8 d.tim.count ++ List.replicate 48 0)
        let d := d.modJob k fun j => { j with ans := { r0 := v }, wait := 1 }
        let rsp : HeldRsp := { dest := d.devNo, code := 0x29, m := d.rsp m stOk [], job := some k, source := m.source, region := r.id, lines := if held then [h] else [], mirror := t }
        { s with dev := ({ d with fab := { d.fab with heldRsp := d.fab.heldRsp ++ [rsp] } }).flushHeld }

/-- A write of the patron to the region that has no DONE yet: PUBLISH waits for it (R398 step 1). -/
def Dev.writesOpen (d : Dev) (p id : Nat) : Bool :=
  d.fab.outst.any (fun o => o.region == id && o.patron == p && [0x08, 0x09, 0x0A, 0x10].contains o.code)
    || d.fab.jobs.any (fun e => e.2.x.patron == p && e.2.dev == d.devNo && (e.2.q.isSome || 0x100 ≤ e.2.op)
      && ((([0x30, 0x31, 0x33].contains e.2.op) && addrRegion (nearDst e.2.x) == id && !hostDst e.2.x)
        || ((e.2.op == 0x101 || e.2.op == 0x102) && addrRegion e.2.at_ == id)))
    || d.fab.comb.any (fun e => e.2.patron == p && e.2.region == id)

/-! ### REVOKE and REGION_DESTROY (R390, R400–R402) -/

/-- Devices that count as having answered a removal: dead ones, and those of another wing (R402). -/
def Dev.answersRemoval (d : Dev) (dev : Nat) : Bool := dev / 16 == d.wing && !d.isDead dev && dev != d.devNo

/-- A near-memory job of a requester that this home executes on a region. -/
def Job.nearOn (j : Job) (id : Nat) (hit : Nat → Nat → Bool) : Bool :=
  decide (0x30 ≤ j.op) && decide (j.op ≤ 0x33) && !hostSrc j.x && !hostDst j.x && hit j.dev j.x.patron
    && (nearReads j.op j.x ++ nearWrites j.op j.x).any fun a => addrRegion a.1 == id

/-- The requester that a held response answers: of its job, or of its message. -/
def Dev.rspOf (d : Dev) (h : HeldRsp) (hit : Nat → Nat → Bool) : Bool :=
  match h.job.bind (tget d.fab.jobs) with
  | some j => hit j.dev j.x.patron
  | none => hit (srcDev h.source) (srcPatron h.source)

/-- Set a revoke point (R401): grants revoking, notices sent, requests that wait for their unit refused, the others that the
home has accepted marked as admitted: they complete under the ordinary rules. -/
def State.revokePoint (s : State) (k x : Nat) (target : Option (Nat × Nat)) (destroy : Bool) : State :=
  -- requests that wait in a window are admitted before the point, and complete
  let s := s.closeHome fun c => slotOf (64 * c.line) == x
  match tget s.dev.rgn.slots x with
  | none => s
  | some r =>
    let hit := fun (dev p : Nat) => match target with
      | some (a, b) => dev == a && p == b
      | none => destroy || !(r.isOwner dev p)
    let gs := r.grants.filter fun g => hit g.dev g.patron
    let who := gs.map (fun g => (g.dev, g.patron)) ++ (if destroy then [(r.ownerDev, r.ownerPatron)] else [])
    let d := s.dev.modRegion x fun r => { r with
      grants := r.grants.map fun g => if hit g.dev g.patron then { g with revoking := true } else g
      revoke := some k, target := target, destroy := destroy, st := if destroy then 5 else r.st, admitted := 0, refused := 0
      noticeDue := (who.map (·.1)).filter fun v => s.dev.answersRemoval v }
    let d := who.foldl (fun d w => (d.mapNotice r w.1 w.2 0 0 0 none).2) d
    let mine := fun (m : Msg) => addrRegion m.addr == r.id && hit (srcDev m.source) (srcPatron m.source)
    let near := fun (h : HeldReq) => match h.job.bind (tget d.fab.jobs) with
      | some j => j.nearOn r.id hit
      | none => false
    let my := fun (h : HeldReq) => if h.code = 0x50 then near h else h.why != 5 && mine h.m
    let gone := d.fab.held.filter fun h => h.why == 0 && my h
    let kept := d.fab.held.filter fun h => !(h.why == 0 && my h)
    let ends := gone.filterMap fun h => if h.code = 0x50 then h.job else none
    let run := (d.fab.jobs.filter fun e => e.2.nearOn r.id hit && (d.regionOf (nearDst e.2.x)).isSome && !ends.contains e.1).map (·.1)
    let loads := (d.fab.dir.flatMap fun e => e.2.flatMap fun y => y.loads).filter fun l => mine l.m
    let rsps := d.fab.heldRsp.filter fun h => !h.lines.isEmpty && h.region == r.id && d.rspOf h hit
      && match h.job with
        | some k => !run.contains k
        | none => true
    let n := (kept.filter fun h => h.code != 0x50 && my h).length + loads.length + run.length + rsps.length
    let pass := fun (l : HeldReq) => if mine l.m then { l with pass := true } else l
    let held := kept.map fun h => if my h then { h with pass := true } else h
    let jobs := tmap d.fab.jobs fun k j => if run.contains k then { j with pass := true } else j
    let dir := tmap d.fab.dir fun _ es => es.map fun y => { y with loads := y.loads.map pass }
    let d := { d with fab := { d.fab with held := held, jobs := jobs, dir := dir } }
    let d := d.modRegion x fun r => { r with admitted := n }
    let d := (gone.filter fun h => h.code != 0x50).foldl (fun d h => (d.countRefusal h.m stRevoked).answer h.code h.m h.job stRevoked) d
    ends.foldl (fun s k => match tget s.dev.fab.jobs k with
      | some j => (s.onDev fun d => d.countRefusal { source := j.dev + 64 * j.x.patron, addr := regionAddr r.id } stRevoked).endJob k { status := stRevoked }
      | none => s) { s with dev := d }

/-- REVOKE at the home; one that finds a revocation in progress waits for its end. -/
def State.homeRevoke (s : State) (k : Nat) (j : Job) : State :=
  let x := j.x
  let slot := x.object / 64
  match s.dev.regionOf (regionAddr x.object) with
  | none => s.endJob k { status := stNotFound }
  | some r =>
    let all := x.fld 2 0 1 == 1
    let dev := x.fld 0 0 6
    let p := x.fld 1 0 6
    let home0 := j.dev == s.dev.devNo && j.x.patron == 0
    if !(home0 || (r.isOwner j.dev x.patron && !r.orphan)) then s.endJob k (.bad 0x06 0)
    else match r.live with
    | some st => s.endJob k { status := st }
    | none =>
      if !all ∧ r.isOwner dev p then s.endJob k (.bad 0x05 (bodyOff 0))
      else if !all ∧ !r.grants.any (fun g => g.dev == dev && g.patron == p && !g.revoking) then s.endJob k { status := stNotFound }
      else if r.revoke.isSome then s.onDev fun d => d.modRegion slot fun r => { r with revokeNext := r.revokeNext ++ [k] }
      else
        let s := s.onDev fun d => d.modJob k fun j => { j with wait := 1 }
        s.revokePoint k slot (if all then none else some (dev, p)) false

/-- REGION_DESTROY at the home. -/
def State.homeDestroy (s : State) (k : Nat) (j : Job) : State :=
  let slot := j.x.object / 64
  match s.dev.regionOf (regionAddr j.x.object) with
  | none => s.endJob k { status := stNotFound }
  | some r =>
    if !s.dev.mayAdmin r j then s.endJob k (.bad 0x06 0)
    else if r.id % 64 ≠ s.dev.devNo ∧ j.dev = r.partner then
      -- the mirror's copy goes at the word of its primary
      (s.freeRegion slot).endJob k {}
    else if r.st = 5 then s.endJob k { status := stRevoked }
    else if r.revoke.isSome then s.onDev fun d => d.modRegion slot fun r => { r with revokeNext := r.revokeNext ++ [k] }
    else
      let s := s.onDev fun d => d.modJob k fun j => { j with wait := 1 }
      s.revokePoint k slot none true

/-- Requests of the revoked requesters that the home has admitted and not yet applied or refused. -/
def Dev.drainOpen (d : Dev) (r : Region) : Bool :=
  let mine := fun (m : Msg) => addrRegion m.addr == r.id && r.revoked (srcDev m.source) (srcPatron m.source)
  let job := fun (j : Job) => j.pass && j.nearOn r.id r.revoked
  !r.noticeDue.isEmpty
    || d.fab.held.any (fun h => if h.code = 0x50 then (match h.job.bind (tget d.fab.jobs) with
        | some j => job j
        | none => false) else h.why != 5 && mine h.m)
    || d.fab.jobs.any (fun e => e.2.fetching && job e.2)
    || d.fab.heldRsp.any (fun h => !h.lines.isEmpty && h.region == r.id && d.rspOf h r.revoked)
    || d.fab.dir.any fun e => e.2.any fun y => y.loads.any fun l => mine l.m

/-- Take up the revocation that waited. -/
def State.nextRevoke (s : State) (x : Nat) : State :=
  match tget s.dev.rgn.slots x with
  | none => s
  | some r => match r.revokeNext with
    | [] => s
    | k :: ks =>
      let s := s.onDev fun d => d.modRegion x fun r => { r with revokeNext := ks }
      match tget s.dev.fab.jobs k with
      | none => s
      | some j => if j.op = 0x35 then s.homeRevoke k j else s.homeDestroy k j

/-- The drain of a revocation ends (R402): the grants go, the REVOKE or REGION_DESTROY completes. -/
def State.drainEnd (s : State) (id : Nat) : State :=
  let x := id / 64
  match s.dev.regionOf (regionAddr id) with
  | none => s
  | some r => match r.revoke with
    | none => s
    | some k =>
      if s.dev.drainOpen r then s else
      let a : Ans := { r0 := r.admitted % 2 ^ 32 + 2 ^ 32 * (r.refused % 2 ^ 32) }
      if r.destroy then
        -- those that waited name a region that is gone
        let s := r.revokeNext.foldl (fun s n => s.endJob n { status := stNotFound }) s
        let s := if r.durable ∧ r.st ≠ 2 ∧ !s.dev.isDead r.partner then
            s.onDev fun d =>
              let b := leBytes 2 d.devNo ++ leBytes 1 0x88 ++ List.replicate 13 0 ++ List.replicate 48 0
              (d.sendReq r.partner 0x50 { source := d.srcOf 0 1, addr := regionAddr id, slots := b } id none).2 else s
        (s.freeRegion x).endJob k {}
      else
        let s := s.onDev fun d => d.modRegion x fun r => { r with
          grants := r.grants.filter (!·.revoking), revoke := none, target := none }
        (s.endJob k a).nextRevoke x

/-- A home learns that requesters of a device are lost (R391): their grants go, their regions are orphaned. `none`: every
patron of it. -/
def Dev.grantsLost (d : Dev) (dev : Nat) (p : Option Nat) : Dev :=
  let hit := fun (a b : Nat) => a == dev && match p with
    | some x => b == x
    | none => true
  let lost := (d.rgn.slots.map fun e => (e.2.grants.filter fun g => hit g.dev g.patron).map (·.patron)).flatten
  let slots := tmap d.rgn.slots fun _ r => { r with
    grants := r.grants.filter fun g => !hit g.dev g.patron, orphan := r.orphan || hit r.ownerDev r.ownerPatron }
  let d := { d with rgn := { d.rgn with slots := slots } }
  match p with
  | some x => if lost.isEmpty then d else d.devEvent 0x0406 (dev + 256 * x) lost.length
  | none => (List.range 64).foldl (fun d x =>
      let n := (lost.filter (· == x)).length
      if n = 0 then d else d.devEvent 0x0406 (dev + 256 * x) n) d

/-! ### Persistence (R408) -/

/-- Hand the sectors changed in the tick to the flash controller: in its close phase. -/
def Dev.handSectors (d : Dev) : Dev :=
  let hs := d.rgn.units.flatMap fun e => (sortBy (fun a b => decide (a < b)) e.2.changed).map fun x => (e.1, x, d.tim.count)
  { d with rgn := { d.rgn with handed := d.rgn.handed ++ hs, units := tmap d.rgn.units fun _ u => { u with changed := [] } } }

/-- A unit is fine-mapped already, or may become so: the sectors of fine-mapped units stay within the raw capacity divided by
STK_FINE_LIMIT (R296). -/
def Dev.fineRoom (d : Dev) (v u : Nat) : Bool :=
  let old := match (d.vol? v).bind fun x => tget x.units u with
    | some y => y.fine
    | none => false
  let n := (d.stk.volumes.map fun e => (e.2.units.filter fun y => y.2.fine).length).sum
  let lim := d.reg regStkFineLimit
  old || decide (lim ≠ 0) && decide ((n + 1) * 65536 ≤ d.stk.rawGiB * 2 ^ 30 / lim)

/-- Bytes that a handed sector takes of the stacks: its own while the unit is or may be fine-mapped, else the whole unit's (R296). -/
def Dev.sectorBytes (d : Dev) (h : Nat × Nat × Nat) : Nat :=
  match tget d.rgn.slots (h.1 / 2 ^ 17) with
  | some r => if d.fineRoom r.volume (flashUnit (h.1 / 2 ^ 17) (h.1 % 2 ^ 17) + h.2.1 / 16) then 4096 else 65536
  | none => 0

/-- The volume that a handed sector goes to is write-protected (R324). -/
def Dev.sectorBarred (d : Dev) (h : Nat × Nat × Nat) : Bool :=
  (((tget d.rgn.slots (h.1 / 2 ^ 17)).bind fun r => d.vol? r.volume).map (·.protected_)).getD false

/-- Accept one handed sector into staging (R299, R408), on the stream of sector writes or of whole units (R301). -/
def State.acceptSector (s : State) (h : Nat × Nat × Nat) : State :=
  let (k, sec, _) := h
  match tget s.dev.rgn.slots (k / 2 ^ 17) with
  | none => s
  | some r =>
    let off := k / 2 ^ 17 * windowBytes + k % 2 ^ 17 * unitBytes + 4096 * sec
    let u := flashUnit (k / 2 ^ 17) (k % 2 ^ 17) + sec / 16
    let bad := (List.range 64).any fun i => s.dev.linePoisoned (off / 64 + i)
    let old := ((s.dev.vol? r.volume).bind fun v => tget v.units u).bind fun y => (tget y.sectors (sec % 16)).map fun f =>
      if f.place.isNone && (y.staged || y.fine) then f.prev else f.data
    let data : FSector := { data := memRead s.mem off 4096, prev := old.getD [], key := s.dev.unitPatron r, epoch := tgetD s.dev.sec.gens (s.dev.unitPatron r) 0 % 256, bad := bad }
    let n := s.dev.sectorBytes h
    let d := s.dev.modVol r.volume fun v => { v with balance := v.balance - n }
    let d := if n = 4096 then d.acceptFine r.volume u (sec % 16) data
      else d.acceptUnit r.volume u n 1 fun y => { y with sectors := tset y.sectors (sec % 16) { data with seq := y.seq } }
    let d := { d with stk := { d.stk with prior := tdel d.stk.prior (512 * k + sec) } }.count .persistSec 0
    let hs := d.fab.heldRsp.map fun x => { x with accept := x.accept.filter (· != h) }
    { s with dev := ({ d with fab := { d.fab with heldRsp := hs } }).flushHeld }

/-- Accept handed sectors in order while there is room; those of a write-protected volume stay (R324). -/
def State.acceptSectors (s : State) : List (Nat × Nat × Nat) → List (Nat × Nat × Nat) → State
  | [], kept => s.onDev fun d => { d with rgn := { d.rgn with handed := kept } }
  | h :: t, kept =>
    if s.dev.sectorBarred h then s.acceptSectors t (kept ++ [h])
    else if !s.dev.stacksOn ∨ s.dev.acceptRoom < s.dev.sectorBytes h then
      s.onDev fun d => { d with rgn := { d.rgn with handed := kept ++ h :: t } }
    else (s.acceptSector h).acceptSectors t kept

/-! ### The mirror (R411, R413) -/

/-- A MIRROR_WRITE in sequence: its line is written, the record kept, DONE sent after acceptance. -/
def State.mirrorApply (s : State) (m : Msg) (r : Region) : State :=
  let x := slotOf m.addr
  let off := m.addr % 2 ^ 50
  let code := fieldOf m.slots 12 1
  let orig : Msg := { source := fieldOf m.slots 8 2, tag := fieldOf m.slots 10 2, arg := m.arg, addr := m.addr }
  let body := m.slots.drop 16
  let s := s.onDev fun d => d.modRegion x fun r => { r with mirrorSeq := fieldOf m.slots 0 8 }
  let s :=
    if off % windowBytes / 64 * 64 = versionOff then
      s.onDev fun d => d.modRegion x fun r => { r with version := fieldOf body 0 8, versionTick := fieldOf body 8 8 }
    else if code = 0x10 then
      -- the message carries the old value alone: the new one is free (assumption 23)
      let n := atomicWidth m.arg
      let (b, d) := s.dev.drawBytes n
      let at_ := off % 64
      ({ s with dev := d }.putLine r off ((2 ^ n - 1) * 2 ^ at_) (List.replicate at_ 0 ++ b ++ List.replicate (64 - at_ - n) 0) d.devNo false).2
    else (s.putLine r (off / 64 * 64) (2 ^ 64 - 1) (body.take 64) s.dev.devNo m.poison).2
  let d := s.dev.record code orig (if code = 0x10 then fieldOf body 0 16 else 0)
  let acc := if off % windowBytes / 64 * 64 = versionOff then [] else d.acceptOf r off
  let h : HeldRsp := { dest := srcDev m.source, code := 0x29, m := d.rsp m stOk [], accept := acc }
  { s with dev := ({ d with fab := { d.fab with heldRsp := d.fab.heldRsp ++ [h] } }).flushHeld }

/-- A MIRROR_WRITE arrives: applied in MIRROR_SEQ order, held when early, answered again when late. -/
def State.mirrorWriteIn (s : State) (port : Nat) (m : Msg) : State :=
  match s.dev.regionOf m.addr with
  | none => s.onDev fun d => d.put (srcDev m.source) 0x29 (d.rsp m stNotFound [])
  | some r =>
    let q := fieldOf m.slots 0 8
    if q ≤ r.mirrorSeq then s.onDev fun d => d.put (srcDev m.source) 0x29 (d.rsp m stOk [])
    else if q ≠ r.mirrorSeq + 1 ∧ r.st ≠ 3 then s.onDev fun d => d.holdReq { port := port, code := 0x58, m := m, why := 4 }
    else
      let s := s.mirrorApply m r
      -- those that came early follow in order
      let early := sortBy (fun a b : HeldReq => decide (fieldOf a.m.slots 0 8 < fieldOf b.m.slots 0 8))
        (s.dev.fab.held.filter fun h => h.why == 4 && addrRegion h.m.addr == r.id)
      early.foldl (fun s h =>
        match s.dev.regionOf h.m.addr with
        | some r => if fieldOf h.m.slots 0 8 = r.mirrorSeq + 1 then
            (s.onDev fun d => { d with fab := { d.fab with held := d.fab.held.erase h } }).mirrorApply h.m r else s
        | none => s) s

/-- A MIRROR_BLOCK arrives at a rebuild target (R413). -/
def State.mirrorBlockIn (s : State) (m : Msg) : State :=
  match s.dev.regionOf m.addr with
  | none => s.onDev fun d => d.put (srcDev m.source) 0x29 (d.rsp m stNotFound [])
  | some r =>
    let x := slotOf m.addr
    let off := m.addr % 2 ^ 50 / 64 * 64
    let n := m.arg + 1
    let body := m.slots.drop 16
    let s := (List.range n).foldl (fun s i =>
      (s.putLine r (off + 64 * i) (2 ^ 64 - 1) ((body.drop (64 * i)).take 64) s.dev.devNo m.poison).2) s
    let d := (s.dev.count .rebuildBytes 0 (64 * n)).modRegion x fun r => { r with mirrorSeq := max r.mirrorSeq (fieldOf m.slots 0 8) }
    let last := decide (off % windowBytes + 64 * n = r.size)
    let d := if last ∧ r.st = 3 then (d.modRegion x fun r => { r with st := 1 }).devEvent 0x0403 r.id d.devNo else d
    let acc := (List.range n).flatMap fun i => d.acceptOf r (off + 64 * i)
    let h : HeldRsp := { dest := srcDev m.source, code := 0x29, m := d.rsp m stOk [], accept := acc }
    { s with dev := ({ d with fab := { d.fab with heldRsp := d.fab.heldRsp ++ [h] } }).flushHeld }

/-! ### Region descriptors at the issuer and the home (R416) -/

/-- A home executes a region operation or near-memory operation as a job. HINT is served by its own operation, passed in. -/
def State.homeRegionOp (s : State) (hint : State → Nat → Job → State) (k : Nat) : State :=
  match tget s.dev.fab.jobs k with
  | none => s
  | some j =>
    if 0x30 ≤ j.op ∧ j.op ≤ 0x33 then s.startNear k
    else if j.op = 0x34 then s.homePublish k j
    else if j.op = 0x35 then s.homeRevoke k j
    else if j.op = 0x86 then s.homeCreate k j
    else if j.op = 0x87 then s.homeGrant k j
    else if j.op = 0x88 then s.homeDestroy k j
    else if j.op = 0x20 ∨ j.op = 0x84 then hint s k j
    else s.endJob k (.bad 0x01 0)

/-- A region descriptor executes at its issuer: at home here, or carried to it. -/
def State.opRegion (s : State) (hint : State → Nat → Job → State) (q : Req) (id : Nat) : State :=
  let t := s.dev.servesRegion id
  if t = s.dev.devNo then
    let (k, d) := s.dev.newJob { q := some q, op := q.op, x := { q.d with object := id }, dev := s.dev.devNo }
    ({ s with dev := d }).homeRegionOp hint k
  else if s.dev.isDead t ∨ !s.dev.inPool t then s.onDev fun d => d.finishReq q { status := d.deadStatus id false }
  else s.onDev fun d => d.sendRegion q t id

/-- A REGION_REQUEST arrives (R416). -/
def State.regionRequestIn (s : State) (hint : State → Nat → Job → State) (m : Msg) : State :=
  let dev := srcDev m.source
  if s.dev.fab.jobs.any fun e => e.2.asker == some (dev, m.tag) then s else
  let req := fieldOf m.slots 0 2
  let op := fieldOf m.slots 2 1
  let x : DescIn := { patron := srcPatron req, object := addrRegion m.addr, body := m.slots.drop 16 }
  let (k, d) := s.dev.newJob { asker := some (dev, m.tag), op := op, x := x, dev := srcDev req }
  if !d.regionOpen then { s with dev := d.holdReq { port := 0, code := 0x50, m := m, why := 6, job := some k } }
  else ({ s with dev := d }).homeRegionOp hint k

/-- A REGION_DONE arrives: the request it answers goes on (R416). -/
def State.regionDoneIn (s : State) (m : Msg) : State :=
  match s.dev.takeOutst m.tag with
  | none => s
  | some (o, d) =>
    let d := d.chargeBkt (bktFab o.patron) (slotCount m)
    let s := { s with dev := d }
    let a : Ans := { status := m.arg, cause := fieldOf m.slots 15 1, r0 := fieldOf m.slots 0 8, r1 := fieldOf m.slots 8 7 }
    match o.job.bind fun k => (tget s.dev.fab.jobs k).map fun j => (k, j) with
    | none => s
    | some (k, j) =>
      if j.op = 0x200 then s.rebuildAnswer k j a
      else if j.op = 0x86 ∧ j.fetching then
        -- the mirror's answer to a creation
        if a.status = stOk then s.onDev fun d => d.createMap k (j.x.object / 64)
        else (s.freeRegion (j.x.object / 64)).endJob k { a with cause := a.cause }
      else (s.onDev fun d => d.modJob k fun j => { j with load := some (m.load, m.backoff) }).endJob k a

end Sys2Proof.Machine
end

