-- ==== Sys2Proof/Machine/Fabric.lean ====
section
/-! DEFINITION. The Chaig rows: ports and link layer, home requests and their answers, dead devices and their return, management messages (R341 to R382, R391 to R394, R410 to R415). -/

namespace Sys2Proof.Machine

/-! ### Whether the fabric works, and well-formed messages (R351, R394) -/

/-- The router serves: enabled, and not stopped by a device fault, a reset, archive sleep or a failing supply. -/
def Dev.fabOn (d : Dev) : Bool :=
  d.reg regChgCtrl 0 0 0 == 1 && !d.flt.deviceFault && !d.pwr.pwrFail && d.pwr.sleep != 2
    && !(d.boot.st == .off || d.boot.st == .resetting || d.boot.st == .tamperHold || d.boot.st == .bootFailed || d.boot.st == .recovery)

/-- STATUS values of a response: those of R353, and those that the region rules name (R384, R387, R408, R416). -/
def statusOk (code status : Nat) : Bool :=
  if code = 0x51 then decide (status ≤ stPatFault)
  else [stOk, stPoison, stRevoked, stDead, stTorn, stConflict, stNotFound, stQuota, stMedia].contains status

/-- ADDR is zero where an opcode does not use it (R350). -/
def addrUsed (code : Nat) : Bool := !([0x18, 0x28, 0x29, 0x2A, 0x30, 0x31, 0x38, 0x39, 0x3A, 0x51].contains code)

/-- Slots after the header that an opcode takes, and its virtual channels (R351, R416); `none`: unassigned. -/
def msgShape (code arg : Nat) (slots : List Byte) : Option (List Nat × Bool) :=
  let n := slots.length / 16
  match code with
  | 0x01 => some ([0, 4], n == 0)
  | 0x03 => some ([0, 4], n == 0 && decide (arg < 64))
  | 0x08 => some ([0, 4], n == 4)
  | 0x09 => some ([0, 4], n == 5 && fieldOf slots 8 8 == 0)
  | 0x0A => some ([0, 4], decide (arg < 64) && n == 4 * (arg + 1))
  | 0x10 => some ([0, 4], atomicWidth arg != 0 && n == if atomicWidth arg = 16 then 2 else 1)
  | 0x18 => some ([0], n == 1 && fieldOf slots 2 6 == 0)
  | 0x20 => some ([2], n == 0)
  | 0x21 => some ([2], n == 0)
  | 0x28 => some ([1], n % 4 == 0 && decide (4 ≤ n))
  | 0x29 => some ([1], n == 0)
  | 0x2A => some ([1], n == 1)
  | 0x30 => some ([3], decide (2 ≤ n) && bits (fieldOf slots 0 1) 6 2 == 0 && decide (fieldOf slots 1 1 < 4)
      && decide (1 ≤ fieldOf slots 2 2) && decide (fieldOf slots 2 2 ≤ 2048) && n == 1 + ceilDiv (fieldOf slots 2 2) 16)
  | 0x31 => some ([3], n == 2 && bits (fieldOf slots 0 1) 6 2 == 0 && fieldOf slots 2 2 == 0 && decide (fieldOf slots 1 1 < 4))
  | 0x38 => some ([5], n == 1 && bits (fieldOf slots 6 1) 3 5 == 0 && fieldOf slots 7 1 == 0)
  | 0x39 => some ([5], n == 2 && fieldOf slots 28 4 == 0)
  | 0x3A => some ([5], n == 1 && fieldOf slots 2 2 == 0 && fieldOf slots 10 6 == 0)
  | 0x40 => some ([4], n == 0)
  | 0x41 => some ([4], n == 4)
  | 0x50 => some ([0, 4], decide (1 ≤ n))
  | 0x51 => some ([1], n == 1)
  | 0x52 => some ([0], n == 1)
  | 0x58 => some ([0], n == 5 || n == 2)
  | 0x59 => some ([0], decide (arg < 64) && n == 1 + 4 * (arg + 1))
  | _ => none

/-- Address alignment of the opcodes that name a line or an operand. -/
def addrAligned (code : Nat) (m : Msg) : Bool :=
  if [0x01, 0x03, 0x08, 0x09, 0x0A, 0x59].contains code then m.addr % 64 == 0
  else if code = 0x10 then m.addr % (max 1 (atomicWidth m.arg)) == 0 else true

/-- A response opcode: LOAD_INDEX and BACKOFF mean something there alone (R350). -/
def isResponse (code : Nat) : Bool := [0x28, 0x29, 0x2A, 0x51].contains code

/-- A message is well formed. -/
def msgOk (code : Nat) (m : Msg) : Bool :=
  (match msgShape code m.arg m.slots with
    | some (vcs, ok) => vcs.contains m.vc && ok
    | none => false)
  && addrAligned code m && (addrUsed code || m.addr == 0)
  && (if isResponse code then statusOk code m.arg else m.load == 0 && m.backoff == 0)

/-- The origin of an arriving request passes the identity table (R394); responses and INV_ACK are always accepted (R345). -/
def Dev.originOk (d : Dev) (port code : Nat) (m : Msg) : Bool :=
  let s := srcDev m.source
  if d.reg regRgnCtrl 0 0 0 = 0 ∨ isResponse code ∨ code = 0x21 then true
  else if port < 15 then
    d.partnerOf port == some s || (m.relayed && s / 16 == d.wing && s != d.devNo && !d.portUp (d.meshPort (s % 16)))
  else (code == 0x30 || code == 0x31) && match d.partnerOf port with
    | some x => s == x || (m.relayed && s / 16 == x / 16)
    | none => false

/-- Reject a request's origin: counted, and reported at most once per port and tick (R394). -/
def Dev.rejectOrigin (d : Dev) (port : Nat) (m : Msg) : Dev :=
  let d := d.count .originRej port
  if tgetD d.fab.rejTick port 0 = d.tim.count + 1 then d else
  ({ d with fab := { d.fab with rejTick := tset d.fab.rejTick port (d.tim.count + 1) } }).devEvent 0x0405 port m.source

/-- A message that reaches this device through a port: discarded when the router is off, malformed or of a wrong origin. -/
def State.onMsg (s : State) (port code : Nat) (m : Msg) (f : State → State) : State :=
  if !s.dev.fabOn then s
  else if !msgOk code m then s.onDev fun d => d.count .malformed port
  else if !s.dev.originOk port code m then s.onDev fun d => d.rejectOrigin port m
  else f s

/-! ### Ports (R346, R347, R370) -/

/-- Number of a port state in CHG_PORTk_STATUS. -/
def PortState.code : PortState → Nat
  | .off => 0
  | .training => 1
  | .exchange => 2
  | .up => 3
  | .retraining => 4
  | .failed => 5
  | .miswired => 6

/-- Credits announced at neighbour exchange (R344). -/
def vcCredits : List Nat := [2048, 4096, 512, 1024, 256, 64]

/-- Resend what was sent to a position and is not answered, with RETRY, through the relay or once a route is there (R370). -/
def Dev.resendTo (d : Dev) (j : Nat) : Dev :=
  let dev := 16 * d.wing + j
  let os := d.fab.outst.filter fun o => o.dest == dev && o.sent
  let d := os.foldl (fun d o => d.put dev o.code { o.m with retry := true }) d
  -- invalidations that this position has not acknowledged
  let inv := d.fab.dir.flatMap fun e => (e.2.filter fun y => y.awaited.contains j).map fun y => y.line
  inv.foldl (fun d l =>
    let a := if 2 ^ 44 ≤ l then d.devNo * 2 ^ 50 + (2 ^ 50 - 1) else d.lineAddr l
    d.put dev 0x20 { vc := 2, source := d.devNo, addr := a, retry := true }) d

/-- A link leaves UP: LINK_DOWN, and for a mesh link the relay begins (R347, R370). -/
def Dev.linkDown (d : Dev) (k : Nat) (st : PortState) : Dev :=
  let wasUp := d.portUp k
  let part := (d.port k).partner
  let d := d.modPort k fun p => { p with credits := [] }
  let d := if st = .retraining then d.startTraining k st else d.modPort k fun p => { p with st := st }
  if !wasUp then d else
  let d := d.devEvent 0x0301 (k + 256 * st.code) part { cls := 5 }
  if k < 15 then
    let j := meshPartner d.pos k
    let d := if (d.relayFor j).isSome then { d with fab := { d.fab with relays := d.fab.relays.filter (· != j) ++ [j] } } else d
    d.resendTo j
  else d

/-- The port may train: the fabric and the port are enabled, and its partner exists (R347, R505). -/
def Dev.mayTrain (d : Dev) (k : Nat) : Bool :=
  d.reg regChgCtrl 0 0 0 == 1 && bit (d.reg regChgPortEn) k && (d.partnerOf k).isSome

/-- LANE_LOCK: the key load needs the pool link secret (R480), and keys that were not cleared (R492). -/
def execLaneLock (port lanes : Nat) (s : State) : Host.Outcome State Fault Refusal :=
  .next <| s.onDev fun d =>
    let p := d.port port
    if !(p.st == .training || p.st == .retraining) ∨ !(lanes == 4 || lanes == 2) ∨ d.sec.poolSecret.isNone ∨ d.sec.keysClear then d
    else d.lockLanes port lanes

/-- TRAINING_TIMEOUT. -/
def execTrainingTimeout (port : Nat) (s : State) : Host.Outcome State Fault Refusal :=
  .next <| s.onDev fun d =>
    match (d.port port).st with
    | .training => (d.modPort port fun p => { p with st := .failed }).devEvent 0x0301 (port + 256 * PortState.code .failed)
        ((d.partnerOf port).getD 0) { cls := 5 }
    | .retraining => d.modPort port fun p => { p with st := .failed }
    | _ => d

/-- PORT_RETRY_TIMER. -/
def execPortRetryTimer (port : Nat) (s : State) : Host.Outcome State Fault Refusal :=
  .next <| s.onDev fun d =>
    let st := (d.port port).st
    if (st == .failed || st == .miswired) && d.mayTrain port then d.startTraining port .training else d

/-- A flit fails: discarded, NAKed; after 8 NAKs of one number a link that is UP retrains (R346, R347). -/
def Dev.flitFails (d : Dev) (k : Nat) : Dev :=
  let p := d.port k
  let ack := (p.expect + 4095) % 4096
  let d := ((d.modPort k fun p => { p with skipping := true, naks := p.naks + 1 }).count2 .naksSent k 0 1).emit (.nak k ack)
  if 8 ≤ p.naks + 1 ∧ p.st = .up then ((d.modPort k fun p => { p with naks := 0 }).count .portRetrain k).linkDown k .retraining else d

/-- FLIT_RECEIVE. -/
def execFlitReceive (port : Nat) (f : FlitIn) (s : State) : Host.Outcome State Fault Refusal :=
  .next <| s.onDev fun d =>
    let p := d.port port
    if !(p.st == .up || p.st == .exchange) then d
    else if !f.crcOk then (d.count2 .crcFail port 0 1).flitFails port
    else if !f.tagOk then
      -- tag failures within the last second (R343)
      let recent := (p.tagFails.filter fun t => d.tim.now < t + 10 ^ 9) ++ [d.tim.now]
      let d := (d.modPort port fun p => { p with tagFails := recent }).count2 .tagFail port 0 1
      if 16 ≤ recent.length then
        ((d.devEvent 0x0307 port recent.length { cls := 5 }).modPort port fun p => { p with tagFails := [] }).linkDown port .failed
      else d.flitFails port
    else if f.fseq ≠ p.expect then (if p.skipping then d else d.flitFails port)
    else
      let d := d.modPort port fun p => { p with
        expect := (p.expect + 1) % 4096, ackSent := f.fseq, naks := 0, skipping := false
        credits := if f.creditVc < 6 then p.credits.set f.creditVc (p.credit f.creditVc + f.credits) else p.credits }.acked f.ack |>.owe f.slots
      (d.count2 .flitsAcc port 0 1).flushEgress

/-- NAK_RECEIVE. -/
def execNakReceive (port ack : Nat) (s : State) : Host.Outcome State Fault Refusal :=
  .next <| s.onDev fun d =>
    let p := d.port port
    if p.st ≠ .up then d else
    let n := if p.nakSeen ≠ 0 ∧ p.nakAck = ack then p.nakSeen + 1 else 1
    if 8 ≤ n then ((d.modPort port fun p => { p with nakSeen := 0 }).count .portRetrain port).linkDown port .retraining
    -- a link replay is a corrected fault (R461, R470)
    -- every flit after ACK leaves again, and counts for the nonce (R343)
    else ((d.modPort port fun p =>
      let p := { p with nakAck := ack, nakSeen := n }.acked ack
      { p with flits := p.flits + p.replay }).emit (.resend port ack)).logCorrected (eventBlock 0x0300) {}

/-- LINK_IDLE_TIMEOUT. -/
def execLinkIdleTimeout (port : Nat) (s : State) : Host.Outcome State Fault Refusal :=
  .next <| s.onDev fun d => if d.portUp port then (d.count .portRetrain port).linkDown port .retraining else d

/-! ### Held requests -/

/-- CONFIG_READ: served by firmware (R369); the content of configuration space is a free value (assumption 25). -/
def State.configServe (s : State) (code : Nat) (m : Msg) : State :=
  s.onDev fun d =>
    if code = 0x40 then
      let (b, d) := d.drawBytes 64
      d.put (srcDev m.source) 0x28 (d.rsp m stOk b)
    else d.put (srcDev m.source) 0x29 (d.rsp m stOk [])

/-- A configuration request is served, or waits while firmware restarts. -/
def State.configTry (s : State) (port code : Nat) (m : Msg) : State :=
  if s.dev.sec.restarting then s.onDev fun d => d.holdReq { port := port, code := code, m := m, why := 5 } else s.configServe code m

/-- A configuration request arrives: it waits behind the requests of the ordered channel that wait (R361). -/
def State.configIn (s : State) (port code : Nat) (m : Msg) : State :=
  if !s.dev.ordHeld.isEmpty then s.onDev fun d => d.holdReq { port := port, code := code, m := m, why := 8 } else s.configTry port code m

/-- Serve one request that was held. -/
def State.serveHeld (s : State) (h : HeldReq) (tried : Bool) : State :=
  if h.m.vc = 4 ∧ s.dev.ordBlocked then s.onDev fun d => d.holdReq { h with why := 8 } else
  if h.code = 0x40 ∨ h.code = 0x41 then s.configTry h.port h.code h.m else
  match h.code, h.job with
  | 0x50, some k =>
    match tget s.dev.fab.jobs k with
    | some j => if j.op = 0x34 then s.homePublish k j else if j.op = 0x86 then s.homeCreate k j else s.runNear k
    | none => s
  | _, _ => s.homeServe h.port h.code h.m h.job tried h.pass

/-- Requests of the ordered channel that waited behind others are served, in order, until one of them waits again (R361). -/
def State.serveBehind (s : State) : Nat → State
  | 0 => s
  | n + 1 =>
    if s.dev.ordBlocked then s else
    match s.dev.fab.held.find? (fun h => h.why == 8 && h.m.vc == 4) with
    | none => s
    | some h => ((s.onDev fun d => { d with fab := { d.fab with held := d.fab.held.erase h } }).serveHeld h false).serveBehind n

/-- All of them, as far as they go. -/
def State.serveOrdered (s : State) : State := s.serveBehind s.dev.fab.held.length

/-- Serve the held requests that pass a test, in arrival order. -/
def State.serveWhere (s : State) (f : HeldReq → Bool) (tried : Bool) : State :=
  let hs := s.dev.fab.held.filter f
  let s := s.onDev fun d => { d with fab := { d.fab with held := d.fab.held.filter fun h => !f h } }
  (hs.foldl (fun s h => s.serveHeld h tried) s).serveOrdered

/-- HELD_ACCESS_SERVE: the request at an index of the held ones is served in the tick after its unit landed (R267). -/
def execHeldAccessServe (index : Nat) (s : State) : Host.Outcome State Fault Refusal :=
  .next <|
    match s.dev.fab.held[index]? with
    | none => s
    | some h => match h.why, h.ready with
      | 0, some t =>
        if s.dev.tim.count < t then s else
        (s.onDev fun d => { d with fab := { d.fab with held := d.fab.held.eraseIdx index } }).serveHeld h false |>.serveOrdered
      | _, _ => s

/-! ### Copies lost with their tier (R256, R272) -/

/-- Copies of a tier that pass a test cease: promotions that read them go on from the next source (R264). The spans left
with no copy and not resident, and the device. -/
def Dev.loseCopies (d : Dev) (tier : Nat) (f : CopyRec → Bool) : Nat × Dev :=
  let lost := ((d.tier.copies.filter fun e => e.2.tier == tier && f e.2).map (·.2.span)).eraseDups
  lost.foldl (fun r i =>
    let d := r.2.copyCeases i tier
    let others := (if (tget d.stk.copies i).isSome then [2] else []) ++ (d.tier.copies.filter fun e => e.2.span == i).map (·.2.tier)
    let next := [1, 3, 2].find? others.contains
    let d := match tget d.tier.promos i, next with
      | some p, some t => if p.source = tier then { d with tier := { d.tier with promos := tset d.tier.promos i { p with source := t } } } else d
      | some p, none => if p.source = tier then { d with tier := { d.tier with promos := tdel d.tier.promos i } } else d
      | none, _ => d
    let gone := match d.span? i with
      | some s => next.isNone && s.st == 3 && s.resLayers == 0
      | none => false
    -- a region unit whose only copy is gone is lost: every line of it reads as poisoned (assumption 26)
    let d := if i < 2 ^ 40 then d else d.modUnit (i - 2 ^ 40) fun u =>
      if u.resident then { u with onStacks := false } else { u with onStacks := false, resident := true, poisoned := true, rewritten := [] }
    (r.1 + flag gone, d)) (0, d)

/-- A lending device of the remote tier is lost (R272). -/
def Dev.remoteLost (d : Dev) (dev : Nat) : Dev :=
  let ws := (List.range 4).filter fun r => d.reg regTirRemoter r 0 2 == 1 && addrDev (d.reg regTirRemoter r 0 0) == dev
  if ws.isEmpty then d else
  let (n, d) := d.loseCopies 3 fun c => ws.contains c.window
  ({ d with tier := { d.tier with remoteLost := d.tier.remoteLost ++ ws } }).devEvent 0x0103 dev n

/-! ### Dead devices (R371–R374, R412, R415) -/

/-- Tear a region down on this device (R415). -/
def Dev.tearDown (d : Dev) (id dev : Nat) : Dev :=
  let ps := ((d.rgn.maps.filter fun (m : Mapping) => m.region == id).map (·.patron)).eraseDups
  let d := { d with rgn := { d.rgn with maps := d.rgn.maps.filter fun (m : Mapping) => m.region != id
                                        torn := if d.rgn.torn.contains id then d.rgn.torn else d.rgn.torn ++ [id] } }
  let d := d.devEvent 0x0401 id dev
  let d := (ps.filter (· != 0)).foldl (fun (d : Dev) p => d.ringEvent p 0x0401 (eventBlock 0x0401) id dev) d
  if d.boot.straps.headN then d else
  ((List.range (d.boot.straps.wings + 1)).filter (· != d.wing)).foldl (fun (d : Dev) w =>
    d.sendMessage (16 * w + d.pos) 2 (leBytes 1 0x11 ++ leBytes 1 dev ++ leBytes 2 0 ++ leBytes 4 id ++ List.replicate 24 0)) d

/-- Requests whose completion R372 gives. -/
def r372 (code : Nat) : Bool := [0x01, 0x03, 0x08, 0x09, 0x0A, 0x10, 0x50].contains code

/-- The status of an outstanding request toward a dead device (R372). -/
def Dev.outstStatus (d : Dev) (o : Outst) : Nat :=
  match d.mapOf o.region with
  | some m => if bit m.attrs 2 then stTorn else if o.code = 0x50 then stDead else stPoison
  | none => stDead

/-- Give a status to every access a request stands for. -/
def Dev.failMembers (d : Dev) (o : Outst) (status : Nat) : Dev :=
  let ks := (match o.job with
    | some k => [k]
    | none => []) ++ o.members.map (·.1)
  ks.foldl (fun d k => d.jobPart k 0 o.m.addr { arg := status }) d

/-- A job of this device has all its lines, or has failed: near-memory work runs, a host copy writes its buffer. -/
def State.fetched (s : State) (k : Nat) : State :=
  match tget s.dev.fab.jobs k with
  | none => s
  | some j =>
    if j.wait ≠ 0 ∨ !j.fetching ∨ j.op = 0x86 ∨ j.op = 0x200 then s
    else if j.op = 0x31 ∧ (hostSrc j.x ∨ hostDst j.x) then s.onDev fun d => d.hostCopyOut k
    -- lines of a weight volume: the DELIVER or stream that asked finds them when it runs again
    else if j.op = 0x22 then s.onDev fun d => d.modJob k fun j => { j with fetching := false }
    else if j.ans.status ≠ stOk then
      -- a source line could not be had (R405): the destination is poisoned with it
      let wr := if j.ans.status = stPoison then (nearWrites j.op j.x).map (·.1) else []
      let s := s.onDev fun d => (wr.flatMap (extentLines (nearLen j.x))).foldl (fun d b => d.poisonLine (b % 2 ^ 50 / 64)) d
      s.endJob k j.ans
    else
      -- lines that the mirror gave back are rewritten here (R450)
      let own := j.got.filter fun e => (s.dev.regionOf (64 * e.1)).isSome
      let s := own.foldl (fun s e =>
        let off := 64 * e.1 % 2 ^ 50
        { s with mem := memWrite s.mem off e.2, dev := s.dev.cleanLine (off / 64) }) s
      s.runNear k

/-- One request toward a dead device ends (R372, R402, R411). -/
def State.deadRequest (s : State) (o : Outst) : State :=
  let s := s.onDev fun d => { d with fab := { d.fab with outst := d.fab.outst.filter fun x => x.m.tag != o.m.tag } }
  if o.code = 0x58 then
    s.onDev fun d =>
      let hs := d.fab.heldRsp.map fun h => { h with mirror := h.mirror.filter (· != o.m.tag) }
      ({ d with fab := { d.fab with heldRsp := hs } }).flushHeld
  else if o.code = 0x59 then s
  else if o.code = 0x52 then
    match o.job with
    | some k => s.onDev fun d => d.jobPart k 0x29 o.m.addr {}
    | none => s
  else if o.code = 0x03 ∧ o.job.isNone then
    s.serveWhere (fun h => h.why == 2 && h.m.addr / 64 == o.m.addr / 64) true
  else if o.code = 0x50 then
    match o.job.bind fun k => (tget s.dev.fab.jobs k).map fun j => (k, j) with
    | none => s
    | some (k, j) =>
      if j.op = 0x200 then s.rebuildAnswer k j { status := stDead }
      else if j.op = 0x86 ∧ j.fetching then (s.freeRegion (j.x.object / 64)).endJob k { status := stDead }
      else s.endJob k { status := s.dev.outstStatus o }
  else
    let s := s.onDev fun d => d.failMembers o (d.outstStatus o)
    match o.job with
    | some k => s.fetched k
    | none => s

/-- The mirror that takes a dead primary's requests over, as this device knows it (R412). -/
def Dev.failTo (d : Dev) (id dev : Nat) : Option Nat :=
  match d.mapOf id with
  | some m => if m.attrs % 4 = 3 ∧ id % 64 = dev ∧ !d.isDead m.partner then some m.partner else none
  | none => none

/-- Declare a device of the wing dead (R371–R374): requests completed or moved to the mirror, borrowed lines dropped,
acknowledgements taken as received, records discarded, durable regions failed over, others torn down. -/
def State.declareDead (s : State) (dev : Nat) : State :=
  let d := s.dev
  if dev = d.devNo ∨ dev / 16 ≠ d.wing ∨ d.boot.straps.wingSize < dev % 16 ∨ d.isDead dev then s else
  let d := (d.modPeer dev fun p => { p with dead := true, direct := none, reach := 0, gate := 0 }).count .deadDecl 0
  let d := { d with fab := { d.fab with
    borrow := tkeep d.fab.borrow fun l _ => addrDev (64 * l) != dev
    egress := d.fab.egress.filter fun e => e.1 != dev
    relays := d.fab.relays.filter (· != dev % 16)
    replayA := tkeep d.fab.replayA fun _ r => srcDev r.src != dev
    replayS := tkeep d.fab.replayS fun _ r => srcDev r.src != dev } }
  let d := { d with rgn := { d.rgn with slots := tmap d.rgn.slots fun _ r => { r with noticeDue := r.noticeDue.filter (· != dev) } } }
  let os := d.fab.outst.filter fun o => o.dest == dev
  let moved := os.filter fun o => (d.failTo o.region dev).isSome
  let gone := os.filter fun o => (d.failTo o.region dev).isNone
  let n := (gone.filter fun o => r372 o.code).length
  -- durable regions: every outstanding request goes to the mirror with RETRY and its tag (R412)
  let d := moved.foldl (fun (d : Dev) o =>
    let t := (d.failTo o.region dev).getD dev
    let os := d.fab.outst.map fun x => if x.m.tag = o.m.tag then { x with dest := t, sent := false } else x
    ({ d with fab := { d.fab with outst := os } }).put t o.code { o.m with retry := true }) d
  let torn := ((d.rgn.maps.filter fun m => m.region % 64 == dev && bit m.attrs 2 && (d.failTo m.region dev).isNone).map (·.region)).eraseDups
  let s := gone.foldl State.deadRequest { s with dev := d }
  let s := s.onDev fun d => torn.foldl (fun d id => d.tearDown id dev) d
  -- invalidations that awaited the device
  let ws := s.dev.fab.dir.flatMap fun e => (e.2.filter fun y => y.awaited.contains (dev % 16)).flatMap fun y =>
    (y.awaited.filter (· == dev % 16)).map fun _ => (e.1, y.line)
  let s := ws.foldl (fun s w => s.invAck w.1 w.2 (dev % 16)) s
  -- durable halves held here
  let xs := s.dev.rgn.slots.map (·.1)
  let s := s.onDev fun d => xs.foldl (fun d x => d.degrade x dev) d
  let s := s.serveWhere (fun h => h.why == 1 && (match s.dev.regionOf h.m.addr with
    | some r => !r.mirror
    | none => h.job.isSome)) false
  s.onDev fun d => ((d.devEvent 0x0304 dev n).remoteLost dev).rosterDead dev

/-- DEAD_DECLARATION. -/
def execDeadDeclaration (position : Nat) (s : State) : Host.Outcome State Fault Refusal :=
  .next (if s.dev.fabOn then s.declareDead (16 * s.dev.wing + position) else s)

/-- A device is heard, with its epoch (R369, R375, R391, R410, R414): a new epoch counts as death and return. -/
def State.heardFrom (s : State) (dev epoch : Nat) : State :=
  let old := (s.dev.peer dev).epoch
  let changed := match old with
    | some e => e != epoch
    | none => false
  let s := if changed then s.declareDead dev else s
  let back := (s.dev.peer dev).dead
  let s := s.onDev fun d => d.modPeer dev fun p => { p with dead := false, epoch := some epoch }
  let s := if changed then s.onDev fun d =>
      let d := d.grantsLost dev none
      let d := ((d.rgn.maps.filter fun m => m.region % 64 == dev && m.attrs % 16 / 8 == 0).map fun m => (m.region, m.patron)).foldl
        (fun (d : Dev) m => d.removeMap m.1 m.2) d
      d.rosterBack dev else s
  if back then
    let s := s.onDev fun d => d.devEvent 0x0305 dev epoch
    -- a durable region still DEGRADED is rebuilt into the device that returns (R414)
    s.onDev fun d => (d.rgn.slots.filter fun e => e.2.durable && e.2.st == 2 && !e.2.mirror && e.2.partner == dev).foldl
      (fun (d : Dev) e => d.askRebuild e.1 (some dev)) d
  else s

/-! ### Management messages (R371, R375, R378) -/

/-- REACH: positions heard directly within the last 4 µs. -/
def Dev.reach (d : Dev) : Nat :=
  ((List.range 16).map fun j => match (d.peer (16 * d.wing + j)).direct with
    | some t => if d.tim.now ≤ t + 4000 then 2 ^ j else 0
    | none => 0).sum

/-- Gateway ports up. -/
def Dev.gatesUp (d : Dev) : Nat := ((List.range 3).map fun m => flag (d.portUp (15 + m)) * 2 ^ m).sum

/-- KEEPALIVE_SEND. -/
def execKeepaliveSend (s : State) : Host.Outcome State Fault Refusal :=
  .next <| s.onDev fun d =>
    if !d.fabOn then d else
    let b := leBytes 4 d.fab.epoch ++ leBytes 2 d.reach ++ leBytes 1 d.gatesUp ++ leBytes 1 0 ++ leBytes 8 d.tim.now
    ((List.range 15).filter d.portUp).foldl (fun (d : Dev) k =>
      d.put (16 * d.wing + meshPartner d.pos k) 0x38 { vc := 5, source := d.devNo, slots := b }) d

/-- KEEPALIVE. -/
def execKeepalive (port : Nat) (m : Msg) (s : State) : Host.Outcome State Fault Refusal :=
  .next <| s.onMsg port 0x38 m fun s =>
    let dev := srcDev m.source
    if dev = s.dev.devNo then s else
    let s := s.heardFrom dev (fieldOf m.slots 0 4)
    s.onDev fun d => d.modPeer dev fun p => { p with
      reach := fieldOf m.slots 4 2, gate := fieldOf m.slots 6 1 % 8, heard := d.tim.now
      direct := if m.relayed then p.direct else some d.tim.now }

/-- IDENT: the port goes UP or MISWIRED (R347). -/
def State.identIn (s : State) (port dev epoch : Nat) : State :=
  if (s.dev.port port).st ≠ .exchange then s
  else if s.dev.partnerOf port ≠ some dev then
    s.onDev fun d => (d.modPort port fun p => { p with st := .miswired, partner := dev }).devEvent 0x0303 port dev { cls := 5 }
  else
    let s := s.onDev fun d => (d.modPort port fun p => { p with
      st := .up, partner := dev, credits := vcCredits, owed := [], naks := 0, nakSeen := 0, skipping := false }).devEvent 0x0302
        (port + 256 * (d.port port).lanes) dev
    let s := if port < 15 then s.heardFrom dev epoch else s
    s.onDev fun d => d.settleRelays.flushEgress

/-- IDENT. -/
def execIdent (port : Nat) (m : Msg) (s : State) : Host.Outcome State Fault Refusal :=
  .next (if !s.dev.fabOn then s else if !msgOk 0x3A m then s.onDev fun d => d.count .malformed port
    else (s.onDev fun d => d.modPort port fun p => p.acked (fieldOf m.slots 8 2)).identIn port (fieldOf m.slots 0 1 % 64) (fieldOf m.slots 4 4))

/-! ### Home requests (R351–R368, R455) -/

/-- A home request arrives: relayed on, answered from its record, already under way, or served. -/
def State.request (s : State) (port code : Nat) (m : Msg) : State :=
  let d := s.dev
  let src := srcDev m.source
  let key := m.source * 65536 + m.tag
  if m.relayed && addrDev m.addr != d.devNo && (d.regionOf m.addr).isNone then
    { s with dev := (d.count2 .relayFwd 0 0 1).put (addrDev m.addr) code m }
  else if !d.regionOpen then { s with dev := d.holdReq { port := port, code := code, m := m, why := 6 } }
  else if isUpdate code && m.retry && (d.fab.heldRsp.any (fun h => h.dest == src && h.m.tag == m.tag)
      || d.fab.held.any (fun h => h.code == code && h.m.source == m.source && h.m.tag == m.tag)
      || d.fab.homeComb.any fun c => c.members.any fun x => x.2.2.1.source == m.source && x.2.2.1.tag == m.tag) then s
  else match (if code = 0x10 then tget d.fab.replayA key else if isUpdate code then tget d.fab.replayS key else none) with
  | some r =>
    if (match d.regionOf m.addr with
        | some x => x.mirror && !d.isDead x.partner
        | none => false) then { s with dev := d.holdReq { port := port, code := code, m := m, why := 1 } }
    else
      let b := if code = 0x10 then leBytes 16 r.result else []
      { s with dev := (d.count .retryRec 0).put src (rspCode code) (d.rsp m stOk b) }
  | none =>
    if isUpdate code && m.retry && d.fab.poisonReplay.contains (replayLine code m) then { s with dev := d.answer code m none stPoison }
    else s.homeArrive port code m none

/-- LOAD. -/
def execLoad (port : Nat) (m : Msg) (s : State) : Host.Outcome State Fault Refusal :=
  .next (s.onMsg port 0x01 m fun s => s.request port 0x01 m)
/-- READ_BLOCK. -/
def execReadBlock (port : Nat) (m : Msg) (s : State) : Host.Outcome State Fault Refusal :=
  .next (s.onMsg port 0x03 m fun s => s.request port 0x03 m)
/-- STORE. -/
def execStore (port : Nat) (m : Msg) (s : State) : Host.Outcome State Fault Refusal :=
  .next (s.onMsg port 0x08 m fun s => s.request port 0x08 m)
/-- STORE_PARTIAL. -/
def execStorePartial (port : Nat) (m : Msg) (s : State) : Host.Outcome State Fault Refusal :=
  .next (s.onMsg port 0x09 m fun s => s.request port 0x09 m)
/-- WRITE_BLOCK. -/
def execWriteBlock (port : Nat) (m : Msg) (s : State) : Host.Outcome State Fault Refusal :=
  .next (s.onMsg port 0x0A m fun s => s.request port 0x0A m)
/-- ATOMIC. -/
def execAtomic (port : Nat) (m : Msg) (s : State) : Host.Outcome State Fault Refusal :=
  .next (s.onMsg port 0x10 m fun s => s.request port 0x10 m)

/-- ACK: the named records are freed, and the mirrors of this home's durable regions are told (R368, R411). -/
def execAck (port : Nat) (m : Msg) (s : State) : Host.Outcome State Fault Refusal :=
  .next <| s.onMsg port 0x18 m fun s => s.onDev fun d =>
    let base := fieldOf m.slots 0 2
    let map := fieldOf m.slots 8 8
    let keys := ((List.range 64).filter (bit map)).map fun i => m.source * 65536 + (base + i) % 65536
    let d := { d with fab := { d.fab with
      replayA := keys.foldl tdel d.fab.replayA, replayS := keys.foldl tdel d.fab.replayS } }
    let ts := ((d.rgn.slots.filter fun e => e.2.durable && !e.2.mirror && e.2.st == 1).map (·.2.partner)).eraseDups
    (ts.filter fun t => !d.isDead t).foldl (fun d t => d.put t 0x18 m) d

/-- INVALIDATE: the line, or every line of the home, is dropped and acknowledged (R355, R454). -/
def execInvalidate (port : Nat) (m : Msg) (s : State) : Host.Outcome State Fault Refusal :=
  .next <| s.onMsg port 0x20 m fun s => s.onDev fun d =>
    let all := m.addr % 2 ^ 50 == 2 ^ 50 - 1
    let b := if all then tkeep d.fab.borrow fun l _ => addrDev (64 * l) != addrDev m.addr else tdel d.fab.borrow (m.addr / 64)
    let d := d.staleLoads fun l => if all then addrDev (64 * l) == addrDev m.addr else l == m.addr / 64
    ({ d with fab := { d.fab with borrow := b } }).put (srcDev m.source) 0x21 { vc := 2, tag := m.tag, source := d.devNo, addr := m.addr }

/-- INV_ACK. -/
def execInvAck (port : Nat) (m : Msg) (s : State) : Host.Outcome State Fault Refusal :=
  .next <| s.onMsg port 0x21 m fun s =>
    let pos := srcDev m.source % 16
    if m.addr % 2 ^ 50 = 2 ^ 50 - 1 then
      let ws := s.dev.fab.dir.filterMap fun e =>
        (e.2.find? fun y => decide (2 ^ 44 ≤ y.line) && y.awaited.contains pos).map fun y => (e.1, y.line)
      (ws.foldl (fun s w => s.invAck w.1 w.2 pos) s).serveOrdered
    else
      let line := m.addr % 2 ^ 50 / 64
      (s.invAck (dirSet line) line pos).serveOrdered

/-! ### Responses (R354, R363–R368, R396) -/

/-- Free the record of an update at its home (R368). -/
def Dev.sendAck (d : Dev) (dest : Nat) (m : Msg) : Dev :=
  d.put dest 0x18 { source := m.source, slots := leBytes 2 m.tag ++ List.replicate 6 0 ++ leBytes 8 1 }

/-- A response charges its patron's fabric shaper and closes its request. -/
def Dev.respond (d : Dev) (m : Msg) : Option (Outst × Dev) :=
  (d.takeOutst m.tag).map fun r => (r.1, (r.2.chargeBkt (bktFab r.1.patron) (slotCount m)).settleRelays)

/-- The old values that the members of a combined atomic receive, in serial order (R365). -/
def memberOlds (arg old : Nat) : List (Nat × Nat) → List (Nat × Nat)
  | [] => []
  | (k, v) :: t => (k, old) :: memberOlds arg (atomicNew (arg % 16) (8 * atomicWidth arg) old v 0) t

/-- DATA. -/
def execData (port : Nat) (m : Msg) (s : State) : Host.Outcome State Fault Refusal :=
  .next <| s.onMsg port 0x28 m fun s =>
    match s.dev.respond m with
    | none => s
    | some (o, d) =>
      let s := { s with dev := d }
      if o.code = 0x03 ∧ o.job.isNone then
        -- the mirror's copy of a poisoned line (R450)
        let off := o.m.addr % 2 ^ 50
        let good := m.arg == stOk
        let s := if good then { s with mem := memWrite s.mem off (m.slots.take 64), dev := s.dev.cleanLine (off / 64) } else s
        s.serveWhere (fun h => h.why == 2 && h.m.addr / 64 == o.m.addr / 64) (!good)
      else
        let s := if o.code = 0x01 ∧ m.arg = stOk ∧ !m.poison ∧ !o.stale then
            s.onDev fun d => d.installLine (o.m.addr / 64) (m.slots.take 64) else s
        let ks := (match o.job with
          | some k => [k]
          | none => []) ++ o.members.map (·.1)
        let s := s.onDev fun d => ks.foldl (fun d k => d.jobPart k 0x28 o.m.addr m) d
        ks.foldl State.fetched s

/-- A DONE arrives, by itself or in a MESSAGE of class 0. -/
def State.doneIn (s : State) (m : Msg) : State :=
  match s.dev.respond m with
  | none => s
  | some (o, d) =>
    let s := { s with dev := d }
    if o.code = 0x58 then
      s.onDev fun d =>
        let hs := d.fab.heldRsp.map fun h => { h with mirror := h.mirror.filter (· != m.tag) }
        ({ d with fab := { d.fab with heldRsp := hs } }).flushHeld
    else if o.code = 0x59 then s.copyDone (o.region / 64)
    else if o.code = 0x52 then
      match o.job with
      | none => s.onDev fun d => d.modRegion (o.region / 64) fun r => { r with noticeDue := r.noticeDue.erase o.dest }
      | some k => s.onDev fun d =>
        let lost := m.arg != stOk
        let d := match lost, tget d.fab.jobs k with
          | true, some j => if j.op = 0x87 then d.modRegion (o.region / 64) fun r => { r with
              grants := r.grants.filter fun g => !(g.dev == j.x.fld 0 0 6 && g.patron == j.x.fld 1 0 6) } else d
          | _, _ => d
        d.jobPart k 0x29 o.m.addr m
    else
      let ks := (match o.job with
        | some k => [k]
        | none => []) ++ o.members.map (·.1)
      s.onDev fun d => ks.foldl (fun d k => d.jobPart k 0x29 o.m.addr m) (d.sendAck o.dest o.m).flushEgress

/-- DONE. -/
def execDone (port : Nat) (m : Msg) (s : State) : Host.Outcome State Fault Refusal :=
  .next (s.onMsg port 0x29 m fun s => s.doneIn m)

/-- RESULT. -/
def execResult (port : Nat) (m : Msg) (s : State) : Host.Outcome State Fault Refusal :=
  .next <| s.onMsg port 0x2A m fun s =>
    match s.dev.respond m with
    | none => s
    | some (o, d) =>
      s.onDev fun _ =>
        let d := (d.sendAck o.dest o.m).flushEgress
        (memberOlds o.m.arg (leNat m.slots) o.members).foldl (fun (d : Dev) e =>
          d.jobPart e.1 0x2A o.m.addr { m with slots := leBytes 16 e.2 }) d

/-- REQUEST_RETRY_TIMEOUT: a request without response is sent again with its tag (R367). -/
def execRequestRetryTimeout (tag : Nat) (s : State) : Host.Outcome State Fault Refusal :=
  .next <| s.onDev fun d =>
    match d.fab.outst.find? fun o => o.m.tag == tag with
    | some o => if o.sent ∧ (isUpdate o.code ∨ o.code = 0x01 ∨ o.code = 0x03) then d.put o.dest o.code { o.m with retry := true } else d
    | none => d

/-- COMBINE_WINDOW_CLOSE: each group of the line goes out as one combined request (R363), and what waits for the line at home
ingress is applied (R364). -/
def execCombineWindowClose (line : Nat) (s : State) : Host.Outcome State Fault Refusal :=
  .next <| (s.closeHome fun c => c.line == line).onDev fun d =>
    let cs := d.fab.comb.filter fun e => e.2.line == line
    let d := { d with fab := { d.fab with comb := tkeep d.fab.comb fun _ c => c.line != line } }
    cs.foldl (fun (d : Dev) e => (d.sendReq e.2.dest e.2.code { e.2.m with combined := joinable e.2.code e.2.m } e.2.region none e.2.members).2) d

/-! ### Configuration traffic (R361, R369) -/

/-- CONFIG_READ. -/
def execConfigRead (port : Nat) (m : Msg) (s : State) : Host.Outcome State Fault Refusal :=
  .next (s.onMsg port 0x40 m fun s => s.configIn port 0x40 m)
/-- CONFIG_WRITE. -/
def execConfigWrite (port : Nat) (m : Msg) (s : State) : Host.Outcome State Fault Refusal :=
  .next (s.onMsg port 0x41 m fun s => s.configIn port 0x41 m)

/-! ### Region messages (R401, R408, R411, R413, R416) -/

/-- MAP_NOTICE: the mapping is installed or removed, and DONE answers (R389, R401). -/
def State.mapNoticeIn (s : State) (m : Msg) : State :=
  s.onDev fun d =>
    let b := m.slots
    let id := fieldOf b 0 4
    let p := srcPatron (fieldOf b 4 2)
    let n := fieldOf b 12 4
    let full := n != 0 && decide (16384 ≤ d.rgn.maps.length) && !d.rgn.maps.any fun (x : Mapping) => x.region == id && x.patron == p
    let d := if n = 0 then d.removeMap id p
      else if full then d
      else ({ d with rgn := { d.rgn with torn := d.rgn.torn.filter (· != id) } }).installMap
        { region := id, patron := p, rights := fieldOf b 6 1, first := fieldOf b 8 4, count := n, attrs := fieldOf b 7 1, partner := m.arg }
    d.putRegion (srcDev m.source) 0x29 (d.rsp m (if full then stQuota else stOk) [])

/-- MAP_NOTICE. -/
def execMapNotice (port : Nat) (m : Msg) (s : State) : Host.Outcome State Fault Refusal :=
  .next (s.onMsg port 0x52 m fun s => s.mapNoticeIn m)
/-- REGION_DONE. -/
def execRegionDone (port : Nat) (m : Msg) (s : State) : Host.Outcome State Fault Refusal :=
  .next (s.onMsg port 0x51 m fun s => s.regionDoneIn m)
/-- MIRROR_WRITE. -/
def execMirrorWrite (port : Nat) (m : Msg) (s : State) : Host.Outcome State Fault Refusal :=
  .next (s.onMsg port 0x58 m fun s => s.mirrorWriteIn port m)
/-- MIRROR_BLOCK. -/
def execMirrorBlock (port : Nat) (m : Msg) (s : State) : Host.Outcome State Fault Refusal :=
  .next (s.onMsg port 0x59 m fun s => s.mirrorBlockIn m)
/-- REVOKE_DRAIN_END. -/
def execRevokeDrainEnd (region : Nat) (s : State) : Host.Outcome State Fault Refusal := .next (s.drainEnd region)
/-- PERSIST_ACCEPT. -/
def execPersistAccept (s : State) : Host.Outcome State Fault Refusal := .next (s.acceptSectors s.dev.rgn.handed [])

/-! ### Message channels (R379, R380) -/

/-- A MESSAGE or MESSAGE_ACK for this device, or one to forward (R376). -/
def State.onMessage (s : State) (port code : Nat) (m : Msg) (f : State → State) : State :=
  s.onMsg port code m fun s =>
    let dest := fieldOf m.slots 0 1 % 64
    if dest = s.dev.devNo then f s else s.onDev fun d => (d.count2 .relayFwd 0 0 1).put dest code { m with relayed := true }

/-- MESSAGE_RESEND_TIMEOUT: resent from the oldest; unreachable after 4 resends without progress (R379). -/
def execMessageResendTimeout (dest cls : Nat) (s : State) : Host.Outcome State Fault Refusal :=
  .next <|
    let k := chanKey dest cls
    let c := s.dev.chan k
    if c.unacked.isEmpty then s
    else if c.resends < 4 then
      s.onDev fun d =>
        let d := d.modChan k fun c => { c with resends := c.resends + 1 }
        (c.unacked.take msgWindow).foldl (fun (d : Dev) x => (d.count2 .msgResent 0 0 1).put dest 0x30 x.2.2) d
    else
      let s := s.onDev fun d => (d.modChan k fun c => { c with unacked := [], resends := 0 }).devEvent 0x0306 (dest + 256 * cls) c.unacked.length
      let os := s.dev.fab.outst.filter fun o => o.dest == dest && cls == 0 && o.dest / 16 != s.dev.wing
      os.foldl (fun s o =>
        let s := s.onDev fun d => { d with fab := { d.fab with outst := d.fab.outst.filter fun x => x.m.tag != o.m.tag } }
        match o.job with
        | none => s.onDev fun d => d.modRegion (o.region / 64) fun r => { r with noticeDue := r.noticeDue.erase o.dest }
        | some k => s.endJob k { status := stDead }) s

/-- MESSAGE_ACK: messages acknowledged, the window moves on, the wing's offset is estimated (R379, R380). -/
def execMessageAck (port : Nat) (m : Msg) (receipt : Nat) (s : State) : Host.Outcome State Fault Refusal :=
  .next <| s.onMessage port 0x31 m fun s => s.onDev fun d =>
    let dest := srcDev m.source
    let k := chanKey dest (fieldOf m.slots 1 1)
    let q := fieldOf m.slots 4 4
    let c := d.chan k
    match c.unacked.findIdx? fun x => x.1 == q with
    | none => d
    | some i =>
      let rest := c.unacked.drop (i + 1)
      let d := d.modChan k fun c => { c with unacked := rest, resends := 0 }
      -- those that enter the window go out
      let d := ((rest.take msgWindow).drop (min msgWindow c.unacked.length - (i + 1))).foldl
        (fun (d : Dev) x => (d.count2 .msgSent 0 0 1).put dest 0x30 x.2.2) d
      let t1 : Int := fieldOf m.slots 8 8
      let t2 : Int := fieldOf m.slots 16 8
      let t3 : Int := fieldOf m.slots 24 8
      let t4 : Int := receipt
      let off := Int.tdiv ((t2 - t1) - (t4 - t3)) 2
      let trip := ((t4 - t1) - (t3 - t2)).toNat
      let w := dest / 16
      if w = d.wing then d else
      let xs := ((tgetD d.fab.trips w []).filter fun x => receipt ≤ x.1 + 10 ^ 9) ++ [(receipt, trip, off)]
      let best := xs.foldl (fun b x => if x.2.1 < b.2.1 then x else b) (receipt, trip, off)
      { d with fab := { d.fab with trips := tset d.fab.trips w xs, wingOff := d.fab.wingOff.set w best.2.2 } }

/-! ### Pool assembly rows (R513–R516) -/

/-- HEAD_ANNOUNCE. -/
def execHeadAnnounce (payload : List Byte) (s : State) : Host.Outcome State Fault Refusal := .next (s.onDev fun d => d.assembly payload)
/-- READY. -/
def execReady (payload : List Byte) (s : State) : Host.Outcome State Fault Refusal :=
  .next (s.onDev fun d => d.assembly payload)
/-- SERVING_REPORT. -/
def execServingReport (payload : List Byte) (s : State) : Host.Outcome State Fault Refusal :=
  .next (s.onDev fun d => d.assembly payload)

/-- HEAD_ANNOUNCE_RESEND: until every expected device is SERVING (R513). -/
def execHeadAnnounceResend (elapsedMs : Nat) (s : State) : Host.Outcome State Fault Refusal :=
  .next <| s.onDev fun d =>
    if d.headSet ∧ d.readyDue ∧ d.rosterCount (· == 2) ≠ d.expected.length then d.announce elapsedMs else d

/-- POOL_ASSEMBLED: the deadline of 1.2 s (R516). -/
def execPoolAssembled (elapsedMs : Nat) (s : State) : Host.Outcome State Fault Refusal :=
  .next <| s.onDev fun d =>
    if d.boot.rosterOn ∧ d.presenting = some d.devNo ∧ !d.boot.assembled ∧ 1200 ≤ elapsedMs then d.poolAssembled elapsedMs else d

/-- POOL_MEMBER_MISSING: entries not SERVING at 13.6 s (R516). -/
def execPoolMemberMissing (elapsedMs : Nat) (s : State) : Host.Outcome State Fault Refusal :=
  .next <| s.onDev fun d =>
    if d.boot.rosterOn ∧ d.presenting = some d.devNo ∧ 13600 ≤ elapsedMs then
      (d.expected.filter fun v => (d.rosterEnt v).st != 2).foldl (fun (d : Dev) v => d.devEvent 0x0022 v (d.rosterEnt v).st) d
    else d

end Sys2Proof.Machine
end

