-- ==== Sys2Proof/Machine/Tiers.lean ====
section
/-! DEFINITION. Tiers: HINT and pins, promotions, demotions, ages and loan windows (R253 to R272, R283, R284). -/

namespace Sys2Proof.Machine

/-! ### Promotion of layers (R264–R266, R420, R429) -/

/-- A unit of a patron's class 0, 1, 2 or 6 may start (R420, R429, R432). -/
def Dev.patronStart (d : Dev) (p cls : Nat) : Bool := d.gateOpen cls && d.bktPass (bktPat p cls)

/-- The reads that a promotion from the remote tier makes, for patron 0 (R253, R392): one READ_BLOCK for each 4 KiB. -/
def Dev.remoteRead (d : Dev) (i l : Nat) : Dev :=
  match (d.tier.copies.find? fun e => e.2.span == i && e.2.tier == 3).map (·.2), d.span? i with
  | some c, some s =>
    let cls := fun k => d.promoClass i k 3 (d.prof s.profile)
    let off := c.offset + ((List.range l).map fun k => classBytes (cls k)).sum
    (List.range (classBytes (cls l) / 4096)).foldl (fun (d : Dev) k =>
      let a := d.reg regTirRemoter c.window 0 0 + off + 4096 * k
      if d.mapAllows 0 a 0 64 then (d.sendReq (addrDev a) 0x03 { source := d.srcOf 0 3, addr := a, arg := 63 } (addrRegion a) none).2 else d) d
  | _, _ => d

/-- The read that a promotion from a loan window makes: the layer's image, peer to peer (R27). -/
def Dev.shelfRead (d : Dev) (i l : Nat) : Dev :=
  match (d.tier.copies.find? fun e => e.2.span == i && e.2.tier == 1).map (·.2), d.span? i with
  | some c, some s =>
    let cls := fun k => d.promoClass i k 1 (d.prof s.profile)
    d.emit (.peerRead c.window (c.offset + ((List.range l).map fun k => classBytes (cls k)).sum) (classBytes (cls l)))
  | _, _ => d

/-- The reads that the promotion of a layer makes at its source; the stacks are read by the flash controller (R26). -/
def Dev.sourceRead (d : Dev) (i l source : Nat) : Dev :=
  if source = 3 then d.remoteRead i l else if source = 1 then d.shelfRead i l else d

/-- Layers of a streamed span that stay resident. -/
def Dev.restLayers (d : Dev) (s : Span) : Nat := (d.prof s.profile).layers - (d.prof s.profile).deepK

/-- Put the frame of a promoted layer, and read its source. -/
def Dev.putPromoFrame (d : Dev) (i l h : Nat) (u : Used) (m : Promo) : Dev :=
  let lead := m.tight && m.kind == 1 && ((d.span? i).map fun s => s.streamed && decide (d.restLayers s ≤ l)).getD false
  (((d.withUsed u).modSpan i fun s => { s with frames := lmod s.frames l fun f => { f with primary := h, lead := lead } }).chargeBkt
    (bktPat m.patron m.cls) 1).sourceRead i l m.source

/-- Start the promotion of the next layer of a span: its frame is obtained under R15 and R260, freeing space where needed,
when its class may start (R264, R420). -/
def Dev.obtain (d : Dev) (i : Nat) : Dev :=
  match tget d.tier.promos i, d.span? i with
  | some m, some s =>
    let l := s.resLayers + m.landed
    let pr := d.prof s.profile
    if m.upTo < l ∨ ((s.frames[l]?).map (·.primary)).getD 1 ≠ 0 ∨ !d.patronStart m.patron m.cls then d else
    let cls := d.promoClass i l m.source pr
    let n := classBytes cls
    let isOver := fun (x : Dev) => !x.within m.patron (x.reserved m.patron + n)
    let place := fun (x : Dev) => if x.freeBytes < x.allReserved + n then none else x.place x.seqs.used (orderR15 i l) cls
    match (if isOver d then none else place d) with
    | some (h, u) => d.putPromoFrame i l h u m
    | none =>
      match d.scratch.evictFor true true m.patron isOver (fun x => (place x).isSome) with
      | (some e, _) =>
        let d := e.evicts.foldl (fun d j => d.evictPatron m.patron j) (d.noteRefused e)
        let d := { d with tier := { d.tier with victims := d.tier.victims ++ notGrowth e.victims } }
        if e.victims.isEmpty then
          (match place d with
            | some (h, u) => d.putPromoFrame i l h u m
            | none => d)
        else d
      | (none, e) => d.noteRefused e
  | _, _ => d

/-- Every promotion starts the layer it may start: demand first, then lead, then hint, in admission order within each (R264). -/
def Dev.obtainAll (d : Dev) : Dev :=
  let order := sortBy (fun (a b : Nat × Promo) => decide (a.2.kind < b.2.kind) || (a.2.kind == b.2.kind
    && (decide (a.2.adm.1 < b.2.adm.1) || (a.2.adm.1 == b.2.adm.1 && decide (a.2.adm.2 < b.2.adm.2))))) d.tier.promos
  (order.map (·.1)).foldl Dev.obtain d

/-- A promotion begins by command: demand in the class of the oldest request that waits, lead and hint in class 2 (R264). -/
def Dev.promote (d : Dev) (i l p kind : Nat) : Dev :=
  match d.span? i with
  | none => d
  | some s =>
    if 64 ≤ p ∨ 2 < kind ∨ (d.prof s.profile).layers ≤ l ∨ !s.copied then d else
    let cls := if kind = 0 then ((d.adm.waiting.find? fun q => q.d.patron == p).map (·.d.tclass)).getD 0 else 2
    (d.startPromo i l p kind cls).obtain i

/-- Reads of a span's stacks copy wait for a segment of the map that is being reloaded (R456). -/
def Dev.mapWaits (d : Dev) (i : Nat) : Bool :=
  match tget d.stk.copies i with
  | some c => d.stk.waitSegs.any fun w => w.1 == c.volume && decide (c.firstUnit / segmentUnits ≤ w.2)
      && decide (w.2 ≤ (c.firstUnit + c.count - 1) / segmentUnits)
  | none => false

/-- A span's copy on the stacks was written under another key than its OWNER's now (R298, R306). -/
def Dev.copyMismatch (d : Dev) (i : Nat) (s : Span) : Bool :=
  match tget d.stk.copies i with
  | some c => c.key != s.owner || c.epoch != tgetD d.sec.gens s.owner 0 % 256
  | none => false

/-- The frame of the next layer lands, in the format of its source (R147, R265); RES_LAYERS rises in the close phase. -/
def Dev.layerLanded (d : Dev) (i : Nat) : Dev :=
  match tget d.tier.promos i, d.span? i with
  | some m, some s =>
    let l := s.resLayers + m.landed
    let h := ((s.frames[l]?).map (·.primary)).getD 0
    if m.upTo < l ∨ h = 0 ∨ (m.source = 2 ∧ d.mapWaits i) then d else
    match d.folioOn i l m.source with
    | none => d
    | some c =>
      -- a copy under another key reads as zeros, and the mismatch is counted (R306)
      let other := m.source == 2 && d.copyMismatch i s
      let c := if other then { c with heads := c.heads.map fun _ => { es := 0 } } else c
      let d := if other then d.count .keyMismatch ((((tget d.stk.copies i).map (·.volume))).getD 0) else d
      let d := (d.modSpan i fun s => { s with closed := tset s.closed l c }).count2 .bytesPromo 0 m.source (hBytes h)
      let d := { d with tier := { d.tier with promos := tset d.tier.promos i { m with landed := m.landed + 1 } } }
      d.obtain i
  | _, _ => d

/-- In the close phase RES_LAYERS rises by the layers landed; with the last one the lock goes and the patrons that joined
are charged (R265, R266, R284). -/
def Dev.closePromos (d : Dev) : Dev :=
  d.tier.promos.foldl (fun d e =>
    let m := e.2
    if m.landed = 0 then d else
    let d := d.modSpan e.1 fun s => { s with resLayers := s.resLayers + m.landed }
    match d.span? e.1 with
    | none => d
    | some s =>
      if m.upTo < s.resLayers then
        let add := (List.range 64).foldl (fun c q => if bit m.joined q ∧ !bit c q then c + 2 ^ q else c) s.charged
        ({ d with tier := { d.tier with promos := tdel d.tier.promos e.1 } }).modSpan e.1 fun s =>
          { s with moveLock := false, charged := add }
      else { d with tier := { d.tier with promos := tset d.tier.promos e.1 { m with landed := 0 } } }) d

/-- PROMOTION. -/
def execPromotion (span layer patron kind : Nat) (s : State) : Host.Outcome State Fault Refusal :=
  .next (s.onDev fun d => d.promote span layer patron kind)

/-- LAYER_LANDED; a layer that lands in the close phase or on the edge that ends it belongs to that tick (R62, R265). -/
def execLayerLanded (span : Nat) (s : State) : Host.Outcome State Fault Refusal :=
  .next (s.onDev fun d =>
    let d := d.layerLanded span
    if d.tim.phase = .close then d.closePromos else d)

/-! ### Releasing layers (R283) -/

/-- Release the frames of layers `n` and above. -/
def Dev.releaseFrom (d : Dev) (i n : Nat) : Dev :=
  match d.span? i with
  | none => d
  | some s =>
    if s.resLayers ≤ n then d else
    let d := d.freeAllLater ((s.frames.drop n).map (·.primary))
    let d := d.modSpan i fun s => { s with
      frames := s.frames.take n ++ (s.frames.drop n).map fun f => { f with primary := 0, lead := false }
      resLayers := n, closed := tkeep s.closed fun l _ => decide (l < n) }
    d.clearLines i fun l f => f == 0 && decide (n ≤ l)

/-- Release the deepest layers of streamed spans that have their stacks copy, are read by no walk and not pinned (R270, R283). -/
def Dev.releaseDeep (d : Dev) : Dev :=
  (d.seqs.spans.filter fun e => e.2.st == 3 && e.2.streamed && e.2.onStacks && e.2.pins == 0 && !e.2.moveLock && !d.walkHeld e.1
    && !d.fitHeld e.1 e.2).foldl
    (fun d e => d.releaseFrom e.1 (d.restLayers e.2)) d

/-! ### Demotion (R262, R263, R271) -/

/-- The lowest place of `n` bytes below a limit beside extents in order. -/
def gapBelow : List (Nat × Nat) → Nat → Nat → Nat → Option Nat
  | [], pos, n, lim => if pos + n ≤ lim then some pos else none
  | (a, k) :: t, pos, n, lim => if pos + n ≤ a then some pos else gapBelow t (max pos (a + k)) n lim

/-- Bytes of a loan window. -/
def Dev.shelfBytes (d : Dev) (w : Nat) : Nat := 65536 * d.reg regTirShelfnCtrl w 0 4

/-- The loan window may be used: enabled and not faulted (R271, R272). -/
def Dev.shelfOn (d : Dev) (w : Nat) : Bool := decide (w < 32) && d.reg regTirShelfnCtrl w 0 0 == 1 && !d.tier.shelfFaults.contains w

/-- Extents of a window that copies, demotions under way and slots of streams take. -/
def Dev.windowUsed (d : Dev) (tier w : Nat) : List (Nat × Nat) :=
  let copies := (d.tier.copies.filter fun e => e.2.tier == tier && e.2.window == w).map fun e => (e.2.offset, e.2.bytes)
  let slots := if tier ≠ 1 then [] else
    (d.tier.streams.filter fun e => e.2.mode == 1 && e.2.window == w).flatMap fun e =>
      [(65536 * e.2.slotBase, 65536 * e.2.slots * e.2.slotUnits), (e.2.cell, 64)]
  let moving := (d.tier.demos.filter fun e => e.2.target == tier && e.2.volume == w && e.2.left != 0).map fun e => (e.2.offset, e.2.left)
  (copies ++ moving ++ slots).foldl (fun l x => extInsert l x.1 x.2) []

/-- A place on the loan shelves for content charged to some patrons: a window with DEMOTE use whose owner is one of them. -/
def Dev.shelfPlace (d : Dev) (charged n : Nat) : Option (Nat × Nat) :=
  (List.range 32).findSome? fun w =>
    if d.shelfOn w && d.reg regTirShelfnCtrl w 0 1 == 1 && bit charged (d.reg regTirShelfnCtrl w 0 3) then
      (gapBelow (d.windowUsed 1 w) 0 n (d.shelfBytes w)).map fun o => (w, o)
    else none

/-- A place in a lending region of another device. -/
def Dev.remotePlace (d : Dev) (n : Nat) : Option (Nat × Nat) :=
  if d.reg regTirCtrl 0 0 1 ≠ 1 then none else
  (List.range 4).findSome? fun r =>
    if d.reg regTirRemoter r 0 2 == 1 && !d.tier.remoteLost.contains r && !d.isDead (addrDev (d.reg regTirRemoter r 0 0)) then
      (gapBelow (d.windowUsed 3 r) 0 n (unitBytes * d.reg regTirRemoter r 0 1)).map fun o => (r, o)
    else none

/-- A place on tier 1 or 3. -/
def Dev.tierPlace (d : Dev) (tier charged n : Nat) : Option (Nat × Nat) :=
  if tier = 1 then d.shelfPlace charged n else d.remotePlace n

/-- Write a copy's bytes where its tier keeps them: peer writes to a loan window, WRITE_BLOCKs for patron 0 to a lending region. -/
def Dev.sendCopy (d : Dev) (tier w off : Nat) (b : List Byte) : Dev :=
  if tier = 1 then d.emit (.peerWrite w off (.bytes b)) else
  (List.range (ceilDiv b.length 4096)).foldl (fun (d : Dev) k =>
    let a := d.reg regTirRemoter w 0 0 + off + 4096 * k
    let m : Msg := { source := d.srcOf 0 3, addr := a, arg := 63, slots := padTo 4096 ((b.drop (4096 * k)).take 4096) }
    if d.mapAllows 0 a 1 64 then (d.sendReq (addrDev a) 0x0A m (addrRegion a) none).2 else d) d

/-- Put a copy record. -/
def Dev.addCopy (d : Dev) (c : CopyRec) : Dev :=
  { d with tier := { d.tier with copies := tset d.tier.copies (tfresh d.tier.copies 0) c } }

/-- The target tier of a preferred tier (R255, R263): none for the reading room. -/
def prefTier (pref : Nat) : Option Nat :=
  if pref = 1 then none else if pref = 2 then some 1 else if pref = 4 then some 3 else some 2

/-- A span holds a copy on a tier. -/
def Span.copyOn (s : Span) (tier : Nat) : Bool := if tier = 1 then s.onShelf else if tier = 2 then s.onStacks else s.onRemote

/-- Frame class of the image of a layer: that of its frame, or of a promotion where the layer is not resident. -/
def Dev.imageClass (d : Dev) (i l : Nat) (s : Span) : Nat :=
  let h := ((s.frames[l]?).map (·.primary)).getD 0
  if h ≠ 0 ∧ l < s.resLayers then hClass h else d.promoClass i l s.source (d.prof s.profile)

/-- The images of a span's closed folios, in layer order (R254). -/
def Dev.closedImages (d : Dev) (i : Nat) (s : Span) : List Byte :=
  ((d.wholeFolios i s).getD []).flatMap fun e => closedImage (d.prof s.profile) s.profile e.1 i s.firstPos (d.imageClass i e.1 s) e.2

/-- Bytes of those images' frames. -/
def Dev.imageBytes (d : Dev) (i : Nat) (s : Span) : Nat := ((List.range s.frames.length).map fun l => classBytes (d.imageClass i l s)).sum

/-- Release a span that has a copy: its frames go in the close phase, for the reads of this tick still find them (R56, R262). -/
def Dev.releaseCopied (d : Dev) (i : Nat) : Dev :=
  ({ d with tier := { d.tier with demos := tset d.tier.demos i { left := 0 } } }).count .releases 0

/-- Start the background demotion of one span to a tier, where class 3, the governor and the tier take it (R263, R436). -/
def Dev.backgroundSpan (d : Dev) (i tier : Nat) (growth : Bool) : Dev :=
  match d.span? i with
  | none => d
  | some s =>
    if (tget d.tier.demos i).isSome ∨ !d.mayStart 3 ∨ d.frameOut s then d
    else if s.copyOn tier then (if growth then d else d.releaseCopied i)
    else if (d.wholeFolios i s).isNone then d
    else if tier = 2 then
      let pr := d.prof s.profile
      let n := pr.copyBytes
      match d.spanVolume.bind fun k => (d.vol? k).bind fun x => (d.copyPlace k pr.copyUnits).map fun u => (k, x, u) with
      | none => d
      | some (k, x, u) =>
        if !d.stacksOn ∨ x.protected_ then d
        else if x.balance < copyUnit pr.flashClass 0 then d.throttle k n
        else
          let m : Demo := { left := n, target := 2, volume := k, offset := u, units := pr.copyUnits, growth := growth }
          { d.startUnit 3 n with tier := { d.tier with demos := tset d.tier.demos i m } }
    else
      let n := d.imageBytes i s
      match d.tierPlace tier s.charged n with
      | none => d
      | some (w, off) =>
        let d := (d.startUnit 3 n).sendCopy tier w off (d.closedImages i s)
        { d with tier := { d.tier with demos := tset d.tier.demos i { left := n, target := tier, volume := w, offset := off } } }

/-- Start the background demotion of a region unit, where class 3 and its tier take it (R263). -/
def Dev.backgroundUnit (d : Dev) (mem : List Host.Cell) (k : Nat) : Dev :=
  match tget d.rgn.units k, tget d.rgn.slots (k / 2 ^ 17) with
  | some u, some r => match prefTier r.pref with
    | none => d
    | some tier =>
      let at_ := ((d.tier.copies.find? fun e => e.2.span == unitTag k).map (·.2.tier)).getD 2
      let put := fun (d : Dev) (m : Demo) => { d with tier := { d.tier with demos := tset d.tier.demos (unitTag k) m } }
      if (tget d.tier.demos (unitTag k)).isSome ∨ !d.mayStart 3 ∨ !u.resident ∨ d.flt.out.contains u.cluster then d
      else if u.onStacks ∧ at_ = tier then (put d { left := 0 }).count .releases 0
      else if tier = 2 then
        match (d.unitRoom k r).bind fun v => (d.vol? v).map fun x => (v, x) with
        | none => d
        | some (v, x) => if x.balance < 65536 then d.throttle v unitBytes else d.startUnitDemo k v
      else match d.tierPlace tier (2 ^ d.unitPatron r) unitBytes with
        | none => d
        | some (w, off) =>
          let b := memRead mem (k / 2 ^ 17 * windowBytes + k % 2 ^ 17 * unitBytes) unitBytes
          put ((d.startUnit 3 unitBytes).sendCopy tier w off b) { left := unitBytes, target := tier, volume := w, offset := off }
  | _, _ => d

/-- Background demotion in a tick (R263): candidates old enough in capacity-eviction order, a twin released alone; then the
streamed spans that have no stacks copy yet (R283). -/
def State.background (s : State) : State :=
  let d := s.dev
  let low := d.reg regTirCtrl 0 0 0 == 1 && decide (d.freeBytes < d.reg regTirFreeTarget * 2 ^ 30)
  let cands := if low then d.candidates.filter fun c => decide (d.reg regTirDemoteAge ≤ c.age) else []
  let d := cands.foldl (fun (d : Dev) c =>
    if c.kind = 1 then (d.loseTwin c.key).count .twinsAlone 0
    else if c.kind = 2 then d.backgroundUnit s.mem c.key
    else match (d.span? c.key).bind fun x => prefTier x.pref with
      | none => d
      | some t => d.backgroundSpan c.key t false) d
  let streamed := d.seqs.spans.filter fun e => e.2.st == 3 && e.2.streamed && !e.2.onStacks && !e.2.moveLock && !e.2.tailHeld
    && e.2.pins == 0 && !d.fitHeld e.1 e.2
  let order := sortBy Cand.before (streamed.map fun e =>
    { group := if e.2.charged = 0 then 1 else 2, age := d.ageOf e.2.lastTick, kind := 0, key := e.1 : Cand })
  { s with dev := order.foldl (fun (d : Dev) c => d.backgroundSpan c.key 2 true) d }

/-- The frames of a demoted span go, once no walk holds it; of a streamed one the deepest layers alone (R262, R283). A unit leaves the
reading room. What has been pinned meanwhile stays (R270). -/
def Dev.finishDemo (d : Dev) (i : Nat) (m : Demo) : Dev :=
  let gone := { d with tier := { d.tier with demos := tdel d.tier.demos i } }
  if 2 ^ 40 ≤ i then
    gone.modUnit (i - 2 ^ 40) fun u => if u.onStacks ∧ u.pins = 0 then { u with resident := false } else u
  else if d.walkHeld i then d else
  match d.span? i with
  | none => gone
  | some s =>
    if !s.copied ∨ s.pins ≠ 0 then gone
    else if m.growth then (if s.twinHeld then gone.loseTwin i else gone).releaseFrom i (d.restLayers s) else gone.loseFrames i

/-- Demotions whose copy is whole and whose walks have ended, in the close phase. -/
def Dev.closeDemos (d : Dev) : Dev :=
  (d.tier.demos.filter fun e => e.2.left == 0).foldl (fun d e => d.finishDemo e.1 e.2) d

/-- What a demotion reads: `none` when it has left the reading room or changed, else whether it cannot be read now (R32). -/
def Dev.demoReads (d : Dev) (i : Nat) : Option Bool :=
  if 2 ^ 40 ≤ i then (tget d.rgn.units (i - 2 ^ 40)).bind fun u => if u.resident then some (d.flt.out.contains u.cluster) else none
  else (d.span? i).bind fun s => if s.st = 3 ∧ (d.wholeFolios i s).isSome then some (d.frameOut s) else none

/-- Bytes of flash unit `j` of a demotion: of a span's copy, or of a region unit. -/
def Dev.demoSize (d : Dev) (i j : Nat) : Nat :=
  if 2 ^ 40 ≤ i then 65536 else copyUnit (d.prof (((d.span? i).map (·.profile)).getD 0)).flashClass j

/-- How many units fit into a number of bytes, `i` being the first and `n` the most. -/
def fitUnits (size : Nat → Nat) : Nat → Nat → Nat → Nat
  | 0, _, _ => 0
  | n + 1, i, room => if size i ≤ room then 1 + fitUnits size n (i + 1) (room - size i) else 0

/-- Units of a demotion that the stacks accept now: within the governor balance and the bytes of the tick (R300, R321). -/
def Dev.demoPart (d : Dev) (i : Nat) (m : Demo) : Nat :=
  fitUnits (d.demoSize i) (m.units - m.done) m.done (min ((d.vol? m.volume).map (fun (x : Volume) => x.balance.toNat) |>.getD 0) d.acceptRoom)

/-- The demotion after that part. -/
def Dev.demoAfter (d : Dev) (i : Nat) (m : Demo) : Demo :=
  let n := d.demoPart i m
  { m with done := m.done + n, left := if m.done + n = m.units then 0 else m.left - ((List.range n).map fun j => d.demoSize i (m.done + j)).sum }

/-- The stacks accept the next part of a demotion: it enters staging and draws on the balance (R299, R300, R321). -/
def Dev.acceptNext (d : Dev) (i : Nat) (m : Demo) : Dev :=
  let n := d.demoPart i m
  let bytes := ((List.range n).map fun j => d.demoSize i (m.done + j)).sum
  let after := d.demoAfter i m
  let d := d.modVol m.volume fun x => { x with balance := x.balance - bytes }
  let d := if 2 ^ 40 ≤ i then d.acceptPart (i - 2 ^ 40) m.volume m.offset m.done n
    else d.acceptCopy m.volume m.offset (d.prof (((d.span? i).map (·.profile)).getD 0)).flashClass m.done n
  { d with tier := { d.tier with demos := tset d.tier.demos i after } }

/-- The target tier holds every byte: the copy is valid (R262). A unit's other copy goes, for it has one (R267). -/
def Dev.demoWhole (d : Dev) (i : Nat) (m : Demo) : Dev :=
  let d := if 2 ^ 40 ≤ i then
      let k := i - 2 ^ 40
      if m.target = 2 then ({ d with tier := { d.tier with copies := tkeep d.tier.copies fun _ c => c.span != i } }).unitCopied k
      else
        let d := (d.staleUnit k).addCopy { span := i, tier := m.target, window := m.volume, offset := m.offset, bytes := m.left }
        (d.modUnit k fun u => { u with onStacks := true }).count2 .demotions 0 m.target 1
    else if m.target = 2 then d.spanCopied i m.volume m.offset
    else match d.span? i with
      | none => d
      | some s =>
        let c : CopyRec := { span := i, tier := m.target, window := m.volume, offset := m.offset, bytes := m.left
                             folios := (d.wholeFolios i s).getD s.closed }
        let d := (d.addMeta s.owner 32).addCopy c
        (d.modSpan i fun s => if m.target = 1 then { s with onShelf := true } else { s with onRemote := true }).count2 .demotions 0 m.target 1
  { d with tier := { d.tier with demos := tset d.tier.demos i { m with left := 0 } } }

/-- The stacks take what is demoted to them: writes may be accepted, the volume is not write-protected. -/
def Dev.demoTaken (d : Dev) (m : Demo) : Bool := m.target != 2 || (d.stacksOn && !((d.vol? m.volume).map (·.protected_)).getD true)

/-- The target tier accepts what is left of a demotion, the stacks part by part (R262, R300): with the last byte its copy is valid, and its
frames go in the close phase, for the reads of the tick still find them (R56). What left the reading room or changed meanwhile has no
demotion any more. The operand is a span, or the tag of a region unit. -/
def Dev.demotionAccepted (d : Dev) (i : Nat) : Dev :=
  match tget d.tier.demos i with
  | none => d
  | some m =>
    if m.left = 0 then d else
    match d.demoReads i with
    | none => d.dropDemo i
    | some out =>
      if out || !d.demoTaken m then d
      else if m.target ≠ 2 then d.demoWhole i m
      else
        let after := d.demoAfter i m
        let d := d.acceptNext i m
        if after.left = 0 then d.demoWhole i after else d

/-- DEMOTION_ACCEPTED. -/
def execDemotionAccepted (span : Nat) (s : State) : Host.Outcome State Fault Refusal := .next (s.onDev fun d => d.demotionAccepted span)

/-- BACKGROUND_DEMOTION. -/
def execBackgroundDemotion (s : State) : Host.Outcome State Fault Refusal := .next s.background

/-! ### Ages (R257) -/

/-- The tick 2^30 ticks ago, as LAST_TICK holds it. -/
def Dev.longAgo (d : Dev) : Nat := (d.tim.count + 2 ^ 32 - 2 ^ 30) % 2 ^ 32

/-- The tier unit's visit: an age of 2^30 or more becomes 2^30. -/
def Dev.clampAge (d : Dev) (last : Nat) : Nat := if 2 ^ 30 ≤ d.ageOf last then d.longAgo else last

/-- AGE_VISIT: of the span at an index, and of the region unit with that key (assumption 27). -/
def execAgeVisit (span : Nat) (s : State) : Host.Outcome State Fault Refusal :=
  .next (s.onDev fun d => (d.modSpan span fun x => { x with lastTick := d.clampAge x.lastTick }).modUnit span
    fun u => { u with lastTick := d.clampAge u.lastTick })

/-! ### Loan windows (R272) -/

/-- A loan window faults: its copies cease, its streams end, its owner is told. -/
def Dev.shelfFault (d : Dev) (w : Nat) : Dev :=
  if !d.shelfOn w then d else
  let owner := d.reg regTirShelfnCtrl w 0 3
  let (n, d) := d.loseCopies 1 fun c => c.window == w
  let d := { d with tier := { d.tier with shelfFaults := d.tier.shelfFaults ++ [w]
                                          demos := tkeep d.tier.demos fun _ m => !(m.target == 1 && m.volume == w && m.left != 0) } }
  let d := (List.range 64).foldl (fun (d : Dev) p => d.endStreams p 5 fun x => x.mode == 1 && x.window == w) d
  d.patEvent owner 0x0102 w n

/-- SHELF_FAULT. -/
def execShelfFault (window : Nat) (s : State) : Host.Outcome State Fault Refusal := .next (s.onDev fun d => d.shelfFault window)

/-! ### HINT (R268–R270) -/

/-- The form of HINT. -/
def formHint (x : DescIn) : Form :=
  let kind := x.fld 0 0 2
  { entries := (· == 0), classes := anyClass, object := fun o => kind != 2 || isRegionId o
    items := fun x => [.val 0 0 2 (· != 3), .rsv 0 2 6, .val 1 0 3 fun v => decide (v ≤ 5), .rsv 1 3 5,
        .val 2 0 3 fun v => if x.fld 1 0 3 = 5 then decide (v ≤ 4) else v == 0, .rsv 2 3 5] ++ rsvBytes 3 1
      ++ [.val 4 0 32 fun v => kind != 0 || v == 0,
          .val 8 0 32 fun v => if kind = 0 then v == 0 else kind == 1 || v != 0] ++ rsvBytes 12 36 }

/-- Bytes of a span's primary frames when all of them are resident. -/
def Dev.fullBytes (d : Dev) (i : Nat) (s : Span) : Nat :=
  let p := d.prof s.profile
  (s.frames.zipIdx.map fun f => if f.1.primary ≠ 0 then hBytes f.1.primary else classBytes (d.promoClass i f.2 s.source p)).sum

/-- A patron's part of a pinned span's bytes (R270). -/
def Dev.pinPart (d : Dev) (p i : Nat) (s : Span) : Nat :=
  divCharge (if bit s.charged p then s.charged else s.charged + 2 ^ p) p (d.fullBytes i s)

/-- The ledger key of a patron of a device: a local patron's is its number. -/
def Dev.pinKey (d : Dev) (dev p : Nat) : Nat := if dev = d.devNo then p else 64 * (dev + 1) + p

/-- Bytes pinned under a ledger key. -/
def Dev.pinnedBytes (d : Dev) (key : Nat) : Nat :=
  ((d.tier.pins.filter fun e => e.patron == key).map fun e =>
    if e.kind = 2 then unitBytes else
    match d.span? e.id with
    | some s => d.pinPart key e.id s
    | none => 0).sum

/-- A patron's pin limit in bytes: TIR_PIN_LIMITp, or its floor (R270). -/
def Dev.pinLimit (d : Dev) (p : Nat) : Nat :=
  let v := d.reg regTirPinLimitp p
  (if v = 0 then d.floor p else v) * 2 ^ 30

/-- A pin ledger entry. -/
def Dev.pinOf (d : Dev) (key kind id unit : Nat) : Option PinEnt :=
  d.tier.pins.find? fun e => e.patron == key && e.kind == kind && e.id == id && e.unit == unit

/-- One more pin in the ledger. -/
def Dev.addPin (d : Dev) (key kind id unit : Nat) : Dev :=
  match d.pinOf key kind id unit with
  | some e => { d with tier := { d.tier with pins := d.tier.pins.map fun x => if x = e then { e with count := e.count + 1 } else x } }
  | none => { d.addMeta key 16 with tier := { d.tier with pins := d.tier.pins ++ [{ patron := key, kind := kind, id := id, unit := unit }] } }

/-- One pin fewer in the ledger. -/
def Dev.dropPin (d : Dev) (key kind id unit : Nat) : Dev :=
  match d.pinOf key kind id unit with
  | some e =>
    if 1 < e.count then
      { d with tier := { d.tier with pins := d.tier.pins.map fun x => if x = e then { e with count := e.count - 1 } else x } }
    else { d.dropMeta key 16 with tier := { d.tier with pins := d.tier.pins.erase e } }
  | none => d

/-- Bytes that a promotion of the span's missing layers would newly bring. -/
def Dev.newPromo (d : Dev) (i : Nat) : Nat :=
  match d.span? i with
  | none => 0
  | some s =>
    let p := d.prof s.profile
    if s.st ≠ 3 then 0
    else (((List.range p.layers).drop (d.promoFrom i s)).map fun k => classBytes (d.promoClass i k s.source p)).sum

/-- A hint promotion of a span, with its bytes added up; of one that is under way the patron becomes a part (R266, R284). -/
def Dev.hintPromote (p : Nat) (adm : Nat × Nat) (r : Nat × Dev) (i : Nat) : Nat × Dev :=
  let n := r.2.newPromo i
  if n = 0 ∧ (tget r.2.tier.promos i).isNone then r
  else (r.1 + n, r.2.startPromo i ((r.2.prof (((r.2.span? i).map (·.profile)).getD 0)).layers - 1) p 2 2 (some adm))

/-- The effect of a hint on spans none of which is vacant (R269, R270). -/
def Dev.hintEffect (d : Dev) (p hint tier : Nat) (ss : List Nat) (adm : Nat × Nat := (0, 0)) : Dev × Ans :=
  let n := ss.length
  -- one that names nothing is OK (R269)
  if n = 0 then (d, {})
  else if hint = 0 then
    let d := ss.foldl Dev.touch d
    let r := ss.foldl (Dev.hintPromote p adm) (0, d)
    (r.2, { r0 := n, r1 := r.1 % 2 ^ 48 })
  else if hint = 1 then (ss.foldl Dev.touch d, { r0 := n })
  else if hint = 2 then
    (ss.foldl (fun (d : Dev) i =>
      -- a promotion that the patron itself caused keeps its charge
      let own := match tget d.tier.promos i with
        | some m => m.patron == p
        | none => false
      (if own then d else d.evictPatron p i).modSpan i fun s => { s with lastTick := d.longAgo }) d, { r0 := n })
  else if hint = 3 then
    let new := ss.filter fun i => (d.pinOf p 0 i 0).isNone
    let more := (new.map fun i => match d.span? i with
      | some s => d.pinPart p i s
      | none => 0).sum
    let full := ss.any fun i => match d.span? i with
      | some s => decide (255 ≤ s.pins)
      | none => false
    if full ∨ d.pinLimit p < d.pinnedBytes p + more ∨ !d.metaFits p (16 * new.length) then (d, { status := stQuota })
    else
      let r := ss.foldl (Dev.hintPromote p adm) (0, d)
      (ss.foldl (fun (d : Dev) i => (d.addPin p 0 i 0).modSpan i fun s => { s with pins := s.pins + 1 }) r.2,
        { r0 := n, r1 := r.1 % 2 ^ 48 })
  else if hint = 4 then
    let held := ss.filter fun i => (d.pinOf p 0 i 0).isSome
    if held.isEmpty then (d, { status := stNotFound })
    else (held.foldl (fun (d : Dev) i => (d.dropPin p 0 i 0).modSpan i fun s => { s with pins := s.pins - 1 }) d, { r0 := held.length })
  else (ss.foldl (fun (d : Dev) i => d.modSpan i fun s => { s with pref := tier }) d, { r0 := n })

/-- A span that a hint finds vacant, or about to be dropped in this tick. -/
def Dev.hintVacant (d : Dev) (i : Nat) : Bool :=
  d.tier.victims.any (fun v => v.1 == i && victimAct v == 0) || match d.span? i with
    | some s => s.st == 4
    | none => true

/-- Vacant spans in a row at the head of a list. -/
def Dev.hintRun (d : Dev) : List Nat → Nat
  | [] => 0
  | i :: t => if d.hintVacant i then 1 + d.hintRun t else 0

/-- A hint on spans: NEEDS_RECOMPUTE at the first vacant one (R269). -/
def Dev.hintSpans (d : Dev) (p hint tier : Nat) (ss : List Nat) (adm : Nat × Nat := (0, 0)) : Dev × Ans :=
  match ss.findIdx? d.hintVacant with
  | some k =>
    let pos := (ss[k]?.bind fun i => (d.span? i).map (·.firstPos)).getD 0
    (d, recomputeAns pos (256 * d.hintRun (ss.drop k)))
  | none => d.hintEffect p hint tier ss adm

/-- A hint on units of a region, at its home (R269, R270). -/
def Dev.hintUnits (d : Dev) (dev p hint tier id first count : Nat) : Dev × Ans :=
  match tget d.rgn.slots (id / 64) with
  | none => (d, { status := stNotFound })
  | some r =>
    let x := id / 64
    let rights := r.isOwner dev p || r.grants.any fun g => g.dev == dev && g.patron == p && !g.revoking
    if !rights ∨ r.st = 4 ∨ r.st = 5 then (d, { status := stNotFound }) else
    let ks := (d.rgn.units.filter fun e => e.1 / 2 ^ 17 == x && decide (first ≤ e.1 % 2 ^ 17)
      && decide (e.1 % 2 ^ 17 < first + count)).map (·.1)
    let n := ks.length
    let key := d.pinKey dev p
    let away := ks.filter fun k => match tget d.rgn.units k with
      | some u => !u.resident && !u.promoting
      | none => false
    let touch := fun (d : Dev) t => ks.foldl (fun (d : Dev) k => d.modUnit k fun u => { u with lastTick := t }) d
    let now := d.tim.count % 2 ^ 32
    let bytes := away.length * unitBytes % 2 ^ 48
    if hint = 0 then ((touch d now).promoteUnits away false, { r0 := n, r1 := bytes })
    else if hint = 1 then (touch d now, { r0 := n })
    else if hint = 2 then (touch d d.longAgo, { r0 := n })
    else if hint = 3 then
      let new := ks.filter fun k => (d.pinOf key 2 id (k % 2 ^ 17)).isNone
      let full := ks.any fun k => match tget d.rgn.units k with
        | some u => decide (255 ≤ u.pins)
        | none => false
      let own := if dev = d.devNo then p else 0
      if full ∨ d.pinLimit own < d.pinnedBytes key + new.length * unitBytes ∨ !d.metaFits key (16 * new.length) then
        (d, { status := stQuota })
      else
        (ks.foldl (fun (d : Dev) k => (d.addPin key 2 id (k % 2 ^ 17)).modUnit k fun u => { u with pins := u.pins + 1 })
          (d.promoteUnits away false), { r0 := n, r1 := bytes })
    else if hint = 4 then
      let held := ks.filter fun k => (d.pinOf key 2 id (k % 2 ^ 17)).isSome
      if held.isEmpty then (d, { status := stNotFound })
      else (held.foldl (fun (d : Dev) k => (d.dropPin key 2 id (k % 2 ^ 17)).modUnit k fun u => { u with pins := u.pins - 1 }) d,
        { r0 := held.length })
    else (d.modRegion x fun r => { r with pref := tier }, { r0 := min count (r.unitCount - first) })

/-- A HINT that another device or this one carries to the region's home. -/
def State.homeHint (s : State) (k : Nat) (j : Job) : State :=
  let x := j.x
  let r := s.dev.hintUnits j.dev x.patron (x.fld 1 0 3) (x.fld 2 0 3) x.object (x.fld 4 0 32) (x.fld 8 0 32)
  ({ s with dev := r.1 }).endJob k r.2

/-- HINT. -/
def State.opHint (s : State) (q : Req) : State :=
  let x := q.d
  let d := s.dev
  let p := x.patron
  let hint := x.fld 1 0 3
  let run := fun ss =>
    let r := d.hintSpans p hint (x.fld 2 0 3) ss (q.admTick, q.admNo)
    { s with dev := r.1.finish q r.2 }
  let fail := { s with dev := d.finish q { status := stNotFound } }
  if x.fld 0 0 2 = 0 then
    match d.live? x.object with
    | some sp => if d.visibleBefore p x.object sp then run [x.object] else fail
    | none => fail
  else if x.fld 0 0 2 = 1 then
    match d.seq? p x.object with
    | none => fail
    | some (i, r) =>
      let all := (d.walkSpans (r.walk i)).drop (x.fld 4 0 32)
      run (if x.fld 8 0 32 = 0 then all else all.take (x.fld 8 0 32))
  else s.opRegion State.homeHint q x.object

end Sys2Proof.Machine
end

