-- ==== Sys2Proof/Machine/Deliver.lean ====
section
/-! DEFINITION. Delivery: blocks, weight volumes, DELIVER and layer streams, and the charge of reads (R50, R273 to R279). -/

namespace Sys2Proof.Machine

/-! ### The charge of reads (R50, R423) -/

/-- Entries of the charge filter. -/
def filterSize : Nat := 262144

/-- A folio in the charge filter. -/
def folioKey (span layer : Nat) : Nat := span * 65536 + layer

/-- Units of 64 KiB of the frame a folio is read from. -/
def Dev.folioUnits (d : Dev) (i layer : Nat) : Nat :=
  match d.span? i with
  | none => 0
  | some s =>
    let p := d.prof s.profile
    let h := ((s.frames[layer]?).map (·.primary)).getD 0
    ceilDiv (if h ≠ 0 then hBytes h else classBytes (if s.st = 3 then d.promoClass i layer s.source p else p.openClass)) 65536

/-- Charge one folio: its units, 0 where the filter holds it. -/
def Dev.chargeFolio (d : Dev) (f : Nat × Nat) : Nat × Dev :=
  let k := folioKey f.1 f.2
  if d.adm.filter.length < filterSize ∧ d.adm.filter.contains k then (0, d)
  else (d.folioUnits f.1 f.2, if d.adm.filter.length < filterSize then { d with adm := { d.adm with filter := d.adm.filter ++ [k] } } else d)

/-- Charge a set of folios: units, folios newly charged, the device. -/
def Dev.chargeFolios (d : Dev) (fs : List (Nat × Nat)) : Nat × Nat × Dev :=
  fs.foldl (fun r f => let c := r.2.2.chargeFolio f; (r.1 + c.1, r.2.1 + (if c.1 = 0 then 0 else 1), c.2)) (0, 0, d)

/-! ### Blocks (R273) -/

/-- One image of a block: its span, format code, role and bytes. -/
structure Image where
  span : Nat
  fmt : Nat
  role : Nat
  data : List Byte

/-- The images of a span's frames of one layer: primary, tail where held, twin where asked for and held. -/
def Dev.images (d : Dev) (strict : Bool) (layer i : Nat) : List Image × Dev :=
  match d.span? i with
  | none => ([], d)
  | some s =>
    let p := d.prof s.profile
    let f := (s.frames[layer]?).getD {}
    let rows := tgetD s.rows layer []
    let (n, d) := d.draw
    let tick := match tget s.closed layer with
      | some c => c.churnTick
      | none => 0
    let prim : Image := match tget s.closed layer with
      | some c => ⟨i, c.format, 0, closedImage p s.profile layer i s.firstPos (hClass f.primary) c⟩
      | none => ⟨i, 4, 0, openImage p s.profile layer i s.fill s.firstPos 4 n (hClass f.primary) 0 rows⟩
    let tail := if s.tailHeld then [⟨i, 5, 1, tailImage p s.profile layer i s.firstPos n tick (tgetD s.tails layer [])⟩] else []
    let twin := if strict && s.twinHeld then [⟨i, 6, 2, openImage p s.profile layer i 256 s.firstPos 6 n (hClass f.twin) tick rows⟩] else []
    (prim :: (tail ++ twin), d)

/-- The images of several spans in table order. -/
def Dev.allImages (d : Dev) (strict : Bool) (layer : Nat) (spans : List Nat) : List Image × Dev :=
  spans.foldl (fun r i => let x := r.2.images strict layer i; (r.1 ++ x.1, x.2)) ([], d)

/-- Directory entries: images follow one another from an offset. -/
def dirEntries : List Image → Nat → List Byte
  | [], _ => []
  | m :: ms, off => leBytes 4 m.span ++ leBytes 1 m.fmt ++ leBytes 1 m.role ++ leBytes 2 0 ++ leBytes 4 off ++ leBytes 4 m.data.length
      ++ dirEntries ms (off + m.data.length)

/-- A delivery block: layer header, directory, images, weights. -/
def deliveryBlock (layer gen tokens : Nat) (ms : List Image) (weights : Option (List Byte)) : List Byte :=
  let head := alignK (64 + 16 * ms.length)
  let body := ms.flatMap (·.data)
  let wOff := alignK (head + body.length)
  let w := weights.getD []
  let total := if weights.isSome then wOff + w.length else head + body.length
  let lead := padTo head (leBytes 2 layer ++ leBytes 2 0 ++ leBytes 4 ms.length ++ leBytes 4 gen ++ leBytes 4 tokens ++ leBytes 8 total
    ++ leBytes 8 (if weights.isSome then wOff else 0) ++ leBytes 8 w.length ++ List.replicate 24 0 ++ dirEntries ms head)
  if weights.isSome then padTo wOff (lead ++ body) ++ w else lead ++ body

/-- The frame of a span that a block would hold has a poisoned line (R450). -/
def Dev.blockPoisoned (d : Dev) (layer i : Nat) : Bool :=
  match d.span? i with
  | none => false
  | some s => s.damaged || d.frameBad i layer 0

/-! ### Weight volumes (R274, R392) -/

/-- What reading lines of a volume comes to: all there, awaited, or failed. -/
inductive Fetch where
  | ready (s : State)
  | waits (s : State)
  | fails (status r0 : Nat)

/-- The job under which a DELIVER or a stream fetches lines of another device. -/
def Dev.fetchJob (d : Dev) (key : Nat) : Option (Nat × Job) := d.fab.jobs.find? fun e => e.2.op == 0x22 && e.2.at_ == key

/-- Forget what was fetched. -/
def Dev.dropFetch (d : Dev) (key : Nat) : Dev :=
  { d with fab := { d.fab with jobs := tkeep d.fab.jobs fun _ j => !(j.op == 0x22 && j.at_ == key) } }

/-- Have the lines at pool addresses of a region at hand: at this home, or fetched under a job (R392, R450). -/
def State.fetchLines (s : State) (p key id : Nat) (addrs : List Nat) : Fetch :=
  let d := s.dev
  let t := d.servesRegion id
  if t = d.devNo then
    match addrs.findSome? fun a => d.homeRefuses 0x01 { source := d.srcOf p 1, addr := a } with
    | some st => .fails st 0
    | none =>
      let out := (addrs.flatMap fun a => d.awaitsUnit a 1).eraseDups
      -- units of a cluster that is out of service cannot be read until it returns (R32)
      if addrs.any fun a => d.fencedUnit a 1 then .waits s
      else if !out.isEmpty then .waits { s with dev := d.promoteUnits out }
      else match addrs.find? fun a => d.linePoisoned (a % 2 ^ 50 / 64) with
        | some a => .fails stPoison a
        | none => .ready { s with dev := addrs.foldl (fun (d : Dev) a => d.touchUnits a 1) d }
  else
    let (k, d) := match d.fetchJob key with
      | some (k, _) => (k, d)
      | none => d.newJob { op := 0x22, x := { patron := p }, dev := d.devNo, at_ := key }
    match tget d.fab.jobs k with
    | none => .ready s
    | some j =>
      if j.wait ≠ 0 then .waits { s with dev := d }
      else if j.ans.status ≠ stOk then .fails j.ans.status j.ans.r0
      else
        let d := d.fromBorrow k addrs
        let miss := (addrs.filter fun a => (tget j.got (a / 64)).isNone && (tget d.fab.borrow (a / 64)).isNone).eraseDups
        if miss.isEmpty then .ready { s with dev := d }
        else if d.isDead t then .fails (d.deadStatus id true) 0
        else
          let d := d.modJob k fun j => { j with wait := miss.length, fetching := true }
          .waits { s with dev := miss.foldl (fun (d : Dev) a => (d.sendReq t 0x03 { source := d.srcOf p 1, addr := a } id (some k)).2) d }

/-- The bytes of a range of a region, from this home or from what was fetched. -/
def State.volumeBytes (s : State) (key id off n : Nat) : List Byte :=
  let got := match s.dev.fetchJob key with
    | some (_, j) => j.got
    | none => []
  let a := regionAddr id + off
  let lines := (List.range (ceilDiv (a % 64 + n) 64)).flatMap fun i =>
    let l := a / 64 + i
    if s.dev.servesRegion id = s.dev.devNo then s.lineData (64 * l) else tgetD got l (List.replicate 64 0)
  (lines.drop (a % 64)).take n

/-- The line addresses of a range of a region. -/
def rangeLines (id off n : Nat) : List Nat :=
  let a := regionAddr id + off
  (List.range (ceilDiv (a % 64 + n) 64)).map fun i => 64 * (a / 64 + i)

/-- What a weight volume comes to for some layers: an answer that ends the delivery, a wait, or each layer's range. -/
inductive Volumes where
  | stop (a : Ans)
  | waits (s : State)
  | ranges (s : State) (l : List (Nat × Nat))

/-- The bound of a volume's ranges: the region's size, or the end of the mapping at another device. -/
def Dev.volumeSize (d : Dev) (p id : Nat) : Nat :=
  if d.servesRegion id = d.devNo then ((tget d.rgn.slots (id / 64)).map (·.size)).getD 0
  else ((d.rgn.maps.find? fun (m : Mapping) => m.region == id && m.patron == p).map fun (m : Mapping) => (m.first + m.count) * unitBytes).getD 0

/-- The region's WEIGHTS attribute. -/
def Dev.isWeights (d : Dev) (id : Nat) : Bool :=
  match d.mapOf id with
  | some m => bit m.attrs 4
  | none => false

/-- The ranges of layers `first ..`, `count` of them, and their lines at hand (R274). The body offset of VOLUME is `off`. -/
def State.volume (s : State) (p key id off first count : Nat) : Volumes :=
  let d := s.dev
  let bad := Volumes.stop (.bad 0x05 (bodyOff off))
  match d.extentRefused p 8192 [(regionAddr id, off, 0)] with
  | some a => .stop a
  | none =>
    if !d.isWeights id ∨ 511 < first + count then bad else
    match s.fetchLines p key id (rangeLines id 0 16 ++ rangeLines id (16 + 16 * first) (16 * count)) with
    | .fails st r0 => .stop { status := st, r0 := r0 }
    | .waits s => .waits s
    | .ready s =>
      let head := s.volumeBytes key id 0 16
      let ents := (List.range count).map fun i =>
        let e := s.volumeBytes key id (16 + 16 * (first + i)) 16
        (fieldAt e 0 8, fieldAt e 8 8)
      if fieldAt head 0 2 < first + count ∨ fieldAt head 2 14 ≠ 0
        ∨ ents.any (fun e => e.2 == 0 || decide (d.volumeSize p id < e.1 + e.2)) then bad
      else match ents.findSome? fun e => d.extentRefused p ((e.1 % 64 + e.2 + 63) / 64 * 64) [((regionAddr id + e.1) / 64 * 64, off, 0)] with
        | some a => .stop a
        | none => match s.fetchLines p key id (ents.flatMap fun e => rangeLines id e.1 e.2) with
          | .fails st r0 => .stop { status := st, r0 := r0 }
          | .waits s => .waits s
          | .ready s => .ranges s ents

/-! ### DELIVER (R275) -/

/-- The form of DELIVER. -/
def formDeliver (x : DescIn) : Form :=
  let folios := x.fld 0 0 1 == 1
  let weights := x.fld 0 1 1 == 1
  { entries := (· == 1), classes := [0, 1, 2], object := fun o => folios || o == 0
    items := fun x =>
      [.need (!folios || x.object != 0) 0x05 0, .need (folios || weights) 0x05 0, .rsv 0 3 5] ++ rsvBytes 1 1
      ++ [.val 4 0 16 fun v => decide (1 ≤ v) && decide (v ≤ 256)] ++ rsvBytes 6 2
      ++ [.val 16 0 32 fun v => if weights then isRegionId v else v == 0] ++ rsvBytes 20 12
      ++ [.outBuf 32 fun _ => true] ++ rsvBytes 48 64 }

/-- The spans a DELIVER names. -/
def Dev.deliverSpans (d : Dev) (x : DescIn) (w : Walk) : List Nat :=
  let l := (d.walkSpans w).drop (x.fld 8 0 32)
  if x.fld 12 0 32 = 0 then l else l.take (x.fld 12 0 32)

/-- Begin the walk of a DELIVER: the request with its walk, or its answer. -/
def Dev.deliverPlan (d : Dev) (q : Req) : Dev × Req × Option Ans :=
  let x := q.d
  if x.fld 0 0 1 ≠ 1 then (d, q, none) else
  match d.seq? x.patron x.object with
  | none => (d, q, some { status := stNotFound })
  | some (i, r) =>
    let layers := (d.prof r.profile).layers
    if layers ≤ x.fld 2 0 16 then (d, q, some (.bad 0x05 (bodyOff 2)))
    else if layers < x.fld 2 0 16 + x.fld 4 0 16 then (d, q, some (.bad 0x05 (bodyOff 4)))
    else
      let w := r.walk i
      let ss := d.deliverSpans x w
      let w := { w with spans := ss }
      match ss.findIdx? d.vacantAt with
      | some k =>
        let pos := ((ss[k]?).bind fun i => (d.span? i).map (·.firstPos)).getD 0
        (d, q, some (recomputeAns pos (256 * d.vacantRun (ss.drop k))))
      | none => (d.beginWalk w, { q with walks := [w], prof := r.profile }, none)

/-- Write the blocks of a DELIVER, layer by layer: the output offset after the last, the bytes. -/
def State.deliverBlocks (s : State) (q : Req) (ss : List Nat) (ws : List (Nat × Nat)) : List (Nat × List Byte) × Dev :=
  let x := q.d
  let w := q.walks.head?
  let r := (List.range (x.fld 4 0 16)).foldl (fun (r : List (Nat × List Byte) × Nat × Dev) i =>
    let layer := x.fld 2 0 16 + i
    let (ms, d) := r.2.2.allImages (x.fld 0 2 1 == 1) layer ss
    let tokens := (w.map fun w => tokensAt w.length w.pendCount w.pendLayers layer).getD 0
    let wb := (ws[i]?).map fun e => s.volumeBytes q.id (x.fld 16 0 32) e.1 e.2
    let b := deliveryBlock layer ((w.map (·.gen)).getD 0) tokens ms wb
    (r.1 ++ [(r.2.1, b)], alignK (r.2.1 + b.length), d)) ([], 0, s.dev)
  (r.1, r.2.2)

/-- Execute a DELIVER whose walk has begun: its answer, or none when it waits (R273, R275, R280). -/
def State.deliverRun (s : State) (q : Req) : State × Req × Option Ans :=
  let x := q.d
  let d := s.dev
  let last := x.fld 2 0 16 + x.fld 4 0 16 - 1
  let strict := x.fld 0 2 1 == 1
  let ss := (q.walks.head?.map (·.spans)).getD []
  match ss.findIdx? d.vacantAt with
  | some k =>
    let pos := ((ss[k]?).bind fun i => (d.span? i).map (·.firstPos)).getD 0
    (s, q, some (recomputeAns pos (256 * d.vacantRun (ss.drop k))))
  | none =>
    match d.awaited last ss with
    | i :: is => let r := d.awaitSpans q last (i :: is); ({ s with dev := r.1 }, r.2, none)
    | [] =>
      let layers := (List.range (x.fld 4 0 16)).map (x.fld 2 0 16 + ·)
      let s := s.onDev fun d => layers.foldl (fun d l => ss.foldl (Dev.shedBad · l true strict) d) d
      let d := s.dev
      match ss.find? fun i => layers.any fun l => d.blockPoisoned l i with
      | some i =>
        let pos := ((d.span? i).map (·.firstPos)).getD 0
        (s.onDev fun d => d.vacate i, q, some { status := stPoison, r0 := pos + 2 ^ 32 * 256 })
      | none =>
        match (if x.fld 0 1 1 = 1 then s.volume x.patron q.id (x.fld 16 0 32) 16 (x.fld 2 0 16) (x.fld 4 0 16) else .ranges s []) with
        | .stop a => (s.onDev fun d => d.dropFetch q.id, q, some a)
        | .waits s => (s, { q with waits := true, stall := 4 }, none)
        | .ranges s ws =>
          let (bs, d) := s.deliverBlocks q ss ws
          let d := d.dropFetch q.id
          let stop := (bs.map fun b => b.1 + b.2.length).foldl max 0
          if x.outLen 32 < stop then ({ s with dev := s.dev.dropFetch q.id }, q, some (.bad 0x05 (bodyOff 32)))
          else if x.refuses 32 then ({ s with dev := s.dev.dropFetch q.id }, q, some (.bad 0x08 (bodyOff 32)))
          else
            let d := ss.foldl Dev.touch d
            let d := bs.foldl (fun (d : Dev) b => d.writeOut x 32 b.1 b.2) d
            let n := (bs.map fun b => b.2.length).sum
            ({ s with dev := d }, { q with waits := false, stall := 0 },
              some { r0 := (q.walks.head?.map (·.gen)).getD 0, r1 := n % 2 ^ 48 })

/-- A DELIVER from its walk to its answer. -/
def State.opDeliver (s : State) (q : Req) : State × Req × Option Ans :=
  if q.walks.isEmpty then
    match s.dev.deliverPlan q with
    | (d, q, some a) => ({ s with dev := d }, q, some a)
    | (d, q, none) => ({ s with dev := d }).deliverRun q
  else s.deliverRun q

/-! ### Layer streams (R276–R279) -/

/-- The form of STREAM. -/
def formStream (d : Dev) (p : Nat) : Form :=
  { entries := (· == 0), classes := [0, 1, 2]
    items := fun x =>
      let mode := x.fld 0 0 2
      let del := mode == 1
      let w := x.fld 3 0 5
      let base := 65536 * x.fld 12 0 32
      let all := 65536 * x.fld 6 0 8 * x.fld 8 0 32
      let size := d.shelfBytes w
      let z := fun (v : Nat) (ok : Bool) => if del then ok else v == 0
      -- outside DELIVER the table asks WINDOW and SLOTS alone to be zero (R276)
      let o := fun (ok : Bool) => !del || ok
      [.val 0 0 2 (· != 3), .rsv 0 3 5, .rsv 1 4 4,
       .val 2 0 8 (fun v => if mode = 2 then v == 0 else decide (1 ≤ v) && decide (v ≤ 16)),
       .val 3 0 5 (fun v => del || v == 0),
       .perm 3 0 5 (fun v => !del || (d.reg regTirShelfnCtrl v 0 0 == 1 && d.reg regTirShelfnCtrl v 0 2 == 1 && d.reg regTirShelfnCtrl v 0 3 == p)),
       .rsv 3 5 3,
       .val 6 0 8 (fun v => z v (decide (2 ≤ v) && decide (v ≤ 64)))] ++ rsvBytes 7 1
      ++ [.val 8 0 32 (fun v => o (decide (1 ≤ v) && decide (v ≤ 16384))),
          .val 12 0 32 (fun _ => o (decide (base + all ≤ size))),
          .val 16 0 32 (fun v => o (v % 64 == 0 && decide (v + 64 ≤ size) && (decide (v + 64 ≤ base) || decide (base + all ≤ v)))),
          .val 20 0 32 (fun v => o (v == 0 || isRegionId v))]
      ++ rsvBytes 32 16 }

/-- Bytes of the progress cell at a start. -/
def zeroCell : List Byte := List.replicate 64 0

/-- STREAM: stop, start or replace. -/
def Dev.opStream (d : Dev) (q : Req) : Dev × Ans :=
  let x := q.d
  let p := x.patron
  let id := x.fld 1 0 4
  let key := 16 * p + id
  if x.fld 0 0 2 = 2 then
    if (tget d.tier.streams key).isNone then (d, { status := stNotFound }) else ((d.endStream p id 1).dropFetch (2 ^ 40 + key), { r0 := id })
  else
    match d.seq? p x.object with
    | none => (d, { status := stNotFound })
    | some (i, r) =>
      if (d.prof r.profile).layers ≤ x.fld 4 0 16 then (d, .bad 0x05 (bodyOff 4)) else
      let d := (d.endStream p id 1).dropFetch (2 ^ 40 + key)
      let st : StreamSt :=
        { mode := x.fld 0 0 2, strict := x.fld 0 2 1 == 1, lead := x.fld 2 0 8, window := x.fld 3 0 5, firstLayer := x.fld 4 0 16
          slots := x.fld 6 0 8, slotUnits := x.fld 8 0 32, slotBase := x.fld 12 0 32, cell := x.fld 16 0 32, volume := x.fld 20 0 32
          steps := x.fld 24 0 64, record := i, adm := (q.admTick, q.admNo) }
      let d := { d with tier := { d.tier with streams := tset d.tier.streams key st } }
      let d := if st.mode ≠ 1 then d
        else if d.shelfOn st.window then d.emit (.peerWrite st.window st.cell (.bytes zeroCell))
        else d.endStream p id 5
      (d, { r0 := id })

/-- The layer up to which a stream keeps spans promoted (R277, R278). -/
def StreamSt.reach (s : StreamSt) (layers : Nat) : Nat :=
  min (layers - 1) (if s.mode = 1 then (s.firstLayer + s.delivered) % layers + s.lead
    else match s.pos with
      | some l => l + s.lead
      | none => s.firstLayer + s.lead - 1)

/-- The lead promotions of every stream (R264, R277, R278). -/
def Dev.leadStreams (d : Dev) : Dev :=
  d.tier.streams.foldl (fun d e => match tget d.seqs.recs e.2.record with
    | none => d
    | some r =>
      let l := e.2.reach (d.prof r.profile).layers
      (d.awaited l (d.walkSpans (r.walk e.2.record))).foldl (fun (d : Dev) i => d.startPromo i l (e.1 / 16) 1 2 (some e.2.adm)) d) d

/-- The slot of a DELIVER-mode stream that is free next is planned, and its walk begins; a slot that waits keeps the walk it has (R213,
R277, R280). -/
def Dev.planSlot (d : Dev) (k : Nat) (x : StreamSt) : Dev :=
  if x.mode ≠ 1 ∨ x.fresh ∨ x.released + x.slots ≤ x.delivered ∨ x.walk.isSome then d else
  match tget d.seqs.recs x.record with
  | none => d
  | some r =>
    let w := r.walk x.record
    let w := { w with spans := d.walkSpans w }
    let d := d.beginWalk w
    { d with tier := { d.tier with streams := tset d.tier.streams k { x with walk := some w, carried := false } } }

/-- The streams in the plan phase: free slots are planned, layers ahead are promoted (R277, R278). -/
def Dev.planStreams (d : Dev) : Dev := (d.tier.streams.foldl (fun (d : Dev) e => d.planSlot e.1 e.2) d).leadStreams

/-- Walks of slots written in the tick end in the close phase; a slot that is planned and not written keeps its walk (R213). -/
def Dev.endSlots (d : Dev) : Dev :=
  d.tier.streams.foldl (fun (d : Dev) e =>
    let x := e.2
    let waits := decide (x.delivered < x.released + x.slots)
    let gone := x.ended ++ (if waits then [] else x.walk.toList)
    let x := { x with ended := [], walk := if waits then x.walk else none, carried := waits && x.walk.isSome }
    gone.foldl Dev.endWalk { d with tier := { d.tier with streams := tset d.tier.streams e.1 x } }) d

/-- Charge a slot's write as a read of one layer (R50, R277). -/
def Dev.chargeSlot (d : Dev) (prof layer : Nat) (ss : List Nat) : Dev :=
  let c := d.chargeFolios (ss.map fun i => (i, layer))
  let margin := ceilDiv (classBytes (d.prof prof).closedClass) 65536
  { c.2.2 with adm := { c.2.2.adm with charge := c.2.2.adm.charge + c.1 + margin } }

/-- The stream after a slot's write: a walk that began in an earlier tick served that slot alone; one of this tick serves the slots after
it as well. -/
def StreamSt.wrote (x : StreamSt) : StreamSt :=
  if x.carried then { x with delivered := x.delivered + 1, walk := none, carried := false, ended := x.ended ++ x.walk.toList }
  else { x with delivered := x.delivered + 1 }

/-- A stream writes its next slot (R277), as a read of the execute phase (R54), through the walk that the plan phase began: nothing while
the slot is not planned or a folio is awaited. -/
def State.slotWrite (s : State) (p id : Nat) : State :=
  let key := 16 * p + id
  let d := s.dev
  match tget d.tier.streams key with
  | none => s
  | some st =>
    if !d.inPhase .execute ∨ st.mode ≠ 1 ∨ st.fresh ∨ st.released + st.slots ≤ st.delivered then s else
    let stop := fun (s : State) (reason : Nat) => s.onDev fun d => (d.endStream p id reason).dropFetch (2 ^ 40 + key)
    if !d.shelfOn st.window then stop s 5 else
    match st.walk, tget d.seqs.recs st.record with
    | none, _ => s
    | some _, none => stop s 2
    | some w, some r =>
      let layers := (d.prof r.profile).layers
      let layer := (st.firstLayer + st.delivered) % layers
      let ss := w.spans
      -- folios of a cluster that is out of service are waited for (R32, R462)
      if ss.any d.vacantAt ∨ ss.any (fun i => ((d.span? i).map d.frameOut).getD false) then s else
      match d.awaited layer ss with
      | i :: is => s.onDev fun d => (i :: is).foldl (fun (d : Dev) i => d.startPromo i layer p 1 2 (some st.adm)) d
      | [] =>
        let s := s.onDev fun d => ss.foldl (Dev.shedBad · layer true st.strict) d
        let d := s.dev
        match ss.find? fun i => d.blockPoisoned layer i with
        | some i => stop (s.onDev fun d => d.vacate i) 7
        | none =>
          match (if st.volume ≠ 0 then s.volume p (2 ^ 40 + key) st.volume 20 layer 1 else .ranges s []) with
          | .stop a => stop s (if a.status = stPoison then 7 else 3)
          | .waits s => s
          | .ranges s ws =>
            let d := s.dev
            let (ms, d) := d.allImages st.strict layer ss
            let wb := ws.head?.map fun e => s.volumeBytes (2 ^ 40 + key) st.volume e.1 e.2
            let b := deliveryBlock layer w.gen (tokensAt w.length w.pendCount w.pendLayers layer) ms wb
            let room := 65536 * st.slotUnits
            if room < b.length then stop s 4 else
            let d := ((ss.foldl Dev.touch d).dropFetch (2 ^ 40 + key)).chargeSlot r.profile layer ss
            let at_ := 65536 * st.slotBase + st.delivered % st.slots * room
            let n := st.delivered + 1
            let d := d.emit (.peerWrite st.window at_ (.bytes b))
            let d := d.emit (.peerRead st.window at_ 0)
            let d := d.emit (.peerWrite st.window (st.cell + 8) (.bytes (leBytes 8 n)))
            let d := d.count .slotsWritten p
            let d := { d with tier := { d.tier with streams := tset d.tier.streams key st.wrote } }
            { s with dev := if st.steps ≠ 0 ∧ st.steps ≤ n then d.endStream p id 6 else d }

/-- STREAM_SLOT_WRITE. -/
def execStreamSlotWrite (p id : Nat) (s : State) : Host.Outcome State Fault Refusal := .next (s.slotWrite p id)

end Sys2Proof.Machine
end

