-- ==== Sys2Proof/Machine/Profiles.lean ====
section
/-! DEFINITION. Model profiles and churn (R24, R132, R138 to R153, R282, R283). -/

namespace Sys2Proof.Machine

/-! ### PROFILE_REGISTER (R149–R151, R282) -/

/-- The dimension is one of its layout's. -/
def dimOk (latent : Bool) (v : Nat) : Bool :=
  decide (64 ≤ v) && (if latent then decide (v ≤ 576) && v % 64 == 0 else decide (v ≤ 256) && v % 16 == 0)

/-- The form of PROFILE_REGISTER: fields in byte order, the minimum classes last, at KV_HEADS. -/
def formProfileRegister (patron : Nat) : Form :=
  { entries := (· == 0), classes := anyClass, object := fun o => decide (o < 256)
    items := fun x =>
      let p : Profile := { body := x.body }
      let lat := x.fld 13 0 1 == 1
      let q := x.fld 10 0 16
      let cls := fun (least v : Nat) => v == 0 || (decide (least ≤ v) && decide (v ≤ 31))
      [.val 8 0 16 fun v => decide (1 ≤ v) && decide (v ≤ 256), .val 10 0 16 fun v => decide (1 ≤ v) && decide (v ≤ if lat then 128 else 256),
       .val 12 0 8 (fun v => if lat then v == 1 else
         decide (1 ≤ v) && decide (v ≤ 32) && q % v == 0 && decide (1 ≤ q / v) && decide (q / v ≤ 16)),
       .perm 13 1 1 (fun v => v == 0 || patron == 0), .rsv 13 2 6, .val 14 0 16 (dimOk lat),
       .val 16 0 2 fun v => decide (v ≤ 1), .val 16 2 2 (fun v => v == x.fld 16 0 2 || v == 2 || v == 3), .rsv 16 4 4,
       .val 17 0 4 fun v => decide (v ≤ 8), .rsv 17 4 4, .val 18 0 8 (cls p.minClosed), .val 19 0 8 (cls p.minOpen),
       .val 24 0 16 fun v => decide (v ≤ 4096)] ++ rsvBytes 26 2
      ++ [.val 28 0 32 fun v => decide (1 ≤ v) && decide (v ≤ 4194304), .val 32 0 32 (· != 0)] ++ rsvBytes 36 12
      ++ [.need (decide (p.minClosed ≤ 31) && decide (p.minOpen ≤ 31) && decide (p.minFlash ≤ 31) && decide (p.tailClass ≤ 31)) 0x05 12] }

/-- The hot set of a profile in bytes (R282). -/
def Profile.hotSet (p : Profile) : Nat :=
  p.hotSeqs * p.layers * (p.hotTokens / 256 * classBytes p.closedClass + classBytes p.openClass + classBytes p.tailClass)

/-- The shortfall of a new profile of a patron: its hot set beyond the share that its other ACTIVE profiles leave. -/
def Dev.fitShortfall (d : Dev) (owner : Nat) (p : Profile) : Nat :=
  let others := (d.seqs.profiles.filter fun e => e.2.owner == owner && e.2.st == 1).map fun e => (e.2.hotSet : Int) - e.2.shortfall
  let room : Int := (d.share owner : Int) - others.sum
  ((p.hotSet : Int) - room).toNat

/-- PROFILE_REGISTER. A shortfall of 2^64 bytes or more shows its low 64 bits (DESIGN CHOICE, assumption 131). -/
def Dev.opProfileRegister (d : Dev) (q : Req) : Dev × Ans :=
  let n := q.d.object
  match tget d.seqs.profiles n with
  | some p => (d, { status := stPresent, r0 := p.uid })
  | none =>
    let p : Profile := { body := q.d.body, owner := q.d.patron }
    let short := d.fitShortfall q.d.patron p
    if d.share q.d.patron / 8 < short then (d.count .profRefused 0, { status := stRefusedFit, r0 := short })
    else
      let p := { p with shortfall := short, cap := p.capWord }
      ({ d with seqs := { d.seqs with profiles := tset d.seqs.profiles n p } },
        { status := if short = 0 then stOk else stTight, r0 := short, r1 := p.capWord })

/-! ### PROFILE_RETIRE (R152, R153) -/

/-- The form of PROFILE_RETIRE. -/
def formProfileRetire : Form :=
  { entries := (· == 0), classes := anyClass, object := fun o => decide (o < 256), items := fun _ => rsvBytes 0 48 }

/-- Spans of a profile. -/
def Dev.profSpans (d : Dev) (n : Nat) : Nat := (d.seqs.spans.filter fun e => e.2.profile == n).length

/-- The profile has spans or sequences. -/
def Dev.profUsed (d : Dev) (n : Nat) : Bool :=
  d.seqs.spans.any (fun e => e.2.profile == n) || d.seqs.recs.any fun e => e.2.profile == n

/-- Retire a profile: RETIRING while spans or sequences remain, else FREE; the entries of its spans in private scopes go. -/
def Dev.retireProfile (d : Dev) (n : Nat) : Dev :=
  let d := d.withdrawAll fun _ e => decide (e.scope < 64) && (match d.span? e.span with
    | some s => s.profile == n
    | none => false)
  if d.profUsed n then { d with seqs := { d.seqs with profiles := tmod d.seqs.profiles n fun p => { p with st := 2 } } }
  else { d with seqs := { d.seqs with profiles := tdel d.seqs.profiles n } }

/-- PROFILE_RETIRE. -/
def Dev.opProfileRetire (d : Dev) (q : Req) : Dev × Ans :=
  let n := q.d.object
  match tget d.seqs.profiles n with
  | none => (d, { status := stNotFound })
  | some p =>
    if p.owner ≠ q.d.patron ∧ q.d.patron ≠ 0 then (d, .bad 0x06 4)
    else if p.st = 2 then (d, { status := stNotFound })
    else (d.retireProfile n, { r0 := d.profSpans n })

/-- RETIRING profiles with nothing left become FREE, in the close phase. -/
def Dev.freeRetired (d : Dev) : Dev :=
  { d with seqs := { d.seqs with profiles := tkeep d.seqs.profiles fun n p => p.st != 2 || d.profUsed n } }

/-! ### Churn (R138–R144) -/

/-- A twin of the span is kept (R144). -/
def Span.keepsTwin (s : Span) (p : Profile) : Bool := decide (s.firstPos < 256 * p.twinSpans) || s.twinMark

/-- The frames of one layer's churn: closed frame and, without a twin, tail frame, on the open frame's die (R24). -/
def Dev.churnPlace (d : Dev) (cluster : Nat) (p : Profile) (twin : Bool) : Option (Nat × Nat × Used) :=
  let n := classBytes p.closedClass + (if twin then 0 else classBytes p.tailClass)
  if d.freeBytes < d.allReserved + n then none else
  match d.place d.seqs.used (orderR24 cluster) p.closedClass with
  | none => none
  | some (h, u) =>
    if twin then some (h, 0, u) else (d.place u (orderR24 cluster) p.tailClass).map fun r => (h, r.1, r.2)

/-- Churn one layer, its frames given. -/
def Dev.churnLayer (d : Dev) (i layer h t : Nat) (u : Used) (s : Span) (p : Profile) : Dev :=
  let r := churnFolio p s.firstPos d.tim.count (tgetD s.rows layer [])
  let c : ChurnRec := { primary := h, tail := t, folio := r.1, clipped := r.2 }
  let d := (d.withUsed u).count .clipped 0 r.2
  { d with seqs := { d.seqs with churn := tset d.seqs.churn i (tset (tgetD d.seqs.churn i []) layer c) } }

/-- The cluster of a layer's open frame. -/
def Span.openCluster (s : Span) (layer : Nat) : Nat := hCluster (((s.frames[layer]?).map (·.primary)).getD 0)

/-- One layer of a churn: done, or left for frames; the layers left before it. -/
def Dev.churnOne (i : Nat) (s : Span) (p : Profile) (r : List Nat × Dev) (layer : Nat) : List Nat × Dev :=
  match r.2.churnPlace (s.openCluster layer) p (s.keepsTwin p) with
  | some (h, t, u) => (r.1, r.2.churnLayer i layer h t u s p)
  | none => (r.1 ++ [layer], r.2)

/-- The frames of all some layers can be formed. -/
def Dev.churnFits (d : Dev) (s : Span) (p : Profile) : List Nat → Bool
  | [] => true
  | l :: ls => match d.churnPlace (s.openCluster l) p (s.keepsTwin p) with
    | some r => (d.withUsed r.2.2).churnFits s p ls
    | none => false

/-- Layers of a churn wait for frames (R140): victims are taken without the restrictions of R260 until every one of them has its
frames, and the layers go on in a later tick. Where the candidates run out first none is taken, as step 4 of R217 has it (DESIGN CHOICE,
assumption 128). -/
def Dev.churnEvict (d : Dev) (s : Span) (p : Profile) (layers : List Nat) : Dev :=
  match d.scratch.evictFor false true 0 (fun _ => false) (fun x => x.churnFits s p layers) with
  | (some e, _) => { d.noteRefused e with tier := { (d.noteRefused e).tier with victims := d.tier.victims ++ e.victims } }
  | (none, e) => d.noteRefused e

/-- Churn a span in its execute phase (R138): each layer not yet churned and not left unfinished. -/
def Dev.churnSpan (d : Dev) (i : Nat) (unfinished : List Nat) (uncorrectable : Bool) : Dev :=
  match d.span? i with
  | none => d
  | some s =>
    let due := match s.churnAt with
      | some t => decide (t ≤ d.tim.count)
      | none => false
    if !due then d
    else if s.ref = 0 ∨ s.st ≠ 2 then d.cancelChurn i
    else if uncorrectable ∨ (d.flt.frames.any fun f => f.1 == i && f.2.2.1 == 0) then d.vacate i
    else
      let p := d.prof s.profile
      -- a folio whose owner cluster is out of service waits for it (R32)
      let away := fun (l : Nat) => d.flt.out.contains (s.openCluster l)
      let todo := (List.range p.layers).filter fun l => (tget (tgetD d.seqs.churn i []) l).isNone && !away l
      let now := todo.filter fun l => !unfinished.contains l
      let r := now.foldl (Dev.churnOne i s p) ([], d)
      let d := if r.1.isEmpty then r.2 else (r.2.churnEvict s p r.1).count .churnDefer s.owner
      if todo.any unfinished.contains then d.count .churnRoll 0 else d

/-- The switch of a span whose every layer is churned, in the close phase (R139, R144, R283). -/
def Dev.switchSpan (d : Dev) (i : Nat) (cs : Tab ChurnRec) : Dev :=
  match d.span? i with
  | none => d
  | some s =>
    let p := d.prof s.profile
    if cs.length < p.layers ∨ s.st ≠ 2 then d else
    let twin := s.keepsTwin p
    let (key, hashed) := d.spanKey s.owner i
    let d := d.count .keysDerived 0 hashed
    let d := if twin then d else d.freeAllLater (s.frames.map (·.primary))
    let frames := s.frames.zipIdx.map fun f => match tget cs f.2 with
      | some c => { primary := c.primary, tail := c.tail, twin := if twin then f.1.primary else 0 : Frm }
      | none => f.1
    let late := fun (t : Tab (Tab Row)) => tmap t fun _ rows => tkeep rows fun k _ => decide (192 ≤ k % 256)
    let d := (d.clearPoison i (· == 0)).modSpan i fun s => { s with
      st := 3, frames := frames, closed := tmap cs fun _ c => c.folio, tails := if twin then [] else late s.rows
      rows := if twin then s.rows else [], tailHeld := !twin, twinHeld := twin, key := key, churnAt := none
      streamed := decide (p.shortfall ≠ 0) && s.firstPos != 0 }
    let d := { d with seqs := { d.seqs with churn := tdel d.seqs.churn i } }
    let d := d.count .churns s.owner
    if twin then d.count .twinsKept s.owner else d

/-- Every switch that is due. -/
def Dev.switchSpans (d : Dev) : Dev := d.seqs.churn.foldl (fun d e => d.switchSpan e.1 e.2) d

/-- Tail copies released in the close phase (R132): no sequence that has the span as its last one has fewer than 64 tokens
in its open span. -/
def Dev.releaseTails (d : Dev) : Dev :=
  (d.seqs.spans.filter fun e => e.2.tailHeld && !(d.seqs.recs.any fun r =>
      d.lastListed r.2 == some e.1 && decide (r.2.length < 256 * (d.listed r.2.root).length + 64))).foldl
    (fun d e => d.loseTail e.1) d

/-- CHURN: in the execute phase, after the reads of the tick (R24, R54). -/
def execChurn (span : Nat) (unfinished : List Nat) (uncorrectable : Bool) (s : State) : Host.Outcome State Fault Refusal :=
  .next (s.onDev fun d => if d.inPhase .execute then d.churnSpan span unfinished uncorrectable else d)

end Sys2Proof.Machine
end

