-- ==== Sys2Proof/Machine/Flash.lean ====
section
/-! DEFINITION. The flash controller's commands: programs, reads, erases, verification, scrub, collection, relocation, health, discard, checkpoints and volume administration (R299 to R335). -/

namespace Sys2Proof.Machine

/-! ### Shared parts -/

/-- The volume that a block belongs to. -/
def Dev.volOfBlock (d : Dev) (k : Nat) : Option Nat :=
  (d.stk.volumes.find? fun e => decide (e.2.dieFirst ≤ keyDie k) && decide (keyDie k < e.2.dieFirst + e.2.dieCount)).map (·.1)

/-- A failed program: the block it went to is retired and passed over, and the data goes to the next location of another block of the stream
(R299, R315, R316). -/
def Dev.programFails (d : Dev) (v strm : Nat) : Dev :=
  match tget d.stk.openGroups (v * 8 + strm) with
  | none => d
  | some g => match tget d.stk.groups g, d.vol? v with
    | some gr, some x =>
      let blk := (groupPlace x.ct210 gr.members (d.groupNext x.ct210 gr)).2
      (((d.programmed blk).retireBlock blk).refitGroups).checkDie blk
    | _, _ => d

/-- The next program of a stream goes to a die whose programs wait. -/
def Dev.programPaused (d : Dev) (v strm : Nat) : Bool :=
  match tget d.stk.openGroups (v * 8 + strm) with
  | none => false
  | some g => match tget d.stk.groups g, d.vol? v with
    | some gr, some x => d.diePaused (groupPlace x.ct210 gr.members (d.groupNext x.ct210 gr)).2
    | _, _ => false

/-- A span's copy on the stacks ceases: a promotion that reads it goes on from the next source (R256, R264). -/
def Dev.stacksLost (d : Dev) (i : Nat) : Dev :=
  let d := d.copyCeases i 2
  let others := (d.tier.copies.filter fun e => e.2.span == i).map (·.2.tier)
  match tget d.tier.promos i with
  | none => d
  | some p => if p.source ≠ 2 then d else
    match [1, 3].find? others.contains with
    | some t => { d with tier := { d.tier with promos := tset d.tier.promos i { p with source := t } } }
    | none => { d with tier := { d.tier with promos := tdel d.tier.promos i } }

/-- The span whose copy holds a unit of a volume. -/
def Dev.spanOfUnit (d : Dev) (v u : Nat) : Option Nat :=
  (d.stk.copies.find? fun e => e.2.volume == v && decide (e.2.firstUnit ≤ u) && decide (u < e.2.firstUnit + e.2.count)).map (·.1)

/-! ### Programs (R299, R316) -/

/-- The sectors of a fine-mapped unit that are in staging; a unit that is not is programmed whole. -/
def FUnit.toProgram (y : FUnit) : Option (List Nat) :=
  if y.fine then some ((y.sectors.filter fun e => e.2.place.isNone).map (·.1)) else none

/-- A program from staging ends, with good status or not; those in flight end while power fails, none after that (R327). -/
def Dev.programDone (d : Dev) (v u : Nat) (good : Bool) : Dev :=
  match (d.vol? v).bind fun x => tget x.units u with
  | none => d
  | some y =>
    if !y.staged ∨ d.programPaused v y.strm ∨ d.pwr.pwrSeqEnd then d
    else if good then
      match d.programInto v u y.strm y.toProgram with
      | some d => { d with stk := { d.stk with staging := d.stk.staging.filter fun e => e.1 != v * 2 ^ 32 + u } }
      | none => d
    else
      match d.openGroup v y.strm with
      | some (_, d) => d.programFails v y.strm
      | none => d

/-- FLASH_PROGRAM_DONE. -/
def execFlashProgramDone (volume unit : Nat) (good : Bool) (s : State) : Host.Outcome State Fault Refusal :=
  .next (s.onDev fun d => d.programDone volume unit good)

/-! ### Reads (R304–R307) -/

/-- Page reads of a block: at its limit it is scheduled for refresh (R307). -/
def Dev.countReads (d : Dev) (k n : Nat) : Dev :=
  let old := (d.fblock k).reads
  let d := d.modBlock k fun b => { b with reads := min (b.reads + n) (2 ^ 32 - 1) }
  let lim := d.reg regStkReadLimit 0 0 (if d.inSystem k then 1 else 0)
  if old < lim ∧ lim ≤ (d.fblock k).reads then d.scheduleRefresh k else d

/-- What a unit of a volume holds: a span, or a region unit by its tag (R253, R302). -/
def Dev.holderOf (d : Dev) (v u : Nat) : Nat := (d.spanOfUnit v u).getD (unitTag (unitKey (u / 2 ^ 22) (u % 2 ^ 22 / 32)))

/-- Where a sector is on the media: block, and 4 KiB location within it; none while it is in staging (R295, R296). -/
def FUnit.sectorAt (y : FUnit) (j : Nat) : Option (Nat × Nat) :=
  if y.fine then (tget y.sectors j).bind (·.place) else if y.staged then none else some (y.block, 16 * y.loc + j)

/-- A block lies on a failed die. -/
def Dev.dieOut (d : Dev) (k : Nat) : Bool := d.stk.failedDies.contains (keyChannel k + 32 * keyDie k)

/-- The other members of a stripe at the location of a codeword: what a rebuild reads (R310). -/
def Dev.stripeOthers (d : Dev) (blk : Nat) : List Nat := (((tget d.stk.groups (d.fblock blk).group).map (·.members)).getD []).filter (· != blk)

/-- Every other codeword of the stripe decodes: its die answers and no uncorrectable sector lies there (R310). -/
def Dev.stripeDecodes (d : Dev) (v blk loc : Nat) : Bool :=
  let x := (d.vol? v).map (·.units)
  (d.stripeOthers blk).all fun m => !d.dieOut m && !(x.getD []).any fun e =>
    e.2.sectors.any fun s => s.2.bad && e.2.sectorAt s.1 == some (m, loc)

/-- A sector no stage recovers (R305): it stays mapped and uncorrectable; a span copy ceases; lines of a region unit that is
to be read from it are poisoned. -/
def Dev.sectorLost (d : Dev) (v sec : Nat) : Dev :=
  let u := sec / 16
  let d := d.uncorrectable v
  let d := d.modVol v fun x => { x with units := tmod x.units u fun y =>
    { y with sectors := tset y.sectors (sec % 16) { (tgetD y.sectors (sec % 16) ({} : FSector)) with bad := true } } }
  match d.spanOfUnit v u with
  | some i => d.stacksLost i
  | none =>
    -- flash unit to region unit: 32 flash units make one
    let k := unitKey (u / 2 ^ 22) (u % 2 ^ 22 / 32)
    match tget d.rgn.units k with
    | some ru =>
      if ru.resident then d else
      let line := (u / 2 ^ 22 * windowBytes + u % 2 ^ 22 * 65536 + sec % 16 * 4096) / 64
      (List.range 64).foldl (fun (d : Dev) i => d.poisonLine (line + i)) d
    | none => d

/-- The patron on whose behalf a unit of a volume is read: the OWNER of the span, or the region's (R306). -/
def Dev.readerOf (d : Dev) (v u : Nat) : Nat :=
  match (d.spanOfUnit v u).bind d.span? with
  | some s => s.owner
  | none => ((tget d.rgn.slots (u / 2 ^ 22)).map d.unitPatron).getD 0

/-- A sector's KEY or KEY_EPOCH is not the current key of the patron on whose behalf it is read (R306). -/
def Dev.otherKey (d : Dev) (f : FSector) (p : Nat) : Bool := f.key != p || f.epoch != tgetD d.sec.gens p 0 % 256

/-- The stage in which a read of a codeword ends: a failed die is read by rebuild alone (R311), which needs the rest of the stripe (R310), and
in a CT210 volume the parity log (R312). -/
def Dev.stageOf (d : Dev) (v : Nat) (ct210 : Bool) (at_ : Option (Nat × Nat)) (stage : Nat) : Nat :=
  match at_ with
  | none => stage
  | some (blk, loc) =>
    let stage := if d.dieOut blk ∧ stage < 4 then 4 else stage
    if stage = 4 ∧ (!d.stripeDecodes v blk loc ∨ (ct210 ∧ !d.parityLogged (d.fblock blk).group)) then 5 else stage

/-- A sector read ends in a stage (R304): counted, rebuilt data rewritten, a key mismatch counted (R306). Power failing abandons it (R327). -/
def Dev.sectorRead (d : Dev) (v sec stage : Nat) (demand : Bool) : Dev :=
  let u := sec / 16
  match (d.vol? v).bind fun x => (tget x.units u).map fun y => (x, y) with
  | none => d
  | some (x, y) =>
    if d.pwr.pwrFail then d else
    let at_ := y.sectorAt (sec % 16)
    let stage := d.stageOf v x.ct210 at_ stage
    let d := (at_.map fun p => d.countReads p.1 1).getD d
    let d := if 2 ≤ stage then d.count2 .readRetry v 0 1 else d
    let d := if 3 ≤ stage then d.count2 .softDec v 0 1 else d
    -- requests that wait for this read have cause 0x02 in this tick
    let d := if (stage = 2 ∨ stage = 3) ∧ demand then { d with stk := { d.stk with retrying := d.stk.retrying ++ [d.holderOf v u] } } else d
    if 5 ≤ stage then d.sectorLost v sec else
    let d := if ((tget y.sectors (sec % 16)).map fun f => d.otherKey f (d.readerOf v u)).getD false then d.count .keyMismatch v else d
    if stage ≠ 4 then d else
    let d := (((at_.map fun p => d.stripeOthers p.1).getD []).foldl (fun (d : Dev) m => d.countReads m 1) d).count2 .rebuilds v 0 1
    if !demand ∨ at_.isNone then d
    else (d.programInto v u 3 (if y.fine then some [sec % 16] else none)).getD d

/-! ### Reading a region unit (R267, R305, R306, R318) -/

/-- The stored sectors of a region unit on the stacks, by sector number. -/
def Dev.storedSectors (d : Dev) (k : Nat) : List (Nat × FSector) :=
  match (tget d.rgn.slots (k / 2 ^ 17)).bind d.regionVolume |>.bind d.vol? with
  | none => []
  | some v => (List.range 32).flatMap fun i => match tget v.units (flashUnit (k / 2 ^ 17) (k % 2 ^ 17) + i) with
    | some u => u.sectors.map fun e => (16 * i + e.1, e.2)
    | none => []

/-- The pool offset of the first byte of a region unit. -/
def unitBase (k : Nat) : Nat := k / 2 ^ 17 * windowBytes + k % 2 ^ 17 * unitBytes

/-- The bytes of the sectors of a region unit go. -/
def dropSectors (base : Nat) (l : List (Nat × FSector)) (m : List Host.Cell) : List Host.Cell :=
  l.foldl (fun m e => let at_ := base + 4096 * e.1; memDrop m at_ (at_ + 4096)) m

/-- The lines of the sectors of a region unit are poisoned. -/
def Dev.poisonSectors (d : Dev) (base : Nat) (l : List (Nat × FSector)) : Dev :=
  l.foldl (fun (d : Dev) e => (List.range 64).foldl (fun (d : Dev) i => d.poisonLine ((base + 4096 * e.1) / 64 + i)) d) d

/-- A read of the discarded sectors of a unit: each is its prior content or zeros, as a free draw says at every read (R318). -/
def State.readPrior (s : State) (k : Nat) : State :=
  (s.dev.stk.prior.filter fun e => e.1 / 512 == k).foldl (fun (s : State) e =>
    let at_ := unitBase k + 4096 * (e.1 % 512)
    let (b, d) := s.dev.drawBits 1
    { s with dev := d, mem := (if b = 1 then memWrite (memDrop s.mem at_ (at_ + 4096)) at_ e.2 else memDrop s.mem at_ (at_ + 4096)) }) s

/-- The tier from which a unit that is not resident is read (R253). -/
def Dev.unitSource (d : Dev) (k : Nat) : Nat := ((d.tier.copies.find? fun e => e.2.span == unitTag k).map (·.2.tier)).getD 2

/-- A unit's frame holds the stored copy: sectors of another key read as zeros and count (R306), lines of a bad sector are poisoned (R305),
discarded ones are read (R318). -/
def State.fillUnit (s : State) (k : Nat) (u : RUnit) (d : Dev) : State :=
  let from_ := d.unitSource k
  let d := d.modUnit k fun n => { u with resident := true, promoting := false, cluster := n.cluster }
  let d := if u.onStacks then d.count2 .bytesPromo 0 from_ unitBytes else d
  let secs := if u.onStacks ∧ from_ = 2 then d.storedSectors k else []
  let p := ((tget d.rgn.slots (k / 2 ^ 17)).map d.unitPatron).getD 0
  let v := (((tget d.rgn.slots (k / 2 ^ 17)).bind d.regionVolume)).getD 0
  let base := unitBase k
  let gone := secs.filter fun e => d.otherKey e.2 p
  let bad := secs.filter fun e => e.2.bad
  let d := gone.foldl (fun (d : Dev) _ => d.count .keyMismatch v) (d.poisonSectors base bad)
  ({ s with mem := dropSectors base gone s.mem, dev := d } : State).readPrior k

/-- FLASH_SECTOR_READ. -/
def execFlashSectorRead (volume sector stage : Nat) (demand : Bool) (s : State) : Host.Outcome State Fault Refusal :=
  .next (s.onDev fun d => d.sectorRead volume sector stage demand)

/-! ### Erases, verification, scrub (R308, R312, R316) -/

/-- A block's erase ends. -/
def Dev.eraseDone (d : Dev) (k : Nat) (good : Bool) : Dev :=
  let b := d.fblock k
  if b.st ≠ 0 ∨ d.diePaused k ∨ !d.inService k ∨ d.stk.blocksPerDie ≤ keyBlock k ∨ d.pwr.pwrFail then d
  else
    let v := d.volOfBlock k
    if good then
      let d := d.modBlock k fun b => { b with
        st := 1, erases := min (b.erases + 1) (2 ^ 32 - 1), reads := 0, filled := 0, valid := [], group := 0, scrubIn := none, bits := none }
      if d.inSystem k then d else (v.map fun v => d.modVol v fun x => { x with erasedBytes := x.erasedBytes + d.blockBytes }).getD d
    else
      let d := (d.modBlock k fun b => { b with volume := v.getD b.volume }).retireBlock k
      d.checkDie k

/-- BLOCK_ERASE_DONE. -/
def execBlockEraseDone (block : Nat) (good : Bool) (s : State) : Host.Outcome State Fault Refusal :=
  .next (s.onDev fun d => d.eraseDone block good)

/-- A VERIFYING block has been read back. -/
def Dev.verifyDone (d : Dev) (k : Nat) (passed : Bool) : Dev :=
  if (d.fblock k).st ≠ 3 ∨ d.pwr.pwrFail then d else
  -- it is read back in full (R307, R312)
  let d := d.countReads k (d.fblock k).filled
  if passed then
    let d := (d.modBlock k fun b => { b with st := 4 }).startRefresh k
    { d with stk := { d.stk with groups := tmod d.stk.groups (d.fblock k).group fun g => { g with passed := g.passed ++ [k] } } }
  else (d.retireBlock k).checkDie k

/-- BLOCK_VERIFY. -/
def execBlockVerify (block : Nat) (passed : Bool) (s : State) : Host.Outcome State Fault Refusal :=
  .next (s.onDev fun d => d.verifyDone block passed)

/-- The scrub period that a time lies in: each CLOSED block is read once in every one (R308; DESIGN CHOICE, assumption 138). -/
def Dev.scrubPeriod (d : Dev) : Nat := d.tim.now / (max 1 (d.reg regStkScrubDays) * 86400 * 10 ^ 9)

/-- A scrub read that no stage recovers: which sector of the block it was, the command does not say, and a free draw does (R305; assumption 44). -/
def Dev.scrubLost (d : Dev) (k : Nat) : Dev :=
  let v := (d.fblock k).volume
  let secs := (((d.vol? v).map (·.units)).getD []).flatMap fun e => (e.2.sectors.map (·.1) ++ (if e.2.sectors.isEmpty then List.range 16 else [])).filterMap fun j =>
    if (e.2.sectorAt j).map (·.1) = some k then some (16 * e.1 + j) else none
  if secs.isEmpty then d else
  let (n, d) := d.drawBits 32
  d.sectorLost v (secs.getD (n % secs.length) 0)

/-- A scrub read of a CLOSED block, in class 5: refresh where it needed stage 2 or beyond, or more than half the capability. -/
def Dev.flashScrub (d : Dev) (k stage : Nat) (overHalf : Bool) : Dev :=
  if (d.fblock k).st ≠ 4 ∨ d.reg regStkCtrl 0 0 3 ≠ 1 ∨ !d.mayStart 5 ∨ d.pwr.pwrFail ∨ (d.fblock k).scrubIn = some d.scrubPeriod then d else
  let d := (d.startUnit 5 d.blockBytes).countReads k (d.fblock k).filled
  let d := d.modBlock k fun b => { b with scrubIn := some d.scrubPeriod, bits := some (stage, overHalf) }
  let d := if 5 ≤ stage then d.scrubLost k else d
  if 2 ≤ stage ∨ overHalf then d.scheduleRefresh k else d

/-- FLASH_SCRUB; it pauses while firmware restarts, as collection and relocation do (R328). -/
def execFlashScrub (block stage : Nat) (overHalf : Bool) (s : State) : Host.Outcome State Fault Refusal :=
  .next (s.onDev fun d => if d.sec.restarting then d else d.flashScrub block stage overHalf)

/-! ### Collection and relocation (R313–R315) -/

/-- Collection is forced: one free block group is left. -/
def Dev.gcForced (d : Dev) (v : Volume) : Bool := decide (d.freeGroups v ≤ 1)

/-- The CLOSED block group of a volume with the least valid data; ties to the one closed earliest. Members that are retired or retiring are no
part of it any more. -/
def Dev.gcVictim (d : Dev) (v : Nat) : Option Nat :=
  let live := fun g => (d.groupBlocks g).filter fun k => decide ((d.fblock k).st < 6)
  let gs := d.stk.groups.filter fun e => e.2.volume == v && !(live e.1).isEmpty && (live e.1).all fun k => (d.fblock k).st == 4
  let load := fun g => ((live g).map fun k => (d.fblock k).load).sum
  let when_ := fun g => ((live g).map fun k => (d.fblock k).closeTick).foldl max 0
  (sortBy (fun a b : Nat => decide (load a < load b) || (load a == load b && decide (when_ a < when_ b))) (gs.map (·.1))).head?

/-- Collection of a volume starts: its victim's blocks are RELOCATING. -/
def Dev.collect (d : Dev) (v : Nat) : Dev :=
  match d.vol? v with
  | none => d
  | some x =>
    -- forced collection runs whatever GC_EN says (R561)
    if d.pwr.pwrFail ∨ (d.reg regStkCtrl 0 0 1 ≠ 1 ∧ !d.gcForced x) ∨ d.reg regStkGcStart ≤ d.freeGroups x ∨ !(d.gcForced x || d.mayStart 4) then d else
    match d.gcVictim v with
    | none => d
    | some g =>
      let d := d.modVol v fun x => { x with collecting := true }
      ((d.groupBlocks g).filter fun k => (d.fblock k).st == 4).foldl (fun (d : Dev) k => (d.modBlock k fun b => { b with st := 5 }).settleBlock k) d

/-- GARBAGE_COLLECTION. -/
def execGarbageCollection (volume : Nat) (s : State) : Host.Outcome State Fault Refusal :=
  .next (s.onDev fun d => if d.sec.restarting then d else d.collect volume)

/-- A block's data is to be relocated: RELOCATING or RETIRING. -/
def Dev.moving (d : Dev) (k : Nat) : Bool := (d.fblock k).st == 5 || (d.fblock k).st == 6

/-- The block that a relocation of a unit reads, and the sectors it moves of a fine-mapped one. -/
def Dev.toMove (d : Dev) (y : FUnit) : Option (Nat × List Nat) :=
  if !y.fine then (if !y.staged && d.moving y.block then some (y.block, []) else none) else
  let js := y.sectors.filterMap fun e => e.2.place.bind fun p => if d.moving p.1 then some (p.1, e.1) else none
  js.head?.map fun e => (e.1, js.map (·.2))

/-- A unit's relocation, from read to map update: a superseded unit changes nothing (R314); a copy that fails read-back is
never mapped (R315). A fine-mapped unit unwritten for long is rewritten whole, another one sector by sector (R296). -/
def Dev.relocate (d : Dev) (v u : Nat) (verified : Bool) (ageHours : Nat) : Dev :=
  match (d.vol? v).bind fun x => (tget x.units u).bind fun y => (d.toMove y).map fun m => (x, y, m) with
  | none => d
  | some (x, y, blk, js) =>
    let b := d.fblock blk
    let old := decide (d.reg regStkColdAge ≤ ageHours)
    let strm := if old then 4 else 3
    if !(d.gcForced x || d.mayStart 4) ∨ d.pwr.pwrFail ∨ d.programPaused v strm then d else
    let d := (d.startUnit 4 65536).countReads blk 1
    if !verified then
      (match d.openGroup v strm with
        | some (_, d) => d.programFails v strm
        | none => d)
    else match d.programInto v u strm (if y.fine && !(old && !y.staged) then some js else none) with
      | none => d
      | some d =>
        let d := if b.st = 6 then d.count2 .relRebuild v 0 1 else if b.refresh then d.count2 .relRefresh v 0 1 else d.count2 .relGc v 0 1
        if d.stk.blocks.any fun e => e.2.st == 5 && e.2.volume == v then d else d.modVol v fun x => { x with collecting := false }

/-- RELOCATION. -/
def execRelocation (volume unit : Nat) (verified : Bool) (ageHours : Nat) (s : State) : Host.Outcome State Fault Refusal :=
  .next (s.onDev fun d => if d.sec.restarting then d else d.relocate volume unit verified ageHours)

/-! ### Health (R311, R323) -/

/-- DIE_FAILED: a die stops answering. -/
def execDieFailed (channel die : Nat) (s : State) : Host.Outcome State Fault Refusal := .next (s.onDev fun d => d.failDie channel die)

/-- A die reports its temperature, in 0.1 °C: an event at the warning and at the pause level, once per rise; the pause ends
5 °C lower. -/
def Dev.dieTemperature (d : Dev) (ch die t : Nat) : Dev :=
  let k := ch + 32 * die
  let warn := 10 * d.reg regStkTempWarn
  let pause := 10 * d.reg regStkTempPause
  let say := fun (d : Dev) => d.devEvent 0x0203 (ch + 256 * die) t
  let d := if warn ≤ t then
      (if d.stk.hotDies.contains k then d else { say d with stk := { (say d).stk with hotDies := d.stk.hotDies ++ [k] } })
    else { d with stk := { d.stk with hotDies := d.stk.hotDies.filter (· != k) } }
  if pause ≤ t then
    (if d.stk.paused.contains k then d else { say d with stk := { (say d).stk with paused := d.stk.paused ++ [k] } })
  else if t + 50 ≤ pause then { d with stk := { d.stk with paused := d.stk.paused.filter (· != k) } }
  else d

/-- MEDIA_TEMPERATURE. -/
def execMediaTemperature (channel die reading : Nat) (s : State) : Host.Outcome State Fault Refusal :=
  .next (s.onDev fun d => d.dieTemperature channel die reading)

/-! ### The governor (R320) -/

/-- Recompute every budget, and keep the hour's sample. -/
def Dev.recomputeAll (d : Dev) : Dev :=
  let vs := d.stk.volumes.map (·.1)
  let d := vs.foldl (fun (d : Dev) v => d.modVol v fun x => { x with hist := x.hist ++ [(d.tim.now, x.accepted, x.programmed)] }) d
  vs.foldl Dev.recompute d

/-- GOVERNOR_RECOMPUTE. -/
def execGovernorRecompute (s : State) : Host.Outcome State Fault Refusal :=
  .next (s.onDev fun d => if d.sec.restarting then d else d.recomputeAll)

/-! ### Span space (R319) -/

/-- Free logical space of a SPAN volume is below the reserve. -/
def Dev.spanSpaceLow (d : Dev) (v : Nat) : Bool :=
  match d.vol? v with
  | some x => !x.region && decide (x.freeUnits * 1000 < d.reg regStkSpanReserve * x.capacity)
  | none => false

/-- Discard span copies of a volume until the reserve is restored: copies of resident spans first, the oldest first. -/
def Dev.discardSpans (d : Dev) (v : Nat) : Dev :=
  let cs := (d.stk.copies.filter fun e => e.2.volume == v).filterMap fun e => (d.span? e.1).map fun s =>
    (e.1, (if d.resident s then 0 else 1), d.ageOf s.lastTick)
  let order := sortBy (fun a b : Nat × Nat × Nat => decide (a.2.1 < b.2.1) || (a.2.1 == b.2.1 && decide (b.2.2 < a.2.2))) cs
  order.foldl (fun (d : Dev) e => if d.spanSpaceLow v then (d.stacksLost e.1).count .copiesDiscarded v else d) d

/-- SPAN_SPACE_DISCARD. -/
def execSpanSpaceDiscard (volume : Nat) (s : State) : Host.Outcome State Fault Refusal := .next (s.onDev fun d => d.discardSpans volume)

/-! ### Checkpoints (R325, R326) -/

/-- A checkpoint starts: by interval, changed bytes of map segments, or replay set. -/
def Dev.checkpoint (d : Dev) (elapsedMs : Nat) : Dev :=
  if d.stk.ckptRunning ∨ !d.stk.discovered ∨ d.pwr.pwrFail then d
  else if d.reg regStkCkptInterval ≤ elapsedMs ∨ d.reg regStkCkptBytes * 2 ^ 20 ≤ 65536 * d.stk.changed.length ∨ 1536 ≤ d.stk.replay.length then
    { d with stk := { d.stk with ckptRunning := true, ckptAt := d.tim.count, ckptSegs := d.stk.changed, changed := [], replayNew := [] } }
  else d

/-- CHECKPOINT. -/
def execCheckpoint (elapsedMs : Nat) (s : State) : Host.Outcome State Fault Refusal := .next (s.onDev fun d => d.checkpoint elapsedMs)

/-- The segments of a checkpoint are written in pSLC to the system area, each for its volume (R325, R336). -/
def Dev.segmentsWritten (d : Dev) : Dev := d.stk.ckptSegs.foldl (fun (d : Dev) g => d.count .bytesPslc (g / 2 ^ 32) 65536) d

/-- A checkpoint completes: the replay set is the blocks programmed since it started; waiting segments go on (R326, R456). -/
def Dev.ckptDone (d : Dev) : Dev :=
  if !d.stk.ckptRunning ∨ d.pwr.pwrFail then d else
  let d := d.segmentsWritten
  ({ d with stk := { d.stk with ckptRunning := false, ckptSegs := [], replay := d.stk.replayNew, replayNew := [] } }).count .ckpts 0

/-- CHECKPOINT_DONE. -/
def execCheckpointDone (s : State) : Host.Outcome State Fault Refusal := .next (s.onDev Dev.ckptDone)

/-! ### VOLUME_FORMAT (R333) -/

/-- The form of VOLUME_FORMAT. -/
def formVolumeFormat (dies : Nat) : Form :=
  { entries := (· == 0), classes := [6], admin := true, object := fun o => decide (o < 8)
    items := fun x =>
      let del := x.fld 0 2 1 == 1
      [.rsv 0 3 5, .val 1 0 8 (fun v => if del then v == 0 else decide (v < dies)),
       .val 2 0 8 (fun v => if del then v == 0 else decide (1 ≤ v) && decide (x.fld 1 0 8 + v ≤ dies)), .rsv 3 0 8,
       .val 4 0 16 (fun v => if del then v == 0 else v == 0 || (decide (70 ≤ v) && decide (v ≤ 500)))]
      ++ rsvBytes 6 2 ++ rsvBytes 16 32 }

/-- Live regions that a REGION volume backs: persisted to it, or with units that lie in it (R333). -/
def Dev.backed (d : Dev) (v : Nat) : Nat :=
  let held := fun (x : Nat) => ((d.vol? v).map fun (y : Volume) => y.region && y.units.any fun u => u.1 / 2 ^ 22 == x).getD false
  (d.rgn.slots.filter fun e => e.2.st != 4 && ((e.2.persist && e.2.volume == v) || held e.1)).length

/-- A volume as a format makes it, its blocks in service and erases as they stand (R294, R320, R323, R556). -/
def Dev.newVolume (d : Dev) (x : DescIn) (id : Nat) : Volume :=
  let op := x.fld 4 0 16
  let v : Volume := { region := x.fld 0 0 1 == 1, ct210 := x.fld 0 1 1 == 1, dieFirst := x.fld 1 0 8, dieCount := x.fld 2 0 8
                      op := if op = 0 then 125 else op, formatId := id, formatAt := d.tim.now, lifeDays := d.reg regStkLifeDays
                      ratedCycles := d.reg regStkRatedCycles }
  let live := d.liveBlocks v
  -- the two highest locations of every die in service hold no data (R295)
  let units := live * d.stk.unitsPerBlock - 2 * (v.dies.map fun die => (d.dieChannels die).length).sum
  let v := { v with capacity := capacityOf v.ct210 (d.volWidth v) v.op units, dataBytes := live * d.blockBytes
                    erasedBytes := ((d.volBlocks v).map fun k => (d.fblock k).erases * d.blockBytes).sum }
  let v := { v with spareAtFormat := d.spareBlocks v }
  { v with budget := d.budgetOf v }

/-- VOLUME_FORMAT. -/
def Dev.opVolumeFormat (d : Dev) (q : Req) : Dev × Ans :=
  let x := q.d
  let v := x.object
  let del := x.fld 0 2 1 == 1
  let first := x.fld 1 0 8
  let last := first + x.fld 2 0 8
  let clash := d.stk.volumes.find? fun e => e.1 != v && decide (first < e.2.dieFirst + e.2.dieCount) && decide (e.2.dieFirst < last)
  let cur := ((d.vol? v).map (·.formatId)).getD 0
  match (if del then none else clash) with
  | some e => (d, { status := stConflict, r0 := e.1 })
  | none =>
    if x.fld 8 0 64 ≠ cur then (d, { status := stConflict, r0 := cur })
    else if d.backed v ≠ 0 then (d, { status := stConflict, r1 := d.backed v })
    else
      let was := ((d.vol? v).map (·.protected_)).getD false
      let (id, d1) := d.drawBits 64
      let id := max 1 id
      let d1 := d1.emptyVolume v
      if del then ({ d1 with stk := { d1.stk with volumes := tdel d1.stk.volumes v } }, {})
      else
        let n := d1.newVolume x id
        -- a write-protected volume is reformatted only with spare blocks at the new OP (R324)
        if was ∧ n.spareAtFormat = 0 then (d, { status := stMedia }) else
        let d2 := ({ d1 with stk := { d1.stk with volumes := tset d1.stk.volumes v n } }).emptyVolume v
        let d2 := (d2.volBlocks n).foldl (fun (d : Dev) k => d.modBlock k fun b => { b with volume := v }) d2
        (if was then d2.devEvent 0x0205 v n.spareAtFormat else d2, { r0 := id, r1 := n.capacity % 2 ^ 48 })

/-! ### STACKS_DISCARD (R334, R318) -/

/-- The form of STACKS_DISCARD. -/
def formStacksDiscard : Form :=
  { entries := (· == 0), classes := [6], object := isRegionId
    items := fun _ => [.val 0 0 64 (· % 4096 == 0), .val 8 0 64 fun v => v % 4096 == 0 && decide (4096 ≤ v)] ++ rsvBytes 16 32 }

/-- Discard one mapped sector of a region unit: its prior content is kept beside the map, for each read of it takes that content or zeros
(R318). -/
def State.discardSector (s : State) (v u j off : Nat) : State :=
  let k := addrUnit off
  let d := match (s.dev.vol? v).bind fun x => (tget x.units u).bind fun y => tget y.sectors j with
    | some f => s.dev.unlocateSector u j f
    | none => s.dev
  let d := d.modVol v fun x => { x with units := tmod x.units u fun y => { y with sectors := tdel y.sectors j } }
  let d := match (d.vol? v).bind fun x => tget x.units u with
    | some y => if y.sectors.isEmpty then d.unmapUnit v u else d
    | none => d
  match tget d.rgn.units k with
  | none => { s with dev := d }
  | some ru =>
    if ru.resident then { s with dev := d.modUnit k fun u => { u with onStacks := false } }
    else { s with dev := { d with stk := { d.stk with prior := tset d.stk.prior (512 * k + off % unitBytes / 4096) (memRead s.mem off 4096) } } }

/-- The mapped sectors of `n` sectors of a region slot from `first` on, in every REGION volume: volume, unit, sector of the unit, offset in
pool memory. -/
def Dev.mappedSectors (d : Dev) (slot first n : Nat) : List (Nat × Nat × Nat × Nat) :=
  ((List.range n).map fun i => first + i).flatMap fun n => d.stk.volumes.filterMap fun e =>
    let u := flashUnit slot 0 + n / 16
    match tget e.2.units u with
    | some y => if e.2.region && (tget y.sectors (n % 16)).isSome then some (e.1, u, n % 16, slot * windowBytes + 4096 * n) else none
    | none => none

/-- STACKS_DISCARD of a region that this device serves, for a requester of a device. -/
def State.discardRegion (s : State) (dev : Nat) (x : DescIn) : State × Ans :=
  let d := s.dev
  let slot := x.object / 64
  match (tget d.rgn.slots slot).filter fun r => r.id == x.object with
  | none => (s, { status := stNotFound })
  | some r =>
    let copied := r.persist || d.rgn.units.any fun e => e.1 / 2 ^ 17 == slot && e.2.onStacks
    let rights := r.isOwner dev x.patron || r.grants_ dev x.patron 1 none
    let off := x.fld 0 0 64
    let len := x.fld 8 0 64
    if !copied ∨ !rights ∨ r.st = 4 ∨ r.st = 5 then (s, { status := stNotFound })
    else if r.size < off + len then (s, .bad 0x05 (bodyOff (if r.size ≤ off then 0 else 8)))
    else
      let hits := d.mappedSectors slot (off / 4096) (len / 4096)
      (hits.foldl (fun s h => s.discardSector h.1 h.2.1 h.2.2.1 h.2.2.2) s, { r0 := hits.length })

/-- STACKS_DISCARD at the device that serves the region. -/
def State.opStacksDiscard (s : State) (q : Req) : State × Ans := s.discardRegion s.dev.devNo q.d

/-- What another device carries to a region's home beside the region operations: HINT, and STACKS_DISCARD (R416). -/
def State.homeExtra (s : State) (k : Nat) (j : Job) : State :=
  if j.op = 0x84 then
    let r := s.discardRegion j.dev j.x
    r.1.endJob k r.2
  else s.homeHint k j

/-! ### GOVERNOR_SET (R335, R556) -/

/-- The form of GOVERNOR_SET. -/
def formGovernorSet : Form :=
  { entries := (· == 0), classes := [6], admin := true, object := fun o => decide (o < 8)
    items := fun _ => [.val 0 0 16 fun v => v == 0 || (decide (30 ≤ v) && decide (v ≤ 7305))] ++ rsvBytes 2 2 ++ rsvBytes 8 40 }

/-- GOVERNOR_SET. -/
def Dev.opGovernorSet (d : Dev) (q : Req) : Dev × Ans :=
  let v := q.d.object
  let days := q.d.fld 0 0 16
  let cyc := q.d.fld 4 0 32
  match d.vol? v with
  | none => (d, { status := stNotFound })
  | some _ =>
    let d := d.modVol v fun x => { x with lifeDays := if days = 0 then x.lifeDays else days, ratedCycles := if cyc = 0 then x.ratedCycles else cyc }
    let d := if days = 0 then d else d.setReg regStkLifeDays 0 0 0 days
    let d := if cyc = 0 then d else d.setReg regStkRatedCycles 0 0 0 cyc
    -- the budget is in force from the next tick on (R320)
    (d.modVol v fun x => { x with recalc := true }, { r0 := ((d.vol? v).map d.budgetOf).getD 0 })

end Sys2Proof.Machine
end

