-- ==== Sys2Proof/Machine/HostPort.lean ====
section
/-! DEFINITION. The host port: links, configuration requests, doorbells, PAT_LOCK, patron faults and patron resets, virtual functions, MSI-X and the pool aperture (R68 to R106, R437, R585). -/

namespace Sys2Proof.Machine

/-! ### Doorbells (R82, R83, R437) -/

/-- A ring's mark of its last DOORBELL_ERROR: the tick plus one. -/
def Dev.errTick (d : Dev) (p off : Nat) : Option Nat :=
  let x := d.pat p
  if off < 0x40 then (x.sqAt (off / 4)).errTick else if off < 0x80 then (x.cqAt (off / 4 - 16)).errTick
  else if off < 0x84 then x.eq.errTick else x.pageErrTick

/-- Note a DOORBELL_ERROR of this tick. -/
def Dev.setErrTick (d : Dev) (p off : Nat) : Dev :=
  let t := some d.tim.count
  if off < 0x40 then d.modSq p (off / 4) fun r => { r with errTick := t }
  else if off < 0x80 then d.modCq p (off / 4 - 16) fun r => { r with errTick := t }
  else if off < 0x84 then d.modEq p fun r => { r with errTick := t }
  else d.modPat p fun x => { x with pageErrTick := t }

/-- An ignored doorbell write: counted, and reported at most once per ring and tick (R83). -/
def Dev.doorbellError (d : Dev) (p off value case_ : Nat) : Dev :=
  let d := d.count .doorbellErr p
  if d.errTick p off = some d.tim.count then d
  else (d.setErrTick p off).patEvent p 0x0002 (off % 65536 + 65536 * (value % 2 ^ 32)) case_

/-- The first case of R83 that applies to a write of a ring of a depth; `past`: it passes entries not yet written. -/
def doorbellCase (off width value depth : Nat) (past active : Bool) : Option Nat :=
  if width ≠ 32 ∨ off % 4 ≠ 0 then some 1
  else if value / 65536 ≠ 0 then some 2
  else if depth = 0 then some 3
  else if depth ≤ value then some 4
  else if past then some 5
  else if !active then some 6 else none

/-- Entries from one ring index to another. -/
def ringSpan (depth a b : Nat) : Nat := (b + depth - a) % depth

/-- EXCESS_MARKING (R437): the policer passes what its balance allows and marks the rest of the announced entries. -/
def Dev.police (d : Dev) (p r tail k depth : Nat) : Dev :=
  let b := bktPol p
  if d.bktRate b = 0 then d else
  let a := min k (d.bal b).toNat
  let d := d.setBal b (d.bal b - a)
  if !d.policeEn then d else
  let marks := ((List.range k).drop a).map fun i => (tail + i) % depth
  (d.modSq p r fun q => { q with marks := q.marks ++ marks }).count .excess p (k - a)

/-- A host access reaches a function: the link is up and the function exists. -/
def Dev.reached (d : Dev) (p : Nat) : Bool := d.host.linkUp && d.exists_ p

/-- BAR2 and BAR4 are exposed: without FLIT mode only configuration space and BAR0 are (R70). -/
def Dev.served (d : Dev) (p : Nat) : Bool := d.reached p && d.host.flit

/-- A submission tail doorbell. -/
def Dev.sqDoorbell (d : Dev) (p off width value : Nat) : Dev :=
  if !d.served p then d else
  let r := off / 4
  let depth := d.sqDepth p r
  match doorbellCase off width value depth false (d.active p) with
  | some c => d.doorbellError p off value c
  | none =>
    let tail := ((d.pat p).sqAt r).tail
    let d := d.police p r tail (ringSpan depth tail value) depth
    d.modSq p r fun q => { q with tail := value }

/-- A completion head doorbell. -/
def Dev.cqDoorbell (d : Dev) (p off width value : Nat) : Dev :=
  if !d.served p then d else
  let r := off / 4 - 16
  let depth := d.cqDepth p r
  let q := (d.pat p).cqAt r
  let n := ringSpan depth q.headIdx value
  match doorbellCase off width value depth (decide (q.written < q.consumed + n)) (d.active p) with
  | some c => d.doorbellError p off value c
  | none => d.modCq p r fun q => { q with headIdx := value, consumed := q.consumed + n }

/-- An event head doorbell, or a write of a reserved offset; EVENTS_LOST is written when entries become free (R100). -/
def Dev.eqDoorbell (d : Dev) (p off width value : Nat) : Dev :=
  if !d.served p then d else
  if 0x84 ≤ off then d.doorbellError p off value (if width ≠ 32 ∨ off % 4 ≠ 0 then 1 else if value / 65536 ≠ 0 then 2 else if d.active p then 7 else 6) else
  let depth := d.eqDepth p
  let q := (d.pat p).eq
  let n := ringSpan depth q.headIdx value
  match doorbellCase off width value depth (decide (q.written < q.consumed + n)) (d.active p) with
  | some c => d.doorbellError p off value c
  | none =>
    let d := d.modEq p fun q => { q with headIdx := value, consumed := q.consumed + n }
    let lost := (d.pat p).eq.lost
    if lost = 0 ∨ d.eqRoom p = 0 then d else (d.putEvent p 0x0001 p lost 0).modEq p fun e => { e with lost := 0 }

/-- SQ_TAIL_DOORBELL. -/
def execSqTailDoorbell (p off width value : Nat) (s : State) : Host.Outcome State Fault Refusal :=
  .next (s.onDev fun d => d.sqDoorbell p off width value)

/-- CQ_HEAD_DOORBELL. -/
def execCqHeadDoorbell (p off width value : Nat) (s : State) : Host.Outcome State Fault Refusal :=
  .next (s.onDev fun d => d.cqDoorbell p off width value)

/-- EQ_HEAD_DOORBELL. -/
def execEqHeadDoorbell (p off width value : Nat) (s : State) : Host.Outcome State Fault Refusal :=
  .next (s.onDev fun d => d.eqDoorbell p off width value)

/-! ### MSI-X (R101) -/

/-- Send an MSI-X message, or set the pending bit of a masked vector. -/
def Dev.sendMsix (d : Dev) (p v : Nat) : Dev :=
  if (d.pat p).msixMasked.contains v then
    d.modPat p fun x => { x with msixPend := if x.msixPend.contains v then x.msixPend else x.msixPend ++ [v] }
  else (d.emit (.msix p v)).count .msix p

/-- One MSI-X message for each event ring that was written in the tick that the edge ends, none where the edge has sent it (R101). -/
def Dev.eventMsix (d : Dev) : Dev :=
  (List.range 64).foldl (fun (d : Dev) p =>
    if !(d.pat p).eq.irqDue then d else
    let sent := (d.pat p).eq.irqEdge = some d.tim.count
    let d := d.modEq p fun e => { e with irqDue := false }
    if !sent && d.ringsOn p && d.reg regPatEqCtrl 0 p 2 == 1 then
      (d.modEq p fun e => { e with irqEdge := some d.tim.count }).sendMsix p (d.reg regPatEqCtrl 0 p 1)
    else d) d

/-- MSIX_VECTOR_UNMASK. -/
def execMsixVectorUnmask (p vector : Nat) (s : State) : Host.Outcome State Fault Refusal :=
  .next <| s.onDev fun d =>
    if !d.reached p ∨ 32 ≤ vector then d else
    let due := (d.pat p).msixPend.contains vector
    let d := d.modPat p fun x => { x with msixMasked := x.msixMasked.erase vector, msixPend := x.msixPend.erase vector }
    if due then d.sendMsix p vector else d

/-! ### PAT_LOCK (R70, R80, R220, R221, R258, R516) -/

/-- The first check of R80 that fails. -/
def Dev.lockCheck (d : Dev) (p : Nat) : Option Nat :=
  let rs := List.range 16
  let sq := fun n => d.reg regPatSqnCtrl n p 0
  let cq := fun n => d.reg regPatCqnCtrl n p 0
  let eq := d.reg regPatEqCtrl 0 p 0
  if rs.any fun n => sq n != 0 && d.reg regPatSqnBase n p 0 % 4096 != 0 then some 1
  else if rs.any fun n => cq n != 0 && d.reg regPatCqnBase n p 0 % 4096 != 0 then some 1
  else if eq ≠ 0 ∧ d.reg regPatEqBase 0 p 0 % 4096 ≠ 0 then some 1
  else if rs.any fun n => (sq n != 0 && !(decide (4 ≤ sq n) && decide (sq n ≤ 16)))
      || (cq n != 0 && !(decide (4 ≤ cq n) && decide (cq n ≤ 16))) then some 2
  else if eq ≠ 0 ∧ ¬(6 ≤ eq ∧ eq ≤ 16) then some 2
  else if (rs.all fun n => sq n == 0) ∨ (rs.all fun n => cq n == 0) ∨ eq = 0 then some 3
  else if rs.any fun n => sq n != 0 && cq (d.reg regPatSqnCtrl n p 1) == 0 then some 4
  else if (rs.any fun n => cq n != 0 && decide (32 ≤ d.reg regPatCqnCtrl n p 1)) ∨ 32 ≤ d.reg regPatEqCtrl 0 p 1 then some 5
  else if !d.host.flit then some 6 else none

/-- Floors as granted (R258): in ascending patron order within the pool of `room` GiB, patrons that do not exist without one. -/
def grantFloors (want : Nat → Nat) : List Nat → Nat → Tab Nat
  | [], _ => []
  | p :: ps, room =>
    let f := min (want p) room
    if f = 0 then grantFloors want ps room else (p, f) :: grantFloors want ps (room - f)

/-- The floor a patron asks for. -/
def Dev.floorWanted (d : Dev) (p : Nat) : Nat := if d.exists_ p then d.reg regTirFloorp p else 0

/-- The floors of a SETUP_LOCK of patron `p`; FLOOR_REDUCED when its own does not fit whole. -/
def Dev.lockFloors (d : Dev) (p : Nat) : Dev :=
  let d := { d with tier := { d.tier with floors := grantFloors d.floorWanted (List.range 64) d.poolGiB } }
  if d.floor p < d.floorWanted p then d.devEvent 0x0104 p (d.floor p) else d

/-- One shared scope at a SETUP_LOCK of patron 0 (R220, R221, R247): disabled, its entries and salt go; newly enabled, it has a
new salt. -/
def Dev.lockScope (d : Dev) (k : Nat) : Dev :=
  let was := bit (d.shareCtrl k) 0
  let now := d.reg regCatSharekCtrl k 0 0 == 1
  let d := { d with cat := { d.cat with ctrl := tset d.cat.ctrl k (d.regWord regCatSharekCtrl k)
                                        members := tset d.cat.members k (d.reg regCatSharekMembers k) } }
  if was ∧ !now then
    let d := d.withdrawAll fun _ e => e.scope == 64 + k
    { d with cat := { d.cat with salts := tdel d.cat.salts (64 + k) } }
  else if now ∧ !was then
    let (b, d) := d.drawBytes 16
    { d with cat := { d.cat with salts := tset d.cat.salts (64 + k) b } }
  else d

/-- What a SETUP_LOCK of patron 0 does besides (R220, R272, R482, R516). -/
def Dev.lockDevice (d : Dev) : Dev :=
  let ks := (List.range 64).filter fun k => d.reg regCatSharekCtrl k 0 0 == 1 || bit (d.shareCtrl k) 0
    || d.reg regCatSharekMembers k != tgetD d.cat.members k 0
  let d := ks.foldl Dev.lockScope d
  let d := { d with tier := { d.tier with shelfFaults := [] }, sec := { d.sec with meas4 := some d.regs } }
  if d.presenting = some d.devNo ∧ d.boot.rosterOn then
    let d := if d.boot.assembled then
        d.devEvent 0x0020 (d.expected.length + 256 * d.rosterCount fun s => s == 1 || s == 2) d.boot.assembledMs else d
    if d.boot.serving then d.devEvent 0x0021 (d.rosterCount (· == 2)) d.boot.servingMs else d
  else d

/-- A write of PAT_LOCK in a function's own page. -/
def Dev.patLock (d : Dev) (p value : Nat) : Dev :=
  if !d.reached p ∨ value % 2 = 0 ∨ (d.pat p).st ≠ .configuring then d else
  match d.lockCheck p with
  | some c => d.modPat p fun x => { x with refused := c }
  | none =>
    let d := d.modPat p fun x => { x with st := .active, lock := true, refused := 0, sq := [], cq := [], eq := {} }
    (if p = 0 then d.lockDevice else d).lockFloors p

/-- PAT_LOCK. -/
def execPatLock (p value : Nat) (s : State) : Host.Outcome State Fault Refusal := .next (s.onDev fun d => d.patLock p value)

/-! ### Patron faults (R102, R103) -/

/-- Requests of a patron that its rings fetched and that have no completion. -/
def AdmSt.open_ (a : AdmSt) (p : Nat) : List Req :=
  (a.heads.map (·.2) ++ a.admitted ++ a.sealed_ ++ a.planned ++ a.waiting).filter fun q => q.d.patron == p

/-- Descriptors outstanding of a patron: with completions that are due, or that firmware or a home still owes. -/
def Dev.outstanding (d : Dev) (p : Nat) : Nat :=
  (d.adm.open_ p).length + ((d.adm.due ++ d.adm.fw).filter fun x => x.patron == p).length
    + (d.adm.resetAns.filter fun x => x.2.2.d.patron == p).length
    + (d.fab.jobs.filter fun e => match e.2.q with
      | some q => q.d.patron == p
      | none => false).length
    + (match d.audit with
      | some a => flag (a.q.d.patron == p)
      | none => 0)

/-- Raise a patron fault (R102): an ACTIVE patron becomes FAULTED; its rings are fetched no more. -/
def Dev.patronFaults (d : Dev) (p cause : Nat) : Dev :=
  if !d.active p then d else
  let n := d.outstanding p
  (d.modPat p fun x => { x with st := .faulted, fault := cause }).bothEvent p 0x0003 p cause n

/-- Give up the requests of a patron that are not executing: reservations, walks and fetched lines go with them (R102, R104). -/
def Dev.abandon (d : Dev) (p : Nat) (answer : Bool) : Dev :=
  let qs := d.adm.open_ p
  let keep := fun (l : List Req) => l.filter fun q => q.d.patron != p
  let d := { d with adm := { d.adm with
    heads := tkeep d.adm.heads fun _ q => q.d.patron != p, admitted := keep d.adm.admitted, sealed_ := keep d.adm.sealed_
    planned := keep d.adm.planned, waiting := keep d.adm.waiting } }
  let d := qs.foldl (fun (d : Dev) q =>
    let d := (q.walks.foldl Dev.endWalk (d.dropResv q.id)).dropFetch q.id
    if answer then d.complete q { status := stPatFault } else d) d
  d.fab.jobs.foldl (fun (d : Dev) e => match e.2.q with
    | some q => if q.d.patron ≠ p then d else
      let d := d.modJob e.1 fun j => { j with q := none }
      if answer then d.complete q { status := stPatFault } else d
    | none => d) d

/-- BUS_MASTER_CLEAR. -/
def execBusMasterClear (p : Nat) (s : State) : Host.Outcome State Fault Refusal :=
  .next (s.onDev fun d => if d.reached p then d.patronFaults p 3 else d)

/-! ### Patron resets (R104–R106, R223, R247, R441, R478, R585) -/

/-- Requests and completions of a patron go at the start of its reset: none reaches its memory from then on. -/
def Dev.dropRings (d : Dev) (p : Nat) : Dev :=
  let base := 0x100000 + 0x1000 * p
  let inPage := fun a => decide (base ≤ a) && decide (a < base + 0x1000)
  let d := { d with
    audit := d.audit.filter fun a => a.q.d.patron != p
    regs := tkeep d.regs fun a _ => !inPage a
    lowHalf := tkeep d.lowHalf fun a _ => !inPage a
    adm := { d.adm with
      heads := tkeep d.adm.heads fun _ q => q.d.patron != p
      due := d.adm.due.filter fun x => x.patron != p
      fw := d.adm.fw.filter fun x => x.patron != p
      resetAns := d.adm.resetAns.filter fun x => x.2.2.d.patron != p } }
  d.modPat p fun x => { x with lock := false, refused := 0, fault := 0, sq := [], cq := [], eq := {}, pageErrTick := none, msixPend := [] }

/-- The aperture slots a patron owns are removed. -/
def Dev.dropSlots (d : Dev) (p : Nat) : Dev :=
  (List.range 64).foldl (fun d i =>
    if d.reg regHpiAptSlots i 0 1 = 1 ∧ d.reg regHpiAptSlots i = p then d.setRegWord (regHpiAptSlots.addr i) 0 0 else d) d

/-- The patron's keys are destroyed: the generation rises and a new key is drawn (R478). -/
def Dev.dropKeys (d : Dev) (p : Nat) : Dev :=
  { d with sec := { d.sec with
    gens := tset d.sec.gens p ((tgetD d.sec.gens p 0 + 1) % 2 ^ 32)
    keyed := if d.sec.entropyOk then (if d.sec.keyed.contains p then d.sec.keyed else d.sec.keyed ++ [p]) else d.sec.keyed.erase p
    imported := tdel d.sec.imported p } }

/-- A reset of R104 begins. -/
def Dev.beginReset (d : Dev) (p : Nat) (discard : Bool) : Dev :=
  let d := (d.modPat p fun x => { x with st := .resetting, reset := some { discard := discard } }).dropRings p
  let d := d.endStreams p 0 fun _ => true
  if !discard then d else
  let d := (d.dropKeys p).withdrawAll fun i e => decide (i < onChipSlots) && e.scope == p
  let d := (d.rgn.maps.filter fun (x : Mapping) => x.patron == p).foldl (fun (d : Dev) (x : Mapping) => d.removeMap x.region p) d
  let d := d.dropSlots p
  { d with cat := { d.cat with sweep := if d.cat.sweep.contains p then d.cat.sweep else d.cat.sweep ++ [p] } }

/-- Region lines of a key owner that its discarding reset makes unreadable: they read as zero, as a stacks sector of an earlier
generation does (R306, R476). -/
def State.dropRegionLines (s : State) (p : Nat) : State :=
  s.dev.rgn.slots.foldl (fun (s : State) e =>
    if s.dev.unitPatron e.2 = p then { s with mem := memDrop s.mem (windowBytes * e.1) (windowBytes * (e.1 + 1)) } else s) s

/-- A request for a reset of a patron (R104, R106, R585). -/
def State.resetPatron (s : State) (p : Nat) (discard : Bool) : State :=
  match (s.dev.pat p).st with
  | .disabled => s
  | .resetting => s.onDev fun d => d.modPat p fun x => { x with reset := x.reset.map fun r =>
      { r with follow := r.follow || (discard && !r.discard) } }
  | _ =>
    let s := s.onDev fun d => d.beginReset p discard
    if discard then s.dropRegionLines p else s

/-- What is stored for a patron goes (R104, R216, R221, R223, R270, R478). -/
def Dev.discardStored (d : Dev) (p : Nat) : Dev :=
  let d := (d.seqs.recs.filter fun e => e.2.owner == p).foldl (fun (d : Dev) e => d.freeRecord e.1 e.2) d
  let d := d.withdrawAll fun _ e => e.scope == p
  let pins := d.tier.pins.filter fun x => x.patron == p
  let d := pins.foldl (fun (d : Dev) x =>
    let d := d.dropMeta p 16
    if x.kind = 0 then d.modSpan x.id fun s => { s with pins := s.pins - x.count }
    else d.modUnit (unitKey (x.id / 64) x.unit) fun u => { u with pins := u.pins - x.count }) d
  let d := { d with tier := { d.tier with pins := d.tier.pins.filter fun x => x.patron != p } }
  let free := fun (_ : Nat) (s : Span) => { s with
    charged := if bit s.charged p then s.charged - 2 ^ p else s.charged, key := if s.owner = p then 0 else s.key }
  let d := { d with seqs := { d.seqs with spans := tmap d.seqs.spans free } }
  let d := (d.seqs.profiles.filter fun e => e.2.owner == p && e.2.st == 1).foldl (fun (d : Dev) e => d.retireProfile e.1) d
  let (salt, d) := d.drawBytes 16
  { d with cat := { d.cat with salts := tset d.cat.salts p salt, sweep := d.cat.sweep.erase p } }

/-- The old key of a patron after its references are gone (R478): kept in a retained slot for the spans that others still hold,
or, with none free, those spans become VACANT. -/
def Dev.retainKey (d : Dev) (p : Nat) : Dev :=
  let old := (tgetD d.sec.gens p 0 + 2 ^ 32 - 1) % 2 ^ 32
  let left := (d.seqs.spans.filter fun e => e.2.owner == p && e.2.keyGen == old && e.2.ref != 0).map (·.1)
  if left.isEmpty then d
  else if d.sec.retained.length < 128 then { d with sec := { d.sec with retained := d.sec.retained ++ [(p, old)] } }
  else (left.foldl Dev.vacate d).devEvent 0x0604 p left.length

/-- Retained keys whose last span is released are destroyed, in the close phase (R478). -/
def Dev.dropRetained (d : Dev) : Dev :=
  let used := fun (x : Nat × Nat) => d.seqs.spans.any fun e => e.2.owner == x.1 && e.2.keyGen == x.2
  { d with sec := { d.sec with retained := d.sec.retained.filter used } }

/-- The lost requester of a discarding reset: this device's own homes drop its grants (R391). -/
def Dev.tellHomes (d : Dev) (p : Nat) : Dev := d.grantsLost d.devNo (some p)

/-- A patron reset finishes (R106, R585). -/
def State.resetDone (s : State) (p : Nat) : State :=
  match (s.dev.pat p).st, (s.dev.pat p).reset with
  | .resetting, some r =>
    let d := s.dev.abandon p false
    let d := if r.discard then ((d.discardStored p).retainKey p).tellHomes p else d
    let d := (d.clearCtrs p).resetTraffic p
    let d := d.patEvent0 p 0x0004 (flag r.discard) 0
    let now := d.adm.resetAns.filter fun x => x.1 == p && !x.2.1
    let d := now.foldl (fun (d : Dev) x => d.complete x.2.2 {}) d
    let rest := d.adm.resetAns.filter fun x => !(x.1 == p && !x.2.1)
    let d := { d with adm := { d.adm with resetAns := rest.map fun (x : Nat × Bool × Req) => if x.1 = p then (p, false, x.2.2) else x } }
    if r.follow then
      let s := { s with dev := d.modPat p fun x => { x with st := .configuring, reset := none } }
      s.resetPatron p true
    else { s with dev := d.modPat p fun x => { x with st := if d.exists_ p then .configuring else .disabled, reset := none } }
  | _, _ => s

/-- PATRON_RESET_DONE. -/
def execPatronResetDone (p : Nat) (s : State) : Host.Outcome State Fault Refusal := .next (s.resetDone p)

/-- PAT_KEEP_RESET: a write of 1 by a function whose patron is neither DISABLED nor RESETTING (R105, R106). -/
def execPatKeepReset (p value : Nat) (s : State) : Host.Outcome State Fault Refusal :=
  .next <| if !s.dev.reached p ∨ value % 2 = 0 ∨ (s.dev.pat p).st = .resetting then s else s.resetPatron p false

/-- A discarding reset of every patron (R103, R105). -/
def State.resetEvery (s : State) : State := (List.range 64).foldl (fun s p => s.resetPatron p true) s

/-- FUNCTION_LEVEL_RESET. -/
def execFunctionLevelReset (p : Nat) (s : State) : Host.Outcome State Fault Refusal :=
  .next <| if !s.dev.reached p then s else if p = 0 then s.resetEvery else s.resetPatron p true

/-- HOT_RESET: received on the host port, or a link disable (R103). -/
def execHotReset (s : State) : Host.Outcome State Fault Refusal := .next s.resetEvery

/-- VF_ENABLE_SET with NumVFs: the virtual functions' patrons become CONFIGURING (R72, R106). -/
def execVfEnableSet (n : Nat) (s : State) : Host.Outcome State Fault Refusal :=
  .next <| s.onDev fun d =>
    if !d.host.linkUp ∨ d.host.numVf ≠ 0 ∨ 63 < n then d else
    let d := { d with host := { d.host with numVf := n } }
    (List.range n).foldl (fun (d : Dev) i =>
      if (d.pat (i + 1)).st = .disabled then d.modPat (i + 1) fun _ => { st := .configuring } else d) d

/-- VF_ENABLE_CLEAR: a discarding reset of every patron (R105); patrons 1 to 63 are removed with it (R106). -/
def execVfEnableClear (s : State) : Host.Outcome State Fault Refusal :=
  .next <| if !s.dev.host.linkUp ∨ s.dev.host.numVf = 0 then s else
    (s.onDev fun d => { d with host := { d.host with numVf := 0 } }).resetEvery

/-- The form of PATRON_RESET (R105). -/
def formPatronReset (d : Dev) : Form :=
  { entries := (· == 0), classes := [6], admin := true, object := (· == 0)
    items := fun _ => [.val 0 0 6 fun v => v != 0 && d.exists_ v, .rsv 0 7 1] ++ rsvBytes 1 47 }

/-- PATRON_RESET: completes when the target's reset finishes; a target removed meanwhile fails at TARGET (R105, R474, R585). -/
def State.opPatronReset (s : State) (q : Req) : State :=
  let p := q.d.fld 0 0 6
  let discard := q.d.fld 0 6 1 == 0
  if !s.dev.exists_ p then s.onDev fun d => d.complete q (.bad 0x05 (bodyOff 0))
  else if discard ∧ !s.dev.sec.entropyOk then s.onDev fun d => d.complete q (.bad 0x08 noField)
  else
    let follows := match (s.dev.pat p).reset with
      | some r => discard && !r.discard
      | none => false
    let s := s.resetPatron p discard
    s.onDev fun d => { d with adm := { d.adm with resetAns := d.adm.resetAns ++ [(p, follows, q)] } }

/-! ### Links and configuration requests (R69–R71, R103, R510, R513) -/

/-- HOST_LINK_UP. -/
def execHostLinkUp (width rate : Nat) (flit : Bool) (s : State) : Host.Outcome State Fault Refusal :=
  .next <| s.onDev fun d =>
    if d.host.linkUp then d else
    let d := { d with host := { d.host with linkUp := true, width := width, rate := rate, flit := flit } }
    let (ms, d) := d.drawBits 32
    d.headLink ms

/-- The host link is lost: the head of the pool follows it (R514). -/
def Dev.linkLost (d : Dev) : Dev :=
  let d := { d with host := { d.host with linkUp := false, width := 0, rate := 0 } }
  let (ms, d) := d.drawBits 32
  d.headLink ms

/-- HOST_LINK_DOWN: every patron faults with cause 4 (R103). -/
def execHostLinkDown (s : State) : Host.Outcome State Fault Refusal :=
  .next <| s.onDev fun d =>
    if !d.host.linkUp then d else
    ((List.range 64).foldl (fun (d : Dev) p => d.patronFaults p 4) d).linkLost

/-- LINK_CHANGED: the trained width or rate changes while the link is up. -/
def execLinkChanged (width rate : Nat) (flit : Bool) (s : State) : Host.Outcome State Fault Refusal :=
  .next <| s.onDev fun d =>
    if !d.host.linkUp then d else
    let same := decide (width = d.host.width ∧ rate = d.host.rate)
    let d := ({ d with host := { d.host with width := width, rate := rate, flit := flit } }).count .retrain 0
    if same then d else d.devEvent 0x0005 (width % 256 + 256 * (rate % 256)) 0

/-- A dword of configuration space (R71): the IDs, the class code, and of the physical function the kinds of BAR0, BAR2 and BAR4, in
the low four bits of each (the places are the PCI header's, assumption 99); the rest is fixed by documents outside the spec. -/
def cfgRead (p off : Nat) : Nat :=
  let free := Config.cfgDword p off % 2 ^ 32
  if off / 4 = 0 then 0x1EB7 + 65536 * (if p = 0 then 0x0640 else 0x0641)
  else if off / 4 = 2 then 0x12 * 2 ^ 24 + free % 2 ^ 24
  else if p = 0 ∧ (off / 4 = 4 ∨ off / 4 = 6) then free / 16 * 16 + 0x4
  else if p = 0 ∧ off / 4 = 8 then free / 16 * 16 + 0xC
  else free

/-- PCIE_CONFIG_REQUEST: retry status during steps 1 and 2, then success (R510). -/
def execPcieConfigRequest (p off : Nat) (s : State) : Host.Outcome State Fault Refusal :=
  .next <| s.onDev fun d =>
    if !d.exists_ p ∨ [DevState.off, .tamperHold].contains d.boot.st then d
    else if d.boot.st = .booting ∧ !d.boot.steps.contains 2 then d.emit (.config p off true 0)
    else d.emit (.config p off false (cfgRead p off))

/-! ### The pool aperture (R77–R79, R349, R363, R392) -/

/-- The pool address behind a BAR4 offset, where its slot is enabled, and the slot's owner. -/
def Dev.aperture (d : Dev) (off : Nat) : Option (Nat × Nat) :=
  let i := off / 2 ^ 30
  if d.reg regHpiAptSlots i 0 1 = 1 then some (d.reg regHpiAptSlots i 0 2 + off % 2 ^ 30, d.reg regHpiAptSlots i) else none

/-- Requests of this device to a line are outstanding. -/
def Dev.lineBusy (d : Dev) (addr : Nat) : Bool :=
  d.fab.outst.any fun o => o.m.addr / 64 == addr / 64 && [0x01, 0x08, 0x09, 0x10].contains o.code

/-- Merge a masked line over another: bytes that `mask` selects come from the later one. -/
def overlay (mask : Nat) (old new : List Byte) : List Byte :=
  (List.range 64).map fun i => if bit mask i then new.getD i 0 else old.getD i 0

/-- A masked store as a message: a full line is a STORE (R351). -/
def storeMsg (d : Dev) (p addr mask : Nat) (b : List Byte) : Nat × Msg :=
  if mask = 2 ^ 64 - 1 then (0x08, { source := d.srcOf p 0, addr := addr, slots := b })
  else (0x09, { source := d.srcOf p 0, addr := addr, slots := leBytes 8 mask ++ List.replicate 8 0 ++ b })

/-- Hold a store or a combinable atomic behind an outstanding request to its line: it joins the group of its kind whose window
is open, or opens one (R363). A request that joins none stands alone, behind the groups of its line (R359). -/
def Dev.combine (d : Dev) (dest code p k operand mask : Nat) (m : Msg) (b : List Byte) : Dev :=
  let line := m.addr / 64
  let like := fun (c : Comb) => joinable c.code c.m && joinable code m && c.line == line && c.patron == p && d.windowOpen c.openedAt && (if code = 0x10 then c.code == 0x10 && c.m.arg == m.arg && c.m.addr == m.addr
    else c.code != 0x10)
  match d.fab.comb.find? fun e => like e.2 with
  | some (i, c) =>
    let c := { c with members := c.members ++ [(k, operand)] }
    let c := if code = 0x10 then
        let n := atomicWidth m.arg
        { c with m := { c.m with slots := leBytes 16 (atomicNew (m.arg % 16) (8 * n) (leNat (c.m.slots.take n)) operand 0) } }
      else
        let now := overlay mask (storeParts c.code c.m).2 b
        let all := c.mask ||| mask
        let x := storeMsg d p (64 * line) all now
        { c with code := x.1, m := x.2, mask := all }
    ({ d with fab := { d.fab with comb := tset d.fab.comb i c } }).count .joinEgress 0
  | none =>
    let c : Comb := { line := line, dest := dest, code := code, m := m, region := addrRegion m.addr, patron := p, members := [(k, operand)]
                      mask := mask, openedAt := d.tim.now }
    { d with fab := { d.fab with comb := tset d.fab.comb ((d.fab.comb.getLast?.map (·.1 + 1)).getD 0) c } }

/-- Send a part of an access to the device that serves its region; a dead one answers by R372. -/
def Dev.sendPart (d : Dev) (dest code k : Nat) (m : Msg) (operand mask : Nat) (b : List Byte) : Dev :=
  let p := srcPatron m.source
  let id := addrRegion m.addr
  if d.isDead dest then d.jobPart k (rspCode code) m.addr { arg := d.deadStatus id (code == 0x01) }
  else if code = 0x01 then
    match tget d.fab.borrow (m.addr / 64) with
    | some b => d.jobPart k 0x28 m.addr { slots := b }
    | none =>
      if (d.combines || (d.mapOf id).any fun (x : Mapping) => x.attrs % 4 == 2) ∧ d.fab.outst.any fun o => o.code == 0x01 && o.m.addr / 64 == m.addr / 64 && o.dest == dest && !o.stale then
        let join := fun (o : Outst) => if o.code = 0x01 ∧ o.m.addr / 64 = m.addr / 64 ∧ o.dest = dest ∧ !o.stale
          then { o with members := o.members ++ [(k, 0)] } else o
        ({ d with fab := { d.fab with outst := d.fab.outst.map join } }).count .joinEgress 0
      else (d.sendReq dest 0x01 m id (some k)).2
  else
    let d := d.dropBorrow (m.addr / 64)
    let grouped := d.fab.comb.any fun e => e.2.line == m.addr / 64 && e.2.patron == p
    if (d.combines && d.lineBusy m.addr && joinable code m) || (grouped && !m.release) then d.combine dest code p k operand mask m b
    else if code = 0x10 then (d.sendReq dest code m id none [(k, operand)]).2
    else (d.sendReq dest code m id (some k)).2

/-- The parts of an access to lines of the pool under a job (R28, R77): at this home, or at another device of the wing. -/
def State.accessParts (s : State) (k : Nat) (parts : List (Nat × Msg × Nat × Nat × List Byte)) : State :=
  parts.foldl (fun (s : State) x =>
    let id := addrRegion x.2.1.addr
    let t := s.dev.servesRegion id
    if t = s.dev.devNo then s.homeServe 18 x.1 x.2.1 (some k) false
    else s.onDev fun d => d.sendPart t x.1 k x.2.1 x.2.2.1 x.2.2.2.1 x.2.2.2.2) s

/-- An aperture access: refused under R78, or carried out part by part. -/
def State.apertureAccess (s : State) (op off len right : Nat)
    (parts : Nat → Nat → List (Nat × Msg × Nat × Nat × List Byte)) : State :=
  let d := s.dev
  if !d.served 0 ∨ len = 0 ∨ 2 ^ 36 < off + len then s else
  match d.aperture off with
  | none =>
    let d := d.apertureMiss 0 false off
    { s with dev := if op = 0x100 then d.emit (.aperture (List.replicate len 0xFF) false) else d }
  | some (addr, p) =>
    let lines := ceilDiv (addr % 64 + len) 64
    if d.rgn.torn.contains (addrRegion addr) ∨ addrDev addr / 16 ≠ d.wing ∨ !d.mapAllows p (addr / 64 * 64) right lines then
      let d := d.apertureMiss p true off
      { s with dev := if op = 0x100 then d.emit (.aperture (List.replicate len 0xFF) false) else d }
    else
      let ps := parts addr p
      let (k, d) := d.newJob { op := op, x := { patron := p, object := off }, dev := d.devNo, at_ := addr, len := len, wait := ps.length }
      ({ s with dev := d }).accessParts k ps

/-- APERTURE_READ. -/
def execApertureRead (off len : Nat) (s : State) : Host.Outcome State Fault Refusal :=
  .next <| s.apertureAccess 0x100 off len 0 fun addr p =>
    (List.range (ceilDiv (addr % 64 + len) 64)).map fun i =>
      (0x01, { source := s.dev.srcOf p 0, addr := addr / 64 * 64 + 64 * i }, 0, 0, [])

/-- APERTURE_WRITE: one store per line, masked where the write covers a part of it. -/
def execApertureWrite (off : Nat) (bytes : List Byte) (s : State) : Host.Outcome State Fault Refusal :=
  .next <| s.apertureAccess 0x101 off bytes.length 1 fun addr p =>
    let lead := addr % 64
    let all := List.replicate lead 0 ++ bytes
    (List.range (ceilDiv (lead + bytes.length) 64)).map fun i =>
      let part := (all.drop (64 * i)).take 64
      let b := part ++ List.replicate (64 - part.length) 0
      let lo := if i = 0 then lead else 0
      let mask := (2 ^ part.length - 1) / 2 ^ lo * 2 ^ lo
      let x := storeMsg s.dev p (addr / 64 * 64 + 64 * i) mask b
      (x.1, x.2, 0, mask, b)

/-- APERTURE_ATOMIC: FetchAdd and Swap of 32 or 64 bits, CAS of 64 or 128 bits, naturally aligned (R68, R77, R352). -/
def execApertureAtomic (off op width operand compare : Nat) (s : State) : Host.Outcome State Fault Refusal :=
  let ok := ((op = 0 ∨ op = 7) ∧ (width = 32 ∨ width = 64)) ∨ (op = 8 ∧ (width = 64 ∨ width = 128))
  let n := width / 8
  .next <| if !(decide ok) ∨ off % n ≠ 0 then s else
    s.apertureAccess 0x102 off n 2 fun addr p =>
      let arg := op + 16 * (if width = 32 then 0 else if width = 64 then 1 else 2)
      let slots := if op ≠ 8 then leBytes n operand ++ List.replicate (16 - n) 0
        else if width = 128 then leBytes 16 compare ++ leBytes 16 operand else leBytes 8 compare ++ leBytes 8 operand
      [(0x10, { source := s.dev.srcOf p 0, addr := addr, arg := arg, slots := slots }, operand % 2 ^ width, 0, [])]

/-- The form of APERTURE_MAP (R79). -/
def formApertureMap (d : Dev) : Form :=
  { entries := (· == 0), classes := [6], admin := true, object := (· == 0)
    items := fun x => [.rsv 0 6 2, .val 1 0 6 d.exists_, .rsv 1 7 1] ++ rsvBytes 2 6
      ++ [.val 8 0 64 fun v => v % 2 ^ 30 == 0 && decide (v < 2 ^ 56) && (x.fld 1 6 1 == 1 || v == 0)] ++ rsvBytes 16 32 }

/-- APERTURE_MAP: the slot's new mapping. -/
def Dev.opApertureMap (d : Dev) (q : Req) : Dev × Ans :=
  let x := q.d
  let w := x.fld 1 0 6 + 64 * x.fld 1 6 1 + 2 ^ 64 * x.fld 8 0 64
  (d.setRegWord (regHpiAptSlots.addr (x.fld 0 0 6)) 0 w, {})

end Sys2Proof.Machine
end

