-- ==== Sys2Proof/Machine/LineCode.lean ====
section
/-! DEFINITION. The line code of the reading room: a Reed–Solomon code over GF(2^8) with 64 data bytes and 8 check bytes (R443, R445). -/

namespace Sys2Proof.Machine

/-! ### GF(2^8), generated by 0x11D, with α = 2 -/

/-- Multiply by α. -/
def gfTwo (x : Nat) : Nat := if 128 ≤ x then (2 * x) ^^^ 0x11D else 2 * x

/-- The product of `x` with the lowest `n` bits of `y`. -/
def gfMulBits : Nat → Nat → Nat → Nat
  | 0, _, _ => 0
  | n + 1, x, y => (if y % 2 = 1 then x else 0) ^^^ gfMulBits n (gfTwo x) (y / 2)

/-- The product. -/
def gfMul (x y : Nat) : Nat := gfMulBits 8 x y

/-- A power. -/
def gfPow (x : Nat) : Nat → Nat
  | 0 => 1
  | n + 1 => gfMul x (gfPow x n)

/-- The inverse of a non-zero element. -/
def gfInv (x : Nat) : Nat := gfPow x 254

/-- A polynomial, coefficients from the constant term on, at a point. -/
def gfEval : List Nat → Nat → Nat
  | [], _ => 0
  | c :: cs, x => c ^^^ gfMul x (gfEval cs x)

/-- Sum of polynomials. -/
def gfAdd : List Nat → List Nat → List Nat
  | [], b => b
  | a, [] => a
  | x :: a, y :: b => (x ^^^ y) :: gfAdd a b

/-- Multiple of a polynomial. -/
def gfScale (c : Nat) (a : List Nat) : List Nat := a.map (gfMul c)

/-- Product of polynomials. -/
def gfPolyMul : List Nat → List Nat → List Nat
  | [], _ => []
  | x :: a, b => gfAdd (gfScale x b) (0 :: gfPolyMul a b)

/-! ### Encoding (R443) -/

/-- The generator polynomial: the product of x − α^i for i = 0 to 7. -/
def lineGen : List Nat := (List.range 8).foldl (fun g i => gfPolyMul g [gfPow 2 i, 1]) [1]

/-- One step of the division by the generator: the remainder, highest coefficient first. -/
def lineStep (rem : List Nat) (b : Nat) : List Nat :=
  let f := b ^^^ rem.headD 0
  gfAdd (rem.drop 1 ++ [0]) (gfScale f ((lineGen.take 8).reverse))

/-- The check bytes of a line. -/
def lineCheck (data : List Byte) : List Byte :=
  ((data.map BitVec.toNat).foldl lineStep (List.replicate 8 0)).map (BitVec.ofNat 8)

/-- The codeword of a line: its data bytes and its check bytes, coefficients of x^71 down to x^0. -/
def lineEncode (data : List Byte) : List Byte := data ++ lineCheck data

/-! ### Decoding (R445) -/

/-- The syndromes of a received word: its values at α^0 to α^7. -/
def lineSyndromes (w : List Byte) : List Nat :=
  (List.range 8).map fun j => gfEval ((w.map BitVec.toNat).reverse) (gfPow 2 j)

/-- What finds the error locator carries: locator, earlier locator, its discrepancy, degree, steps since. -/
structure LocSt where
  c : List Nat := [1]
  b : List Nat := [1]
  db : Nat := 1
  l : Nat := 0
  m : Nat := 1
  deriving DecidableEq, Repr

/-- One syndrome more (the algorithm of Berlekamp and Massey). -/
def locStep (s : List Nat) (st : LocSt) (n : Nat) : LocSt :=
  let d := (List.range (st.l + 1)).foldl (fun a i => a ^^^ gfMul (st.c.getD i 0) (s.getD (n - i) 0)) 0
  if d = 0 then { st with m := st.m + 1 } else
  let c := gfAdd st.c (List.replicate st.m 0 ++ gfScale (gfMul d (gfInv st.db)) st.b)
  if 2 * st.l ≤ n then { c := c, b := st.c, db := d, l := n + 1 - st.l, m := 1 } else { st with c := c, m := st.m + 1 }

/-- The error locator and its degree. -/
def lineLocator (s : List Nat) : List Nat × Nat :=
  let st := (List.range 8).foldl (locStep s) {}
  (st.c, st.l)

/-- Outcome of a read. -/
inductive LineRead where
  | clean
  | corrected (w : List Byte)
  | uncorrectable
  deriving DecidableEq, Repr

/-- Decode a received word under a correction limit. -/
def lineDecode (t : Nat) (w : List Byte) : LineRead :=
  let s := lineSyndromes w
  if s.all (· == 0) then .clean else
  let (c, l) := lineLocator s
  -- the powers of x at which an error lies
  let roots := (List.range 72).filter fun p => gfEval c (gfPow (gfInv 2) p) == 0
  if t < l ∨ roots.length ≠ l then .uncorrectable else
  let om := (gfPolyMul s c).take 8
  let dc := (List.range (c.length - 1)).map fun i => if i % 2 = 0 then c.getD (i + 1) 0 else 0
  let err := fun (p : Nat) =>
    let x := gfPow 2 p
    gfMul x (gfMul (gfEval om (gfInv x)) (gfInv (gfEval dc (gfInv x))))
  .corrected ((List.range 72).map fun i =>
    let b := w.getD i 0
    if roots.contains (71 - i) then b ^^^ BitVec.ofNat 8 (err (71 - i)) else b)

end Sys2Proof.Machine
end

