-- ==== Sys2Proof/Machine/Faults.lean ====
section
/-! DEFINITION. Faults: line-code outcomes, poison and its owner rules, the reference sweep, SRAM and die links, clusters out of service, firmware restarts and the device fault (R443 to R470, R518). -/

namespace Sys2Proof.Machine

/-! ### Reports (R466–R470) -/

/-- The 8 syndrome bytes of a read of a line (R466): of an injected word; elsewhere the stored codeword is not part of the
model, and they are free. -/
def Dev.syndromeOf (d : Dev) (off : Nat) : Nat × Dev :=
  match tget d.flt.injected off with
  | some w => (leNat ((lineSyndromes w).map (BitVec.ofNat 8)), d)
  | none => d.drawBits 64

/-- A corrected line of a channel: counted, logged, and CORRECTED_RATE once per channel and minute (R446, R470). -/
def Dev.correctedLine (d : Dev) (off cluster channel syn : Nat) : Dev :=
  let d := (d.count .linesCorr channel).logCorrected (eventBlock 0x0500) { cluster := cluster, channel := channel, addr := off, syndrome := syn }
  let (t0, n) := tgetD d.flt.ceMinute channel (d.tim.now, 0)
  let (t0, n) := if t0 + 60 * 10 ^ 9 ≤ d.tim.now then (d.tim.now, 0) else (t0, n)
  let d := { d with flt := { d.flt with ceMinute := tset d.flt.ceMinute channel (t0, n + 1) } }
  if n + 1 = d.reg regFltCeThreshold then d.devEvent 0x0501 (cluster % 16 + 16 * (channel % 256)) (n + 1) { cluster := cluster, channel := channel } else d

/-- A fault of class 3, 4, 6 or 7 is reported to board management (R469). -/
def Dev.reportFault (d : Dev) (cls code : Nat) : Dev := d.emit (.mctp cls code)

/-! ### Damage and the reference sweep (R451, R453) -/

/-- The sweep starts, or starts again. -/
def Dev.startSweep (d : Dev) : Dev := { d with flt := { d.flt with sweep := true } }

/-- A sequence is damaged: reported once. -/
def Dev.damageRec (d : Dev) (i : Nat) : Dev :=
  match tget d.seqs.recs i with
  | none => d
  | some r =>
    if r.damaged then d else
    let d := ({ d with seqs := { d.seqs with recs := tset d.seqs.recs i { r with damaged := true } } }).count .damagedSeq r.owner
    (d.patEvent r.owner 0x050B r.number i { cls := 1 }).startSweep

/-- How often a list holds a value. -/
def occurs (l : List Nat) (x : Nat) : Nat := (l.filter (· == x)).length

/-- Holders of references as the readable objects show them: the shares of each root and leaf that remain, and the count of a
span. -/
def Dev.sweptBlks (d : Dev) : Tab Blk :=
  let roots := (d.seqs.recs.filter fun e => !e.2.damaged).map (·.2.root) ++ (d.adm.held.flatMap fun q => q.walks.map (·.root))
  let keep := (d.seqs.blks.filter fun e => e.2.root && decide (0 < occurs roots e.1)).flatMap fun e => e.2.entries
  tkeep (tmap d.seqs.blks fun n b => { b with share := if b.root then occurs roots n else occurs keep n }) fun _ b => b.share != 0

/-- REF_COUNT of a span as its holders show it (R196). -/
def Dev.sweptRef (d : Dev) (blks : Tab Blk) (i : Nat) : Nat :=
  ((blks.filter fun e => !e.2.root).map fun e => occurs e.2.entries i).sum
    + (d.seqs.recs.filter fun e => !e.2.damaged && e.2.openSpan == i).length
    + (d.cat.ents.filter fun e => e.2.span == i).length
    + ((d.adm.held.flatMap fun q => q.walks).map fun w => occurs w.spans i).sum

/-- The sweep ends: counts are those of the holders, blocks and spans that nothing references go. -/
def Dev.sweepEnd (d : Dev) : Dev :=
  if !d.flt.sweep then d else
  let pages := d.allPages
  let blks := d.sweptBlks
  let lost := d.seqs.blks.filter fun e => (tget blks e.1).isNone
  let spans := tmap d.seqs.spans fun i s => { s with ref := d.sweptRef blks i }
  let d := { d with seqs := { d.seqs with blks := blks, spans := spans } }
  let d := lost.foldl (fun (d : Dev) e => (d.dropMeta e.2.patron (if e.2.root then 512 else 4096)).cleanReserve (.table e.1)) d
  let gone := d.seqs.spans.filter fun e => e.2.ref == 0
  let frames := (gone.map fun e => (e.2.handles.filter (· != 0)).length).sum
  let d := d.releaseZero
  (({ d with flt := { d.flt with sweep := false } }).count .sweeps 0).devEvent 0x050C gone.length (frames + (pages - d.allPages))

/-- REFERENCE_SWEEP: the sweep that a poisoned line started ends. -/
def execReferenceSweep (s : State) : Host.Outcome State Fault Refusal :=
  .next (s.onDev fun d => if d.sec.restarting then d else d.sweepEnd)

/-! ### What a poisoned line holds (R450–R456) -/

/-- The kind of a line in LINE_POISONED. -/
def lineKind : LineOf → Nat
  | .primary _ _ | .tail _ _ | .twin _ _ => 1
  | .record _ | .table _ | .spanMeta _ => 2
  | .region _ => 3
  | .bucket _ | .directory _ | .atomicReplay _ | .storeReplay _ | .flashMap _ _ | .log _ => 4
  | .other => 5

/-- The frame line of a span: span, layer and form. -/
def lineFrame : LineOf → Option (Nat × Nat × Nat)
  | .primary i l => some (i, l, 0)
  | .tail i l => some (i, l, 1)
  | .twin i l => some (i, l, 2)
  | _ => none

/-- The patron that owns what a line holds; patron 0 for the device's own tables. -/
def Dev.lineOwner (d : Dev) : LineOf → Nat
  | .primary i _ | .tail i _ | .twin i _ | .spanMeta i => ((d.span? i).map (·.owner)).getD 0
  | .record k => ((tget d.seqs.recs k).map (·.owner)).getD 0
  | .table b => ((d.blk? b).map (·.patron)).getD 0
  | _ => 0

/-- A folio is lost: its span becomes VACANT, a churn of it is cancelled (R142, R450). -/
def Dev.loseFolio (d : Dev) (i : Nat) : Dev := if (d.span? i).isSome then d.vacate i else d

/-- A directory set is poisoned (R454): an INVALIDATE of every line of this home goes to the wing; loads and responses of the set
wait for every INV_ACK, then the set is empty. -/
def Dev.reinitSet (d : Dev) (set : Nat) : Dev :=
  let es := d.dirEnts set
  let oth := d.wingOthers
  let loads := es.flatMap (·.loads)
  if oth.isEmpty then (d.setDir set []).cleanReserve (.directory set) else
  let d := d.setDir set [{ line := setLine set, inval := true, awaited := oth.map (· % 16), loads := loads }]
  d.sendInv (d.devNo * 2 ^ 50 + (2 ^ 50 - 1)) oth

/-- A replay line is poisoned (R455): its records are gone, retries that fall on it are answered POISON. -/
def Dev.loseReplay (d : Dev) (line : Nat) : Dev :=
  let at_ := fun (code k : Nat) => replayLine code { source := k / 65536, tag := k % 65536 } == line
  { d with fab := { d.fab with
    replayA := tkeep d.fab.replayA (fun k _ => !at_ 0x10 k)
    replayS := tkeep d.fab.replayS (fun k _ => !at_ 0x08 k)
    poisonReplay := if d.fab.poisonReplay.contains line then d.fab.poisonReplay else d.fab.poisonReplay ++ [line] } }

/-- The rule of R450 for the owner of a line. -/
def Dev.ownerRule (d : Dev) : LineOf → Dev
  | .primary i _ => d.loseFolio i
  | .tail i _ => d.loseTail i
  | .twin i _ => d.loseTwin i
  | .region off =>
    match tget d.rgn.slots (off / windowBytes) with
    | some r =>
      if r.durable && !r.mirror && r.st == 1 && !d.isDead r.partner then
        (d.sendReq r.partner 0x03 { source := d.srcOf 0 2, addr := r.id % 64 * 2 ^ 50 + off / 64 * 64 } r.id none).2
      else d
    | none => d
  | .record k => d.damageRec k
  | .table b =>
    (d.seqs.recs.filter fun e => e.2.root == b || (d.leaves e.2.root).contains b).foldl (fun (d : Dev) e => d.damageRec e.1) d
  | .spanMeta i => (d.modSpan i fun s => { s with damaged := true }).startSweep
  | .bucket b =>
    ((List.range 4).foldl (fun (d : Dev) w => d.delEnt (overflowIndex b w)) d).startSweep
  | .directory set => d.reinitSet set
  | .atomicReplay k => d.loseReplay (k / 2)
  | .storeReplay k => d.loseReplay (32768 + k / 8)
  | .flashMap v seg => { d with stk := { d.stk with waitSegs := d.stk.waitSegs ++ [(v, seg)] } }
  | .log slot => ({ d with flt := { d.flt with log := tdel d.flt.log slot } }).count .logLost 0
  | .other => d

/-- A line becomes poisoned (R447–R449). A frame's or region's consumer meets the poison later, unless scrub found it or the
table is full; every other owner's rule applies at once. -/
def Dev.poisonAt (d : Dev) (off cluster : Nat) (w : LineOf) (scrub : Bool) (i : LogInfo := {}) : Dev :=
  match w with
  | .region o =>
    let was := d.linePoisoned (o / 64)
    let d := d.poisonLine (o / 64) i
    if scrub && !was then d.ownerRule w else d
  | _ =>
    if d.flt.tables.any fun e => e.2 == off then (if scrub then d.ownerRule w else d) else
    let p := d.lineOwner w
    let taken := d.poisonEntry cluster off
    let e := match taken with
      | some d => d
      | none => d
    let e := e.poisonEvent p cluster off (lineKind w) i
    match lineFrame w with
    | some f =>
      if taken.isNone then e.ownerRule w else
      let e := { e with flt := { e.flt with frames := e.flt.frames ++ [(f.1, f.2.1, f.2.2, off)] } }
      if scrub then e.ownerRule w else e
    | none =>
      let e := if taken.isNone then e else { e with flt := { e.flt with reserve := tset e.flt.reserve off w } }
      e.ownerRule w

/-! ### Reads of lines (R445–R447, R459, R562) -/

/-- The limit of correction in force. -/
def Dev.lineT (d : Dev) : Nat := d.reg regFltCtrl

/-- What reads of a line with an injected error come to; nothing is injected elsewhere. -/
def Dev.injectedRead (d : Dev) (off : Nat) : Option LineRead := (tget d.flt.injected off).map (lineDecode d.lineT)

/-- A corrected line is written back: an injected error is gone (R446). -/
def Dev.repairLine (d : Dev) (off : Nat) : Dev := { d with flt := { d.flt with injected := tdel d.flt.injected off } }

/-- A line of the table reads as uncorrectable, whatever it holds. -/
def Dev.inTable (d : Dev) (off : Nat) : Bool := d.flt.tables.any fun e => e.2 == off

/-- A line of a frame, or of a region unit, is being re-read: what lands there waits for it (R281 cause 7, R447). -/
def Dev.noteRetry (d : Dev) (what : LineOf) : Dev :=
  match (match what with
    | .region a => some (unitTag (addrUnit (64 * a)))
    | w => (lineFrame w).map (·.1)) with
  | some k => { d with flt := { d.flt with lineRetry := d.flt.lineRetry ++ [k] } }
  | none => d

/-- LINE_REREAD of a line of a channel of the cluster that R13 gives it; no other cluster has the line: the re-read that succeeds, or none. -/
def execLineReread (offset cluster channel : Nat) (what : LineOf) (reread : Nat) (s : State) : Host.Outcome State Fault Refusal :=
  .next <| s.onDev fun d =>
    -- a cluster that is out of service reads nothing (R462); accesses to the frame wait for the re-read (R281)
    if cluster ≠ channel / 16 ∨ d.flt.out.contains cluster ∨ !d.lineAt offset cluster what then d else
    if d.inTable offset then d.poisonAt offset cluster what false else
    let n := match d.injectedRead offset with
      | some .uncorrectable => 3
      | some _ => 0
      | none => reread
    if n = 0 then d else
    let d := d.noteRetry what
    let (syn, d) := d.syndromeOf offset
    if n ≤ 2 then (d.count .lineRetry channel n).correctedLine offset cluster channel syn
    else (d.count .lineRetry channel 2).poisonAt offset cluster what false { channel := channel, syndrome := syn }

/-- Scrub may read a line: within the 64 KiB it has begun, or at a start point of class 5 (R420, R459). -/
def Dev.scrubStart (d : Dev) (off : Nat) : Option Dev :=
  if d.flt.scrubUnit = some (off / 65536) then some d
  else if d.mayStart 5 then
    let d := d.startUnit 5 65536
    some { d with flt := { d.flt with scrubUnit := some (off / 65536) } }
  else none

/-- READING_ROOM_SCRUB of a line: 0 clean, 1 corrected, 2 uncorrectable. -/
def execReadingRoomScrub (offset cluster channel : Nat) (what : LineOf) (outcome : Nat) (s : State) : Host.Outcome State Fault Refusal :=
  .next <| s.onDev fun d =>
    if d.reg regFltCtrl 0 0 1 = 0 ∨ cluster ≠ channel / 16 ∨ d.flt.out.contains cluster ∨ !d.lineAt offset cluster what then d else
    match d.scrubStart offset with
    | none => d
    | some d =>
    let n := if d.inTable offset then 2 else match d.injectedRead offset with
      | some .clean => 0
      | some (.corrected _) => 1
      | some .uncorrectable => 2
      | none => outcome
    if n = 0 then d
    else if n = 2 ∧ d.inTable offset then d.poisonAt offset cluster what true
    else
      let (syn, d) := d.syndromeOf offset
      if n = 1 then (d.repairLine offset).correctedLine offset cluster channel syn
      else (d.count .lineRetry channel 2).poisonAt offset cluster what true { channel := channel, syndrome := syn }

/-- FLT_INJECT_WRITE: a line write at a device offset; the first one at FLT_INJECT_ADDR before patron 0's SETUP_LOCK inverts the
codeword bytes that FLT_INJECT_MASK names. The ciphertext that is encoded is free, since its key is secret (R444). -/
def execFltInjectWrite (offset : Nat) (line : List Byte) (s : State) : Host.Outcome State Fault Refusal :=
  .next <| s.onDev fun d =>
    let d := d.repairLine offset
    let mask := d.reg regFltInjectMask
    if line.length ≠ 64 ∨ (d.pat 0).lock ∨ mask = 0 ∨ offset ≠ d.reg regFltInjectAddr then d else
    let (cipher, d) := d.drawBytes 64
    let w := (lineEncode cipher).zipIdx.map fun e => if bit mask e.2 then ~~~e.1 else e.1
    { d.setReg regFltInjectMask 0 0 0 0 with flt := { d.flt with injected := tset d.flt.injected offset w } }

/-! ### Rows (R460) -/

/-- ROW_REPAIR: on a spare row; without one the frames that cover the row are retired. -/
def execRowRepair (channel row : Nat) (spare : Bool) (frames : List Nat) (s : State) : Host.Outcome State Fault Refusal :=
  .next <| s.onDev fun d =>
    if d.reg regFltCtrl 0 0 2 = 0 ∨ 256 ≤ channel then d else
    let g := channel / 16
    if spare then (d.count .rowsRep channel).devEvent 0x0507 channel row { cluster := g, channel := channel }
    else
      let old := tgetD d.seqs.retired g []
      let new := (frames.filter fun u => !old.contains u && decide (u < clusterUnits)).eraseDups
      let d := { d with seqs := { d.seqs with retired := tset d.seqs.retired g (old ++ new) } }
      (d.count .framesRet g new.length).devEvent 0x0508 g new.length { cluster := g, channel := channel }

/-- REPLAY_LINE_REWRITE: after 4 × CHG_RETRY_TIMEOUT the line is empty (R455). -/
def execReplayLineRewrite (line : Nat) (s : State) : Host.Outcome State Fault Refusal :=
  .next <| s.onDev fun d =>
    let d := { d with fab := { d.fab with poisonReplay := d.fab.poisonReplay.filter (· != line) } }
    if line < 32768 then d.cleanReserve (.atomicReplay (2 * line)) else d.cleanReserve (.storeReplay (8 * (line - 32768)))

/-- FLASH_MAP_RELOAD: the segment is there again; units that could not be restored read as uncorrectable (R456). -/
def execFlashMapReload (volume segment : Nat) (restored : Bool) (s : State) : Host.Outcome State Fault Refusal :=
  .next <| s.onDev fun d =>
    if !d.stk.waitSegs.contains (volume, segment) ∨ d.sec.restarting then d else
    let d := ({ d with stk := { d.stk with waitSegs := d.stk.waitSegs.filter (· != (volume, segment)) } }).cleanReserve (.flashMap volume segment)
    if restored then d else
    let lost := fun (u : Nat) => u / segmentUnits == segment
    let spoil := fun (u : Nat) (x : FUnit) =>
      if lost u then { x with sectors := tmap x.sectors (fun _ c => { c with bad := true }) } else x
    let d := d.modVol volume fun v => { v with units := tmap v.units spoil }
    let hit := fun (c : FCopy) => c.volume == volume && decide (c.firstUnit / segmentUnits ≤ segment)
      && decide (segment ≤ (c.firstUnit + c.count - 1) / segmentUnits)
    let copies := tmap d.stk.copies fun _ c => if hit c then { c with bad := true } else c
    { d with stk := { d.stk with copies := copies } }

/-! ### Firmware restarts (R31, R490, R491, R518) -/

/-- Firmware runs. -/
def Dev.firmwareRuns (d : Dev) : Bool :=
  d.boot.steps.contains 2 && [DevState.booting, .ready, .serving].contains d.boot.st

/-- Application cores restart: admission pauses until firmware reports itself ready; the hardware goes on. -/
def Dev.restartCores (d : Dev) : Dev :=
  ({ d with sec := { d.sec with restarting := true }, adm := { d.adm with paused := true } }).count .fwRestarts 0

/-- A firmware fault (class 6): 1 warden, 2 watchdog, 3 control-complex SRAM. -/
def Dev.firmwareFault (d : Dev) (why core addr : Nat) : Dev :=
  if !d.firmwareRuns then d else
  let d := d.devEvent 0x0509 why core { cls := 6, addr := addr }
  ((d.faultNotice 6).reportFault 6 0x0509).restartCores

/-- WATCHDOG_EXPIRY. -/
def execWatchdogExpiry (core : Nat) (s : State) : Host.Outcome State Fault Refusal := .next (s.onDev fun d => d.firmwareFault 2 core 0)

/-- A host address lies in a registered window that permits both directions: no firmware DMA there fails the check (R489). -/
def Dev.wardenPasses (d : Dev) (addr : Nat) : Bool :=
  (List.range 8).any fun n =>
    let base := d.reg regHpiFwWinn n 0 0
    let size := 4096 * d.reg regHpiFwWinn n 0 1
    d.reg regHpiFwWinn n 0 2 == 1 && d.reg regHpiFwWinn n 0 3 == 1 && decide (base ≤ addr) && decide (addr < base + size)

/-- WARDEN_VIOLATION: the check of R29 by its row, the core and the offending address. -/
def execWardenViolation (check core addr : Nat) (s : State) : Host.Outcome State Fault Refusal :=
  .next <| s.onDev fun d => if !d.firmwareRuns ∨ 6 ≤ check ∨ (check = 0 ∧ d.wardenPasses addr) then d else (d.count2 .wardenDisc 0 check 1).firmwareFault 1 core addr

/-! ### The device fault (R464) -/

/-- The newest 64 log entries go to the system area (R464, R501). -/
def Dev.saveLog (d : Dev) : Dev :=
  let n := d.flt.logSeq
  let es := (List.range (min 64 n)).filterMap fun i => tget d.flt.log ((n - min 64 n + i) % logSlots)
  { d with flt := { d.flt with saved := es } }

/-- The flash sequence of R327 leaves a valid power-loss record: the last WRITE_SEQ of each volume and the position of the checkpoint. Staging
and open parity are in the power-loss log: pSLC programs of the volumes (R336). -/
def Dev.flashSequence (d : Dev) : Dev :=
  if !d.stk.discovered then { d with stk := { d.stk with powerLoss := false } } else
  let d := d.stk.staging.foldl (fun (d : Dev) e => d.count .bytesPslc (e.1 / 2 ^ 32) e.2) d
  { d with stk := { d.stk with
    powerLoss := true, ckptRunning := false, lossRecord := some (d.stk.volumes.map (fun e => (e.1, e.2.writeSeq)), d.stk.ckptAt) } }

/-- The device stops (class 7): Chaig, fetch and completions; AER; the flash sequence; the newest log entries. -/
def Dev.deviceStops (d : Dev) (cause : Nat) (hostPortOk flashOk : Bool) : Dev :=
  if d.flt.deviceFault ∨ [DevState.off, .tamperHold].contains d.boot.st then d else
  let seq := d.flt.logSeq
  let d := d.logEvent 0x050A cause seq { cls := 7 }
  let d := if hostPortOk then d.ringEvent 0 0x050A (eventBlock 0x050A) cause seq else d
  let d := (d.reportFault 7 0x050A).emit .aerFatal
  let d := { d with flt := { d.flt with deviceFault := true }, boot := { d.boot with st := .deviceFault }
                    adm := { d.adm with paused := true } }
  (if flashOk then d.flashSequence else d).saveLog

/-- DEVICE_FAULT: hub logic parity, loss of a die link or of a rail. -/
def execDeviceFault (cause : Nat) (hostPortOk flashOk : Bool) (s : State) : Host.Outcome State Fault Refusal :=
  .next (s.onDev fun d => d.deviceStops cause hostPortOk flashOk)

/-! ### Clusters (R32, R462, R463) -/

/-- Frames of a span lie in a cluster: those of one layer, or of any. -/
def Dev.spanIn (d : Dev) (c : Nat) (layer : Option Nat) (i : Nat) : Bool :=
  match d.span? i with
  | some s =>
    let fs := match layer with
      | some l => (s.frames[l]?).toList
      | none => s.frames
    fs.any fun f => [f.primary, f.tail, f.twin].any fun h => h != 0 && hCluster h == c
  | none => false

/-- Spans whose frames an edit reads or writes: the open one, and the listed one that a TRIM reopens or a refill fills (R205, R210). -/
def Dev.editSpans (d : Dev) (q : Req) (r : Rec) : List Nat :=
  let at_ := if q.op = 6 then some (q.d.fld 0 0 32) else if q.op = 3 ∧ (appF q.d).refill then some (appF q.d).pos else none
  r.openSpan :: (at_.bind fun n => (d.listed r.root)[n / 256]?).toList

/-- A request uses a cluster (R462, R463): the line of its sequence's record there, or frames there: those of its layer for an ATTEND,
of any layer for the rest; an edit those that it reads or writes. -/
def Dev.usesCluster (d : Dev) (q : Req) (c : Nat) : Bool :=
  let rec_ := fun (i : Nat) => reserveCluster (64 * i) == c
  (isEdit q.op && match d.seq? q.d.patron q.d.object with
    | some (i, r) => rec_ i || (d.editSpans q r).any (d.spanIn c none)
    | none => false)
  || q.walks.any fun w => rec_ w.record || w.spans.any (d.spanIn c (if q.op = 0x01 then some (atnLayer q.d) else none))

/-- A request needs a cluster that is out of service. -/
def Dev.fenced (d : Dev) (q : Req) : Bool := d.flt.out.any (d.usesCluster q)

/-- A cluster leaves service. -/
def Dev.clusterOut (d : Dev) (c checker : Nat) : Dev :=
  if d.flt.out.contains c ∨ 16 ≤ c ∨ [DevState.off, .tamperHold, .deviceFault].contains d.boot.st then d else
  let hit := ((d.adm.planned ++ d.adm.waiting).filter fun q => d.usesCluster q c).map (·.id)
  -- its 16 channels go into self-refresh with their content kept (R462)
  let chans := (List.range 16).foldl (fun t i => tset t (16 * c + i) 2) d.pwr.chans
  let d := { d with flt := { d.flt with out := d.flt.out ++ [c], abandoned := d.flt.abandoned ++ hit }, pwr := { d.pwr with chans := chans } }
  let d := (d.count .clusterFlt c).devEvent 0x0504 c checker { cls := 3, cluster := c }
  (d.faultNotice 3).reportFault 3 0x0504

/-- CLUSTER_FAULT. -/
def execClusterFault (cluster checker : Nat) (s : State) : Host.Outcome State Fault Refusal :=
  .next (s.onDev fun d => d.clusterOut cluster checker)

/-- REPAIR_PLAN_READY: the abandoned work resumes; what needs the fenced cluster waits on. -/
def execRepairPlanReady (s : State) : Host.Outcome State Fault Refusal :=
  .next (s.onDev fun d => { d with flt := { d.flt with abandoned := [] } })

/-- Log entries held for a cluster are written. -/
def Dev.writeHeldLog (d : Dev) (c : Nat) : Dev :=
  let now := d.flt.logHeld.filter fun e => logCluster e.1 == c
  { d with flt := { d.flt with log := now.foldl (fun l e => tset l e.1 e.2) d.flt.log
                               logHeld := tkeep d.flt.logHeld fun k _ => logCluster k != c } }

/-- CLUSTER_SELF_TEST_DONE: the cluster returns and what was held for it is served in arrival order, or it has failed. -/
def execClusterSelfTestDone (cluster : Nat) (passed : Bool) (outUs : Nat) (s : State) : Host.Outcome State Fault Refusal :=
  .next <|
    if !s.dev.flt.out.contains cluster then s
    else if passed then
      let s := s.onDev fun d =>
        let d := { d with flt := { d.flt with out := d.flt.out.filter (· != cluster) }
                          pwr := { d.pwr with chans := if d.pwr.sleep = 2 then d.pwr.chans else tkeep d.pwr.chans fun k _ => k / 16 != cluster } }
        (d.writeHeldLog cluster).devEvent 0x0505 cluster outUs { cluster := cluster }
      s.serveWhere (fun h => h.why == 3) false
    else s.onDev fun d => ({ d with flt := { d.flt with failed := d.flt.failed ++ [cluster] } }).deviceStops 0x0504 true true

/-! ### SRAM and die links (R457, R458) -/

/-- SRAM_SCRUB. -/
def execSramScrub (corrected : Nat) (s : State) : Host.Outcome State Fault Refusal :=
  .next <| s.onDev fun d => if corrected = 0 then d else (d.count2 .sramCorr 0 0 corrected).logCorrected (eventBlock 0x0500) {}

/-- Requests that used a lost word are planned again (R457, R461). -/
def Dev.replan (d : Dev) (ids : List Nat) : Dev :=
  let hit := fun (q : Req) => ids.contains q.id
  let back := d.adm.planned.filter hit
  let d := back.foldl (fun (d : Dev) q => q.walks.foldl Dev.endWalk d) d
  { d with adm := { d.adm with planned := d.adm.planned.filter (fun q => !hit q)
                               sealed_ := back.map (fun q => { q with walks := [], stage := 2 }) ++ d.adm.sealed_ } }

/-- SRAM_UNCORRECTABLE, by row of R457. -/
def execSramUncorrectable (row unit : Nat) (second : Bool) (requests : List Nat) (s : State) : Host.Outcome State Fault Refusal :=
  .next <| s.onDev fun d =>
    if 7 ≤ row then d else
    let g := if row = 0 ∨ row = 1 ∨ row = 2 then unit % 16 else 0
    let d := (d.count2 .sramUnc 0 0 1).devEvent 0x0503 row g { cls := if row = 3 then 2 else if row = 2 then 3 else 1, cluster := g }
    match row with
    | 0 => let d := d.replan requests
           if second then d.clusterOut (unit % 16) 0 else d
    | 1 => (requests.foldl Dev.delEnt d).startSweep
    | 2 => d.clusterOut (unit % 16) 2
    | 3 => d.patronFaults (unit % 64) 6
    | 6 => d.firmwareFault 3 unit 0
    | _ => d

/-- DIE_LINK_LANE_FAIL: a spare takes over; with none left the link runs DEGRADED at half width (R457). The lanes that then
serve are free: the spec gives no lane count. -/
def execDieLinkLaneFail (link : Nat) (s : State) : Host.Outcome State Fault Refusal :=
  .next <| s.onDev fun d =>
    if 3 ≤ link ∨ d.flt.deviceFault then d else
    let used := d.flt.lanes.getD link 0
    if used < 2 then ({ d with flt := { d.flt with lanes := d.flt.lanes.set link (used + 1) } }).count .spareLanes link
    else if d.flt.degraded.contains link then d
    else
      let (n, d) := d.drawBits 16
      let d := ({ d with flt := { d.flt with degraded := d.flt.degraded ++ [link] } }).devEvent 0x0506 link n { cls := 4 }
      (d.faultNotice 4).reportFault 4 0x0506

end Sys2Proof.Machine
end

