-- ==== Sys2Proof/Machine/Time.lean ====
section
/-! DEFINITION. Time: register access, the tick length and its changes, the sources of time, corrections, holdover, the wing's time master and the adoption of network time (R33 to R45, R509, R555). -/

namespace Sys2Proof.Machine

/-! ### Which register blocks the host port presents (R464, R486, R493, R510, R511) -/

/-- The host port presents a block: CAP from the end of step 2, and in BOOT_FAILED; CAP and SEC in RECOVERY; every block from
READY on. -/
def Dev.blockOpen (d : Dev) (b : Nat) : Bool :=
  match d.boot.st with
  | .booting => d.boot.steps.contains 2 && b == 0
  | .recovery => b == 0 || b == 12
  | .bootFailed => b == 0
  | .ready | .serving | .resetting => true
  | .off | .deviceFault | .tamperHold => false

/-- A write that the range rules refuse (R555). -/
def Dev.rejectWrite (d : Dev) (off : Nat) : Dev := ({ d with rejected := true, rejectOffset := off }).count .rejWrites 0

/-- The plan-length condition of R45, in ns. -/
def planFits (plan len : Nat) : Bool := decide (2 * (200 + 100 * plan + 1000) ≤ 1000 * len)

/-! ### Tick length (R43–R45) -/

/-- A length change that waits, in place of an earlier one; the length in force may be asked for again (R43, R45). -/
def Dev.pendLength (d : Dev) (p : PendLen) : Dev := { d with tim := { d.tim with pend := some p } }

/-- A write of TIK_LENGTH that arrives at a device time: a follower only stores it (R42, R43). -/
def Dev.writeLength (d : Dev) (arrival v : Nat) : Dev :=
  if (d.pat 0).lock then d
  else if !(decide (5 ≤ v ∧ v ≤ 500)) ∨ !planFits (d.reg regTikPlanLen) v then d.rejectWrite regTikLength.addr
  else
    let d := d.setReg regTikLength 0 0 0 v
    if d.follower then d else d.pendLength { len := v, switchAt := arrival }

/-- TIK_LENGTH_WRITE: a 4-byte store to TIK_LENGTH. -/
def execTikLengthWrite (arrival value : Nat) (s : State) : Host.Outcome State Fault Refusal :=
  .next <| s.onDev fun d => if d.reached 0 && d.blockOpen 1 then d.writeLength arrival (value % 512) else d

/-- The form of TICK_SET (R45). -/
def formTickSet (d : Dev) : Form :=
  { entries := (· == 0), classes := [6], admin := true, object := (· == 0)
    items := fun x => [.val 0 0 16 fun v => decide (5 ≤ v) && decide (v ≤ 500), .val 2 0 16 fun v => decide (5 ≤ v) && decide (v ≤ 40),
      .need (planFits (x.fld 2 0 16) (x.fld 0 0 16)) 0x05 2, .need (!d.follower) 0x05 0]
      ++ rsvBytes 4 4 ++ rsvBytes 16 32 }

/-- TICK_SET: the change waits for its edge, in place of an earlier one. -/
def Dev.opTickSet (d : Dev) (q : Req) : Dev × Ans :=
  (d.pendLength { len := q.d.fld 0 0 16, plan := some (q.d.fld 2 0 16), switchAt := q.d.fld 8 0 64 }, {})

/-- The edge that opened this tick satisfies R44 for the length that waits. -/
def TimeSt.switches (t : TimeSt) (p : PendLen) : Bool :=
  t.ticking && t.phase == .admission && decide (p.switchAt ≤ t.now) && t.now % (1000 * t.len) == 0 && t.now % (1000 * p.len) == 0

/-- TICK_LENGTH_SWITCH: at the edge that R44 names the new length is in force, and the registers read it (R556). -/
def execTickLengthSwitch (s : State) : Host.Outcome State Fault Refusal :=
  .next <| s.onDev fun d =>
    match d.tim.pend with
    | none => d
    | some p =>
      if !d.tim.switches p then d else
      let plan := p.plan.getD d.tim.plan
      let d := { d with tim := { d.tim with len := p.len, plan := plan, pend := none } }
      let d := if d.follower then d else (d.setReg regTikLength 0 0 0 p.len).setReg regTikPlanLen 0 0 0 plan
      -- the event belongs to the edge that this switch is a part of, and so does its message (R101)
      (d.devEvent 0x0012 p.len d.tim.count).eventMsix

/-! ### Corrections (R36, R38–R40, R509) -/

/-- The source that disciplines this device: FABRIC for a follower; a master in WING mode uses PTM or PPS, the one it locked to as a
follower where SOURCE names FABRIC (R33, R35, R37, R559). -/
def Dev.timeSource (d : Dev) : Nat :=
  if d.follower then 2 else if d.wingMode ∧ d.reg regTikCtrl = 2 then d.tim.ownSrc else d.reg regTikCtrl

/-- A wing that runs without a locked source has a locked one again: this device takes over (R37). -/
def Dev.timeTake (d : Dev) (pos : Nat) (unled : Bool) : Dev :=
  let (code, d) := d.drawBits 16
  let d := { d with tim := { d.tim with masterPos := pos, master := decide (pos = d.pos), unled := unled, own := 0, good := 0, missed := 0 } }
  d.logEvent code pos 0

/-- The device enters holdover (R40). -/
def Dev.holdover (d : Dev) : Dev :=
  if d.tim.holdover ∨ !d.tim.ticking then d else
  let d := { d with tim := { d.tim with holdover := true, holdoverAt := d.tim.now, faultSent := false, locked := false, good := 0 } }
  (d.count .holdovers 0).devEvent 0x0010 (ofSigned 64 d.tim.offset) 0

/-- A period of the source without a valid correction: three of them are a holdover. -/
def Dev.missedCorrection (d : Dev) : Dev :=
  let d := { d with tim := { d.tim with missed := d.tim.missed + 1 } }
  if 3 ≤ d.tim.missed then d.holdover else d

/-- An offset is absorbed by slewing, or above 2 µs by longer or shorter ticks, unlocked (R38, R39). -/
def Dev.absorb (d : Dev) (off : Int) : Dev :=
  let coarse := decide (2000 < off.natAbs)
  { d with tim := { d.tim with slew := off, coarse := coarse, locked := d.tim.locked && !coarse, good := if coarse then 0 else d.tim.good } }

/-- A valid correction whose tick number differs from ⌊T / L⌋ by `delta` (0 unless a follower's, R42): the first after
provisional time is adopted while no patron is ACTIVE (R509). -/
def Dev.correct (d : Dev) (off delta : Int) : Dev :=
  let d := { d with tim := { d.tim with missed := 0, holdover := false } }
  if !d.tim.ticking then d
  else if d.tim.provisional ∧ !d.tim.adopted ∧ !d.anyActive then
    if d.tim.adopt.isSome then d else { d with tim := { d.tim with adopt := some (off, delta) } }
  else
    let good := if off.natAbs ≤ 50 then d.tim.good + 1 else 0
    let lock := decide (3 ≤ good)
    ({ d with tim := { d.tim with
      good := good, locked := lock, faultBit := d.tim.faultBit && !lock, unled := d.tim.unled && !(lock && !d.follower) } }).absorb off

/-- A measurement of the own host: TIK_OFFSET, and a correction where the own source disciplines the device. A follower whose own PTM
or PPS source is locked takes over a wing that has none, whatever SOURCE says (R37, R559). -/
def Dev.measured (d : Dev) (src : Nat) (off : Int) : Dev :=
  let d := { d with tim := { d.tim with offset := off } }
  if d.timeSource = src then d.correct off 0
  else if !d.follower then d
  else
    let n := if d.tim.ownSrc = src then d.tim.own + 1 else 1
    let d := { d with tim := { d.tim with own := n, ownSrc := src } }
    if d.tim.unled ∧ 3 ≤ n then (d.timeTake d.pos false).correct off 0 else d

/-- PTM_EXCHANGE. -/
def execPtmExchange (valid : Bool) (offset : Int) (s : State) : Host.Outcome State Fault Refusal :=
  .next <| s.onDev fun d =>
    if valid then d.measured 0 offset
    else if d.timeSource = 0 then d.missedCorrection
    else if d.tim.ownSrc = 0 then { d with tim := { d.tim with own := 0 } } else d

/-- The source FREE loads the time of day last written, once, when ticks run (R33); another source ends that. -/
def Dev.loadFree (d : Dev) : Dev :=
  if d.timeSource ≠ 3 then { d with tim := { d.tim with freeLoaded := false } }
  else if d.tim.freeLoaded ∨ !d.tim.ticking then d
  else match d.tim.tod.getLast? with
    | none => d
    | some (arrival, v) =>
      ({ d with tim := { d.tim with freeLoaded := true, tod := [] } }).correct ((10 ^ 9 * v : Nat) - (arrival : Int)) 0

/-- A time of day written at an arrival time (R34). -/
def Dev.writeTod (d : Dev) (arrival v : Nat) : Dev :=
  let d := d.setReg regTikTodNext 0 0 0 v
  ({ d with tim := { d.tim with tod := d.tim.tod ++ [(arrival, v)] } }).loadFree

/-- TIK_TOD_NEXT_WRITE: the register stays writable after SETUP_LOCK. -/
def execTikTodNextWrite (arrival value : Nat) (s : State) : Host.Outcome State Fault Refusal :=
  .next <| s.onDev fun d => if d.reached 0 && d.blockOpen 1 then d.writeTod arrival (value % 2 ^ 64) else d

/-- MCTP_TOD_WRITE: board management writes the time of day (R509). -/
def execMctpTodWrite (arrival value : Nat) (s : State) : Host.Outcome State Fault Refusal :=
  .next <| s.onDev fun d => if [DevState.off, .tamperHold].contains d.boot.st then d else d.writeTod arrival (value % 2 ^ 64)

/-- The time of day of an edge: the last written at least 100 ms before it, else one second past the previous (R34). -/
def TimeSt.todAt (t : TimeSt) (at_ : Nat) : Option Nat :=
  match ((t.tod.filter fun x => decide (x.1 + 10 ^ 8 ≤ at_)).getLast?) with
  | some x => some x.2
  | none => t.todPrev.map (· + 1)

/-- TIME_PPS_EDGE at a device time: the difference from the time of day is a measured offset. -/
def execTimePpsEdge (at_ : Nat) (s : State) : Host.Outcome State Fault Refusal :=
  .next <| s.onDev fun d =>
    let v := d.tim.todAt at_
    let d := { d with tim := { d.tim with
      tod := if d.timeSource = 3 then d.tim.tod else d.tim.tod.filter fun x => !decide (x.1 + 10 ^ 8 ≤ at_), todPrev := if d.timeSource = 3 then d.tim.todPrev else v } }
    match v with
    | some v => d.measured 1 ((10 ^ 9 * v : Nat) - (at_ : Int))
    | none => d

/-- TIME_HOLDOVER: three periods of the source have passed without a valid correction; the source FREE has no periods. -/
def execTimeHoldover (s : State) : Host.Outcome State Fault Refusal :=
  .next <| s.onDev fun d => if d.timeSource = 3 then d else ({ d with tim := { d.tim with missed := max 3 d.tim.missed } }).holdover

/-- TIME_FAULT: 10 s in holdover. -/
def execTimeFault (s : State) : Host.Outcome State Fault Refusal :=
  .next <| s.onDev fun d =>
    if !d.tim.holdover ∨ d.tim.faultSent then d else
    ({ d with tim := { d.tim with faultBit := true, faultSent := true } }).devEvent 0x0011 (max (10 ^ 10) (d.tim.now - d.tim.holdoverAt)) 0

/-- TIME_ADOPTION: the first valid correction of a master on provisional time, as the source's time (R509). -/
def execTimeAdoption (t : Nat) (s : State) : Host.Outcome State Fault Refusal :=
  .next <| s.onDev fun d =>
    if d.follower ∨ !d.tim.provisional ∨ d.tim.adopted ∨ d.anyActive then d else d.correct ((t : Int) - d.tim.now) 0

/-! ### The wing (R35, R37, R42, R378) -/

/-- The next higher position, counted modulo 16 from the one after the old master's. -/
def nextPosition (old : Nat) (among : List Nat) : Option Nat :=
  ((List.range 15).map fun i => (old + 1 + i) % 16).find? fun x => among.contains x

/-- TIME_MASTER_CHANGE: the master lost its source or left the wing. -/
def execTimeMasterChange (locked serving : List Nat) (s : State) : Host.Outcome State Fault Refusal :=
  .next <| s.onDev fun d =>
    if !d.wingMode then d else
    match nextPosition d.tim.masterPos locked with
    | some x => d.timeTake x false
    | none => match nextPosition d.tim.masterPos serving with
      | none => d
      | some x =>
        let d := d.timeTake x true
        if d.tim.master then d.holdover else d

/-- The payload of a fabric time message (R378). -/
def Dev.timePayload (d : Dev) : List Byte :=
  leBytes 8 d.tim.now ++ leBytes 8 d.tim.count ++ leBytes 2 d.tim.len ++ leBytes 2 ((d.tim.pend.map (·.len)).getD 0)
    ++ leBytes 8 ((d.tim.pend.map (·.switchAt)).getD 0) ++ leBytes 4 0

/-- FABRIC_TIME_SEND: the master, to each other device of the wing over its one-hop link. -/
def execFabricTimeSend (s : State) : Host.Outcome State Fault Refusal :=
  .next <| s.onDev fun d =>
    if !d.fabOn ∨ !d.wingMode ∨ !d.tim.master ∨ !d.tim.ticking then d else
    ((List.range 15).filter d.portUp).foldl (fun (d : Dev) k =>
      d.put (16 * d.wing + meshPartner d.pos k) 0x39 { vc := 5, source := d.devNo, slots := d.timePayload }) d

/-- A follower takes length, pending change and TIK_COUNT from the master, and corrects its time (R36, R42). -/
def Dev.fabricTime (d : Dev) (b : List Byte) (offset : Int) : Dev :=
  let len := fieldOf b 16 2
  let nextLen := fieldOf b 18 2
  let delta : Int := (fieldOf b 8 8 : Int) - (fieldOf b 0 8 / (1000 * len) : Nat)
  if len = 0 then d
  else if !d.tim.ticking then { d with tim := { d.tim with len := len } }
  else
    let d := if nextLen ≠ 0 then d.pendLength { len := nextLen, switchAt := fieldOf b 20 8 }
      else if len ≠ d.tim.len then d.pendLength { len := len } else { d with tim := { d.tim with pend := none } }
    -- a tick number other than the master's: the master has adopted network time (R509)
    let theirs := (((d.tim.now : Int) + offset) / (1000 * len : Nat)) + delta
    let moved := decide (theirs ≠ d.tim.count ∧ d.tim.len = len) && !d.anyActive
    ({ d with tim := { d.tim with provisional := d.tim.provisional || moved } }).correct offset delta

/-- TIME: from the wing's master, or from a device that announces itself so. -/
def execTime (port : Nat) (m : Msg) (offset : Int) (s : State) : Host.Outcome State Fault Refusal :=
  .next <| s.onMsg port 0x39 m fun s => s.onDev fun d =>
    let x := srcDev m.source
    if !d.wingMode ∨ x / 16 ≠ d.wing ∨ x = d.devNo then d else
    if x % 16 = d.tim.masterPos then d.fabricTime m.slots offset
    else
      -- a device that takes over from a master without a locked source has one; a first successor may have none either (R37)
      let r := d.drawBits 1
      let d := if d.tim.unled then d.timeTake (x % 16) false else r.2.timeTake (x % 16) (r.1 == 1)
      d.fabricTime m.slots offset

end Sys2Proof.Machine
end

