-- ==== Sys2Proof/Machine/Security.lean ====
section
/-! DEFINITION. Security: SPDM and its vendor requests, measurements, firmware images, recovery, debug, tamper and entropy (R472 to R494). -/

namespace Sys2Proof.Machine

/-! ### Measurements (R482) -/

/-- WRAP_GEN as the antifuses hold it (R473). -/
def SecSt.wrap (x : SecSt) : Nat := min 31 x.wrapGen

/-- The register instances whose RWL fields SETUP_LOCK of patron 0 governs, as offset, cold word and bytes, in offset order (R553). -/
def lockedRegs : List (Nat × Nat × Nat) :=
  sortBy (fun a b => decide (a.1 < b.1)) <|
    (regRows.filter fun r => r.fields.any fun f => f.acc == .rwl).flatMap fun r =>
      (List.range r.count).map fun i => (r.addr i 0, r.coldWord, r.bytes)

/-- The content of measurement 4: those registers as they stood. -/
def regImage (t : Tab Nat) : List Byte := lockedRegs.flatMap fun x => leBytes x.2.2 (tgetD t x.1 x.2.1)

/-- The value of a measurement: 64 bytes. -/
def Dev.measurement (d : Dev) (i : Nat) : List Byte :=
  let zero := List.replicate 64 (0 : Byte)
  match i with
  | 1 => (List.range 64).map Config.bootRomDigest
  | 2 => if d.boot.st = .recovery ∨ d.sec.meas2 = [] then zero else d.sec.meas2
  | 3 => shake256 (leBytes 1 d.sec.wrap ++ leBytes 1 d.sec.svn ++ leBytes 1 (flag d.sec.debug) ++ leBytes 1 (flag d.sec.tamperLatched)) 64
  | 4 => match d.sec.meas4 with
    | none => zero
    | some t => shake256 (regImage t) 64
  | _ => if d.sec.meas5 = [] then zero else d.sec.meas5

/-! ### SPDM (R481, R483) -/

/-- The DOE mailbox answers: the link is up and configuration requests succeed, and SPDM is enabled (R68, R481, R510). -/
def Dev.doeOn (d : Dev) : Bool :=
  d.host.linkUp && !d.flt.deviceFault && match d.boot.st with
    | .booting => d.boot.steps.contains 2
    | .ready | .serving | .resetting | .recovery | .bootFailed => true
    | .off | .deviceFault | .tamperHold => false

/-- SPDM_EN. -/
def Dev.spdmOn (d : Dev) : Bool := d.doeOn && d.reg regSecCtrl == 1

/-- A response: the octets this spec fixes, then those the DMTF documents fix, which are free here. -/
def Dev.spdmSay (d : Dev) (session code : Nat) (known : List Byte) : Dev :=
  let d := if known.isEmpty then d else d.emit (.spdm session code (.bytes known))
  let (n, d) := d.draw
  d.emit (.spdm session code (.free n (Config.spdmOctets n)))

/-- An ERROR response: its code is the DMTF's (PRESUMED). -/
def Dev.spdmFail (d : Dev) (session code : Nat) : Dev := (d.emit (.spdmError session code)).count .spdmErrs 0

/-- ERROR codes: InvalidRequest, UnsupportedRequest, SessionLimitExceeded, SessionRequired, DecryptError. -/
def errInvalid : Nat := 0x01
def errUnsupported : Nat := 0x07
def errSessionLimit : Nat := 0x0A
def errSession : Nat := 0x0B
def errDecrypt : Nat := 0x06

/-- A signature is made. -/
def Dev.signs (d : Dev) : Dev := d.count .spdmSigs 0

/-- Answer a request while SPDM is on. -/
def State.spdm (s : State) (f : Dev → Dev) : Host.Outcome State Fault Refusal :=
  .next (s.onDev fun d => if d.spdmOn then f d else d)

/-- GET_VERSION: versions 1.2 and 1.3. -/
def execGetVersion (session : Nat) (_payload : List Byte) (s : State) : Host.Outcome State Fault Refusal :=
  s.spdm fun d => d.spdmSay session 0x84 [0x12, 0x13]

/-- GET_CAPABILITIES. -/
def execGetCapabilities (session : Nat) (_payload : List Byte) (s : State) : Host.Outcome State Fault Refusal :=
  s.spdm fun d => d.spdmSay session 0xE1 []

/-- NEGOTIATE_ALGORITHMS: a requester that offers none of the algorithms is refused. -/
def execNegotiateAlgorithms (session : Nat) (offered : Bool) (_payload : List Byte) (s : State) : Host.Outcome State Fault Refusal :=
  s.spdm fun d =>
    if !offered then d.spdmFail session errInvalid
    else ({ d with sec := { d.sec with negotiated := true } }).spdmSay session 0xE3 []

/-- GET_DIGESTS. -/
def execGetDigests (session : Nat) (_payload : List Byte) (s : State) : Host.Outcome State Fault Refusal :=
  s.spdm fun d => d.spdmSay session 0x81 []

/-- GET_CERTIFICATE: slot 0 only. -/
def execGetCertificate (session slot : Nat) (_payload : List Byte) (s : State) : Host.Outcome State Fault Refusal :=
  s.spdm fun d => if slot ≠ 0 then d.spdmFail session errInvalid else d.spdmSay session 0x82 []

/-- CHALLENGE: a signed answer. -/
def execChallenge (session : Nat) (_payload : List Byte) (s : State) : Host.Outcome State Fault Refusal :=
  s.spdm fun d => d.signs.spdmSay session 0x83 []

/-- GET_MEASUREMENTS: 0 asks how many there are, 0xFF for all of them (PRESUMED), 1 to 5 for one. -/
def execGetMeasurements (session index : Nat) (signed : Bool) (_payload : List Byte) (s : State) : Host.Outcome State Fault Refusal :=
  s.spdm fun d =>
    let say := fun (b : List Byte) => (if signed then d.signs else d).spdmSay session 0xE0 b
    if index = 0 then say [5]
    else if index = 0xFF then say ((List.range 5).flatMap fun i => d.measurement (i + 1))
    else if index ≤ 5 then say (d.measurement index)
    else d.spdmFail session errInvalid

/-- KEY_EXCHANGE: at most 4 sessions; the session's number is free. -/
def execKeyExchange (session : Nat) (_payload : List Byte) (s : State) : Host.Outcome State Fault Refusal :=
  s.spdm fun d =>
    if 4 ≤ d.sec.sessions.length then d.spdmFail session errSessionLimit else
    let (id, d) := d.drawBits 32
    let d := { d with sec := { d.sec with sessions := d.sec.sessions ++ [({ id := id } : Session)] } }
    d.signs.spdmSay session 0xE4 (leBytes 4 id)

/-- A session that has completed FINISH. -/
def Dev.inSession (d : Dev) (session : Nat) : Bool := d.sec.sessions.any fun x => x.id == session && x.finished

/-- FINISH: the session is open from here on. -/
def execFinish (session : Nat) (verified : Bool) (s : State) : Host.Outcome State Fault Refusal :=
  s.spdm fun d =>
    if !(d.sec.sessions.any fun x => x.id == session && !x.finished) then d.spdmFail session errSession
    else if !verified then d.spdmFail session errDecrypt
    else
      let open_ := fun (x : Session) => if x.id = session then { x with finished := true } else x
      ((({ d with sec := { d.sec with sessions := d.sec.sessions.map open_ } }).spdmSay session 0xE5 []).devEvent 0x0609 session 1)

/-- A request that only a finished session may make. -/
def State.inSession (s : State) (session : Nat) (f : Dev → Dev) : Host.Outcome State Fault Refusal :=
  s.spdm fun d => if d.inSession session then f d else d.spdmFail session errSession

/-- HEARTBEAT. -/
def execHeartbeat (session : Nat) (s : State) : Host.Outcome State Fault Refusal := s.inSession session fun d => d.spdmSay session 0xE8 []

/-- KEY_UPDATE. -/
def execKeyUpdate (session : Nat) (s : State) : Host.Outcome State Fault Refusal := s.inSession session fun d => d.spdmSay session 0xE9 []

/-- END_SESSION. -/
def execEndSession (session : Nat) (s : State) : Host.Outcome State Fault Refusal :=
  s.inSession session fun d =>
    ((d.spdmSay session 0xEC []).devEvent 0x0609 session 0 |> fun d =>
      { d with sec := { d.sec with sessions := d.sec.sessions.filter fun x => x.id != session } })

/-- CHUNK_SEND: a part of a large request; the whole arrives as its own request after the last part. -/
def execChunkSend (session : Nat) (last : Bool) (chunk : List Byte) (s : State) : Host.Outcome State Fault Refusal :=
  s.spdm fun d => ({ d with sec := { d.sec with chunks := if last then [] else d.sec.chunks ++ chunk } }).spdmSay session 0x85 []

/-- CHUNK_GET: a part of a large response. -/
def execChunkGet (session seq : Nat) (s : State) : Host.Outcome State Fault Refusal :=
  s.spdm fun d => d.spdmSay session 0x86 (leBytes 2 seq)

/-- Any other request: UnsupportedRequest. -/
def execSpdmUnsupportedRequest (session _code : Nat) (s : State) : Host.Outcome State Fault Refusal :=
  s.spdm fun d => d.spdmFail session errUnsupported

/-- The discovery response for one of the mailbox's three protocols: discovery, SPDM, secured SPDM (R68). A header of vendor 1, type 0 and
three dwords, then the protocol's vendor 1, its type, and the next index or 0 (PRESUMED, assumption 143). -/
def doeEntry (index : Nat) : List Byte :=
  leBytes 2 1 ++ leBytes 2 0 ++ leBytes 4 3 ++ leBytes 2 1 ++ leBytes 1 index ++ leBytes 1 (if index < 2 then index + 1 else 0)

/-- DOE_DISCOVERY: the mailbox's protocols, by index (R68); the answer to an index beyond them is free. -/
def execDoeDiscovery (index : Nat) (s : State) : Host.Outcome State Fault Refusal :=
  .next <| s.onDev fun d =>
    if !d.doeOn then d
    else if index < 3 then d.emit (.doe (doeEntry index))
    else
      let (b, d) := d.drawBytes 12
      d.emit (.doe b)

/-! ### Vendor requests (R483) -/

/-- The vendor-defined request's code. -/
def vendorCode : Nat := 0xFE

/-- A vendor response: COMMAND, STATUS, two zero bytes, DATA. -/
def Dev.vendorSay (d : Dev) (session command status : Nat) (data : List Byte) : Dev :=
  d.emit (.spdm session vendorCode (.bytes (leBytes 1 command ++ leBytes 1 status ++ [0, 0] ++ data)))

/-- Data is stored under a patron's current key generation. -/
def Dev.hasData (d : Dev) (p : Nat) : Bool :=
  let gen := tgetD d.sec.gens p 0
  d.seqs.recs.any (fun e => e.2.owner == p) || d.seqs.spans.any (fun e => e.2.owner == p && e.2.keyGen == gen)
    || d.rgn.slots.any fun e => d.unitPatron e.2 == p

/-- KEY_SET: replaces the generated key of the patron's current generation. -/
def execKeySet (session : Nat) (payload : List Byte) (s : State) : Host.Outcome State Fault Refusal :=
  s.inSession session fun d =>
    let p := leNat ((payload.drop 1).take 1) % 64
    let key := payload.drop 4
    if key.length ≠ 64 ∨ key.take 32 = key.drop 32 then d.vendorSay session 1 stBadDesc []
    else if (d.pat p).st ≠ .configuring ∨ d.hasData p ∨ d.sec.debug then d.vendorSay session 1 stConflict []
    else
      let d := { d with sec := { d.sec with
        keyed := if d.sec.keyed.contains p then d.sec.keyed else d.sec.keyed ++ [p]
        imported := tset d.sec.imported p key } }
      (d.devEvent 0x0603 p (tgetD d.sec.gens p 0)).vendorSay session 1 stOk []

/-- POOL_SECRET_SET: each port uses the secret from its next training on. -/
def execPoolSecretSet (session : Nat) (payload : List Byte) (s : State) : Host.Outcome State Fault Refusal :=
  s.inSession session fun d =>
    let x := payload.drop 4
    if x.length ≠ 32 then d.vendorSay session 2 stBadDesc []
    else (({ d with sec := { d.sec with poolSecret := some x } }).devEvent 0x060A 0 0).vendorSay session 2 stOk []

/-- DEBUG_CHALLENGE: a nonce of 32 free bytes; without entropy none can be drawn (R474). -/
def execDebugChallenge (session : Nat) (_payload : List Byte) (s : State) : Host.Outcome State Fault Refusal :=
  s.inSession session fun d =>
    if !d.sec.entropyOk then d.vendorSay session 3 stBadDesc [] else
    let n := d.free
    let (b, d) := d.drawBytes 32
    ({ d with sec := { d.sec with nonce := some n } }).vendorSay session 3 stOk b

/-- The key slots of the links are cleared. -/
def Dev.dropLinkKeys (d : Dev) : Dev :=
  { d with fab := { d.fab with ports := tmap d.fab.ports fun _ x => { x with keyOut := [], keyIn := [] } } }

/-- DEBUG_UNLOCK: a good token over the last nonce, at most 60 s old, clears every key, those of the links too,
and opens debug (R492). -/
def execDebugUnlock (session : Nat) (payload : List Byte) (verified : Bool) (ageS : Nat) (s : State) : Host.Outcome State Fault Refusal :=
  s.inSession session fun d =>
    if d.sec.nonce.isNone ∨ !verified ∨ 60 < ageS ∨ (payload.drop 4).length ≠ 3309 then d.vendorSay session 4 stConflict []
    else
      let d := { d with sec := { d.sec with keysClear := true, retained := [], nonce := none, debug := true } }
      -- the keys of every patron in use are lost (R102)
      (((List.range 64).foldl (fun (d : Dev) p => d.patronFaults p 5) d.dropLinkKeys).devEvent 0x0607 0 0).vendorSay session 4 stOk []

/-! ### Firmware images (R484, R485, R487) -/

/-- A field of the image header. -/
def imgField (b : List Byte) (off n : Nat) : Nat := leNat ((b.drop off).take n)

/-- The first check of R485 that an image in staging fails, 0 for none. -/
def imageCheck (b : List Byte) (svn : Nat) (sigOk revoked : Bool) : Nat :=
  let n := imgField b 8 4
  if imgField b 0 4 ≠ 0x49564D31 ∨ imgField b 4 2 ≠ 0x0640 ∨ 33554432 < n ∨ b.length ≠ 4096 + n then 1
  else if !sigOk ∨ revoked ∨ 4 ≤ imgField b 88 1 then 2
  else if imgField b 6 1 < svn then 3
  else if shake256 (b.drop 4096) 64 ≠ (b.drop 24).take 64 then 4 else 0

/-- Measurement 5 (R482): the header's media table version and firmware version. -/
def meas5Of (media version : Nat) : List Byte := shake256 (leBytes 8 media ++ leBytes 4 version) 64

/-- The form of FW_UPDATE. -/
def formFwUpdate : Form :=
  { entries := (· == 0), classes := [6], admin := true, object := (· == 0)
    items := fun _ => [.inBuf 0 fun n => decide (4096 ≤ n), .rsv 16 1 7] ++ rsvBytes 17 31
    inputs := fun _ => [0] }

/-- FW_UPDATE (R487, R488): the NOR holds no valid image until firmware has read it back. -/
def Dev.opFwUpdate (d : Dev) (q : Req) : Dev × Ans :=
  if d.sec.fwBusy ∨ d.sec.rcvState = 1 then (d, { status := stConflict }) else
  let b := q.d.input 0 0
  let bad := imageCheck b d.sec.svn q.d.host.sigOk q.d.host.revoked
  if bad ≠ 0 then (d, { status := stBadDesc, cause := 0x05, r0 := bodyOff 0, r1 := bad }) else
  let v := imgField b 12 4
  ({ d with sec := { d.sec with
      fwBusy := true, norValid := false, norVersion := v, norSvn := imgField b 6 1, norAdvance := bit (imgField b 7 1) 0
      imageDigest := shake256 b 64 ++ meas5Of (imgField b 16 8) v, activate := q.d.fld 16 0 1 == 1 } }, { r0 := v })

/-- Firmware finishes a FW_UPDATE: the NOR holds the image. -/
def Dev.updateDone (d : Dev) : Dev :=
  if !d.sec.fwBusy then d else
  let d := { d with sec := { d.sec with fwBusy := false, norValid := true } }
  (d.count .fwUpdates 0).devEvent 0x0605 d.sec.norVersion (flag d.sec.activate)

/-- After the completion of an activating FW_UPDATE has been written: firmware restarts from the staged image (R487, R518). -/
def Dev.activateImage (d : Dev) : Dev :=
  if !d.sec.activate ∨ d.sec.fwBusy then d else
  let d := { d with sec := { d.sec with
    activate := false, fwVersion := d.sec.norVersion, meas2 := d.sec.imageDigest.take 64, meas5 := d.sec.imageDigest.drop 64
    advance := if d.sec.norAdvance && decide (d.sec.svn < d.sec.norSvn) then some d.sec.norSvn else d.sec.advance } }
  d.restartCores

/-- Firmware reports itself ready: the SVN fuse rises where the image asks for it (R485). -/
def Dev.advanceSvn (d : Dev) : Dev :=
  match d.sec.advance with
  | none => d
  | some v =>
    let d := { d with sec := { d.sec with advance := none } }
    if d.sec.svn < v then ({ d with sec := { d.sec with svn := v } }).devEvent 0x0606 v d.sec.svn else d

/-- FIRMWARE_READY: admission resumes, and what waited for firmware is served (R31). -/
def execFirmwareReady (s : State) : Host.Outcome State Fault Refusal :=
  .next <|
    if !s.dev.firmwareRuns then s else
    let s := s.onDev fun d =>
      ({ d with sec := { d.sec with restarting := false }, adm := { d.adm with paused := false } }).advanceSvn
    s.serveWhere (fun h => h.why == 5) false

/-! ### Recovery (R486) -/

/-- SEC_RCV_CMD: starts a recovery load. -/
def Dev.recoveryCmd (d : Dev) (value : Nat) : Dev :=
  if value % 2 = 0 ∨ d.boot.st ≠ .recovery ∨ d.sec.rcvState = 1 then d
  else { d with sec := { d.sec with rcvState := 1, rcvCheck := 0 } }

/-- SEC_RCV_CMD write. -/
def execSecRcvCmd (value : Nat) (s : State) : Host.Outcome State Fault Refusal :=
  .next <| s.onDev fun d => if d.reached 0 && d.blockOpen 12 then d.recoveryCmd value else d

/-! ### Entropy, tamper, debug access (R474, R492–R494) -/

/-- ENTROPY_FAIL. -/
def execEntropyFail (test : Nat) (s : State) : Host.Outcome State Fault Refusal :=
  .next <| s.onDev fun d =>
    if [DevState.off, .tamperHold].contains d.boot.st then d
    else ({ d with sec := { d.sec with entropyOk := false } }).devEvent 0x0601 test 0

/-- A sensor watches: 0 supply voltage, 1 clock, 2 temperature, 3 the shield mesh, which is always on, 4 light. The undervoltage
sensor is disarmed after the power-fail sequence. -/
def Dev.sensorOn (d : Dev) (x : Nat) : Bool :=
  if x = 3 then true
  else if x = 4 then bit (d.reg regSecCtrl 0 0 1) 3
  else decide (x < 3) && bit (d.reg regSecCtrl 0 0 1) x && !(x == 0 && d.pwr.pwrSeqEnd)

/-- TAMPER_DETECT: keys are zeroized, WRAP_GEN rises, all work stops, the device is held until power is removed. -/
def execTamperDetect (sensor : Nat) (s : State) : Host.Outcome State Fault Refusal :=
  .next <| s.onDev fun d =>
    if !d.sensorOn sensor ∨ [DevState.off, .tamperHold].contains d.boot.st then d else
    let d := d.dropLinkKeys
    { d with
      sec := { d.sec with keyed := [], imported := [], retained := [], poolSecret := none, nonce := none, sessions := []
                          keysClear := true, wrapGen := min 32 (d.sec.wrapGen + 1), tamperLatched := true, tamperNew := true }
      boot := { d.boot with st := .tamperHold }, adm := { d.adm with paused := true }, host := { d.host with linkUp := false } }

/-- JTAG_INSTRUCTION: IDCODE and boundary scan answer; any other only reaches an internal bus once debug is unlocked. -/
def execJtagInstruction (kind : Nat) (s : State) : Host.Outcome State Fault Refusal :=
  if s.dev.boot.st = .off then .next s
  else if kind ≤ 1 then .next (s.onDev fun d => d.emit (.jtag kind))
  else if !s.dev.sec.debug then .next s
  else .refused .debugInternalAccess

end Sys2Proof.Machine
end

