-- ==== Sys2Proof/Machine/Bringup.lean ====
section
/-! DEFINITION. Resets, the boot sequence, the device states and what each reset keeps (R498 to R512, R328 to R332, R410, R475, R486, R494). -/

namespace Sys2Proof.Machine

/-! ### What a device reset keeps (R500) -/

/-- The stacks: volumes, their units, blocks and staging stay, balances start at zero (R321); what discovery finds is found again. -/
def StkSt.kept (x : StkSt) : StkSt :=
  { volumes := tmap x.volumes fun _ v =>
      { v with throttled := false, refused := 0, uncTimes := [], collecting := false, recalc := false, balance := 0 }
    blocks := x.blocks, groups := x.groups, openGroups := x.openGroups, staging := x.staging, failedDies := x.failedDies, prior := x.prior
    ckptAt := x.ckptAt, replay := x.replay, clean := x.clean, powerLoss := x.powerLoss, lossRecord := x.lossRecord }

/-- A region record as its volume's header area holds it (R410): revocations, rebuilds and notices under way are gone. -/
def Region.kept (r : Region) : Region :=
  { r with st := if r.st = 3 ∧ !r.mirror then 2 else r.st, grants := r.grants.filter fun g => !g.revoking, copyFront := 0, revoke := none
           target := none, destroy := false, admitted := 0, refused := 0, noticeDue := [], revokeNext := [], rebuild := none, copyWait := 0 }

/-- Regions: those with PERSIST stay, with every unit on the stacks (R410). -/
def RgnSt.kept (x : RgnSt) : RgnSt :=
  let slots := (x.slots.filter fun e => e.2.persist && !e.2.destroy && e.2.st != 5).map fun e => (e.1, e.2.kept)
  let units := (x.units.filter fun e => (tget slots (e.1 / 2 ^ 17)).isSome).map fun e =>
    (e.1, ({ resident := false, onStacks := true, cluster := e.2.cluster } : RUnit))
  { slots := slots, units := units }

/-- The security block: fuses, keys with a wrapped copy, the NOR (R473, R475, R485, R488, R492). -/
def SecSt.kept (x : SecSt) : SecSt :=
  { gens := x.gens, keyed := x.keyed, imported := x.imported, poolSecret := x.poolSecret, wrapGen := x.wrapGen, svn := x.svn
    tamperLatched := x.tamperLatched, tamperNew := x.tamperNew, norVersion := x.norVersion, norSvn := x.norSvn
    norAdvance := x.norAdvance, norValid := x.norValid && !x.fwBusy }

/-- The device after a reset, before its boot ROM runs. -/
def Dev.afterReset (d : Dev) (st : DevState) (cause : Nat) : Dev :=
  { out := d.out, free := d.free, ctrs := keptCtrs d.ctrs, stk := d.stk.kept, rgn := d.rgn.kept, sec := d.sec.kept
    flt := { saved := d.flt.saved }, boot := { st := st, cause := cause }, pwr := { tripped := d.pwr.tripped } }

/-- A sector whose last write was not accepted has the content it had before (R331). -/
def State.revertSector (s : State) (k sec : Nat) : State :=
  match tget s.dev.rgn.slots (k / 2 ^ 17) with
  | none => s
  | some r =>
    let off := k / 2 ^ 17 * windowBytes + k % 2 ^ 17 * unitBytes + 4096 * sec
    let old := ((s.dev.vol? r.volume).bind fun v => tget v.units (flashUnit (k / 2 ^ 17) (k % 2 ^ 17) + sec / 16)).bind
      fun y => tget y.sectors (sec % 16)
    let mem := memDrop s.mem off (off + 4096)
    match old with
    | none => { s with mem := mem }
    | some f =>
      if f.epoch ≠ tgetD s.dev.sec.gens f.key 0 % 256 then { s with mem := mem } else { s with mem := memWrite mem off f.data }

/-- The reading room is lost (R17): pool memory keeps what the stacks hold of PERSIST regions. -/
def State.loseRoom (s : State) : State :=
  let waiting := (s.dev.rgn.units.flatMap fun e => e.2.changed.map fun x => (e.1, x)) ++ s.dev.rgn.handed.map fun h => (h.1, h.2.1)
  let s := waiting.foldl (fun (s : State) h => s.revertSector h.1 h.2) s
  let left := s.dev.rgn.kept.slots
  { s with mem := s.mem.filter fun c => (tget left (c.1 / windowBytes)).isSome }

/-- A device reset (R498, R499): causes 1 power-on to 6 recovery load. -/
def State.deviceReset (s : State) (cause : Nat) : State := s.loseRoom.onDev fun d => d.afterReset .booting cause

/-! ### Resets on request (R501–R503, R512, R571, R572) -/

/-- The final checkpoint and clean record of R328, and the newest log entries in the system area (R501). -/
def Dev.cleanRecord (d : Dev) : Dev :=
  if !d.stk.discovered then d
  else
    let d := ({ d with stk := { d.stk with ckptSegs := d.stk.ckptSegs ++ d.stk.changed } }).segmentsWritten
    ({ d with stk := { d.stk with
      clean := true, ckptAt := d.tim.count, ckptRunning := false, ckptSegs := [], changed := [], replay := [], replayNew := [] } }).count .ckpts 0

/-- What precedes a device reset that is no loss of power, tamper response or device fault. -/
def Dev.prepareReset (d : Dev) : Dev := if d.stk.discovered then d.cleanRecord.saveLog else d

/-- A device reset is requested: from SERVING through RESETTING, from the other states at once. -/
def State.requestReset (s : State) (cause : Nat) : State :=
  match s.dev.boot.st with
  | .off | .tamperHold | .resetting => s
  | .serving => s.onDev fun d => { d with boot := { d.boot with st := .resetting, nextCause := cause }, adm := { d.adm with paused := true } }
  | .deviceFault => s.deviceReset cause
  | _ => (s.onDev Dev.prepareReset).deviceReset cause

/-- RESET_N_ASSERT: 10 µs or more resets, less than 1 µs does not, between them either may happen. -/
def execResetNAssert (lowNs : Nat) (s : State) : Host.Outcome State Fault Refusal :=
  .next <|
    if lowNs < 1000 ∨ (s.dev.pwr.pwrFail ∧ !s.dev.pwr.pwrSeqEnd) then s
    else if 10000 ≤ lowNs then s.requestReset 2
    else
      let (b, d) := s.dev.drawBits 1
      let s := { s with dev := d }
      if b = 1 then s.requestReset 2 else s

/-- MCTP_RESET_REQUEST. -/
def execMctpResetRequest (s : State) : Host.Outcome State Fault Refusal := .next (s.requestReset 4)

/-- RESET_PREPARE_DONE. -/
def execResetPrepareDone (s : State) : Host.Outcome State Fault Refusal :=
  .next (if s.dev.boot.st = .resetting then (s.onDev Dev.prepareReset).deviceReset s.dev.boot.nextCause else s)

/-- The form of DEVICE_RESET (R503). -/
def formDeviceReset : Form :=
  { entries := (· == 0), classes := [6], admin := true, object := fun _ => true, items := fun _ => rsvBytes 4 44 }

/-- DEVICE_RESET: the reset begins at the end of the close phase that writes its completion. -/
def Dev.opDeviceReset (d : Dev) (q : Req) : Dev × Ans :=
  if q.d.fld 0 0 32 ≠ d.fab.epoch then (d, { status := stConflict, r0 := d.fab.epoch })
  else ({ d with boot := { d.boot with resetDue := true } }, {})

/-- At the end of that close phase. -/
def State.beginDeviceReset (s : State) : State :=
  if !s.dev.boot.resetDue then s else (s.onDev fun d => { d with boot := { d.boot with resetDue := false } }).requestReset 3

/-- SUPPLIES_REMOVED. -/
def execSuppliesRemoved (s : State) : Host.Outcome State Fault Refusal :=
  .next <| s.loseRoom.onDev fun d => { d.afterReset .off 1 with pwr := {} }

/-- RECOVERY_LOAD_DONE: the check of R485 that fails, 0 for none; no image passes once WRAP_GEN is used up (R473, R486). -/
def execRecoveryLoadDone (failing : Nat) (s : State) : Host.Outcome State Fault Refusal :=
  .next <|
    if s.dev.boot.st ≠ .recovery ∨ s.dev.sec.rcvState ≠ 1 then s else
    let f := if failing = 0 ∧ 32 ≤ s.dev.sec.wrapGen then 1 else failing
    if f ≠ 0 then s.onDev fun d => { d with sec := { d.sec with rcvState := 2, rcvCheck := f % 8 } }
    else (s.onDev fun d => { d with sec := { d.sec with rcvState := 3, norValid := true } }).deviceReset 6

/-! ### The boot sequence (R504–R512) -/

/-- A step may end: the device boots or is READY, the step has not ended, those it follows have. -/
def Dev.stepDue (d : Dev) (n : Nat) (after : List Nat) : Bool :=
  (d.boot.st == .booting || d.boot.st == .ready) && !d.boot.steps.contains n && after.all fun k => d.boot.steps.contains k

/-- A step has ended, in ms from reset release. -/
def Dev.stepEnds (d : Dev) (n ms : Nat) : Dev :=
  { d with boot := { d.boot with steps := d.boot.steps ++ [n], endMs := tset d.boot.endMs n ms } }

/-- The boot fails in a step. -/
def Dev.bootFails (d : Dev) (st : DevState) (step detail : Nat) : Dev :=
  { d with boot := { d.boot with st := st, failStep := step, detail := detail } }

/-- Cold values that the straps decide (R35, R505). -/
def Dev.coldRegs (d : Dev) : Dev :=
  let ports := ((List.range 18).map fun k => if (d.partnerOf k).isSome then 2 ^ k else 0).sum
  let d := (d.setReg regTikCtrl 0 0 1 (flag (d.boot.straps.wingSize != 0))).setReg regChgPortEn 0 0 0 ports
  { d with tim := { d.tim with master := d.boot.straps.wingSize == 0 || d.boot.straps.pos == 0 } }

/-- The first boot after a tamper (R494): no volume is readable, every patron starts a new key generation. -/
def Dev.afterTamper (d : Dev) : Dev :=
  let gens := (List.range 64).map fun p => (p, (tgetD d.sec.gens p 0 + 1) % 2 ^ 32)
  let blocks := tmap d.stk.blocks fun _ b => if b.st = 7 then b else { b with st := 0, volume := 8, valid := [], filled := 0, group := 0, refresh := false }
  let d := { d with sec := { d.sec with gens := gens, tamperNew := false }
                    stk := { blocks := blocks, failedDies := d.stk.failedDies }, rgn := {} }
  d.devEvent 0x0608 d.sec.wrap 0

/-- Step 1: straps, BOOT_EPOCH, the salts of the private scopes (R221, R369). -/
def Dev.bootRom (d : Dev) (x : Straps) (ms : Nat) : Dev :=
  let d := { d with boot := { d.boot with st := .booting, straps := x } }
  let d := (d.count2 .resets 0 (d.boot.cause - 1) 1).coldRegs
  let (e, d) := d.drawBits 32
  let d := { d with fab := { d.fab with epoch := e } }
  let d := (List.range 64).foldl (fun (d : Dev) p =>
    let (b, d) := d.drawBytes 16
    { d with cat := { d.cat with salts := tset d.cat.salts p b } }) d
  (if d.sec.tamperNew then d.afterTamper else d).stepEnds 1 ms

/-- BOOT_ROM: after the release of a device reset, or when the supplies of an OFF device are in range. -/
def execBootRom (straps : Straps) (ms : Nat) (s : State) : Host.Outcome State Fault Refusal :=
  .next <|
    let d := s.dev
    if d.boot.st = .off ∨ (d.boot.st = .booting ∧ d.boot.steps.isEmpty) then
      let s := s.onDev fun d => d.bootRom straps ms
      if d.sec.tamperNew then { s with mem := [] } else s
    else s

/-- The check of R485 that the NOR's image fails, 0 for none. -/
def Dev.imageFails (d : Dev) (x : ImageIn) : Nat :=
  if x.failing ≠ 0 then x.failing
  else if 32 ≤ d.sec.wrapGen ∨ !d.sec.norValid then 1
  else if x.svn < d.sec.svn then 3 else 0

/-- FIRMWARE_LOAD: step 2, or recovery. -/
def execFirmwareLoad (image : ImageIn) (ms : Nat) (s : State) : Host.Outcome State Fault Refusal :=
  .next <| s.onDev fun d =>
    if !d.stepDue 2 [1] then d else
    let f := d.imageFails image
    if f ≠ 0 then (d.bootFails .recovery 2 f).count .recovery 0
    else
      ({ d with sec := { d.sec with
          fwVersion := image.version, norVersion := image.version, meas2 := image.digest, meas5 := meas5Of image.mediaTable image.version
          advance := if image.advance && decide (d.sec.svn < image.svn) then some image.svn else none } }).stepEnds 2 ms

/-- STACK_TRAINING: step 3; a channel that does not train is fatal (R511). -/
def execStackTraining (failing : Option Nat) (ms : Nat) (s : State) : Host.Outcome State Fault Refusal :=
  .next <| s.onDev fun d =>
    if !d.stepDue 3 [1] then d else
    match failing with
    | some c => (d.bootFails .bootFailed 3 c).count .bootFailed 0
    | none => d.stepEnds 3 ms

/-- The stored keys are unwrapped (R475); a wrapped copy that fails is discarded, and its patron's data stays unreadable under a
new generation. Without stacks every key is new and no pool link secret is there. -/
def Dev.unwrapKeys (d : Dev) (bad : List Nat) : Dev :=
  let all := List.range 64
  if !d.stk.discovered then { d with sec := { d.sec with keyed := all, imported := [], poolSecret := none } } else
  let d := bad.foldl (fun (d : Dev) p =>
    if p = 0xFF then ({ d with sec := { d.sec with poolSecret := none } }).devEvent 0x0602 0xFF 0
    else if p < 64 then
      let d := d.devEvent 0x0602 p (tgetD d.sec.gens p 0)
      { d with sec := { d.sec with gens := tset d.sec.gens p ((tgetD d.sec.gens p 0 + 1) % 2 ^ 32), imported := tdel d.sec.imported p } }
    else d) d
  { d with sec := { d.sec with keyed := all } }

/-- The criteria that a media-table entry must meet (R288). -/
def entryUsable (e : MediaEntry) : Bool :=
  e.tlc && e.pslc && (e.planes == 2 || e.planes == 4) && e.pageData == 16384 && decide (2048 ≤ e.pageSpare) && decide (e.gbit ≤ 2048)
    && e.oneShot && decide (e.tprogUs ≤ 3000) && decide (e.tprogPslcUs ≤ 500) && decide (e.eraseUs ≤ 20000)

/-- The number of a die within its channel: 4 × chip enable + LUN (R288). -/
def dieNumber (x : DieIn) : Nat := 4 * x.chip + x.lun

/-- A die that could be put into service as one of an entry: at a place that exists, of that entry (R287, R288). -/
def dieFits (x : DieIn) (e : MediaEntry) : Bool :=
  decide (x.channel < 32) && decide (x.chip < 8) && decide (x.lun < 4) && entryUsable e && x.entry == some e

/-- The die positions at which channels 0 to n − 1 all carry a die of an entry (R289). -/
def mediaPositions (m : MediaIn) (n : Nat) (e : MediaEntry) : List Nat :=
  (List.range 32).filter fun k => (List.range n).all fun c => m.found.any fun x => x.channel == c && dieNumber x == k && dieFits x e

/-- The channels, entry and die positions in service: those that put the most dies into service, the first found among equals (R289; DESIGN
CHOICE, assumption 139). -/
def mediaChosen (m : MediaIn) : Option (Nat × MediaEntry × List Nat) :=
  let all := (m.found.filterMap (·.entry)).eraseDups.flatMap fun e => [32, 16, 8].map fun n => (n, e, mediaPositions m n e)
  all.foldl (fun b x =>
    if x.2.2.isEmpty then b else
    match b with
    | none => some x
    | some y => if y.1 * y.2.2.length < x.1 * x.2.2.length then some x else b) none

/-- The geometry of the stacks in service (R289, R291): die positions run to the highest one in service, and one that is missing among them
counts as failed. -/
def Dev.takeMedia (d : Dev) (n : Nat) (e : MediaEntry) (ps : List Nat) : Dev :=
  let dies := ps.foldl max 0 + 1
  let units := e.pagesPerBlock * e.planes * e.pageData / 65536
  let gaps := ((List.range dies).filter fun k => !ps.contains k).flatMap fun k => (List.range n).map fun c => c + 32 * k
  { d with stk := { d.stk with
    channels := n, dies := dies, planes := e.planes, blocksPerDie := e.blocksPerDie, unitsPerBlock := units, ratedCycles := e.ratedCycles
    -- 1.5 GiB of raw flash for each TiB
    systemBlocks := ceilDiv (e.gbit * 2 ^ 27 * 3) (2048 * (units * 65536)), rawGiB := n * ps.length * e.gbit / 8
    failedDies := d.stk.failedDies ++ gaps.filter fun k => !d.stk.failedDies.contains k
    discovered := true, steps := [1, 2, 3, 4, 5], lpddr4 := true } }

/-- A bad block of a die is retired, and replaced where it is of the system area (R291, R317). -/
def Dev.takeBad (d : Dev) (k : Nat) : Dev :=
  if (d.fblock k).st = 7 then d else (d.modBlock k fun b => { b with st := 7 }).replaceSystem k

/-- A volume that a CT-210 formatted is recognised from its header (R292): its number is free and its dies overlap none. -/
def Dev.takeHeader (d : Dev) (h : HeaderIn) : Dev :=
  let taken := d.stk.volumes.any fun e => decide (h.dieFirst < e.2.dieFirst + e.2.dieCount) && decide (e.2.dieFirst < h.dieFirst + h.dieCount)
  if 8 ≤ h.volume ∨ (d.vol? h.volume).isSome ∨ taken ∨ h.dieCount = 0 ∨ d.stk.dies < h.dieFirst + h.dieCount then d else
  let v : Volume := { region := h.region, ct210 := true, dieFirst := h.dieFirst, dieCount := h.dieCount, op := h.op, formatId := h.formatId
                      capacity := h.capacity, lifeDays := d.reg regStkLifeDays, ratedCycles := d.reg regStkRatedCycles }
  let v := { v with dataBytes := d.liveBlocks v * d.blockBytes }
  { d with stk := { d.stk with volumes := tset d.stk.volumes h.volume { v with spareAtFormat := d.spareBlocks v } } }

/-- FLASH_DISCOVERY: step 4 (R287–R292); SPAN volumes are emptied (R329). -/
def execFlashDiscovery (media : MediaIn) (ms : Nat) (s : State) : Host.Outcome State Fault Refusal :=
  .next <| s.onDev fun d =>
    if !d.stepDue 4 [2] then d else
    let used := fun (x : DieIn) => match mediaChosen media with
      | some c => dieFits x c.2.1 && decide (x.channel < c.1) && c.2.2.contains (dieNumber x)
      | none => false
    let d := match mediaChosen media with
      | some c => d.takeMedia c.1 c.2.1 c.2.2
      | none => d
    let d := (media.found.filter fun x => !used x).foldl (fun (d : Dev) x => d.devEvent 0x0207 (x.channel + 256 * dieNumber x) (x.readId % 2 ^ 56)) d
    let bad := (media.found.filter used).flatMap fun x => x.badBlocks.map fun b => blockKey x.channel (dieNumber x) b
    let d := media.headers.foldl Dev.takeHeader (bad.foldl Dev.takeBad d)
    let spans := (d.stk.volumes.filter fun e => !e.2.region).map (·.1)
    let d := if d.stk.discovered then spans.foldl Dev.emptyVolume d else d
    (d.unwrapKeys media.badWraps).stepEnds 4 ms

/-- CHAIG_TRAINING: step 5. Ports that lock go to EXCHANGE, the others fail (R347). Without a pool link secret the key load of
a port does not complete: the ports stay in TRAINING and the step has not ended (R480, R511). -/
def execChaigTraining (locked : List (Nat × Nat)) (ms : Nat) (s : State) : Host.Outcome State Fault Refusal :=
  .next <| s.onDev fun d =>
    if !d.stepDue 5 [3, 4] then d else
    let ports := (List.range 18).filter d.mayTrain
    if (d.sec.poolSecret.isNone || d.sec.keysClear) && !ports.isEmpty then
      ports.foldl (fun (d : Dev) k => d.startTraining k .training) d
    else
      let d := ports.foldl (fun (d : Dev) k => d.startTraining k .training) d
      let train := fun (d : Dev) (k : Nat) =>
        match (locked.find? fun x => x.1 == k && (x.2 == 4 || x.2 == 2)).map (·.2) with
        | some n => d.lockLanes k n
        | none => (d.modPort k fun p => { p with st := .failed }).devEvent 0x0301 (k + 256 * PortState.code .failed)
            ((d.partnerOf k).getD 0) { cls := 5 }
      (ports.foldl train d).stepEnds 5 ms

/-- NEIGHBOUR_EXCHANGE: step 6. Each IDENT received: its port, and its DEVICE in bits 5:0 with BOOT_EPOCH above. -/
def execNeighbourExchange (idents : List (Nat × Nat)) (ms : Nat) (s : State) : Host.Outcome State Fault Refusal :=
  .next <|
    if !s.dev.stepDue 6 [5] then s else
    let s := idents.foldl (fun (s : State) x => s.identIn x.1 (x.2 % 64) (x.2 / 64 % 2 ^ 32)) s
    let left := (List.range 18).filter fun k => (s.dev.port k).st == .exchange
    s.onDev fun d => (left.foldl (fun (d : Dev) k => (d.modPort k fun p => { p with st := .failed }).devEvent 0x0301
      (k + 256 * PortState.code .failed) ((d.partnerOf k).getD 0) { cls := 5 }) d).stepEnds 6 ms

/-- TIME_ALIGNMENT: step 7. Device time starts at the source's value; without a source at 0, provisionally (R509). The device is
READY, and says so (R512, R513). -/
def execTimeAlignment (source : Option Nat) (ms : Nat) (s : State) : Host.Outcome State Fault Refusal :=
  .next <| s.onDev fun d =>
    if !d.stepDue 7 [6] then d else
    let d := { d with tim := { d.tim with now := source.getD 0, provisional := source.isNone, faultBit := source.isNone } }
    let d := d.stepEnds 7 ms
    let d := { d with boot := { d.boot with st := .ready } }
    (if d.headSet then d.headLink ms else d).sendReports

/-- A sector in staging may have been lost with the power: it reads as the write left it or as before that write, whichever a free draw
says, and never as a mixture (R332). -/
def State.loseSector (s : State) (v u off j : Nat) (f : FSector) : State :=
  let (b, d) := s.dev.drawBits 1
  let s := { s with dev := d }
  if b = 1 then s else
  let d := s.dev.modVol v fun x => { x with units := tmod x.units u fun y => { y with sectors := tset y.sectors j { f with data := f.prev } } }
  { s with dev := d, mem := memWrite (memDrop s.mem off (off + 4096)) off f.prev }

/-- Staged sectors of REGION volumes, which a loss of power without a valid record may have lost (R332). -/
def State.loseStaging (s : State) : State :=
  (s.dev.rgn.slots.filter fun e => e.2.persist).foldl (fun (s : State) e =>
    let us := ((s.dev.vol? e.2.volume).map fun v => v.units.filter fun u => u.2.staged && u.1 / 2 ^ 22 == e.1).getD []
    us.foldl (fun (s : State) u => (u.2.sectors.filter fun c => c.2.place.isNone).foldl (fun (s : State) c =>
      s.loseSector e.2.volume u.1 (e.1 * windowBytes + u.1 % 2 ^ 22 * 65536 + 4096 * c.1) c.1 c.2) s) s) s

/-- MAP_LOAD: step 8 (R330–R332). -/
def State.mapLoad (s : State) (clean powerLoss : Bool) (replayed recoveryMs : Nat) : State :=
  let d := s.dev
  if !d.stk.discovered then s else
  let ok := clean && d.stk.clean
  let s := s.onDev fun d => ({ d with stk := { d.stk with clean := ok } }).recomputeAll
  if ok then s else
  let hit := (d.stk.volumes.map fun e => if e.2.region then 2 ^ e.1 else 0).sum
  let lost := !(powerLoss && d.stk.powerLoss)
  let s := if lost then s.loseStaging else s
  s.onDev fun d =>
    let at_ := d.stk.ckptAt
    let d := d.devEvent 0x0209 recoveryMs replayed
    let d := if lost then (d.devEvent 0x0208 hit at_).count .unsafeShut 0 else d
    ({ d with stk := { d.stk with replay := [], lossRecord := none, ckptAt := d.tim.count } }).count .ckpts 0

/-- MAP_LOAD. -/
def execMapLoad (clean powerLoss : Bool) (replayed recoveryMs ms : Nat) (s : State) : Host.Outcome State Fault Refusal :=
  .next (if !s.dev.stepDue 8 [3, 4] then s else (s.mapLoad clean powerLoss replayed recoveryMs).onDev fun d => d.stepEnds 8 ms)

/-- The mappings of a restored region are installed again: its owner's and each grant's (R410). -/
def Dev.restoreMaps (d : Dev) (r : Region) : Dev :=
  if r.mirror ∨ r.st = 4 then d else
  let d := (d.mapNotice r r.ownerDev r.ownerPatron 15 0 r.unitCount none).2
  r.grants.foldl (fun (d : Dev) g => (d.mapNotice r g.dev g.patron g.rights g.first g.count none).2) d

/-- The units of durable regions are read from the stacks into the reading room (R331, R410). -/
def State.restoreUnits (s : State) : State :=
  let dur := fun (k : Nat) => ((tget s.dev.rgn.slots (k / 2 ^ 17)).map (·.durable)).getD false
  (s.dev.rgn.units.filter fun e => dur e.1).foldl (fun (s : State) e => s.fillUnit e.1 e.2 s.dev) s

/-- REGION_RESTORE: step 9. The units of durable regions come back into the reading room, the others on demand. -/
def execRegionRestore (ms : Nat) (s : State) : Host.Outcome State Fault Refusal :=
  .next <|
    if !s.dev.stepDue 9 [6, 8] then s else
    s.restoreUnits.onDev fun d => (d.rgn.slots.foldl (fun (d : Dev) e => d.restoreMaps e.2) d).stepEnds 9 ms

/-- The updates after the other half's sequence number go to it (R506). Which lines they wrote is not kept anywhere: their
addresses and contents are free. -/
def Dev.reconcile (d : Dev) (id peerSeq : Nat) : Dev :=
  match tget d.rgn.slots (id / 64) with
  | none => d
  | some r =>
    if r.id ≠ id ∨ !r.durable then d else
    (List.range (r.mirrorSeq - peerSeq)).foldl (fun (d : Dev) i =>
      let (line, d) := d.drawBits 32
      let (b, d) := d.drawBytes 64
      let a := regionAddr id + line % (r.size / 64) * 64
      let head := leBytes 8 (peerSeq + i + 1) ++ leBytes 4 0 ++ [0x08] ++ List.replicate 3 0
      (d.sendReq r.partner 0x58 { source := d.srcOf 0 2, addr := a, slots := head ++ b } id none).2) d

/-- DURABLE_RECONCILIATION: step 10, only without a clean record; each peer's half as its REGION_ID and MIRROR_SEQ. -/
def execDurableReconciliation (peers : List (Nat × Nat)) (ms : Nat) (s : State) : Host.Outcome State Fault Refusal :=
  .next <| s.onDev fun d =>
    if !d.stepDue 10 [9] ∨ d.stk.clean ∨ !d.stk.discovered then d else
    let d := peers.foldl (fun (d : Dev) x => d.reconcile x.1 x.2) d
    ({ d with boot := { d.boot with recovered := true } }).stepEnds 10 ms

/-- Requests that arrived before region service opened are served, in arrival order. -/
def State.openService (s : State) : State :=
  if !s.dev.regionOpen then s else
  let hs := s.dev.fab.held.filter fun h => h.why == 6
  if hs.isEmpty then s else
  let s := s.onDev fun d => { d with fab := { d.fab with held := d.fab.held.filter fun h => h.why != 6 } }
  hs.foldl (fun (s : State) h => match h.code, h.job with
    | 0x50, some k => s.homeRegionOp State.homeExtra k
    | _, _ => s.request h.port h.code h.m) s

/-- SERVING_STEP: step 11. -/
def execServingStep (ms : Nat) (s : State) : Host.Outcome State Fault Refusal :=
  .next <|
    let ten := s.dev.stk.clean || !s.dev.stk.discovered
    if !s.dev.stepDue 11 (if ten then [7, 9] else [7, 9, 10]) then s else
    let s := s.onDev fun d =>
      let d := d.stepEnds 11 ms
      let d := { d with boot := { d.boot with st := .serving }, stk := { d.stk with clean := false, powerLoss := false } }
      (d.modPat 0 fun _ => { st := .configuring }).ownReport 3 ms
    s.openService

end Sys2Proof.Machine
end

