-- ==== Sys2Proof/Machine/Power.lean ====
section
/-! DEFINITION. Power, sleep and thermal: the power limit and operating point, regulators, archive sleep, sensors, the thermal trip and the power-fail sequence (R327, R502, R521 to R538, R571, R572). -/

namespace Sys2Proof.Machine

/-! ### Power limit and operating point (R523–R529) -/

/-- The board limit of the PWR_CAP straps, in W. -/
def boardWatts (cap : Nat) : Nat := [620, 560, 500, 440].getD (cap % 4) 620

/-- The effective limit in W. -/
def Dev.limitWatts (d : Dev) : Nat :=
  let b := boardWatts d.boot.straps.pwrCap
  let x := d.reg regPwrLimit
  if x = 0 then b else min b x

/-- A stack's temperature report. -/
def isStack (sensor : Nat) : Bool := decide (36 ≤ sensor)

/-- A tier-die or stack sensor at its throttle threshold: the lowest. -/
def Dev.hotSensor (d : Dev) : Option Nat :=
  (d.pwr.temps.find? fun e =>
    if isStack e.1 then decide (((4 * d.reg regPwrStackThrottleC : Nat) : Int) ≤ e.2)
    else decide (e.1 < 32) && decide (((4 * d.reg regPwrThrottleC : Nat) : Int) ≤ e.2)).map (·.1)

/-- Every sensor last read at least 5 °C, 20 quarters, below its throttle threshold (R526). -/
def Dev.sensorsCool (d : Dev) : Bool :=
  d.pwr.temps.all fun e =>
    if isStack e.1 then decide (e.2 + 20 ≤ ((4 * d.reg regPwrStackThrottleC : Nat) : Int))
    else decide (32 ≤ e.1) || decide (e.2 + 20 ≤ ((4 * d.reg regPwrThrottleC : Nat) : Int))

/-- The point that a step down enters; 5 for engines halved. -/
def PwrSt.below (x : PwrSt) : Nat := if x.point < 4 then x.point + 1 else 5

/-- A step down is decided; a step up that waits is discarded (R525). There is none below P4 with engines halved. -/
def Dev.stepDown (d : Dev) (why : Nat) : Dev :=
  if d.pwr.halved then d else { d with pwr := { d.pwr with pendStep := some (.down why) } }

/-- THERMAL_THROTTLE, at most once per second (R535). -/
def Dev.throttled (d : Dev) (sensor : Nat) : Dev :=
  let late := match d.pwr.throttleAt with
    | some t => decide (t + 10 ^ 9 ≤ d.tim.now)
    | none => true
  if late then ({ d with pwr := { d.pwr with throttleAt := some d.tim.now } }).devEvent 0x0703 sensor d.pwr.below else d

/-- The evaluation of each ms (R526). -/
def Dev.evaluatePower (d : Dev) (x : PowerIn) : Dev :=
  let d := d.count2 .pointMs 0 d.pwr.point 1
  let d := if d.pwr.halved then d.count .halvedMs 0 else d
  let lim := 1000 * d.limitWatts
  let d := if lim < x.mw10 then d.count .overMs 0 else d
  if d.reg regPwrCtrl 0 0 2 = 1 ∧ lim < x.mw10 then
    if d.pwr.halved then d else (d.stepDown 0).devEvent 0x0701 (min 4 d.pwr.below) x.mw10
  else match d.hotSensor with
  | some k => if d.pwr.halved then d else (d.stepDown 1).throttled k
  | none =>
    if d.pwr.point < d.reg regPwrPstateMax ∨ (!d.pwr.regHold.isEmpty ∧ d.pwr.point < 4) then d.stepDown 2
    else
      let room := d.pwr.halved || decide (d.reg regPwrPstateMax < d.pwr.point)
      if room ∧ d.pwr.regHold.isEmpty ∧ 100 * x.mw100 < 95 * lim ∧ x.cool100 ∧ d.sensorsCool ∧ d.pwr.pendStep.isNone then
        { d with pwr := { d.pwr with pendStep := some .up } }
      else d

/-- POWER_EVALUATION. -/
def execPowerEvaluation (p : PowerIn) (s : State) : Host.Outcome State Fault Refusal :=
  .next (s.onDev fun d => if d.powered then d.evaluatePower p else d)

/-- OPERATING_POINT_STEP: the step that waits is taken at a tick edge (R525, R527). A faulted regulator's hold goes on to P4. -/
def execOperatingPointStep (s : State) : Host.Outcome State Fault Refusal :=
  .next <| s.onDev fun d =>
    match d.pwr.pendStep with
    | none => d
    | some .up =>
      if d.pwr.halved then { d with pwr := { d.pwr with halved := false, pendStep := none } }
      else { d with pwr := { d.pwr with point := d.pwr.point - 1, pendStep := none } }
    | some (.down why) =>
      let d := if why = 0 then d.count .stepPower 0 else if why = 1 then d.count .stepTemp 0 else d
      if d.pwr.point < 4 then
        let more := !d.pwr.regHold.isEmpty && decide (d.pwr.point + 1 < 4)
        { d with pwr := { d.pwr with point := d.pwr.point + 1, pendStep := if more then some (.down 2) else none } }
      else { d with pwr := { d.pwr with halved := true, pendStep := none } }

/-- Engines without work in the tick are gated in its close phase, whole cores after PWR_GATE_TICKS of them (R529). -/
def Dev.gateTick (d : Dev) (worked : Bool) : Dev :=
  let n := if worked then 0 else d.pwr.idle + 1
  let g := !worked && d.reg regPwrCtrl 0 0 0 == 1
  { d with pwr := { d.pwr with idle := n, engGated := g
                               coreGated := g && d.reg regPwrCtrl 0 0 1 == 1 && decide (d.reg regPwrGateTicks ≤ n) } }

/-- The planner wakes the cores it assigns work to (R529). -/
def Dev.ungate (d : Dev) : Dev := { d with pwr := { d.pwr with engGated := false, coreGated := false } }

/-! ### Regulators (R522) -/

/-- REGULATOR_POLL of a rail: telemetry, silence for 10 polls or a fault, and the hold until 1 s of good answers. A status other
than zero reports a fault. -/
def Dev.pollRail (d : Dev) (rail : Nat) (valid : Bool) (status mv current temp : Nat) : Dev :=
  let bad := if valid then 0 else tgetD d.pwr.regBad rail 0 + 1
  let d := { d with pwr := { d.pwr with regBad := tset d.pwr.regBad rail bad } }
  let d := if valid then { d with pwr := { d.pwr with telem := tset d.pwr.telem rail (mv, current, temp) } } else d
  let held := tget d.pwr.regHold rail
  if (valid ∧ status ≠ 0) ∨ 10 ≤ bad then
    let d := { d with pwr := { d.pwr with regHold := tset d.pwr.regHold rail 0 } }
    let d := if d.pwr.point < 4 then d.stepDown 2 else d
    if held.isSome then d else (d.devEvent 0x0704 rail status).count .regFaults 0
  else match held with
  | none => d
  | some n =>
    if !valid then { d with pwr := { d.pwr with regHold := tset d.pwr.regHold rail 0 } }
    else if n + 1 < 1000 then { d with pwr := { d.pwr with regHold := tset d.pwr.regHold rail (n + 1) } }
    else { d with pwr := { d.pwr with regHold := tdel d.pwr.regHold rail } }

/-- REGULATOR_POLL; a rail that its regulator removes is a device fault (R464). -/
def execRegulatorPoll (rail : Nat) (valid : Bool) (status mv current temp : Nat) (removed : Bool) (s : State) :
    Host.Outcome State Fault Refusal :=
  .next <| s.onDev fun d =>
    if !d.powered ∨ 16 ≤ rail then d
    else if removed then d.deviceStops 0x0704 true true
    else d.pollRail rail valid status mv current temp

/-! ### Archive sleep (R531–R533) -/

/-- The form of POWER_SET (R531). -/
def formPowerSet : Form :=
  { entries := (· == 0), classes := [6], admin := true
    items := fun x =>
      let a := x.fld 0 0 2
      [.val 0 0 2 fun v => v == 1 || v == 2, .rsv 0 2 6, .rsv 1 0 8,
       .val 2 0 16 (fun v => if a = 2 then v == 0 || (decide (440 ≤ v) && decide (v ≤ 620)) else v == 0)]
      ++ rsvBytes 4 4 ++ [.val 8 0 64 fun v => a == 1 || v == 0] ++ rsvBytes 16 32 }

/-- Live regions of which the device is home, primary, mirror or rebuild target. -/
def Dev.liveRegions (d : Dev) : Nat := (d.rgn.slots.filter fun e => e.2.st != 4).length

/-- POWER_SET. ACTION 1 takes effect after its completion has been written. -/
def Dev.opPowerSet (d : Dev) (q : Req) : Dev × Ans :=
  if q.d.fld 0 0 2 = 1 then
    let others := (d.host.patrons.filter fun e => e.1 != 0 && e.2.st == .active).length
    if others ≠ 0 ∨ d.liveRegions ≠ 0 then (d, { status := stConflict, r1 := others + 2 ^ 32 * d.liveRegions })
    else ({ d with pwr := { d.pwr with sleep := 1, wakeAt := q.d.fld 8 0 64 } }, {})
  else
    let d := d.setReg regPwrLimit 0 0 0 (q.d.fld 2 0 16)
    (d, { r0 := d.limitWatts })

/-- Sleep entry, at the end of that close phase: clean record, Chaig silent, clusters fenced with their channels in
SELF_REFRESH, engines gated. -/
def Dev.enterSleep (d : Dev) : Dev :=
  if d.pwr.sleep ≠ 1 then d else
  let d := d.cleanRecord
  let chans := (List.range 256).map fun c => (c, 2)
  let d := { d with
    pwr := { d.pwr with sleep := 2, sleptAt := d.tim.now, chans := chans, engGated := true, coreGated := true }
    fab := { d.fab with ports := tmap d.fab.ports fun _ p => { p with st := .off, credits := [] } } }
  (d.count .sleeps 0).devEvent 0x0705 0 d.tim.count

/-- The device wakes: enabled ports train again, time realigns, admission resumes; cause 1 PWR_WAKE, 2 WAKE_AT, 3 MCTP, 4 PERST_N. -/
def Dev.wake (d : Dev) (cause asleepMs : Nat) : Dev :=
  if d.pwr.sleep ≠ 2 ∨ !d.powered then d else
  let d := { d with
    pwr := { d.pwr with sleep := 0, wakeAt := 0, chans := [] }, stk := { d.stk with clean := false }
    tim := { d.tim with locked := false, good := 0 } }
  let d := ((List.range 18).filter d.mayTrain).foldl (fun (d : Dev) k => d.startTraining k .training) d
  d.ungate.devEvent 0x0706 cause asleepMs

/-- Milliseconds since sleep entry by device time. -/
def Dev.asleepMs (d : Dev) : Nat := (d.tim.now - d.pwr.sleptAt) / 10 ^ 6

/-- A write of PWR_WAKE. -/
def Dev.writeWake (d : Dev) (value : Nat) : Dev := if value % 2 = 1 then d.wake 1 d.asleepMs else d

/-- PWR_WAKE. -/
def execPwrWake (value : Nat) (s : State) : Host.Outcome State Fault Refusal :=
  .next (s.onDev fun d => if d.reached 0 && d.blockOpen 13 then d.writeWake value else d)

/-- WAKE_AT: device time reaches the value that was set. -/
def execWakeAt (asleepMs : Nat) (s : State) : Host.Outcome State Fault Refusal :=
  .next (s.onDev fun d => if d.pwr.wakeAt = 0 then d else d.wake 2 asleepMs)

/-- MCTP_WAKE. -/
def execMctpWake (asleepMs : Nat) (s : State) : Host.Outcome State Fault Refusal := .next (s.onDev fun d => d.wake 3 asleepMs)

/-- PERST_N (R502, R533): a device reset in DEVICE_FAULT and BOOT_FAILED, else a host port reset, which also wakes the device. -/
def execPerstN (s : State) : Host.Outcome State Fault Refusal :=
  .next <|
    match s.dev.boot.st with
    | .off | .tamperHold => s
    | .deviceFault | .bootFailed => s.requestReset 5
    | _ => (s.resetEvery).onDev fun d => (if d.host.linkUp then d.linkLost else d).wake 4 d.asleepMs

/-! ### Stack channels (R530) -/

/-- CHANNEL_POWER_DOWN: a channel without a command for 1 µs. -/
def execChannelPowerDown (channel : Nat) (s : State) : Host.Outcome State Fault Refusal :=
  .next <| s.onDev fun d =>
    if 256 ≤ channel ∨ !d.powered ∨ (tget d.pwr.chans channel).isSome then d
    else { d with pwr := { d.pwr with chans := tset d.pwr.chans channel 1 } }

/-- Work reads and writes the reading room: channels leave POWER_DOWN. -/
def Dev.wakeChannels (d : Dev) : Dev := { d with pwr := { d.pwr with chans := tkeep d.pwr.chans fun _ x => x != 1 } }

/-! ### Thermal (R534–R536) -/

/-- One sensor is read; THERMAL_WARN at its threshold, at most once per sensor and second. -/
def Dev.readSensor (d : Dev) (k : Nat) (v : Int) : Dev :=
  let d := { d with pwr := { d.pwr with temps := tset d.pwr.temps k v } }
  let lim := d.reg regPwrWarnC 0 0 (flag (isStack k))
  let late := match tget d.pwr.warnAt k with
    | some t => decide (t + 10 ^ 9 ≤ d.tim.now)
    | none => true
  if decide (((4 * lim : Nat) : Int) ≤ v) && late then
    ({ d with pwr := { d.pwr with warnAt := tset d.pwr.warnAt k d.tim.now } }).devEvent 0x0702 k (v % 2 ^ 16).toNat
  else d

/-- THERMAL_SAMPLE. -/
def execThermalSample (readings : List (Nat × Int)) (s : State) : Host.Outcome State Fault Refusal :=
  .next <| s.onDev fun d =>
    if !d.powered then d else
    readings.foldl (fun (d : Dev) (x : Nat × Int) => if 44 ≤ x.1 then d else d.readSensor x.1 x.2) d

/-- THERMAL_TRIP: the comparator of a logic sensor at 125 °C, of a stack at 105 °C. -/
def execThermalTrip (sensor : Nat) (reading : Int) (s : State) : Host.Outcome State Fault Refusal :=
  .next <| s.onDev fun d =>
    let lim : Int := if isStack sensor then 420 else 500
    if !d.powered ∨ d.pwr.tripped ∨ 44 ≤ sensor ∨ reading < lim then d else
    let d := (({ d with pwr := { d.pwr with tripped := true } }).count .trips 0).emit .thermTrip
    (d.devEvent 0x0707 sensor (reading % 2 ^ 16).toNat).deviceStops 0x0707 true (!d.pwr.pwrFail)

/-! ### Loss of power (R327, R571–R573) -/

/-- PWR_FAIL_N low for 1 µs or more: accepting, fetch, admission, completions and Chaig stop. -/
def execPwrFailN (lowNs : Nat) (s : State) : Host.Outcome State Fault Refusal :=
  .next <| s.onDev fun d =>
    if lowNs < 1000 ∨ !d.powered ∨ d.pwr.pwrFail then d else
    { d with pwr := { d.pwr with pwrFail := true, engGated := true, coreGated := true }, adm := { d.adm with paused := true } }

/-- PWR_FAIL_SEQUENCE_END: the power-loss record is there, and every key slot is cleared (R493); with the supplies still good the device resets as at power-on (R572). -/
def execPwrFailSequenceEnd (railsOk : Bool) (s : State) : Host.Outcome State Fault Refusal :=
  .next <|
    if !s.dev.pwr.pwrFail ∨ s.dev.pwr.pwrSeqEnd then s else
    let s := s.onDev fun d =>
      let d := ({ d with pwr := { d.pwr with pwrSeqEnd := true }, sec := { d.sec with keysClear := true } }).dropLinkKeys
      if d.flt.deviceFault ∨ d.pwr.sleep = 2 then { d with stk := { d.stk with powerLoss := d.stk.discovered } } else d.flashSequence
    if railsOk then s.deviceReset 1 else s

end Sys2Proof.Machine
end

