-- ==== Sys2Proof/Machine/Registers.lean ====
section
/-! DEFINITION. Stores to the set-up registers: the pages and blocks of BAR0, access codes, ranges, halves, and the moment a write takes effect (R9 to R11, R74 to R76, R106, R552 to R555). -/

namespace Sys2Proof.Machine

/-- The absolute BAR0 offset behind an offset of a function's BAR0 (R74–R76); `none` where a write has no effect: the capability
records, reserved space and the readback window of a virtual function, and in the physical function the mirrored pages of
patrons 1 to 63. -/
def barOffset (p off : Nat) : Option Nat :=
  if p = 0 then
    if off < 0xF0000 ∨ (0x100000 ≤ off ∧ off < 0x101000) then some off else none
  else if 0x1000 ≤ off ∧ off < 0x2000 then some (0x100000 + 0x1000 * p + (off - 0x1000)) else none

/-- The registers of the gate list, which act at a cycle start (R431, R554). -/
def gateRegs : List RegRow := [regTrfGatePeriod, regTrfGatePhase, regTrfGateCount, regTrfGaten]

/-- A port is disabled, or may train (R347). -/
def Dev.enablePort (d : Dev) (k : Nat) : Dev :=
  let st := (d.port k).st
  if !bit (d.reg regChgPortEn) k then (if st = .off then d else d.linkDown k .off)
  else if st = .off ∧ d.mayTrain k then d.startTraining k .training else d

/-- What follows from a stored block register beyond its value: mastership (R35), the plan length (R45), the ports (R347), the hot
spare (R413). -/
def Dev.regStored (d : Dev) (a old : Nat) : Dev :=
  let w := tgetD d.regs a 0
  if a = regTikCtrl.addr ∨ a = regTikMasterPos.addr then
    if a = regTikCtrl.addr ∧ bit w 2 = bit old 2 then d else
    let pos := d.reg regTikMasterPos
    { d with tim := { d.tim with masterPos := pos, master := !d.wingMode || pos == d.pos } }
  else if a = regTikPlanLen.addr then { d with tim := { d.tim with plan := d.reg regTikPlanLen } }
  else if a = regChgCtrl.addr ∨ a = regChgPortEn.addr then (List.range 18).foldl Dev.enablePort d
  else if a = regRgnSpare.addr then (d.rgn.slots.map (·.1)).foldl (fun (d : Dev) x => d.askRebuild x d.spare) d
  else d

/-- Store a word that takes effect now. -/
def Dev.storeNow (d : Dev) (a cold w : Nat) : Dev :=
  let old := tgetD d.regs a cold
  if w = old then d else (d.setRegWord a cold w).regStored a old

/-- The writes that waited for this tick edge take effect (R434, R554). -/
def Dev.applyWrites (d : Dev) : Dev :=
  d.pendRegs.foldl (fun (d : Dev) x =>
    d.storeNow x.1 ((regAt x.1).map (·.1.coldWord) |>.getD 0) x.2) { d with pendRegs := [] }

/-- A block write waits for the next tick edge while the device is SERVING and a patron is ACTIVE (R554). -/
def Dev.writesWait (d : Dev) : Bool := d.boot.st == .serving && d.anyActive

/-- A value, by its range and by R45, cannot be stored (R555). -/
def Dev.writeRefused (d : Dev) (r : RegRow) (w lo n : Nat) (rwl : Bool) : Bool :=
  !r.inRange w lo n rwl || (r.addr == regTikPlanLen.addr && rwl && !planFits (bits w 0 6) (d.reg regTikLength))

/-- A store of `n` bytes to bytes `lo` on of a register without behaviour of its own. -/
def Dev.writePlain (d : Dev) (r : RegRow) (i p lo n v : Nat) : Dev :=
  let a := r.addr i p
  let page := r.block == 15
  let rwl := if page then (d.pat p).st == .configuring else !(d.pat 0).lock
  let merged := putBits (d.nextWord a r.coldWord) (8 * lo) (8 * n) v
  if d.writeRefused r merged lo n rwl then d.rejectWrite a else
  let w := r.written (d.nextWord a r.coldWord) v lo n rwl
  if gateRegs.any fun g => g.block == r.block && g.off == r.off then
    if w = d.nextWord a r.coldWord then d else
    let d := d.setRegWord a r.coldWord w
    if d.writesWait then { d with adm := { d.adm with gatePend := some d.regGates } }
    else
      let d := d.useGates d.regGates d.tim.now
      { d with adm := { d.adm with gatePend := none } }
  else if !page && d.writesWait && (r.fields.any fun f => f.acc == .rwl) && w != d.nextWord a r.coldWord then d.pendWord a w
  else d.storeNow a r.coldWord w

/-- A store to one register: those with behaviour of their own act as their own rows do. -/
def State.writeRegister (s : State) (r : RegRow) (i p lo n v : Nat) : State :=
  if r.addr i p = regPatLock.addr 0 p then s.onDev fun d => d.patLock p v
  else if r.addr i p = regPatKeepReset.addr 0 p then
    if v % 2 = 0 ∨ (s.dev.pat p).st = .resetting then s else s.resetPatron p false
  else s.onDev fun d =>
    if r.addr i p = regTikLength.addr then d.writeLength d.tim.now (v % 512)
    else if r.addr i p = regTikTodNext.addr then d.writeTod d.tim.now v
    else if r.addr i p = regPwrWake.addr then d.writeWake v
    else if r.addr i p = regSecRcvCmd.addr then d.recoveryCmd v
    else if r.addr i p = regRdbStatus.addr then (if lo = 0 ∧ v % 2 = 1 then { d with rejected := false } else d)
    else d.writePlain r i p lo n v

/-- An aligned store of `n` bytes at an absolute offset: a 64-bit register stored in two halves changes when the high half is
written (R552). -/
def State.storeBytes (s : State) (a n v : Nat) : State :=
  match regAt a with
  | none => s
  | some (r, i, p) =>
    let base := r.addr i p
    let lo := a - base
    if r.bytes = 8 ∧ n = 4 then
      if lo = 0 then s.onDev fun d => { d with lowHalf := tset d.lowHalf base v }
      else
        let low := tgetD s.dev.lowHalf base (s.dev.nextWord base r.coldWord % 2 ^ 32)
        (s.onDev fun d => { d with lowHalf := tdel d.lowHalf base }).writeRegister r i p 0 8 (low + 2 ^ 32 * v)
    else s.writeRegister r i p lo n v

/-- An aligned store of 8 bytes covers one register of 8 bytes or more, or two of 4 bytes, the lower first. -/
def State.storeAt (s : State) (a n v : Nat) : State :=
  if n = 8 ∧ ((regAt a).map (·.1.bytes)).getD 4 = 4 then (s.storeBytes a 4 (v % 2 ^ 32)).storeBytes (a + 4) 4 (v / 2 ^ 32)
  else s.storeBytes a n v

/-- The block of an absolute offset: a patron page counts with PAT. -/
def blockOf (a : Nat) : Nat := if 0x100000 ≤ a then 3 else a / 0x10000

/-- REGISTER_WRITE: an aligned store of 4 or 8 bytes. -/
def execRegisterWrite (p off width value : Nat) (s : State) : Host.Outcome State Fault Refusal :=
  if !(width == 32 || width == 64) || off % (width / 8) != 0 then .fault .registerAccessShape
  else if !s.dev.reached p then .next s
  else match barOffset p off with
    | none => .next s
    | some a =>
      let q := (a - 0x100000) / 0x1000
      if !s.dev.blockOpen (blockOf a) then .next s
      else if 0x100000 ≤ a ∧ [PState.disabled, PState.resetting].contains (s.dev.pat q).st then .next s
      else .next (s.storeAt a (width / 8) (value % 2 ^ width))

end Sys2Proof.Machine
end

