-- ==== Sys2Proof/Machine/Records.lean ====
section
/-! DEFINITION. The records that readback shows: their bytes, index ranges, readers and poison, class by class (R190, R193 to R195, R225, R255, R355, R368, R386, R466, R515, R541 to R545). -/

namespace Sys2Proof.Machine

/-! ### Rings and outstanding descriptors (R543, R544) -/

/-- Requests of a patron without a completion, as the outstanding-descriptor records show them. -/
structure Open where
  ring : Nat
  first : Nat
  stage : Nat
  op : Nat
  tag : Nat
  admTick : Nat
  dl : Nat
  deriving DecidableEq, Repr

/-- The open request of a descriptor. -/
def openReq (q : Req) (stage : Nat) : Open :=
  { ring := q.d.ring, first := q.first, stage := stage, op := q.op, tag := q.d.tag, admTick := q.admTick, dl := q.dl }

/-- The open request of a completion that is not yet written. -/
def openDue (x : Due) : Open :=
  { ring := x.sq, first := x.first, stage := x.stage, op := x.op, tag := x.tag, admTick := x.admTick, dl := x.dl }

/-- Every open request of a patron: in a holding slot, admitted, planned, waiting, executing (R544). -/
def Dev.opens (d : Dev) (p : Nat) : List Open :=
  let mine := fun (l : List Req) => l.filter fun q => q.ring && q.d.patron == p
  ((mine (d.adm.heads.map (·.2))).map (openReq · 1)) ++ ((mine (d.adm.admitted ++ d.adm.sealed_)).map (openReq · 2))
    ++ ((mine d.adm.planned).map fun q => openReq q (max 3 q.stage)) ++ ((mine d.adm.waiting).map (openReq · 4))
    ++ (((d.adm.due ++ d.adm.fw).filter fun x => x.ring && x.patron == p).map openDue)
    ++ ((mine (d.adm.resetAns.map (·.2.2) ++ d.fab.jobs.filterMap (·.2.q) ++ (d.audit.map (·.q)).toList)).map (openReq · 5))

/-- A ring state record. -/
def ringRecord (base depth bound : Nat) (phase : Bool) (dev host out last : Nat) : List Byte :=
  leBytes 8 base ++ leBytes 1 depth ++ leBytes 1 bound ++ leBytes 1 (flag phase) ++ leBytes 1 0 ++ leBytes 2 dev ++ leBytes 2 host
    ++ leBytes 4 out ++ leBytes 4 0 ++ leBytes 8 last

/-- Class 0x01: submission rings, completion rings, the event ring. -/
def Dev.ringState (d : Dev) (p i : Nat) : List Byte :=
  let x := d.pat p
  if i < 16 then
    let r := x.sqAt i
    ringRecord (d.reg regPatSqnBase i p) (d.reg regPatSqnCtrl i p 0) (d.boundCq p i) false r.head r.tail
      ((d.opens p).filter fun o => o.ring == i).length r.lastTick
  else if i < 32 then
    let k := i - 16
    let r := x.cqAt k
    let depth := d.cqDepth p k
    ringRecord (d.reg regPatCqnBase k p) (d.reg regPatCqnCtrl k p 0) (d.reg regPatCqnCtrl k p 1) (phaseOf r.written depth)
      (if depth = 0 then 0 else r.written % depth) r.headIdx r.reserved r.lastTick
  else
    let depth := d.eqDepth p
    ringRecord (d.reg regPatEqBase 0 p) (d.reg regPatEqCtrl 0 p 0) (d.reg regPatEqCtrl 0 p 1) (phaseOf x.eq.written depth)
      (if depth = 0 then 0 else x.eq.written % depth) x.eq.headIdx 0 x.eq.lastTick

/-- Class 0x02: the outstanding descriptor that begins at a ring entry. -/
def Dev.openRecord (d : Dev) (p i : Nat) : List Byte :=
  match (d.opens p).find? fun o => o.ring == i / 65536 && o.first == i % 65536 with
  | some o => leBytes 1 (1 + 2 * o.stage) ++ leBytes 1 o.op ++ leBytes 2 o.tag ++ leBytes 4 o.admTick ++ leBytes 8 o.dl
  | none => List.replicate 16 0

/-! ### Time, arbiters and counters (R65, R545) -/

/-- Class 0x03. -/
def Dev.tickRecord (d : Dev) (i : Nat) : List Byte :=
  if i = 0 then leBytes 8 d.tim.count ++ leBytes 8 d.tim.now
  else leBytes 4 (tgetD d.tim.arbs (i - 1) 0) ++ leBytes 4 0 ++ leBytes 8 d.tim.now

/-- The instance of a counter that a number names: outer and inner. -/
def ctrInstance (c : Ctr) (k : Nat) : Option (Nat × Nat) :=
  if c.base ≤ k ∧ k < c.base + c.outer * c.step then some ((k - c.base) / c.step, (k - c.base) % c.step) else none

/-- The counter row and instance of a number; a row of several counters is found at the one whose place it is. -/
def ctrAt (k : Nat) : Option (Ctr × Nat × Nat) :=
  (Ctr.all.filterMap fun c => (ctrInstance c k).map fun x => (c, x.1, x.2)).head?

/-- The count of a counter: those that count objects are the objects' number. -/
def Dev.ctrNow (d : Dev) (k : Nat) : Nat :=
  match ctrAt k with
  | none => 0
  | some (c, i, _) =>
    if c = .tikCount then d.tim.count
    else if c = .liveRecs then (d.seqs.recs.filter fun e => e.2.owner == i).length
    else if c = .entsHeld then d.scopeEnts i
    else if c = .pinsHeld then ((d.tier.pins.filter fun x => x.patron == i).map (·.count)).sum
    else if c = .poisEnts then (d.flt.tables.filter fun e => e.1 / 8192 == i).length
    else if c = .keyGen then tgetD d.sec.gens i 0
    else if c = .retained then d.sec.retained.length
    else if c = .tampers then d.sec.wrap
    else tgetD d.ctrs k 0

/-- The patron whose counter a number names, if its scope is a patron. -/
def ctrPatron (k : Nat) : Option Nat :=
  match ctrAt k with
  | some (c, i, _) => if c.patron then some i else none
  | none => none

/-! ### Sequences, spans and frames (R190–R195, R255) -/

/-- Device offset of a table block; 0 for none. -/
def blkOff (n : Nat) : Nat := if n = 0 then 0 else Config.metaOffset 0 n

/-- A sequence record (R190). -/
def recBytes (r : Rec) : List Byte :=
  leBytes 1 1 ++ leBytes 1 r.profile ++ leBytes 1 r.owner ++ leBytes 1 0 ++ leBytes 4 r.gen ++ leBytes 4 r.number ++ leBytes 4 r.length
    ++ leBytes 2 r.pendCount ++ leBytes 2 r.pendLayers ++ leBytes 4 r.spans ++ leBytes 8 (blkOff r.root) ++ leBytes 4 r.openSpan
    ++ leBytes 4 0 ++ leBytes 8 r.editTick ++ leBytes 16 0

/-- The sequences of a patron in ascending order of their numbers. -/
def Dev.seqList (d : Dev) (p : Nat) : List (Nat × Rec) :=
  sortBy (fun a b => decide (a.2.number < b.2.number)) (d.seqs.recs.filter fun e => e.2.owner == p)

/-- A table block and its header (R545). -/
def blkRecord (b : Option Blk) : List Byte :=
  match b with
  | some b => leBytes 4 b.share ++ leBytes 1 (flag !b.root) ++ leBytes 11 0
      ++ (if b.root then padTo 512 (b.entries.flatMap fun n => leBytes 8 (blkOff n)) else padTo 4096 (b.entries.flatMap (leBytes 4)))
  | none => leBytes 16 0 ++ leBytes 512 0

/-- The table block at a device offset of `512 × i`. -/
def Dev.blkAt (d : Dev) (i : Nat) : Option (Nat × Blk) := d.seqs.blks.find? fun e => blkOff e.1 / 512 == i

/-- A span descriptor (R194, R255). -/
def spanBytes (i : Nat) (s : Span) : List Byte :=
  leBytes 1 (s.st + 16 * flag s.twinMark + 32 * flag s.tailHeld + 64 * flag s.twinHeld) ++ leBytes 1 s.profile ++ leBytes 1 s.owner
    ++ leBytes 1 0 ++ leBytes 4 s.ref ++ leBytes 4 s.firstPos ++ leBytes 2 s.fill ++ leBytes 2 0 ++ leBytes 8 s.key ++ leBytes 4 s.parent
    ++ leBytes 4 s.refillSeq ++ leBytes 8 (Config.metaOffset 1 i) ++ leBytes 8 (Config.metaOffset 2 i)
    ++ leBytes 1 (flag s.onShelf + 2 * flag s.onStacks + 4 * flag s.onRemote + 8 * flag s.moveLock + 16 * flag s.streamed + 32 * s.pref)
    ++ leBytes 1 s.pins ++ leBytes 2 s.resLayers ++ leBytes 4 s.lastTick ++ leBytes 8 s.charged

/-- A frame list: one entry per layer (R195). -/
def Dev.frameList (d : Dev) (s : Span) : List Byte :=
  (List.range (d.prof s.profile).layers).flatMap fun l =>
    let f := (s.frames[l]?).getD {}
    leBytes 4 f.primary ++ leBytes 4 f.tail ++ leBytes 4 f.twin ++ leBytes 4 0

/-- A token block. -/
def tokenBlock (s : Span) : List Byte := padTo 1024 (s.tokens.flatMap (leBytes 4))

/-- The span, layer and form (0 primary, 1 tail, 2 twin) whose frame a handle names. -/
def Dev.frameAt (d : Dev) (h : Nat) : Option (Nat × Span × Nat × Nat) :=
  if h = 0 then none else
  d.seqs.spans.findSome? fun e => e.2.frames.zipIdx.findSome? fun f =>
    if f.1.primary = h then some (e.1, e.2, f.2, 0) else if f.1.tail = h then some (e.1, e.2, f.2, 1)
    else if f.1.twin = h then some (e.1, e.2, f.2, 2) else none

/-- The image of a frame; rows that nothing has written are free bytes of draw `n`. A frame obtained for a promotion shows an open frame's
image of such rows until its layer lands, also where that is longer than its class (DESIGN CHOICE, assumption 130). -/
def Dev.frameImage (d : Dev) (n h i : Nat) (s : Span) (layer form : Nat) : List Byte :=
  let p := d.prof s.profile
  let churned := ((tget s.closed layer).map (·.churnTick)).getD 0
  if form = 1 then tailImage p s.profile layer i s.firstPos n churned (tgetD s.tails layer [])
  else if form = 2 then openImage p s.profile layer i 256 s.firstPos 6 n (hClass h) churned (tgetD s.rows layer [])
  else match tget s.closed layer with
    | some c => closedImage p s.profile layer i s.firstPos (hClass h) c
    | none => openImage p s.profile layer i s.fill s.firstPos 4 n (hClass h) 0 (tgetD s.rows layer [])

/-! ### Catalogue and profiles (R225, R545) -/

/-- A catalogue entry. -/
def entBytes (e : CatEnt) : List Byte :=
  leBytes 8 e.key ++ leBytes 4 e.span ++ leBytes 1 (e.scope + 128) ++ leBytes 1 (e.cls + 4 * e.publisher) ++ leBytes 2 e.stamp

/-- A profile record. -/
def profRecord (p : Profile) : List Byte := padTo 48 p.body ++ leBytes 8 p.cap ++ leBytes 1 p.st ++ leBytes 1 p.owner ++ leBytes 6 0

/-! ### Stacks (R295, R545) -/

/-- The coarse entry of a unit: its location, fine-mapped, or unmapped while nothing of it is programmed. -/
def Dev.coarseEntry (d : Dev) (v : Volume) (u : Nat) : Nat :=
  match tget v.units u with
  | none => 0xFFFF_FFFF
  | some x => if x.fine then 0xFFFF_FFFE else if x.staged then 0xFFFF_FFFF
      else keyChannel x.block + 32 * keyDie x.block + 1024 * (keyBlock x.block * d.stk.unitsPerBlock + x.loc)

/-- Class 0x0E: a 64 KiB segment of a volume's coarse map. -/
def Dev.mapSegment (d : Dev) (i : Nat) : List Byte :=
  match d.vol? (i / 2 ^ 32) with
  | some v => (List.range segmentUnits).flatMap fun u => leBytes 4 (d.coarseEntry v (i % 2 ^ 32 * segmentUnits + u))
  | none => leBytes 65536 0

/-- Class 0x0F: a block's record. -/
def Dev.blockRecord (d : Dev) (i : Nat) : List Byte :=
  let b := d.fblock (blockKey (i / 2 ^ 27) (i / 2 ^ 22 % 32) (i % 2 ^ 22))
  leBytes 1 b.st ++ leBytes 1 b.strm ++ leBytes 1 b.volume ++ leBytes 1 0 ++ leBytes 4 b.erases ++ leBytes 4 b.reads
    ++ leBytes 4 b.valid.length ++ leBytes 8 b.closeTick ++ leBytes 8 0

/-- Class 0x1B: a volume's record. -/
def Dev.volumeRecord (d : Dev) (i : Nat) : List Byte :=
  match d.vol? i with
  | none => leBytes 64 0
  | some v =>
    leBytes 1 1 ++ leBytes 1 (flag v.region) ++ leBytes 1 (flag v.ct210) ++ leBytes 1 (flag v.protected_) ++ leBytes 1 v.dieFirst
      ++ leBytes 1 v.dieCount ++ leBytes 2 v.op ++ leBytes 8 v.formatId ++ leBytes 8 v.capacity ++ leBytes 2 v.lifeDays ++ leBytes 2 0
      ++ leBytes 4 (d.ratedOf v) ++ leBytes 8 v.budget ++ leBytes 8 (ofSigned 64 v.balance) ++ leBytes 2 (v.wa100 d.tim.now)
      ++ leBytes 1 (d.sparePct v) ++ leBytes 1 0 ++ leBytes 4 (d.spareBlocks v) ++ leBytes 8 v.formatAt

/-! ### The home, regions and the pool (R355, R368, R386, R515, R545) -/

/-- An atomic or a store replay record: the one whose place it is. -/
def replayAt (t : Tab Replay) (size i : Nat) : Option Replay := (t.find? fun e => Config.replayHash e.2.src e.2.tag % size == i).map (·.2)

/-- Class 0x10. -/
def Dev.atomicRecord (d : Dev) (i : Nat) : List Byte :=
  match replayAt d.fab.replayA 65536 i with
  | some r => leBytes 2 r.src ++ leBytes 2 r.tag ++ leBytes 1 r.arg ++ leBytes 3 0 ++ leBytes 16 r.result ++ leBytes 8 0
  | none => leBytes 32 0

/-- Class 0x11. -/
def Dev.storeRecord (d : Dev) (i : Nat) : List Byte :=
  match replayAt d.fab.replayS 262144 i with
  | some r => leBytes 2 r.src ++ leBytes 2 r.tag ++ leBytes 4 0
  | none => leBytes 8 0

/-- Class 0x12: a directory set; the replacement state is free bytes of draw `n`. -/
def Dev.dirRecord (d : Dev) (n i : Nat) : List Byte :=
  padTo 256 (((d.dirEnts i).filter fun e => e.line != setLine i).zipIdx.flatMap fun e =>
    leBytes 6 (e.1.line % 2 ^ 44) ++ leBytes 2 e.1.holders ++ leBytes 1 (1 + 2 * flag e.1.inval)
      ++ (List.range 7).map fun k => Config.freeByte n (4096 + 8 * e.2 + k))

/-- Class 0x13: a bucket or a deficit. -/
def Dev.bucketRecord (d : Dev) (i : Nat) : List Byte :=
  if i < 388 then leBytes 8 (ofSigned 64 (d.bal i)) ++ leBytes 4 (d.bktRate i) ++ leBytes 4 (d.bktBurst i)
  else leBytes 8 (tgetD d.adm.deficit (i - 388) 0) ++ leBytes 4 (d.reg regTrfQuantump (i - 388)) ++ leBytes 4 0

/-- The patron whose bucket a number names; none for a device bucket. -/
def bucketOwner (i : Nat) : Option Nat :=
  if i < 256 then some (i / 4) else if i < 260 then none else if i < 324 then some (i - 260) else if i < 388 then some (i - 324)
  else some (i - 388)

/-- Class 0x14: a slot of the event log, or an entry kept in the system area. -/
def Dev.logRecord (d : Dev) (i : Nat) : List Byte :=
  if i < logSlots then tgetD d.flt.log i (leBytes 64 0) else d.flt.saved.getD (i - logSlots) (leBytes 64 0)

/-- Class 0x15: a region's record (R386). -/
def regionBytes (r : Region) : List Byte :=
  leBytes 1 r.attrs ++ leBytes 1 r.ownerDev ++ leBytes 1 r.ownerPatron ++ leBytes 1 r.partner ++ leBytes 1 r.volume
    ++ leBytes 1 (r.st + 8 * flag r.mirror + 16 * r.pref) ++ leBytes 2 (r.grants.filter fun g => !g.revoking).length ++ leBytes 8 r.size
    ++ leBytes 8 r.version ++ leBytes 8 r.versionTick ++ leBytes 4 r.id ++ leBytes 4 (if r.st = 3 then r.copyFront else 0)
    ++ leBytes 8 r.mirrorSeq ++ leBytes 16 0

/-- Class 0x16: a roster entry (R515). -/
def Dev.rosterRecord (d : Dev) (i : Nat) : List Byte :=
  let e := d.rosterEnt i
  leBytes 1 i ++ leBytes 1 (e.st + 8 * flag e.head + 16 * flag e.recovered) ++ leBytes 3 e.portsUp ++ leBytes 3 0 ++ leBytes 4 e.epoch
    ++ leBytes 2 (min 65535 e.readyMs) ++ leBytes 2 (min 65535 e.servingMs)

/-- Class 0x17: an entry of a patron's pin ledger. -/
def pinRecord (x : PinEnt) : List Byte :=
  leBytes 4 x.id ++ leBytes 1 x.kind ++ leBytes 1 x.count ++ leBytes 2 0 ++ leBytes 4 x.unit ++ leBytes 4 (if x.kind = 0 then 0 else 1)

/-- Class 0x18: a copy of a span on the shelves or the remote tier, in the order they were made. -/
def Dev.copyRecord (d : Dev) (i : Nat) : List Byte :=
  match ((d.tier.copies.filter fun e => e.2.span == i / 8).map (·.2))[i % 8]? with
  | some c => leBytes 4 c.span ++ leBytes 1 c.tier ++ leBytes 1 (if c.tier = 1 then c.window else 0) ++ leBytes 2 0 ++ leBytes 8 c.offset
      ++ leBytes 8 c.bytes ++ leBytes 8 0
  | none => leBytes 32 0

/-- The range entries of this home: for each region its owner with every right, then its grants (R389). -/
def Dev.ranges (d : Dev) : List (Nat × Grant) :=
  (d.rgn.slots.filter fun e => !e.2.mirror).flatMap fun e =>
    (e.2.id, { dev := e.2.ownerDev, patron := e.2.ownerPatron, rights := 15, first := 0, count := e.2.unitCount })
      :: e.2.grants.map fun g => (e.2.id, g)

/-- Class 0x1A: the identity of a port, or a range entry. -/
def Dev.isolationRecord (d : Dev) (i : Nat) : List Byte :=
  if i < 18 then leBytes 1 i ++ leBytes 1 ((d.partnerOf i).getD 0) ++ leBytes 1 (flag (d.portUp i)) ++ leBytes 29 0
  else match d.ranges[i - 18]? with
    | some (id, g) => leBytes 4 id ++ leBytes 2 (g.dev + 64 * g.patron) ++ leBytes 1 g.rights ++ leBytes 1 0 ++ leBytes 4 g.first
        ++ leBytes 4 g.count ++ leBytes 16 0
    | none => leBytes 32 0

/-! ### The classes (R542) -/

/-- A class of the table. -/
def isClass (c : Nat) : Bool := decide (1 ≤ c) && decide (c ≤ 0x1B)

/-- Classes that patron 0 alone reads. -/
def adminClass (c : Nat) : Bool := [0x0E, 0x0F, 0x10, 0x11, 0x12, 0x14, 0x16, 0x19, 0x1A, 0x1B].contains c

/-- Classes whose PATRON field names the patron that is read (R539). -/
def patronClass (c : Nat) : Bool := [0x01, 0x02, 0x05, 0x17].contains c

/-- End of a class's index range. -/
def classEnd (c : Nat) : Nat :=
  match c with
  | 0x01 => 33
  | 0x02 => 16 * 65536
  | 0x03 => 1 + 324
  | 0x04 => 15 * 2 ^ 24
  | 0x05 => 4194304
  | 0x06 => 4194304
  | 0x07 => 786432 * 2 ^ 20 / 512
  | 0x08 => 0xFFFF_FFFF
  | 0x09 => 0xFFFF_FFFF
  | 0x0A => 0xFFFF_FFFF
  | 0x0B => 2 ^ 30
  | 0x0C => onChipSlots + 33554432
  | 0x0D => 256
  | 0x0E => 8 * 2 ^ 32
  | 0x0F => 2 ^ 32
  | 0x10 => 65536
  | 0x11 => 262144
  | 0x12 => 262144
  | 0x13 => 452
  | 0x14 => logSlots + 64
  | 0x15 => 4096
  | 0x16 => 64
  | 0x17 => 2 ^ 32
  | 0x18 => 8 * 0xFFFF_FFFF
  | 0x19 => 16 * 8192
  | 0x1A => 18 + 65536
  | 0x1B => 8
  | _ => 0

/-- Bytes of a record. -/
def Dev.recordSize (d : Dev) (c i : Nat) : Nat :=
  match c with
  | 0x01 => 32
  | 0x04 => 8
  | 0x06 => 64
  | 0x07 => match d.blkAt i with
    | some (_, b) => if b.root then 16 + 512 else 16 + 4096
    | none => 16 + 512
  | 0x08 => 64
  | 0x09 => match d.span? i with
    | some s => 16 * (d.prof s.profile).layers
    | none => 16
  | 0x0A => 1024
  | 0x0B => classBytes (hClass i)
  | 0x0D => 64
  | 0x0E => 65536
  | 0x0F => 32
  | 0x10 => 32
  | 0x11 => 8
  | 0x12 => 256
  | 0x14 => 64
  | 0x15 => 64
  | 0x18 => 32
  | 0x19 => 8
  | 0x1A => 32
  | 0x1B => 64
  | _ => 16

/-- A record's bytes; `none` past the last one. `p` is the patron that is read, `n` a draw for what the spec leaves open. -/
def Dev.recordOf (d : Dev) (n c p i : Nat) : Option (List Byte) :=
  let zero := leBytes (d.recordSize c i) 0
  if classEnd c ≤ i then none else
  match c with
  | 0x01 => some (d.ringState p i)
  | 0x02 => some (d.openRecord p i)
  | 0x03 => some (d.tickRecord i)
  | 0x04 => some (leBytes 8 (d.ctrNow i))
  | 0x05 => ((d.seqList p)[i]?).map fun e => leBytes 4 e.2.number ++ leBytes 4 e.1 ++ leBytes 4 e.2.gen ++ leBytes 4 e.2.length
  | 0x06 => some (((tget d.seqs.recs i).map recBytes).getD zero)
  | 0x07 => some (blkRecord ((d.blkAt i).map (·.2)))
  | 0x08 => some (((d.span? i).map (spanBytes i)).getD zero)
  | 0x09 => some (((d.span? i).map d.frameList).getD zero)
  | 0x0A => some (((d.span? i).map tokenBlock).getD zero)
  | 0x0B => some (((d.frameAt i).map fun x => d.frameImage n i x.1 x.2.1 x.2.2.1 x.2.2.2).getD zero)
  | 0x0C => some (((tget d.cat.ents i).map entBytes).getD zero)
  | 0x0D => some (((tget d.seqs.profiles i).map profRecord).getD zero)
  | 0x0E => some (d.mapSegment i)
  | 0x0F => some (d.blockRecord i)
  | 0x10 => some (d.atomicRecord i)
  | 0x11 => some (d.storeRecord i)
  | 0x12 => some (d.dirRecord n i)
  | 0x13 => some (d.bucketRecord i)
  | 0x14 => some (d.logRecord i)
  | 0x15 => some (((tget d.rgn.slots i).map regionBytes).getD zero)
  | 0x16 => some (d.rosterRecord i)
  | 0x17 => ((d.tier.pins.filter fun x => x.patron == p)[i]?).map pinRecord
  | 0x18 => some (d.copyRecord i)
  | 0x19 => some (leBytes 8 (tgetD d.flt.tables i 0))
  | 0x1A => some (d.isolationRecord i)
  | 0x1B => some (d.volumeRecord i)
  | _ => none

/-- A patron may read a record (R542): `p` is the patron that is read. An object that is not there is no one's, and reads as zeros. -/
def Dev.mayRead (d : Dev) (reader c p i : Nat) : Bool :=
  let sees := fun (x : Option (Nat × Span)) => match x with
    | some (k, s) => d.visible reader k s
    | none => true
  if adminClass c then reader == 0
  else if patronClass c then reader == 0 || reader == p
  else if c = 0x0A then sees ((d.span? i).map fun s => (i, s))
  else if c = 0x0B then match d.frameAt i with
    | some x => d.visible reader x.1 x.2.1
    | none => false
  else if reader = 0 then true
  else match c with
  | 0x04 => ctrPatron i == some reader
  | 0x06 => match tget d.seqs.recs i with
    | some r => r.owner == reader
    | none => true
  | 0x07 => match d.blkAt i with
    | some (n, _) => d.seqs.recs.any fun e => e.2.owner == reader && (e.2.root == n || (d.leaves e.2.root).contains n)
    | none => true
  | 0x08 => sees ((d.span? i).map fun s => (i, s))
  | 0x09 => sees ((d.span? i).map fun s => (i, s))
  | 0x0C => match tget d.cat.ents i with
    | some e => d.holds reader e.scope
    | none => true
  | 0x0D => match tget d.seqs.profiles i with
    | some x => x.owner == reader || x.shared
    | none => true
  | 0x13 => bucketOwner i == some reader
  | 0x15 => match tget d.rgn.slots i with
    | some r => r.isOwner d.devNo reader || r.grants.any fun g => g.dev == d.devNo && g.patron == reader
    | none => true
  | 0x18 => sees ((d.span? (i / 8)).map fun s => (i / 8, s))
  | _ => true

/-- A record lies on a poisoned line (R448, R541). -/
def Dev.recordPoisoned (d : Dev) (c p i : Nat) : Bool :=
  let held := fun (w : LineOf) => d.flt.reserve.any fun e => e.2 == w
  match c with
  | 0x05 => match (d.seqList p)[i]? with
    | some e => held (.record e.1)
    | none => false
  | 0x06 => held (.record i)
  | 0x07 => match d.blkAt i with
    | some (n, _) => held (.table n)
    | none => false
  | 0x08 => held (.spanMeta i)
  | 0x09 => held (.spanMeta i)
  | 0x0A => held (.spanMeta i)
  | 0x0B => match d.frameAt i with
    | some x => d.flt.frames.any fun f => f.1 == x.1 && f.2.1 == x.2.2.1 && f.2.2.1 == x.2.2.2
    | none => false
  | 0x0C => decide (onChipSlots ≤ i) && held (.bucket ((i - onChipSlots) / 4))
  | 0x0E => held (.flashMap (i / 2 ^ 32) (i % 2 ^ 32))
  | 0x10 => held (.atomicReplay (i / 2 * 2))
  | 0x11 => held (.storeReplay (i / 8 * 8))
  | 0x12 => held (.directory i)
  | 0x14 => decide (i < logSlots) && held (.log i)
  | _ => false

end Sys2Proof.Machine
end

