-- ==== Sys2Proof/Machine/Readback.lean ====
section
/-! DEFINITION. READBACK, the readback window, and AUDIT with its findings and repairs (R539 to R541, R546 to R550). -/

namespace Sys2Proof.Machine

/-! ### READBACK (R539–R541) -/

/-- Bytes of a run of records: variable-length classes record by record. -/
def Dev.runBytes (d : Dev) (c first count : Nat) : Nat :=
  if c = 0x09 then ((List.range count).map fun k => d.recordSize c (first + k)).sum else count * d.recordSize c first

/-- The form of READBACK. A virtual function may issue it only while RDB_CTRL.VF_READBACK is 1. -/
def formReadback (d : Dev) : Form :=
  { entries := (· == 0), classes := anyClass, admin := d.reg regRdbCtrl 0 0 0 == 0, object := (· == 0)
    items := fun x =>
      let c := x.fld 0 0 8
      let n := x.fld 4 0 32
      [.val 0 0 8 isClass, .perm 0 0 8 fun c => x.patron == 0 || !adminClass c,
        .perm 1 0 6 fun v => !patronClass c || x.patron == 0 || v == x.patron, .val 1 0 6 fun v => patronClass c || v == 0,
        .rsv 1 6 2, .rsv 2 0 16,
        .val 4 0 32 fun v => decide (1 ≤ v) && decide (v ≤ 2 ^ 24) && (!(c == 0x07 || c == 0x0B) || v == 1),
        .val 8 0 64 fun v => decide (v < classEnd c),
        .outBuf 16 fun len => decide (d.runBytes c (x.fld 8 0 64) n ≤ len) && decide (len ≤ 2 ^ 30)] ++ rsvBytes 32 16 }

/-- What a run of records came to. -/
structure RunSt where
  data : List Byte := []
  written : Nat := 0
  zeros : Nat := 0
  ones : Nat := 0
  /-- Highest LOG_SEQ returned, plus one. -/
  log : Nat := 0
  deriving DecidableEq, Repr

/-- One record as the reader gets it: zeros where it may not read it, all ones where it lies on a poisoned line. -/
def Dev.shown (d : Dev) (n c p reader i : Nat) : Option (List Byte × Nat × Nat) :=
  (d.recordOf n c p i).map fun b =>
    if !d.mayRead reader c p i then (leBytes b.length 0, 1, 0)
    else if d.recordPoisoned c p i then (List.replicate b.length 0xFF, 0, 1)
    else (b, 0, 0)

/-- Records from an index on, up to a count; the run ends at the end of the class. -/
def Dev.readRun (d : Dev) (n c p reader : Nat) : Nat → Nat → RunSt → RunSt
  | 0, _, r => r
  | k + 1, i, r => match d.shown n c p reader i with
    | none => r
    | some (b, z, o) =>
      let seq := if c = 0x14 ∧ i < logSlots ∧ z = 0 ∧ (tget d.flt.log i).isSome then leNat (b.take 8) + 1 else 0
      d.readRun n c p reader k (i + 1)
        { data := r.data ++ b, written := r.written + 1, zeros := r.zeros + z, ones := r.ones + o, log := max r.log seq }

/-- READBACK: the records of the tick in which it executes, back to back (R540). -/
def Dev.opReadback (d : Dev) (q : Req) : Dev × Ans :=
  let x := q.d
  let c := x.fld 0 0 8
  let reader := x.patron
  let p := if patronClass c then x.fld 1 0 6 else reader
  let (n, d) := d.draw
  -- the READBACK itself is outstanding while it executes
  let v := { d with adm := { d.adm with planned := { q with stage := 5 } :: d.adm.planned } }
  let r := v.readRun n c p reader (x.fld 4 0 32) (x.fld 8 0 64) {}
  if x.refuses 16 ∧ 0 < r.data.length then (d, .bad 0x08 (bodyOff 16)) else
  let d := if r.data.isEmpty then d else d.writeOut x 16 0 r.data
  let d := { d with flt := { d.flt with logRead := max d.flt.logRead r.log } }
  let d := (d.count .recsWritten reader r.written).count .recsZero reader r.zeros
  let t := d.tim.count % 65536
  (d, { r0 := r.written + 2 ^ 32 * r.zeros, r1 := t + 65536 * t + 2 ^ 32 * (r.ones % 2 ^ 24) })

/-! ### The readback window (R546, R547) -/

/-- Offset within a function's readback window of a BAR0 offset. -/
def windowAt (p off : Nat) : Option Nat :=
  let base := if p = 0 then 0x800000 else 0x8000
  let size := if p = 0 then 0x800000 else 0x8000
  if base ≤ off ∧ off < base + size then some (off - base) else none

/-- The bytes of the window at an offset: the records of the selected class, from the selected index on, for the function's patron. -/
def Dev.windowData (d : Dev) (n p o len : Nat) : List Byte :=
  let c := d.reg regPatWinSel 0 p
  let first := d.reg regPatWinIndex 0 p
  let get := fun (i : Nat) => ((d.shown n c p p i).map (·.1)).getD []
  let size := d.recordSize c first
  let b := if c = 0x07 ∨ c = 0x09 ∨ c = 0x0B then ((List.range ((o + len) / 16 + 1)).flatMap fun k => get (first + k)).drop o
    else (get (first + o / size)).drop (o % size)
  padTo len (b.take len)

/-! ### AUDIT (R548–R550) -/

/-- The form of AUDIT. -/
def formAudit : Form :=
  { entries := (· == 0), classes := [6], object := (· == 0)
    items := fun x =>
      [.val 0 0 5 (· != 0), .perm 0 0 5 fun v => x.patron == 0 || decide (v < 8), .rsv 0 5 3,
        .perm 1 0 6 fun v => x.patron == 0 || v == x.patron, .perm 1 6 1 fun v => x.patron == 0 || v == 0, .rsv 1 7 1]
      ++ rsvBytes 2 14 ++ [.optBuf 16] ++ rsvBytes 32 16 }

/-- Released spans that a patron's tables list. -/
def Dev.auditTables (d : Dev) (p : Nat) : List Finding :=
  (d.seqs.recs.filter fun e => e.2.owner == p && !e.2.damaged).flatMap fun e =>
    ((d.listed e.2.root).filter fun i => (d.span? i).isNone).map fun i => { kind := 2, cls := 0x06, index := e.1, expected := 0, found := i }

/-- Frames in use that no span and no churn holds. -/
def Dev.looseFrames (d : Dev) : List Finding :=
  let held := (d.seqs.spans.flatMap fun e => e.2.handles) ++ d.seqs.churn.flatMap fun e => e.2.flatMap fun c => [c.2.primary, c.2.tail]
  let at_ := fun (g a : Nat) => held.any (fun h => h != 0 && hCluster h == g && hOffset h == a)
    || d.seqs.freeing.any fun x => x.1 == g && x.2.1 == a
  d.seqs.used.flatMap fun e => (e.2.filter fun x => !at_ e.1 x.1).map fun x =>
    { kind := 3, cls := 0x0B, index := mkHandle e.1 x.1 (x.2 - 1), expected := 0, found := 1 }

/-- REF_COUNTs of a patron's spans that differ from their holders, and frames that no span holds. -/
def Dev.auditSpans (d : Dev) (p : Nat) : List Finding :=
  let blks := d.sweptBlks
  ((d.seqs.spans.filter fun e => e.2.owner == p && e.2.ref != d.sweptRef blks e.1).map fun e =>
    ({ kind := 1, cls := 0x08, index := e.1, expected := d.sweptRef blks e.1, found := e.2.ref } : Finding)) ++ d.looseFrames

/-- Catalogue entries of a patron's scope or publication whose span fails R235. -/
def Dev.auditEnts (d : Dev) (p : Nat) : List Finding :=
  (d.cat.ents.filter fun e => e.2.scope == p || e.2.publisher == p).filterMap fun e =>
    let key := match d.span? e.2.span with
      | some s => if s.damaged then 0 else (d.spanKey e.2.scope e.2.span).1
      | none => 0
    if key = e.2.key then none else some { kind := 5, cls := 0x0C, index := e.1, expected := key, found := e.2.key }

/-- Map entries that point at a block not CLOSED, and span copies of the object directory whose units the map does not hold. -/
def Dev.auditFlash (d : Dev) : List Finding :=
  let maps := d.stk.volumes.flatMap fun v => (v.2.units.filter fun u => !u.2.fine && !u.2.staged && (d.fblock u.2.block).st != 4).map fun u =>
    ({ kind := 6, cls := 0x0E, index := v.1 * 2 ^ 32 + u.1 / segmentUnits, expected := 4, found := (d.fblock u.2.block).st } : Finding)
  let copies := d.stk.copies.filterMap fun c =>
    let n := match d.vol? c.2.volume with
      | some v => ((List.range c.2.count).filter fun k => (tget v.units (c.2.firstUnit + k)).isSome).length
      | none => 0
    if n = c.2.count then none
    else some ({ kind := 7, cls := 0x0E, index := c.2.volume * 2 ^ 32 + c.2.firstUnit / segmentUnits, expected := c.2.count, found := n } : Finding)
  maps ++ copies

/-- Grants of this home to its own patrons without a mapping, and mappings of its regions without a grant. -/
def Dev.auditRegions (d : Dev) : List Finding :=
  let grants := d.ranges.filterMap fun e =>
    if e.2.dev ≠ d.devNo ∨ d.rgn.maps.any (fun m => m.region == e.1 && m.patron == e.2.patron) then none
    else some ({ kind := 8, cls := 0x15, index := e.1 / 64, expected := 1, found := 0 } : Finding)
  let maps := d.rgn.maps.filterMap fun m =>
    if m.region % 64 ≠ d.devNo ∨ d.ranges.any (fun e => e.1 == m.region && e.2.dev == d.devNo && e.2.patron == m.patron) then none
    else some ({ kind := 8, cls := 0x15, index := m.region / 64, expected := 0, found := 1 } : Finding)
  grants ++ maps

/-- One pass of an AUDIT: its scopes, and the patron audited. -/
def Dev.auditPass (d : Dev) (scope p : Nat) : List Finding :=
  (if bit scope 0 then d.auditTables p else []) ++ (if bit scope 1 then d.auditSpans p else [])
    ++ (if bit scope 2 then d.auditEnts p else []) ++ (if bit scope 3 then d.auditFlash else [])
    ++ (if bit scope 4 then d.auditRegions else [])

/-- AUDIT starts with its first pass; another that executes gives CONFLICT. -/
def Dev.opAudit (d : Dev) (q : Req) : Dev × Option Ans :=
  if d.audit.isSome then (d, some { status := stConflict })
  else ({ d with audit := some { q := q, tick := d.tim.count, pass := d.auditPass (q.d.fld 0 0 5) (q.d.fld 1 0 6) } }, none)

/-- Repairs: kinds 1 to 4 by the reference sweep, kind 5 by withdrawing the entry (R550). -/
def Dev.auditRepair (d : Dev) (l : List Finding) : Nat × Dev :=
  let swept := l.filter fun f => decide (f.kind ≤ 4)
  let ents := l.filter fun f => f.kind == 5
  let d := if swept.isEmpty then d else d.startSweep.sweepEnd
  let d := ents.foldl (fun (d : Dev) f => d.withdrawEnt f.index) d
  (swept.length + ents.length, d)

/-- A finding record. -/
def findingBytes (f : Finding) : List Byte :=
  leBytes 1 f.kind ++ leBytes 1 f.cls ++ leBytes 6 0 ++ leBytes 8 f.index ++ leBytes 8 f.expected ++ leBytes 8 f.found

/-- The second pass of an AUDIT, at least one tick after the first, and its answer: what both found with the same values. -/
def Dev.auditDone (d : Dev) : Dev :=
  match d.audit with
  | none => d
  | some a =>
    if d.tim.count ≤ a.tick then d else
    let x := a.q.d
    let now := d.auditPass (x.fld 0 0 5) (x.fld 1 0 6)
    let l := a.pass.filter fun f => now.contains f
    let (n, d) := if x.fld 1 6 1 = 1 then d.auditRepair l else (0, d)
    let d := { d with audit := none, lastFindings := l.length }
    let d := (d.count2 .findings 0 0 l.length).count2 .repairs 0 0 n
    let recs := if (x.buf 16).absent then [] else l.take (x.outLen 16 / 32)
    if x.refuses 16 ∧ !recs.isEmpty then d.complete a.q (.bad 0x08 (bodyOff 16)) else
    let d := if recs.isEmpty then d else d.writeOut x 16 0 (recs.flatMap findingBytes)
    d.complete a.q { r0 := l.length + 2 ^ 32 * n, r1 := recs.length }

end Sys2Proof.Machine
end

