-- ==== Sys2Proof/Machine/Admission.lean ====
section
/-! DEFINITION. Admission: the checks at fetch, fetching a ring's next descriptor, the charge and the budget, and the round robin that grants heads (R49 to R51, R57, R61, R84 to R91, R421 to R426, R438, R579). -/

namespace Sys2Proof.Machine

/-! ### Opcodes and their checks at fetch (R86–R89, R579) -/

/-- The form of NOP: one entry, its whole body reserved (R8, R87). -/
def formNop : Form := { entries := (· == 0), classes := anyClass, items := fun _ => rsvBytes 0 48 }

/-- The form of an assigned opcode whose checks are its form's; ATTEND, MERGE and APPEND have more (R158, R172, R584). -/
def Dev.formOf (d : Dev) (op : Nat) (x : DescIn) : Option Form :=
  match op with
  | 0x00 => some formNop
  | 0x03 => some formAppend
  | 0x04 => some formAdopt
  | 0x05 => some formFork
  | 0x06 => some formTrim
  | 0x07 => some formDrop
  | 0x10 => some (formProbe d x.patron)
  | 0x11 => some (formAccession d x.patron)
  | 0x12 => some (formWithdraw d x.patron)
  | 0x20 => some (formHint x)
  | 0x21 => some (formStream d x.patron)
  | 0x22 => some (formDeliver x)
  | 0x30 => some (formNear 0x30)
  | 0x31 => some (formNear 0x31)
  | 0x32 => some (formNear 0x32)
  | 0x33 => some (formNear 0x33)
  | 0x34 => some formPublish
  | 0x35 => some formRevoke
  | 0x40 => some (formReadback d)
  | 0x41 => some formAudit
  | 0x50 => some (formProfileRegister x.patron)
  | 0x51 => some formProfileRetire
  | 0x80 => some (formTickSet d)
  | 0x81 => some (formPatronReset d)
  | 0x82 => some (formApertureMap d)
  | 0x83 => some (formVolumeFormat d.stk.dies)
  | 0x84 => some formStacksDiscard
  | 0x85 => some formGovernorSet
  | 0x86 => some (formRegionCreate d)
  | 0x87 => some (formRegionGrant d)
  | 0x88 => some formRegionDestroy
  | 0x89 => some (formShaperSet d)
  | 0x8A => some formGateSet
  | 0x8B => some formFwUpdate
  | 0x8C => some formDeviceReset
  | 0x8D => some formPowerSet
  | _ => none

/-- The profile an APPEND's checks at fetch use, where it is known then (R584). -/
def Dev.appendProfile (d : Dev) (x : DescIn) : Option Profile :=
  let f := appF x
  if f.create then tget d.seqs.profiles f.prof
  else if d.editPending x.patron [x.object] then none
  else (d.seq? x.patron x.object).map fun r => d.prof r.2.profile

/-- The checks of an APPEND at fetch. -/
def Dev.appendCheck (d : Dev) (x : DescIn) : Option Ans :=
  match formAppend.check x with
  | some a => some a
  | none => (d.appendProfile x).bind (appendProfileCheck x)

/-- The checks of a fetched descriptor, in the order of R86; an unassigned code fails at the opcode byte. -/
def Dev.fetchCheck (d : Dev) (op : Nat) (x : DescIn) : Option Ans :=
  if op = 0x01 then d.attendCheck x
  else if op = 0x02 then mergeCheck x
  else if op = 0x03 then d.appendCheck x
  else match d.formOf op x with
    | some f => f.check x
    | none => some (.bad 0x01 0)

/-! ### Fetch (R90, R91, R438) -/

/-- A completion ring can reserve one more entry: fewer than its depth less one are written or reserved and not consumed (R90). -/
def Dev.cqRoom (d : Dev) (p k : Nat) : Bool :=
  let r := (d.pat p).cqAt k
  decide (r.written - r.consumed + r.reserved + 1 < d.cqDepth p k)

/-- A ring may be fetched at all: its patron is ACTIVE, it exists, and admission runs (R31, R41, R90, R532, R571). -/
def Dev.ringRuns (d : Dev) (p ring : Nat) : Bool :=
  decide (p < 64) && decide (ring < 16) && d.active p && d.ringsOn p && d.sqDepth p ring != 0 && !d.adm.paused && !d.pwr.pwrFail
    && d.pwr.sleep == 0 && d.tim.ticking

/-- A descriptor becomes a request: one entry of its completion ring is reserved. -/
def Dev.takeReq (d : Dev) (x : DescIn) (op first : Nat) : Req × Dev :=
  let q : Req := { id := d.adm.nextId, d := x, op := op, first := first, fetchTick := d.tim.count, fetchSeq := d.adm.fetchSeq, ring := true }
  let d := { d with adm := { d.adm with nextId := d.adm.nextId + 1, fetchSeq := d.adm.fetchSeq + 1 } }
  (q, (d.modCq x.patron (d.boundCq x.patron x.ring) fun c => { c with reserved := c.reserved + 1 }).count .fetched x.patron)

/-- The descriptor at the head of some ring entries (R85). -/
def descOf (p ring : Nat) (raw : List Byte) (h : HostView) : DescIn :=
  let b := fieldOf raw 1 1
  let n := bits b 0 2
  { patron := p, ring := ring, entries := n, tclass := bits b 2 3, irq := bit b 5, fence := bit b 6, hrsv := bit b 7
    tag := fieldOf raw 2 2, object := fieldOf raw 4 4, deadline := fieldOf raw 8 8
    body := padTo (64 * n + 48) ((raw.drop 16).take (64 * n + 48)), host := h }

/-- Fetch the next descriptor of a ring as host memory returns it: nothing while R90 or the holding slot forbids it; an excess
descriptor completes POLICED unchecked; one that fails a check completes; any other becomes the ring's head (R422). -/
def Dev.fetch (d : Dev) (p ring : Nat) (raw : Option (List Byte)) (h : HostView) : Dev :=
  let sq := (d.pat p).sqAt ring
  let depth := d.sqDepth p ring
  let ready := ringSpan depth sq.head sq.tail
  if !d.ringRuns p ring ∨ (tget d.adm.heads (16 * p + ring)).isSome ∨ ready = 0 ∨ !d.cqRoom p (d.boundCq p ring) then d else
  match raw with
  | none => d.patronFaults p 1
  | some b =>
    let x := descOf p ring b h
    let n := x.entries + 1
    if ready < n ∨ (x.fence ∧ ((d.opens p).any fun o => o.ring == ring)) then d else
    let idx := (List.range n).map fun i => (sq.head + i) % depth
    let d := d.modSq p ring fun r => { r with
      head := (sq.head + n) % depth, marks := r.marks.filter fun i => !idx.contains i, lastTick := d.tim.count }
    let (q, d) := d.takeReq x (fieldOf b 0 1) sq.head
    if idx.any sq.marks.contains then d.complete q { status := stPoliced }
    else match d.fetchCheck q.op x with
      | some a => d.complete q a
      | none => { d with adm := { d.adm with heads := tset d.adm.heads (16 * p + ring) q } }

/-- DESCRIPTOR_FETCH. -/
def execDescriptorFetch (p ring : Nat) (raw : Option (List Byte)) (host : HostView) (s : State) : Host.Outcome State Fault Refusal :=
  .next (s.onDev fun d => d.fetch p ring raw host)

/-! ### Deadlines (R57, R61, R426) -/

/-- The deadline tick of a request admitted now. -/
def Dev.deadlineOf (d : Dev) (q : Req) : Nat :=
  if !deadlined q.op then 0
  else if q.d.deadline ≠ 0 then q.d.deadline else d.tim.count + 1 + d.reg regTikDefaultSlack

/-- A head whose deadline tick has ended. -/
def Dev.expired (d : Dev) (q : Req) : Bool := deadlined q.op && q.d.deadline != 0 && decide (q.d.deadline < d.tim.count)

/-! ### The charge and the budget (R49–R51, R423) -/

/-- Operations that R50 charges. -/
def isCharged (op : Nat) : Bool := [0x01, 0x02, 0x22].contains op

/-- The admission budget in 64 KiB units (R51): 0.8 × 13.5 TB/s is 10,800 bytes per ns of the execute phase. -/
def Dev.budget (d : Dev) : Nat :=
  let w := d.reg regTikAdmitBudget
  if w ≠ 0 then w else (1000 * d.tim.len - 200 - 100 * d.tim.plan - 1000) * 10800 / 65536

/-- The cost of reading some folios of a profile over a number of layers: folio-reads, units, and the filter they leave. Each layer
adds one margin folio, which does not enter the filter. -/
def Dev.readFee (d : Dev) (prof layers : Nat) (fs : List (Nat × Nat)) : Nat × Nat × Dev :=
  let c := d.chargeFolios fs
  (max 1 (c.2.1 + layers), c.1 + layers * ceilDiv (classBytes (d.prof prof).closedClass) 65536, c.2.2)

/-- The folios an ATTEND would read by the records as they stand; an entry of a batch whose sequence has no record yet adds none. -/
def Dev.attendFolios (d : Dev) (x : DescIn) : Option (Nat × List (Nat × Nat)) :=
  let rs := (attendEnts x).zipIdx.filterMap fun e => (d.seq? x.patron e.1.seq).map fun r => (e, r)
  rs.head?.bind fun r =>
    let n := r.2.2.profile
    let p := d.prof n
    if p.layers ≤ atnLayer x then none
    else some (n, rs.flatMap fun e =>
      ((d.atnView x p e.1.2 e.1.1 (e.2.2.walk e.2.1)).reads x).map fun s => (s.2, atnLayer x))

/-- The folios a DELIVER would read by the record as it stands, with its layers. -/
def Dev.deliverFolios (d : Dev) (x : DescIn) : Option (Nat × Nat × List (Nat × Nat)) :=
  if x.fld 0 0 1 ≠ 1 then none else
  (d.seq? x.patron x.object).bind fun r =>
    let n := x.fld 4 0 16
    if (d.prof r.2.profile).layers < x.fld 2 0 16 + n then none
    else some (r.2.profile, n, (List.range n).flatMap fun l =>
      (d.deliverSpans x (r.2.walk r.1)).map fun i => (i, x.fld 2 0 16 + l))

/-- The sequences an ATTEND names. -/
def attendSeqs (x : DescIn) : List Nat := (attendEnts x).map (·.seq)

/-- The fee of a read none of whose sequences has a record yet: the margin alone, at the profile with which an edit still to execute makes it
(R50). -/
def Dev.marginFee (d : Dev) (p : Nat) (seqs : List Nat) (layers : Nat) : Nat × Nat × Dev :=
  match seqs.findSome? (d.profileSoon p) with
  | some n => d.readFee n layers []
  | none => (1, 0, d)

/-- Cost and charge of a head at the moment of its grant: folio-reads, 64 KiB units, the charge filter. -/
def Dev.fee (d : Dev) (q : Req) : Nat × Nat × Dev :=
  if q.op = 0x01 then
    match d.attendFolios q.d with
    | some (n, fs) => d.readFee n 1 fs
    | none => d.marginFee q.d.patron (attendSeqs q.d) 1
  else if q.op = 0x22 then
    match d.deliverFolios q.d with
    | some (n, k, fs) => d.readFee n k fs
    | none => if q.d.fld 0 0 1 = 1 then d.marginFee q.d.patron [q.d.object] (q.d.fld 4 0 16) else (1, 0, d)
  else if q.op = 0x02 then
    let n := ceilDiv (q.d.inLen 16) 65536
    (max 1 n, n, d)
  else (1, 0, d)

/-! ### The round robin (R422–R426) -/

/-- A head is eligible (R422). -/
def Dev.eligible (d : Dev) (q : Req) : Bool :=
  d.active q.d.patron && d.gateOpen q.d.tclass && d.bktPass (bktPat q.d.patron q.d.tclass)

/-- A head that the procedure may select now: late, or eligible; after a refusal only uncharged ones for the rest of the tick (R425). -/
def Dev.selectable (d : Dev) (q : Req) : Bool :=
  d.active q.d.patron && (d.expired q || (d.eligible q && !(d.adm.closed && isCharged q.op)))

/-- Heads of a patron, by ring. -/
def Dev.headsOf (d : Dev) (p : Nat) : List (Nat × Req) :=
  (List.range 16).filterMap fun r => (tget d.adm.heads (16 * p + r)).map fun q => (r, q)

/-- The head of highest class, in the order 6, 0, 1, 2, of the lowest ring after `r`, among those that pass a test. -/
def Dev.pick (d : Dev) (p r : Nat) (ok : Req → Bool) : Option (Nat × Req) :=
  [6, 0, 1, 2].findSome? fun cls => (List.range 16).findSome? fun i =>
    let k := (r + 1 + i) % 16
    match tget d.adm.heads (16 * p + k) with
    | some q => if q.d.tclass == cls && ok q then some (k, q) else none
    | none => none

/-- The only candidate of a patron's turn: the head refused in an earlier tick first, then a late one, then the order of R424. -/
def Dev.candidate (d : Dev) (p : Nat) : Option (Nat × Req) :=
  let r := tgetD d.adm.lastRing p 0
  let first := match d.adm.refused with
    | some k => if k / 16 = p ∧ !d.adm.closed then ((tget d.adm.heads k).filter d.selectable).map fun q => (k % 16, q) else none
    | none => none
  match first with
  | some x => some x
  | none => match d.pick p r d.expired with
    | some x => some x
    | none => d.pick p r d.selectable

/-- A patron has an entry that is announced and not fetched. -/
def Dev.unfetched (d : Dev) (p : Nat) : Bool := (d.pat p).sq.any fun e => e.2.head != e.2.tail

/-- The pointer of arbiter 0 names a patron and the ring most recently granted within it (R424). -/
def Dev.pointAt (d : Dev) (p : Nat) : Dev := { d with tim := { d.tim with arbs := tset d.tim.arbs 0 (16 * p + tgetD d.adm.lastRing p 0) } }

/-- A patron has work for the round robin: a head, or a descriptor that is not fetched. -/
def Dev.hasWork (d : Dev) (p : Nat) : Bool := !(d.headsOf p).isEmpty || d.unfetched p

/-- Patrons without work have no deficit: the loop of R424 runs continuously. -/
def Dev.idleDeficits (d : Dev) : Dev := { d with adm := { d.adm with deficit := tkeep d.adm.deficit fun p _ => d.hasWork p } }

/-- A head leaves its slot as a granted request; the turn goes on while the patron has another head to select. -/
def Dev.leaveSlot (d : Dev) (p r : Nat) (q : Req) : Req × Dev :=
  let q := { q with admTick := d.tim.count, admNo := d.adm.count, dl := d.deadlineOf q, stage := 2 }
  let d := { d with adm := { d.adm with
    heads := tdel d.adm.heads (16 * p + r), lastRing := tset d.adm.lastRing p r, count := d.adm.count + 1
    refused := if d.adm.refused = some (16 * p + r) then none else d.adm.refused } }
  let d := { d with adm := { d.adm with turn := (d.candidate p).isSome } }
  (q, (d.pointAt p).count2 .granted p (patronK q.d.tclass) 1)

/-- Grant a late head: free of cost, it completes LATE in the next tick's close phase (R61, R426). -/
def Dev.grantLate (d : Dev) (p r : Nat) (q : Req) : Dev :=
  let (q, d) := d.leaveSlot p r q
  (d.count .pastDl p).completeNext q { status := stLate }

/-- A PROMOTE-mode stream follows the layer of its sequence's most recent admitted ATTEND (R278). -/
def Dev.follow (d : Dev) (q : Req) : Dev :=
  if q.op ≠ 0x01 then d else
  let recs := (attendEnts q.d).filterMap fun e => (d.seq? q.d.patron e.seq).map (·.1)
  let one := fun (_ : Nat) (x : StreamSt) => if x.mode = 0 ∧ recs.contains x.record then { x with pos := some (atnLayer q.d) } else x
  { d with tier := { d.tier with streams := tmap d.tier.streams one } }

/-- Grant a head at its cost and charge. -/
def Dev.grantHead (_d : Dev) (p r : Nat) (q : Req) (f : Nat × Nat × Dev) : Dev :=
  let (q, d) := f.2.2.leaveSlot p r { q with charge := f.2.1 }
  let d := { d with adm := { d.adm with
    admitted := d.adm.admitted ++ [q], charge := d.adm.charge + f.2.1, deficit := tset d.adm.deficit p (tgetD d.adm.deficit p 0 - f.1) } }
  ((d.chargeBkt (bktPat p q.d.tclass) f.1).count2 .charged p (patronK q.d.tclass) f.1).follow q

/-- What one try in a patron's turn comes to. -/
inductive TurnEnd where
  /-- A head is granted. -/
  | granted
  /-- The turn ends without a grant. -/
  | over_
  /-- The turn ends with work left: the selected head costs more than the deficit, or the charge limit refuses it. -/
  | short
  deriving DecidableEq, Repr

/-- One try: grant the candidate, or end the turn; a head beyond the charge limit is refused, and no charged head is granted for the
rest of the tick (R425). -/
def Dev.tryGrant (d : Dev) (p : Nat) : TurnEnd × Dev :=
  let stop := fun (d : Dev) => { d with adm := { d.adm with turn := false } }
  match d.candidate p with
  | none => (.over_, stop d)
  | some (r, q) =>
    if d.expired q then (.granted, d.grantLate p r q) else
    let f := d.fee q
    if tgetD d.adm.deficit p 0 < f.1 then (.short, stop d)
    else if d.budget < d.adm.charge + f.2.1 then
      (.short, (stop { d with adm := { d.adm with closed := true, refused := some (16 * p + r) } }).count .refusedBudget p)
    else (.granted, d.grantHead p r q f)

/-- A patron's turn begins: with a candidate it gains its quantum. -/
def Dev.beginTurn (d : Dev) (p : Nat) : TurnEnd × Dev :=
  if (d.candidate p).isNone then (.over_, d) else
  let d := { d with adm := { d.adm with deficit := tset d.adm.deficit p (tgetD d.adm.deficit p 0 + d.reg regTrfQuantump p), turn := true } }
  (d.pointAt p).tryGrant p

/-- The turns of some patrons, until one is granted a head; whether one ended with work left. -/
def Dev.turns (d : Dev) : List Nat → Bool → TurnEnd × Dev
  | [], dear => (if dear then .short else .over_, d)
  | p :: ps, dear => match d.beginTurn p with
    | (.granted, d) => (.granted, d)
    | (.short, d) => d.turns ps true
    | (.over_, d) => d.turns ps dear

/-- Rounds over the 64 patrons from one past the pointer's, while a turn ends with work left. -/
def Dev.rounds : Nat → Dev → Dev
  | 0, d => d
  | n + 1, d =>
    let p := tgetD d.tim.arbs 0 0 / 16
    match d.turns ((List.range 64).map fun i => (p + 1 + i) % 64) false with
    | (.granted, d) => d
    | (.short, d) => d.rounds n
    | (.over_, d) => d

/-- Rounds that are enough: one for a refusal, and those in which the cheapest head is reached, every quantum being at least 1. -/
def Dev.roundLimit (d : Dev) : Nat := 2 + ((d.adm.heads.map fun e => (d.fee e.2).1).foldl max 0)

/-- Admission runs in this tick (R41, R49, TIK_CTRL.TICK_EN). -/
def Dev.admits (d : Dev) : Bool :=
  d.tim.ticking && d.reg regTikCtrl 0 0 2 == 1 && !d.adm.paused && !d.pwr.pwrFail && !d.flt.deviceFault && d.pwr.sleep == 0
    && decide (d.adm.count < 65536)

/-- The next grant of R424's loop: the turn in progress goes on, then the patrons after it have theirs. -/
def Dev.admitNext (d : Dev) : Dev :=
  if !d.admits then d else
  let d := d.idleDeficits
  let p := tgetD d.tim.arbs 0 0 / 16
  let d := if d.adm.turn then
      match d.tryGrant p with
      | (.granted, d) => d
      | (_, d) => d.rounds d.roundLimit
    else d.rounds d.roundLimit
  d.idleDeficits

/-- ADMISSION_GRANT. -/
def execAdmissionGrant (s : State) : Host.Outcome State Fault Refusal := .next (s.onDev Dev.admitNext)

end Sys2Proof.Machine
end

