-- ==== Sys2Proof/Machine/Run.lean ====
section
/-! DEFINITION. Running one request: each operation with the way it completes, and the descriptor rows' shared course from fetch to completion (R20, R53 to R61, R86, R87, R90, R217). -/

namespace Sys2Proof.Machine

/-! ### How an operation completes -/

/-- The operation answered: its completion is due (R92). -/
def State.answers (s : State) (q : Req) (r : Dev × Ans) : State × Option Req := ({ s with dev := r.1.finish q r.2 }, none)

/-- A firmware operation answered: its completion is due when firmware finishes (R87). -/
def State.answersFw (s : State) (q : Req) (r : Dev × Ans) : State × Option Req := ({ s with dev := r.1.completeFw q r.2 }, none)

/-- An operation that may wait. -/
def State.mayWait (s : State) (q : Req) (r : EdRes) : State × Option Req :=
  match r.2 with
  | some a => s.answers q (r.1, a)
  | none => ({ s with dev := r.1 }, some q)

/-- An edit takes its reserved frames; those it does not use stay reserved until the close phase of its tick (R217). -/
def Dev.withResv (d : Dev) (f : Dev → Req → EdRes) (q : Req) : EdRes :=
  let mine := d.seqs.resv.filter fun x => x.1 == q.id
  let r := f (d.dropResv q.id) q
  let back := if r.2.isNone then mine else (mine.filter fun x => r.1.frameFree x.2.2).map fun x => (returning, x.2)
  ({ r.1 with seqs := { r.1.seqs with resv := r.1.seqs.resv ++ back } }, r.2)

/-- An edit. -/
def State.runEdit (s : State) (f : Dev → Req → EdRes) (q : Req) : State × Option Req := s.mayWait q (s.dev.withResv f q)

/-- A read that may wait, with its walks. -/
def State.readEnds (r : State × Req × Option Ans) : State × Option Req :=
  match r.2.2 with
  | some a => r.1.answers r.2.1 (r.1.dev, a)
  | none => (r.1, some r.2.1)

/-- ATTEND. -/
def State.runAttend (s : State) (q : Req) : State × Option Req :=
  let r := s.dev.opAttend q
  State.readEnds ({ s with dev := r.1 }, r.2)

/-- DELIVER. -/
def State.runDeliver (s : State) (q : Req) : State × Option Req := State.readEnds (s.opDeliver q)

/-- POWER_SET: sleep is confirmed at once, the limit by firmware (R531, R532). -/
def State.runPowerSet (s : State) (q : Req) : State × Option Req :=
  if q.d.fld 0 0 2 = 1 then s.answers q (s.dev.opPowerSet q) else s.answersFw q (s.dev.opPowerSet q)

/-- AUDIT: its answer comes when firmware finishes, unless another executes (R549). -/
def State.runAudit (s : State) (q : Req) : State × Option Req :=
  let r := s.dev.opAudit q
  match r.2 with
  | some a => s.answers q (r.1, a)
  | none => ({ s with dev := r.1 }, none)

/-- An operation that completes by itself: regions and near-memory work as jobs, HINT, PATRON_RESET. -/
def State.byItself (s : State) : State × Option Req := (s, none)

/-- STACKS_DISCARD: here, or at the region's home. -/
def State.runDiscard (s : State) (q : Req) : State × Option Req :=
  if s.dev.servesRegion q.d.object = s.dev.devNo then
    let r := s.opStacksDiscard q
    r.1.answersFw q (r.1.dev, r.2)
  else (s.opRegion State.homeExtra q q.d.object).byItself

/-- PUBLISH: held at its issuer until the patron's earlier writes to the region have their DONE (R398 step 1); it is looked at again
in each tick (DESIGN CHOICE, assumption 119). -/
def State.runPublish (s : State) (q : Req) : State × Option Req :=
  if s.dev.writesOpen q.d.patron q.d.object then (s, some q) else (s.opRegion State.homeHint q q.d.object).byItself

/-- Run one request; what still waits comes back. -/
def State.runOp (s : State) (q : Req) : State × Option Req :=
  match q.op with
  | 0x00 => s.answers q (s.dev, {})
  | 0x01 => s.runAttend q
  | 0x02 => s.mayWait q (s.dev.opMerge q)
  | 0x03 => s.runEdit Dev.opAppend q
  | 0x04 => s.runEdit Dev.opAdopt q
  | 0x05 => s.runEdit Dev.opFork q
  | 0x06 => s.runEdit Dev.opTrim q
  | 0x07 => s.runEdit Dev.opDrop q
  | 0x10 => s.mayWait q (s.dev.opProbe q)
  | 0x11 => s.mayWait q (s.dev.opAccession q)
  | 0x12 => s.mayWait q (s.dev.opWithdraw q)
  | 0x20 => (s.opHint q).byItself
  | 0x21 => s.answers q (s.dev.opStream q)
  | 0x22 => s.runDeliver q
  | 0x30 => (s.opNear q).byItself
  | 0x31 => (s.opNear q).byItself
  | 0x32 => (s.opNear q).byItself
  | 0x33 => (s.opNear q).byItself
  | 0x34 => s.runPublish q
  | 0x35 => (s.opRegion State.homeHint q q.d.object).byItself
  | 0x40 => s.answers q (s.dev.opReadback q)
  | 0x41 => s.runAudit q
  | 0x50 => s.answersFw q (s.dev.opProfileRegister q)
  | 0x51 => s.answers q (s.dev.opProfileRetire q)
  | 0x80 => s.answers q (s.dev.opTickSet q)
  | 0x81 => (s.opPatronReset q).byItself
  | 0x82 => s.answers q (s.dev.opApertureMap q)
  | 0x83 => s.answersFw q (s.dev.opVolumeFormat q)
  | 0x84 => s.runDiscard q
  | 0x85 => s.answersFw q (s.dev.opGovernorSet q)
  | 0x86 => (s.opRegion State.homeHint q q.d.object).byItself
  | 0x87 => (s.opRegion State.homeHint q q.d.object).byItself
  | 0x88 => (s.opRegion State.homeHint q q.d.object).byItself
  | 0x89 => s.answers q (s.dev.opShaperSet q)
  | 0x8A => s.answers q (s.dev.opGateSet q)
  | 0x8B => s.answersFw q (s.dev.opFwUpdate q)
  | 0x8C => s.answers q (s.dev.opDeviceReset q)
  | 0x8D => s.runPowerSet q
  | _ => s.answers q (s.dev, .bad 0x01 0)

/-- Operations that firmware executes (R87). -/
def firmwareOp (op : Nat) : Bool :=
  op == 0x35 || op == 0x41 || op == 0x50 || op == 0x51 || (decide (0x80 ≤ op) && decide (op ≤ 0xBF))

/-! ### Frames for one edit (R217, R218) -/

/-- What planning an edit comes to. -/
inductive EditPlan where
  /-- It may execute. -/
  | ready (d : Dev)
  /-- It waits for frames or for a promotion. -/
  | waits (d : Dev)
  /-- It has its answer. -/
  | answered (d : Dev)

/-- Plan an edit after earlier ones; one without frames completes NO_FOLIO. -/
def Dev.planOne (d : Dev) (earlier : List Req) (q : Req) : EditPlan :=
  let mine := d.seqs.resv.filter fun x => x.1 == q.id
  if !mine.isEmpty ∧ mine.all (fun x => d.frameFree x.2.2) then .ready d else
  let d := d.dropResv q.id
  match d.planEdit earlier q with
  | (.ready, d) => .ready d
  | (.waits, d) => .waits (if (d.seqs.resv.any fun x => x.1 == q.id) then d.count .editWait 0 else d)
  | (.none_, d) =>
    let r := d.editNoFolio q (d.prof ((d.planProfile earlier q).getD 0))
    let c := countEdit q.d.patron (r.1, some r.2)
    .answered (c.1.complete q r.2)

/-! ### The descriptor rows: fetched, granted, executed in the state as it stands -/

/-- Wait in the planner's set. -/
def Dev.addWaiting (d : Dev) (q : Req) : Dev :=
  { d with adm := { d.adm with waiting := d.adm.waiting ++ [{ q with stage := 4, waits := true, stall := if q.stall = 0 then 1 else q.stall }] } }

/-- The sequences a request edits or reads. -/
def seqsOf (q : Req) : List Nat :=
  if q.op = 0x01 then (attendEnts q.d).map (·.seq)
  else if q.op = 0x22 then (if q.d.fld 0 0 1 = 1 then [q.d.object] else [])
  else if q.op = 0x05 then [q.d.object, q.d.fld 0 0 32]
  else if isEdit q.op then [q.d.object] else []

/-- An edit among some requests is of a sequence that a request edits or reads. -/
def behind (qs : List Req) (q : Req) : Bool :=
  qs.any fun e => isEdit e.op && e.d.patron == q.d.patron && (seqsOf e).any (seqsOf q).contains

/-- The merge cluster of a request (R21): the lowest of the die that owns more of its folios, each counted once, in service where it can
be (R462). -/
def Dev.mergeCluster (d : Dev) (q : Req) : Nat :=
  let layers := if q.op = 0x22 then (List.range (q.d.fld 4 0 16)).map (q.d.fld 2 0 16 + ·) else [atnLayer q.d]
  let cs := (q.walks.flatMap (·.spans) ++ q.holds).eraseDups.flatMap fun i => match d.span? i with
    | some s => layers.filterMap fun l => ((s.frames[l]?).map fun f => hCluster f.primary)
    | none => []
  let t1 := (cs.filter fun c => decide (8 ≤ c)).length
  let base := if cs.length < 2 * t1 then 8 else 0
  ((List.range 8).map (base + ·)).find? (fun c => !d.flt.out.contains c) |>.getD base

/-- A granted request runs at once: edits with their frames planned first; what follows an edit of its sequence waits for it. -/
def State.runNow (s : State) (q : Req) : State :=
  if behind s.dev.adm.held q then s.onDev fun d => d.addWaiting q else
  let go := fun (s : State) (q : Req) =>
    match s.runOp { q with merge := some (s.dev.mergeCluster q) } with
    | (s, none) => s
    | (s, some q) => s.onDev fun d => d.addWaiting q
  if isEdit q.op then
    match s.dev.planOne s.dev.adm.held q with
    | .ready d => if d.fenced q then { s with dev := d.addWaiting q } else go { s with dev := d } q
    | .waits d => { s with dev := d.addWaiting q }
    | .answered d => { s with dev := d }
  else if (q.op = 0x01 ∨ q.op = 0x22) ∧ q.walks.isEmpty then
    match (if q.op = 0x01 then s.dev.attendPlan q else s.dev.deliverPlan q) with
    | (d, q, some a) => { s with dev := d.finish q a }
    | (d, q, none) => if d.fenced q then { s with dev := d.addWaiting q } else go { s with dev := d } q
  else go s q

/-- A descriptor row: nothing when the patron's ring cannot be fetched or its completion ring has no room (R90). -/
def State.descriptor (s : State) (op : Nat) (x : DescIn) : State :=
  let d := s.dev
  if !d.ringRuns x.patron x.ring ∨ !d.cqRoom x.patron (d.boundCq x.patron x.ring) then s else
  let (q, d) := d.takeReq x op ((d.pat x.patron).sqAt x.ring).head
  match d.fetchCheck op x with
  | some a => { s with dev := d.complete q a }
  | none =>
    let q := { q with admTick := d.tim.count, dl := d.deadlineOf q, stage := 2 }
    if d.expired q then { s with dev := d.completeNext q { status := stLate } }
    else ({ s with dev := d.follow q }).runNow q

end Sys2Proof.Machine
end

