-- ==== Sys2Proof/Machine/Phases.lean ====
section
/-! DEFINITION. The tick: its edge, the plan, execute and close phases, deadline expiry, and the completions of firmware operations (R38 to R63, R92 to R101, R213, R217, R277 to R281, R432, R529). -/

namespace Sys2Proof.Machine

/-! ### The close phase: completions (R92, R95, R97, R101, R102) -/

/-- The completion ring of a completion, as the arbiter numbers it: 16 × patron + ring (R65). -/
def Dev.dueRing (d : Dev) (x : Due) : Nat := 16 * x.patron + d.boundCq x.patron x.sq

/-- A completion that is due no longer. -/
def Dev.dropDue (d : Dev) (x : Due) : Dev := { d with adm := { d.adm with due := d.adm.due.erase x } }

/-- Write one completion entry, or give it up: a refused address faults the patron, while this descriptor has no completion yet; a ring
that is not active takes none. -/
def Dev.writeDue (d : Dev) (refused : List Nat) (x : Due) : Dev :=
  let p := x.patron
  let k := d.boundCq p x.sq
  if !d.ringsOn p then d.dropDue x else
  let d := if refused.contains (64 * p + k) then d.patronFaults p 2 else d
  let d := (d.dropDue x).modCq p k fun c => { c with reserved := c.reserved - 1 }
  if refused.contains (64 * p + k) then d else
  let c := (d.pat p).cqAt k
  let dep := d.cqDepth p k
  let (load, back) := x.load.getD (d.adm.load, d.backoff p x.cls)
  let b := completionBytes x.tag ((d.pat p).sqAt x.sq).head x.sq x.op x.status x.cause x.flags load back d.tim.count x.r0 x.r1 (phaseOf c.written dep)
  let d := x.peers.foldl (fun (d : Dev) w => d.emit (.peerRead w.1 w.2 0)) d
  let d := (d.arbGrant 1 (16 * p + k) 1088).emit (.completion p k (if dep = 0 then 0 else c.written % dep) b)
  d.modCq p k fun c => { c with written := c.written + 1, irqDue := c.irqDue || x.irq, lastTick := d.tim.count }

/-- The completion the writer takes next: of the ring at or above the pointer, the earliest fetched (R64, R95). -/
def Dev.nextDue (d : Dev) (xs : List Due) : Option Due :=
  let at_ := tgetD d.tim.arbs 1 0
  let before := fun (a b : Due) =>
    let ra := (d.dueRing a + 1088 - at_) % 1088
    let rb := (d.dueRing b + 1088 - at_) % 1088
    decide (ra < rb) || (ra == rb && (decide (a.fetchTick < b.fetchTick) || (a.fetchTick == b.fetchTick && decide (a.fetchSeq < b.fetchSeq))))
  xs.foldl (fun b x => match b with
    | none => some x
    | some y => if before x y then some x else b) none

/-- Write the completions that are due in this tick, one by one. -/
def Dev.writeDues (refused : List Nat) : Nat → Dev → Dev
  | 0, d => d
  | n + 1, d => match d.nextDue (d.adm.due.filter fun x => decide (x.tick ≤ d.tim.count)) with
    | none => d
    | some x => Dev.writeDues refused n (d.writeDue refused x)

/-- One MSI-X message for each completion ring with an entry that asks for one (R101). -/
def Dev.completionMsix (d : Dev) : Dev :=
  (List.range 1024).foldl (fun (d : Dev) i =>
    let c := (d.pat (i / 16)).cqAt (i % 16)
    if !c.irqDue then d else
    (d.modCq (i / 16) (i % 16) fun c => { c with irqDue := false }).sendMsix (i / 16) (d.reg regPatCqnCtrl (i % 16) (i / 16) 1)) d

/-- The completions that are due, and their messages. -/
def Dev.writeCompletions (d : Dev) (refused : List Nat) : Dev :=
  let d := (Dev.writeDues refused d.adm.due.length d).completionMsix
  -- event rings whose address is refused
  ((List.range 64).filter fun p => refused.contains (64 * p + 32) && d.ringsOn p).foldl (fun (d : Dev) p => d.patronFaults p 2) d

/-! ### The tick edge: the tick that ends (R97, R281, R442) -/

/-- The device time of the next edge: a whole multiple of the length (R41). -/
def TimeSt.nextEdge (t : TimeSt) : Nat :=
  if t.ticking then (t.now / t.tickNs + 1) * t.tickNs else (t.now + t.tickNs - 1) / t.tickNs * t.tickNs

/-- One tick's part of the offset being absorbed: 1/1,000 of the length, or half of it above 2 µs (R38, R39). -/
def TimeSt.absorbTick (t : TimeSt) : TimeSt :=
  let step : Int := if t.coarse then 500 * t.len else t.len
  let left : Int := if t.slew.natAbs ≤ step.natAbs then 0 else if 0 ≤ t.slew then t.slew - step else t.slew + step
  { t with slew := left, coarse := t.coarse && left != 0 }

/-- U_fab in 1/65,536: the mean over the samples of the slots in use, each against 2,304 for each port that is UP and at most 1 (R97). -/
def Dev.fabUse (d : Dev) (samples : List Nat) : Nat :=
  let cap := 2304 * ((List.range 18).filter d.portUp).length
  65536 * (samples.map (min cap)).sum / (cap * samples.length)

/-- The utilisations of the tick that ends, and LOAD_INDEX (R97). -/
def Dev.loadFeedback (d : Dev) (e : EdgeIn) : Dev :=
  let u := (d.adm.charge, max 1 d.budget, min 65536 e.uRr, d.fabUse e.fabSlots)
  let us := (u :: d.adm.utils).take 16
  { d with adm := { d.adm with utils := us, load := loadIndex us } }

/-- Ticks with a head held by a gate or a shaper (R442): evaluated on this edge, under what is ending. -/
def Dev.heldHeads (d : Dev) : Dev :=
  (List.range 64).foldl (fun (d : Dev) p =>
    let hs := ((d.headsOf p).map (·.2)).filter fun q => d.active p && !d.expired q
    let d := if hs.any fun q => !d.gateOpen q.d.tclass then d.count .gateHeld p else d
    [0, 1, 2, 6].foldl (fun (d : Dev) c =>
      if hs.any fun q => q.d.tclass == c && !d.bktPass (bktPat p c) then d.count2 .shapeHeld p (patronK c) 1 else d) d) d

/-- The first folio that a read awaits, in layer order and then table order (R281). -/
def Dev.firstAwaited (d : Dev) (q : Req) : Option Nat :=
  let spans := q.walks.flatMap (·.spans)
  if q.op = 0x01 then (d.awaited (atnLayer q.d) spans).head?
  else if q.op = 0x22 then
    (List.range (q.d.fld 4 0 16)).findSome? fun l => (d.awaited (q.d.fld 2 0 16 + l) spans).head?
  else if isEdit q.op then d.trimAwaits q else none

/-- A promotion is held by its class: its next layer has no frame yet and may not start (R429, R281 cause 5). -/
def Dev.promoHeld (d : Dev) (i : Nat) : Bool :=
  match tget d.tier.promos i, d.span? i with
  | some m, some s => ((s.frames[s.resLayers + m.landed]?).map (·.primary)).getD 1 == 0 && !d.patronStart m.patron m.cls
  | _, _ => false

/-- A promotion waits for the frame of its next layer (R217, R281). -/
def Dev.promoFrameless (d : Dev) (i : Nat) : Bool :=
  match tget d.tier.promos i, d.span? i with
  | some m, some s => ((s.frames[s.resLayers + m.landed]?).map (·.primary)).getD 1 == 0
  | _, _ => true

/-- Messages of a job or of the lines it fetches wait at egress for their patron's fabric shaper (R395). -/
def Dev.shaperHolds (d : Dev) (p : Nat) : Bool :=
  !d.bktPass (bktFab p) && d.fab.egress.any fun e => d.ownReq e.2.1 e.2.2 && srcPatron e.2.2.source == p

/-- The stall cause of a folio that a request awaits (R281, R303, R304): read retry, a promotion whose class is held, one that waits for its
frame, a line of the landing frame that is re-read, and else what its source says. -/
def Dev.folioCause (d : Dev) (i : Nat) : Nat :=
  if d.stk.retrying.contains i then 2
  else if d.promoHeld i then 5
  else if d.promoFrameless i then 1
  else if d.flt.lineRetry.contains i then 7
  else ((d.span? i).map (d.stallCause i)).getD 1

/-- A block that holds units of a region unit's stacks copy is being relocated (R281, R303). -/
def Dev.unitMoving (d : Dev) (k : Nat) : Bool :=
  match (tget d.rgn.slots (k / 2 ^ 17)).bind d.regionVolume |>.bind d.vol? with
  | none => false
  | some v => (List.range 32).any fun i => match tget v.units (flashUnit (k / 2 ^ 17) (k % 2 ^ 17) + i) with
    | some y => (d.toMove y).isSome
    | none => false

/-- The stall cause of a unit that is not resident: read retry, the tier that holds its copy, its block (R281, R303). -/
def Dev.unitCause (d : Dev) (k : Nat) : Nat :=
  if d.stk.retrying.contains (unitTag k) then 2 else
  match d.tier.copies.find? fun e => e.2.span == unitTag k with
  | some e => if e.2.tier = 1 then 3 else if e.2.tier = 3 then 4 else 1
  | none => if d.unitMoving k then 6 else if d.flt.lineRetry.contains (unitTag k) then 7 else 1

/-- The first unit of a region whose promotion is under way. -/
def Dev.unitAwaited (d : Dev) (id : Nat) : Option Nat :=
  (d.rgn.units.find? fun e => e.1 / 2 ^ 17 == id / 64 && e.2.promoting && !e.2.resident).map (·.1)

/-- The stall cause of a waiting request (R281, assumption 15). -/
def Dev.stallOf (d : Dev) (q : Req) : Nat :=
  match d.firstAwaited q with
  | some i => d.folioCause i
  | none =>
    if q.op = 0x22 ∧ q.stall = 4 then
      (if d.servesRegion (q.d.fld 16 0 32) = d.devNo then ((d.unitAwaited (q.d.fld 16 0 32)).map d.unitCause).getD 1
        else if d.shaperHolds q.d.patron then 5 else 4)
    else 1

/-- The stall cause of a DELIVER-mode stream: its slots are all unreleased, or the folio that its planned slot needs first (R281). -/
def Dev.streamCause (d : Dev) (x : StreamSt) : Option Nat :=
  if x.mode ≠ 1 ∨ x.fresh then none
  else if x.released + x.slots ≤ x.delivered then some 3
  else x.walk.bind fun w => (tget d.seqs.recs x.record).bind fun r =>
    ((d.awaited ((x.firstLayer + x.delivered) % max 1 (d.prof r.profile).layers) w.spans).head?).map d.folioCause

/-- Every waiting request takes one stall cause and its counter advances; so do streams that wait, and descriptors that wait at egress (R281,
R395). Reads in retry are of the tick that ends. -/
def Dev.stallTick (d : Dev) : Dev :=
  let d := d.adm.waiting.foldl (fun (d : Dev) q => d.count2 .stallTicks q.d.patron (d.stallOf q - 1) 1) d
  let waiting := d.adm.waiting.map fun q => { q with stall := if q.op = 0x22 ∧ q.stall = 4 then 4 else d.stallOf q }
  let d := { d with adm := { d.adm with waiting := waiting } }
  let d := d.tier.streams.foldl (fun (d : Dev) e => ((d.streamCause e.2).map fun c => d.count2 .stallTicks (e.1 / 16) (c - 1) 1).getD d) d
  let jobs := d.fab.jobs.filterMap fun e => e.2.q
  let d := (jobs.filter fun q => d.shaperHolds q.d.patron).foldl (fun (d : Dev) q => d.count2 .stallTicks q.d.patron 4 1) d
  { d with stk := { d.stk with retrying := [] }, flt := { d.flt with lineRetry := [] } }

/-- The arbiters inside the device, 2 to 323: each pointer moves to one past the requester granted last in the tick that ends, and stays
where none was (R64, R65, assumption 66). -/
def Dev.moveArbs (d : Dev) : Dev :=
  let inner := tkeep d.tim.arbs fun k _ => decide (2 ≤ k)
  let old := if inner.isEmpty then (List.range 322).map fun i => (i + 2, 0) else inner
  let new := old.map fun e => (e.1, match Config.arbGrant e.1 d.tim.count with
    | some i => (i + 1) % max 1 (Config.arbCount e.1)
    | none => e.2)
  { d with tim := { d.tim with arbs := (tkeep d.tim.arbs fun k _ => decide (k < 2)) ++ new } }

/-- What an edge counts of the rest of the device: patrons held by their fabric shaper, correctable errors of the host link (as
many as a free value says, assumption 100), a full replay area, forced collection (R107, R381, R418, R336). -/
def Dev.edgeCounts (d : Dev) : Dev :=
  let d := ((List.range 64).filter d.shaperHolds).foldl (fun (d : Dev) p => d.count .shaperWait p) d
  let d := d.count2 .aer 0 0 (Config.aerErrors d.tim.now)
  let d := if 65536 ≤ d.fab.replayA.length ∨ 262144 ≤ d.fab.replayS.length then d.count .replayFull 0 else d
  (d.stk.volumes.filter fun e => e.2.collecting && d.gcForced e.2).foldl (fun (d : Dev) e => d.count .forcedGc e.1) d

/-! ### The tick edge: the tick that opens (R41, R47, R61, R101, R102, R425, R509) -/

/-- Device time and the tick number at an edge. -/
def Dev.advance (d : Dev) : Dev :=
  let t := d.tim.absorbTick
  let at_ := t.nextEdge
  let n := if t.ticking then t.count + 1 else at_ / t.tickNs
  { d with tim := { t with now := at_, edgeAt := at_, count := n, ticking := true, phase := .none } }

/-- Network time is adopted at this edge (R509). With a patron ACTIVE meanwhile the offset is absorbed instead. -/
def Dev.adoptTime (d : Dev) : Dev :=
  match d.tim.adopt with
  | none => d
  | some (off, delta) =>
    let d := { d with tim := { d.tim with adopt := none } }
    if d.anyActive then d.absorb off else
    let now := ((d.tim.now : Int) + off).toNat
    let n := (((now / d.tim.tickNs : Nat) : Int) + delta).toNat
    let d := { d with tim := { d.tim with now := now, edgeAt := now, count := n, adopted := true, provisional := false } }
    (d.count .adoptions 0).devEvent 0x0026 (ofSigned 64 (max (-(2 ^ 63)) (min (2 ^ 63 - 1) off))) n

/-- The set admitted in the tick that ended is sealed, and a new budget begins (R47). The head that the charge limit turned away
is selected first, at its patron's turn (R425). -/
def Dev.sealSet (d : Dev) : Dev :=
  let d := d.count .readsAvoided 0 (d.adm.grouped.filter fun e => !e.2).length
  let d := { d with adm := { d.adm with
    sealed_ := d.adm.sealed_ ++ d.adm.admitted, admitted := [], count := 0, charge := 0, filter := [], closed := false, grouped := []
    late := [] } }
  match d.adm.refused with
  | none => d
  | some k =>
    if (tget d.adm.heads k).isNone then { d with adm := { d.adm with refused := none } }
    else { (d.pointAt (k / 16)) with adm := { d.adm with turn := true } }

/-- Requests of patrons that are FAULTED or being reset are given up (R102, R104). -/
def Dev.abandonAll (d : Dev) : Dev :=
  (List.range 64).foldl (fun (d : Dev) p => match (d.pat p).st with
    | .faulted => d.abandon p true
    | .resetting => d.abandon p false
    | _ => d) d

/-- RELEASED of each DELIVER-mode stream is read in the admit phase (R277). -/
def Dev.readReleased (d : Dev) (e : EdgeIn) : Dev :=
  let one := fun (k : Nat) (x : StreamSt) =>
    if x.mode = 1 then { x with released := ((e.released.find? fun r => r.1 == k).map (·.2)).getD x.released, fresh := false } else x
  { d with tier := { d.tier with streams := tmap d.tier.streams one } }

/-- Edges fall from time alignment on (R41). -/
def Dev.edgesRun (d : Dev) : Bool := d.powered && d.boot.steps.contains 7

/-- The admit phase of the tick that opens: settings, refills, sealing. -/
def Dev.openTick (d : Dev) (e : EdgeIn) : Dev :=
  let d := d.applyWrites.loadFree.refillAll.recalcBudgets.refreshWaiting
  let d := { d with adm := { d.adm with edgeBal := d.adm.bal } }
  let d := (d.refillGovernor.sealSet.flushEgress.edgeCounts.abandonAll.readReleased e).eventMsix
  { d with tim := { d.tim with phase := .admission } }

/-- Completions that became due in the close phase after its row, at least 100 ns before this edge, were written in it (R63); a ring has
had its message of the tick, so theirs is sent in the next close phase (R101, DESIGN CHOICE, assumption 115). -/
def Dev.writeLast (d : Dev) (refused : List Nat) : Dev :=
  if d.tim.ticking ∧ d.tim.phase = .close then Dev.writeDues refused d.adm.due.length d else d

/-- A tick edge. -/
def State.tickEdge (s : State) (e : EdgeIn) : State :=
  let d := s.dev
  if !d.edgesRun then s
  else if d.halted then { s with dev := d.advance }
  else
    let d := d.writeLast e.refused
    let d := if d.tim.ticking then ((d.loadFeedback e).heldHeads).stallTick.moveArbs else d
    ({ s with dev := (d.advance.adoptTime).openTick e }).rebuildStep.openService

/-- TICK_EDGE. -/
def execTickEdge (e : EdgeIn) (s : State) : Host.Outcome State Fault Refusal := .next (s.tickEdge e)

/-! ### The plan phase (R53, R55, R213, R217, R280) -/

/-- Put requests in admission order (R53). -/
def admissionOrder (qs : List Req) : List Req :=
  sortBy (fun (a b : Req) => decide (a.admTick < b.admTick) || (a.admTick == b.admTick && decide (a.admNo < b.admNo))) qs

/-- The planner names the merge cluster of every planned request in each tick (R21). -/
def Dev.nameMerges (d : Dev) : Dev :=
  { d with adm := { d.adm with planned := d.adm.planned.map fun q => { q with merge := some (d.mergeCluster q) } } }

/-- What a plan phase has come to: the edits seen before, in order, those of them that wait, and the device with the sets it fills. -/
structure Planning where
  dev : Dev
  edits : List Req := []
  held : List Req := []

/-- A request leaves the sets it is planned from. -/
def Dev.unplan (d : Dev) (q : Req) : Dev :=
  let keep := fun (l : List Req) => l.filter fun y => y.id != q.id
  { d with adm := { d.adm with sealed_ := keep d.adm.sealed_, waiting := keep d.adm.waiting } }

/-- A request is planned. -/
def Dev.putPlanned (d : Dev) (q : Req) : Dev :=
  let d := d.unplan q
  { d with adm := { d.adm with planned := d.adm.planned ++ [{ q with stage := 3, waits := false, stall := 0 }] } }

/-- A request waits. -/
def Dev.putWaiting (d : Dev) (q : Req) : Dev :=
  let d := d.unplan q
  { d with adm := { d.adm with waiting := d.adm.waiting ++ [{ q with stage := 4, waits := true, stall := if q.stall = 0 then 1 else q.stall }] } }

/-- Plan an edit. -/
def Planning.edit (a : Planning) (q : Req) : Planning :=
  let seen := a.edits ++ [q]
  if behind a.held q then { dev := a.dev.putWaiting q, edits := seen, held := a.held ++ [q] } else
  match a.dev.planOne a.edits q with
  | .ready d => { dev := d.putPlanned q, edits := seen, held := a.held }
  | .waits d => { dev := d.putWaiting q, edits := seen, held := a.held ++ [q] }
  | .answered d => { a with dev := d.unplan q }

/-- The layer at which a read's folios are awaited: the last one it reads. -/
def readLayer (q : Req) : Nat := if q.op = 0x01 then atnLayer q.d else q.d.fld 2 0 16 + q.d.fld 4 0 16 - 1

/-- A read with its walks: it waits while a folio is awaited; promotions that do not bring it yet, or not with demand priority, are
started or raised (R264, R266, R280). -/
def Dev.planWalked (d : Dev) (q : Req) : Dev :=
  let l := readLayer q
  match d.awaited l (q.walks.flatMap (·.spans)) with
  | [] => d.putPlanned q
  | i :: is =>
    let new := (i :: is).filter fun j => match tget d.tier.promos j with
      | some m => decide (m.upTo < l) || m.kind != 0
      | none => true
    if new.isEmpty then d.putWaiting q else
    let r := d.awaitSpans q l new
    r.1.putWaiting { r.2 with stall := d.stallOf q }

/-- A read: ATTEND or DELIVER. -/
def isRead (op : Nat) : Bool := op == 0x01 || op == 0x22

/-- Resolve a read's generation and begin its walks: the request with them, or its answer (R55, R213). -/
def Dev.beginRead (d : Dev) (q : Req) : Dev × Req × Option Ans :=
  let q := { q with holds := [] }
  if q.op = 0x01 then d.attendPlan q else d.deliverPlan q

/-- The spans that a patron's sequences list now. -/
def Dev.seqSpans (d : Dev) (p : Nat) (seqs : List Nat) : List Nat :=
  (seqs.filterMap (d.seq? p)).flatMap fun r => d.walkSpans (r.2.walk r.1)

/-- Plan a read. Behind an edit that waits it waits; behind one that is planned its walk begins in the execute phase, under that edit
(R55), and the spans that its sequences list now are no victims of what is planned after it; else its walks begin at once (R213). -/
def Planning.read (a : Planning) (q : Req) : Planning :=
  if !q.walks.isEmpty then { a with dev := a.dev.planWalked q }
  else if behind a.held q then { a with dev := a.dev.putWaiting { q with holds := [] } }
  else if behind a.edits q then { a with dev := a.dev.putPlanned { q with holds := a.dev.seqSpans q.d.patron (seqsOf q) } }
  else match a.dev.beginRead q with
    | (d, q, some x) => { a with dev := (d.unplan q).finish q x }
    | (d, q, none) => { a with dev := d.planWalked q }

/-- Plan one request, in admission order (R53): edits take their frames (R217), reads begin their walks, everything else is planned. -/
def Planning.one (a : Planning) (q : Req) : Planning :=
  if isEdit q.op then a.edit q else if isRead q.op then a.read q else { a with dev := a.dev.putPlanned q }

/-- The plan phase reaches `reach` requests of the sealed set; the others roll over (R53). -/
def Dev.planPhase (d : Dev) (reach : Nat) : Dev :=
  let todo := admissionOrder d.adm.waiting ++ d.adm.sealed_.take reach
  let d := d.count2 .planOverrun 0 0 (d.adm.sealed_.drop reach).length
  let old := d.adm.planned.filter fun q => isEdit q.op
  let a := todo.foldl Planning.one { dev := d, edits := old }
  let d := { a.dev with adm := { a.dev.adm with
    planned := admissionOrder a.dev.adm.planned, waiting := admissionOrder a.dev.adm.waiting } }
  let d := if d.adm.planned.isEmpty then d else d.ungate
  { d.nameMerges.planStreams.obtainAll with tim := { d.tim with phase := .plan } }

/-- PLAN_PHASE. -/
def execPlanPhase (reach : Nat) (s : State) : Host.Outcome State Fault Refusal :=
  .next (s.onDev fun d => if d.inPhase .admission then d.planPhase reach else d)

/-! ### The execute phase (R54, R58, R62, R63, R462) -/

/-- A planned request may execute now: its clusters are in service, its repair plan is there, and firmware runs where it is
needed (R31, R462). -/
def Dev.mayRun (d : Dev) (q : Req) : Bool :=
  !d.fenced q && !d.flt.abandoned.contains q.id && !(d.sec.restarting && firmwareOp q.op)

/-- The completions of a request that just became due: in its deadline tick, one produced in the last 100 ns is written in the next
tick's close phase; on the deadline's edge it carries LATE_EDGE (R52, R63). -/
def Dev.stampDue (d : Dev) (q : Req) (late : Bool) : Dev :=
  let mine := fun (x : Due) => x.patron == q.d.patron && x.fetchSeq == q.fetchSeq
  let now := late && deadlined q.op && q.dl == d.tim.count
  if (!now && !q.lateEdge) ∨ !(d.adm.due.any mine) then d else
  let ok := d.adm.due.any fun x => mine x && x.status == stOk
  let one := fun (x : Due) => if !mine x then x else
    let y := if now then { x with tick := d.tim.count + 1 } else x
    if x.status = stOk then { y with flags := x.flags + flLateEdge } else y
  let d := { d with adm := { d.adm with due := d.adm.due.map one } }
  if ok then d.count .lateEdge q.d.patron else d

/-- A request precedes another in admission order. -/
def admittedBefore (a b : Req) : Bool := decide (a.admTick < b.admTick) || (a.admTick == b.admTick && decide (a.admNo < b.admNo))

/-- An edit admitted before a request, of a sequence it edits or reads, has not executed: it is planned still or waits (R55). -/
def Dev.behindEdit (d : Dev) (q : Req) : Bool :=
  behind ((d.adm.planned ++ d.adm.waiting).filter (admittedBefore · q)) q

/-- Catalogue operations. -/
def isCatalogue (op : Nat) : Bool := op == 0x10 || op == 0x11 || op == 0x12

/-- An earlier catalogue operation of its ring has not executed: they take effect in ring order (R248). -/
def Dev.behindRing (d : Dev) (q : Req) : Bool :=
  isCatalogue q.op && (d.adm.planned ++ d.adm.waiting).any fun e =>
    isCatalogue e.op && e.d.patron == q.d.patron && e.d.ring == q.d.ring && decide (e.fetchSeq < q.fetchSeq)

/-- Run one planned request, or leave it planned: it is not reached, it does not finish (R58), or it is behind one that did not. -/
def State.runPlanned (x : ExecIn) (s : State) (q : Req) : State :=
  match s.dev.adm.planned.find? fun y => y.id == q.id with
  | none => s
  | some q =>
    let reads := isEdit q.op || isRead q.op
    if x.unfinished.contains q.id ∨ !s.dev.mayRun q ∨ (reads ∧ q.walks.isEmpty ∧ s.dev.behindEdit q) ∨ s.dev.behindRing q then s
    else
      let s := s.onDev fun d => { d with adm := { d.adm with planned := d.adm.planned.filter fun y => y.id != q.id } }
      let no := (x.refused.filter fun e => e.1 == q.id).map (·.2)
      let q := if no.isEmpty then q else { q with d := { q.d with host := { q.d.host with outRefused := no ++ q.d.host.outRefused } } }
      match s.runOp q with
      | (s, none) => s.onDev fun d => d.stampDue q (x.late.contains q.id)
      | (s, some q) => s.onDev fun d => d.addWaiting q

/-- Planned reads that pass a test begin their walks, in admission order (R55, R213). -/
def Dev.beginReads (d : Dev) (f : Req → Bool) : Dev :=
  (d.adm.planned.filter fun q => isRead q.op && q.walks.isEmpty && f q).foldl (fun (d : Dev) q =>
    if d.behindEdit q then d else
    match d.beginRead q with
    | (d, q, some a) => ({ d with adm := { d.adm with planned := d.adm.planned.filter fun y => y.id != q.id } }).finish q a
    | (d, q, none) =>
      let q := { q with merge := some (d.mergeCluster q) }
      { d with adm := { d.adm with planned := d.adm.planned.map fun y => if y.id = q.id then q else y } }) d

/-- Step 1 of R54: an edit or hint; the reads admitted before it of its sequence resolve first. -/
def State.runFirst (x : ExecIn) (s : State) (q : Req) : State :=
  (s.onDev fun d => if isEdit q.op then d.beginReads fun r => admittedBefore r q && behind [q] r else d).runPlanned x q

/-- Operations in effect from the start of the execute phase: a mapping of the aperture, a profile's retirement (R79, R152). -/
def atStart (op : Nat) : Bool := op == 0x51 || op == 0x82

/-- Step 1 of R54: edits and hints. -/
def firstStep (op : Nat) : Bool := isEdit op || op == 0x20

/-- Step 2 of R54: reads, each under the edits admitted before it (R55); READBACK is a read too, after the edits and hints of its tick
(R540). -/
def secondStep (op : Nat) : Bool := isRead op || op == 0x40

/-- The execute phase (R54): what is in effect from its start, the edits and hints, the reads, then everything else, each in admission
order. -/
def State.executePhase (s : State) (x : ExecIn) : State :=
  let qs := s.dev.adm.planned
  -- a folio group of a read or of a layer stream that runs into the close phase (R67)
  let ran := (x.overrun && (qs.any (isRead ·.op) || s.dev.tier.streams.any fun e => e.2.mode == 1))
    || qs.any fun q => isRead q.op && x.unfinished.contains q.id
  let s := s.onDev fun d => if qs.isEmpty then d else d.wakeChannels
  let s := (qs.filter fun q => atStart q.op).foldl (State.runPlanned x) s
  let s := (qs.filter fun q => firstStep q.op).foldl (State.runFirst x) s
  let s := s.onDev fun d => d.beginReads fun _ => true
  let s := (qs.filter fun q => secondStep q.op).foldl (State.runPlanned x) s
  let s := (qs.filter fun q => !atStart q.op && !firstStep q.op && !secondStep q.op).foldl (State.runPlanned x) s
  s.onDev fun d =>
    let d := if ran then d.count .closeRun 0 else d
    let d := d.applyVictims.gateTick !qs.isEmpty
    { d with adm := { d.adm with waiting := admissionOrder d.adm.waiting }, tim := { d.tim with phase := .execute } }

/-- EXECUTE_PHASE. -/
def execExecutePhase (x : ExecIn) (s : State) : Host.Outcome State Fault Refusal :=
  .next (if s.dev.inPhase .plan then s.executePhase x else s)

/-! ### The close phase: walks, frames, spans and units (R47, R56, R139, R196, R213, R256, R267) -/

/-- Walks end with the completion of their request (R213). -/
def Dev.endWalks (d : Dev) : Dev :=
  let done := fun (q : Req) => !(d.adm.due.any fun x => x.patron == q.d.patron && x.fetchSeq == q.fetchSeq)
  let qs := d.adm.ended.filter done
  let d := { d with adm := { d.adm with ended := d.adm.ended.filter fun q => !done q } }
  (qs.foldl (fun (d : Dev) q => q.walks.foldl Dev.endWalk d) d).endSlots

/-- Copies that ceased in the tick: their bits are cleared, and a span with nothing left is VACANT (R256). -/
def Dev.clearCeased (d : Dev) : Dev :=
  let cs := d.tier.ceased
  cs.foldl (fun (d : Dev) c =>
    if 2 ^ 40 ≤ c.1 then d else
    let d := d.modSpan c.1 fun s =>
      if c.2 = 1 then { s with onShelf := false } else if c.2 = 2 then { s with onStacks := false } else { s with onRemote := false }
    match d.span? c.1 with
    | some s => if s.st = 3 ∧ !s.copied ∧ s.resLayers = 0 then d.vacate c.1 else d
    | none => d) { d with tier := { d.tier with ceased := [] } }

/-- A unit lands: resident in space obtained under R260; sectors of a key that is gone read zero, lost ones are poisoned
(R267, R305, R306). -/
def State.landUnit (s : State) (k : Nat) : State :=
  let x := k / 2 ^ 17
  match tget s.dev.rgn.units k, tget s.dev.rgn.slots x with
  | some u, some r =>
    if !u.promoting then s
    else if u.resident then s.onDev fun d => d.modUnit k fun u => { u with promoting := false }
    else match s.dev.takeUnit x (k % 2 ^ 17) r with
    | .refused => s
    | .waits d => { s with dev := d }
    | .made d => s.fillUnit k u d
  | _, _ => s

/-- Units that a held request still awaits. -/
def State.heldUnits (s : State) (h : HeldReq) : List Nat :=
  match h.code, h.job.bind (tget s.dev.fab.jobs) with
  | 0x50, some j =>
    let own := ((nearReads j.op j.x ++ nearWrites j.op j.x).map (·.1)).filter fun a => (s.dev.regionOf a).isSome
    own.flatMap fun a => s.dev.awaitsUnit a (nearLen j.x / 64)
  | _, _ => s.dev.awaitsUnit h.m.addr (reqLines h.code h.m)

/-- Units land in the close phase, and what waits for them may be served from the next tick on (R267). -/
def State.landUnits (s : State) : State :=
  let s := ((s.dev.rgn.units.filter fun e => e.2.promoting).map (·.1)).foldl State.landUnit s
  let held := s.dev.fab.held.map fun h =>
    if h.why = 0 ∧ h.ready.isNone ∧ (s.heldUnits h).isEmpty then { h with ready := some (s.dev.tim.count + 1) } else h
  s.onDev fun d => { d with fab := { d.fab with held := held } }

/-- Spans and frames at the end of a tick. -/
def Dev.closeSpans (d : Dev) : Dev :=
  let d := if d.flt.sweep then d else d.releaseZero
  let d := d.dropRetained.switchSpans.closePromos.releaseTails.closeDemos.clearCeased.releaseDeep
  d.releaseFreed.freeRetired.returnResv

/-- Work planned in the tick that has not finished rolls over: planned requests, and near-memory work under way (R58). -/
def Dev.rollOver (d : Dev) : Dev :=
  let jobs := d.fab.jobs.filterMap fun e => if 0x30 ≤ e.2.op ∧ e.2.op ≤ 0x33 then e.2.q else none
  (d.adm.planned ++ jobs).foldl (fun (d : Dev) q => d.count2 .rolled q.d.patron (patronK q.d.tclass) 1) d

/-- The close phase. -/
def State.closePhase (s : State) (x : CloseIn) : State :=
  let s := (s.onDev fun d => ((d.rollOver.writeCompletions x.refused).endWalks).applyVictims.closeSpans).landUnits
  let s := s.onDev fun d => d.handSectors.activateImage.enterSleep
  let s := s.beginDeviceReset
  s.onDev fun d => if d.tim.ticking then { d with tim := { d.tim with phase := .close }, adm := { d.adm with late := x.late } } else d

/-- CLOSE_PHASE. -/
def execClosePhase (x : CloseIn) (s : State) : Host.Outcome State Fault Refusal :=
  .next (if s.dev.inPhase .execute then s.closePhase x else s)

/-! ### Deadline expiry (R60, R62, R63) -/

/-- A request is abandoned at its deadline: its partial state goes, its completion is written in the next tick (R60). A read that waits
behind a TRIM which awaits a promotion (R210) has no walk yet and completes LATE, as R217 has it behind an edit that waits for frames
(DESIGN CHOICE, assumption 129). -/
def Dev.expire (d : Dev) (q : Req) : Dev :=
  let a : Ans := if q.waits ∧ (d.firstAwaited q).isSome ∨ (q.op = 0x22 ∧ q.stall = 4) then
      (if d.fenced q then { status := stLate } else { status := stStall, cause := d.stallOf q })
    else { status := stLate }
  let d := q.walks.foldl Dev.endWalk (d.dropResv q.id)
  (d.dropFetch q.id).completeNext q a

/-- A request whose deadline tick is ending and that has no result. -/
def Dev.overdue (d : Dev) (q : Req) : Bool := deadlined q.op && !q.lateEdge && q.dl != 0 && decide (q.dl ≤ d.tim.count)

/-- The region unit in a lower tier that a near-memory job waits for (R267). -/
def Dev.jobUnit (d : Dev) (k : Nat) : Option Nat :=
  match d.fab.held.find? fun h => h.why == 0 && h.job == some k, tget d.fab.jobs k with
  | some _, some j =>
    let own := ((nearReads j.op j.x ++ nearWrites j.op j.x).map (·.1)).filter fun a => (d.regionOf a).isSome
    (own.flatMap fun a => d.awaitsUnit a (nearLen j.x / 64)).head?
  | _, _ => none

/-- Deadlines end with the tick; a request whose awaited data lands on this edge counts as on time (R63). -/
def Dev.deadlines (d : Dev) (landed : List Nat) : Dev :=
  let mark := fun (q : Req) => if landed.contains q.id ∧ q.waits ∧ d.overdue q then { q with lateEdge := true } else q
  let d := { d with adm := { d.adm with waiting := d.adm.waiting.map mark } }
  let out := (d.adm.planned ++ d.adm.waiting ++ d.adm.sealed_ ++ d.adm.admitted).filter d.overdue
  let keep := fun (l : List Req) => l.filter fun q => !d.overdue q
  let d := { d with adm := { d.adm with
    planned := keep d.adm.planned, waiting := keep d.adm.waiting, sealed_ := keep d.adm.sealed_, admitted := keep d.adm.admitted } }
  let d := out.foldl Dev.expire d
  -- near-memory operations with a deadline
  d.fab.jobs.foldl (fun (d : Dev) e => match e.2.q with
    | some q =>
      if !d.overdue q then d
      else if landed.contains q.id ∧ d.jobUnit e.1 ≠ none then d.modJob e.1 fun j => { j with q := some { q with lateEdge := true } }
      else
        let a : Ans := match d.jobUnit e.1 with
          | some k => { status := stStall, cause := d.unitCause k }
          | none => { status := stLate }
        (d.modJob e.1 fun j => { j with q := none }).completeNext q a
    | none => d) d

/-- DEADLINE_EXPIRY: on the edge that ends the tick, before the next tick opens. -/
def execDeadlineExpiry (landed : List Nat) (s : State) : Host.Outcome State Fault Refusal :=
  .next (s.onDev fun d => if d.tim.ticking && d.powered && !d.halted then d.deadlines landed else d)

/-! ### Firmware operations end (R87, R150, R549) -/

/-- Firmware finishes: completions of its operations become due in this tick, an update and an audit end with it. Nothing
finishes while firmware restarts (R31). -/
def Dev.firmwareDone (d : Dev) : Dev :=
  if d.sec.restarting then d else
  let ends := d.adm.fw.map fun x => { x with tick := d.tim.count }
  let d := { d with adm := { d.adm with due := d.adm.due ++ ends, fw := [] } }
  d.updateDone.auditDone

/-- FIRMWARE_OPERATION_DONE. -/
def execFirmwareOperationDone (s : State) : Host.Outcome State Fault Refusal := .next (s.onDev Dev.firmwareDone)

end Sys2Proof.Machine
end

