-- ==== Sys2Proof/Machine/Rows.lean ====
section
/-! DEFINITION. The descriptor rows, and the fabric rows that carry region operations: each descriptor is fetched, granted and executed in the state as it stands (R85 to R104); MESSAGE hands its payload on (R376 to R379). -/

namespace Sys2Proof.Machine

/-! ### Descriptor rows -/

/-- NOP. -/
def execNop (d : DescIn) (s : State) : Host.Outcome State Fault Refusal := .next (s.descriptor 0x00 d)
/-- ATTEND. -/
def execAttend (d : DescIn) (s : State) : Host.Outcome State Fault Refusal := .next (s.descriptor 0x01 d)
/-- MERGE. -/
def execMerge (d : DescIn) (s : State) : Host.Outcome State Fault Refusal := .next (s.descriptor 0x02 d)
/-- APPEND. -/
def execAppend (d : DescIn) (s : State) : Host.Outcome State Fault Refusal := .next (s.descriptor 0x03 d)
/-- ADOPT. -/
def execAdopt (d : DescIn) (s : State) : Host.Outcome State Fault Refusal := .next (s.descriptor 0x04 d)
/-- FORK. -/
def execFork (d : DescIn) (s : State) : Host.Outcome State Fault Refusal := .next (s.descriptor 0x05 d)
/-- TRIM. -/
def execTrim (d : DescIn) (s : State) : Host.Outcome State Fault Refusal := .next (s.descriptor 0x06 d)
/-- DROP. -/
def execDrop (d : DescIn) (s : State) : Host.Outcome State Fault Refusal := .next (s.descriptor 0x07 d)
/-- PROBE. -/
def execProbe (d : DescIn) (s : State) : Host.Outcome State Fault Refusal := .next (s.descriptor 0x10 d)
/-- ACCESSION. -/
def execAccession (d : DescIn) (s : State) : Host.Outcome State Fault Refusal := .next (s.descriptor 0x11 d)
/-- WITHDRAW. -/
def execWithdraw (d : DescIn) (s : State) : Host.Outcome State Fault Refusal := .next (s.descriptor 0x12 d)
/-- HINT. -/
def execHint (d : DescIn) (s : State) : Host.Outcome State Fault Refusal := .next (s.descriptor 0x20 d)
/-- STREAM. -/
def execStream (d : DescIn) (s : State) : Host.Outcome State Fault Refusal := .next (s.descriptor 0x21 d)
/-- DELIVER. -/
def execDeliver (d : DescIn) (s : State) : Host.Outcome State Fault Refusal := .next (s.descriptor 0x22 d)
/-- FILL. -/
def execFill (d : DescIn) (s : State) : Host.Outcome State Fault Refusal := .next (s.descriptor 0x30 d)
/-- COPY. -/
def execCopy (d : DescIn) (s : State) : Host.Outcome State Fault Refusal := .next (s.descriptor 0x31 d)
/-- COMPARE. -/
def execCompare (d : DescIn) (s : State) : Host.Outcome State Fault Refusal := .next (s.descriptor 0x32 d)
/-- REDUCE. -/
def execReduce (d : DescIn) (s : State) : Host.Outcome State Fault Refusal := .next (s.descriptor 0x33 d)
/-- PUBLISH. -/
def execPublish (d : DescIn) (s : State) : Host.Outcome State Fault Refusal := .next (s.descriptor 0x34 d)
/-- REVOKE. -/
def execRevoke (d : DescIn) (s : State) : Host.Outcome State Fault Refusal := .next (s.descriptor 0x35 d)
/-- READBACK. -/
def execReadback (d : DescIn) (s : State) : Host.Outcome State Fault Refusal := .next (s.descriptor 0x40 d)
/-- AUDIT. -/
def execAudit (d : DescIn) (s : State) : Host.Outcome State Fault Refusal := .next (s.descriptor 0x41 d)
/-- PROFILE_REGISTER. -/
def execProfileRegister (d : DescIn) (s : State) : Host.Outcome State Fault Refusal := .next (s.descriptor 0x50 d)
/-- PROFILE_RETIRE. -/
def execProfileRetire (d : DescIn) (s : State) : Host.Outcome State Fault Refusal := .next (s.descriptor 0x51 d)
/-- TICK_SET. -/
def execTickSet (d : DescIn) (s : State) : Host.Outcome State Fault Refusal := .next (s.descriptor 0x80 d)
/-- PATRON_RESET. -/
def execPatronReset (d : DescIn) (s : State) : Host.Outcome State Fault Refusal := .next (s.descriptor 0x81 d)
/-- APERTURE_MAP. -/
def execApertureMap (d : DescIn) (s : State) : Host.Outcome State Fault Refusal := .next (s.descriptor 0x82 d)
/-- VOLUME_FORMAT. -/
def execVolumeFormat (d : DescIn) (s : State) : Host.Outcome State Fault Refusal := .next (s.descriptor 0x83 d)
/-- STACKS_DISCARD. -/
def execStacksDiscard (d : DescIn) (s : State) : Host.Outcome State Fault Refusal := .next (s.descriptor 0x84 d)
/-- GOVERNOR_SET. -/
def execGovernorSet (d : DescIn) (s : State) : Host.Outcome State Fault Refusal := .next (s.descriptor 0x85 d)
/-- REGION_CREATE. -/
def execRegionCreate (d : DescIn) (s : State) : Host.Outcome State Fault Refusal := .next (s.descriptor 0x86 d)
/-- REGION_GRANT. -/
def execRegionGrant (d : DescIn) (s : State) : Host.Outcome State Fault Refusal := .next (s.descriptor 0x87 d)
/-- REGION_DESTROY. -/
def execRegionDestroy (d : DescIn) (s : State) : Host.Outcome State Fault Refusal := .next (s.descriptor 0x88 d)
/-- SHAPER_SET. -/
def execShaperSet (d : DescIn) (s : State) : Host.Outcome State Fault Refusal := .next (s.descriptor 0x89 d)
/-- GATE_SET. -/
def execGateSet (d : DescIn) (s : State) : Host.Outcome State Fault Refusal := .next (s.descriptor 0x8A d)
/-- FW_UPDATE. -/
def execFwUpdate (d : DescIn) (s : State) : Host.Outcome State Fault Refusal := .next (s.descriptor 0x8B d)
/-- DEVICE_RESET. -/
def execDeviceReset (d : DescIn) (s : State) : Host.Outcome State Fault Refusal := .next (s.descriptor 0x8C d)
/-- POWER_SET. -/
def execPowerSet (d : DescIn) (s : State) : Host.Outcome State Fault Refusal := .next (s.descriptor 0x8D d)
/-- ARCHIVE_SLEEP: the POWER_SET whose ACTION is to sleep (R532). -/
def execArchiveSleep (d : DescIn) (s : State) : Host.Outcome State Fault Refusal :=
  .next (if d.fld 0 0 2 = 1 then s.descriptor 0x8D d else s)

/-! ### Region operations from other devices, and messages -/

/-- REGION_REQUEST. -/
def execRegionRequest (port : Nat) (m : Msg) (s : State) : Host.Outcome State Fault Refusal :=
  .next (s.onMsg port 0x50 m fun s => s.regionRequestIn State.homeExtra m)

/-- What the payload of a delivered MESSAGE does: a region message of class 0 or 1, an assembly message, a fault notice or the
notice of a region torn down of class 2 (R377, R416, R468, R513, assumption 21). Messages of class 3 carry their times alone (R380). -/
def State.payloadIn (s : State) (port cls : Nat) (b : List Byte) : State :=
  if cls = 0 ∨ cls = 1 then
    let (code, x) := decMsg b
    if !msgOk code x then s.onDev fun d => d.count .malformed port
    else match code with
      | 0x29 => s.doneIn x
      | 0x50 => s.regionRequestIn State.homeExtra x
      | 0x51 => s.regionDoneIn x
      | 0x52 => s.mapNoticeIn x
      | _ => s.onDev fun d => d.count .malformed port
  else if cls = 2 then
    s.onDev fun d => match fieldOf b 0 1 with
      | 0x10 => d.devEvent 0x050D (fieldOf b 1 1) (fieldOf b 2 1)
      | 0x11 => d.devEvent 0x0401 (fieldOf b 4 4) (fieldOf b 1 1)
      | _ => d.assembly b
  else s

/-- The acknowledgement of a MESSAGE (R377). -/
def Dev.ackMessage (d : Dev) (m : Msg) : Dev :=
  let dest := srcDev m.source
  let slots := leBytes 1 dest ++ leBytes 1 (fieldOf m.slots 1 1) ++ leBytes 2 0 ++ leBytes 4 (fieldOf m.slots 4 4)
    ++ leBytes 8 (fieldOf m.slots 8 8) ++ leBytes 8 d.tim.now ++ leBytes 8 d.tim.now
  d.put dest 0x31 { vc := 3, source := d.devNo, slots := slots }

/-- MESSAGE: accepted in MSG_SEQ order and delivered once; duplicates are acknowledged again and discarded (R379). -/
def execMessage (port : Nat) (m : Msg) (s : State) : Host.Outcome State Fault Refusal :=
  .next <| s.onMessage port 0x30 m fun s =>
    let cls := fieldOf m.slots 1 1
    let q := fieldOf m.slots 4 4
    let k := chanKey (srcDev m.source) cls
    let ahead := (q + 2 ^ 32 - (s.dev.chan k).recvSeq) % 2 ^ 32
    if ahead = 0 then
      let s := s.onDev fun d => (d.modChan k fun c => { c with recvSeq := (c.recvSeq + 1) % 2 ^ 32 }).ackMessage m
      s.payloadIn port cls ((m.slots.drop 16).take (fieldOf m.slots 2 2))
    else if 2 ^ 31 ≤ ahead then s.onDev fun d => d.ackMessage m
    else s

end Sys2Proof.Machine
end

