-- ==== Sys2Proof/Machine/Views.lean ====
section
/-! DEFINITION. What each set-up register shows (R10, R557 to R562): the read-only fields that follow from the state, and the stored fields of the others. No row of the table reads a register: this is the value a read would return. -/

namespace Sys2Proof.Machine

/-- Fields packed from bit 0 on: widths and values. -/
def packed : List (Nat × Nat) → Nat
  | [] => 0
  | (w, v) :: fs => v % 2 ^ w + 2 ^ w * packed fs

/-- One bit for each index below `n` that passes a test. -/
def maskOf (n : Nat) (ok : Nat → Bool) : Nat := ((List.range n).map fun i => flag (ok i) * 2 ^ i).sum

/-- Number of a patron state in PAT_STATUS. -/
def PState.code : PState → Nat
  | .disabled => 0
  | .configuring => 1
  | .active => 2
  | .faulted => 3
  | .resetting => 4

/-- Number of a device state in CAP_BOOT_STATUS (R512); OFF and TAMPER_HOLD, in which nothing is read, show 0. -/
def DevState.code : DevState → Nat
  | .booting => 1
  | .ready => 2
  | .serving => 3
  | .recovery => 4
  | .bootFailed => 5
  | .deviceFault => 6
  | .resetting => 7
  | .off | .tamperHold => 0

/-! ### Patron page and capabilities (R557, R558) -/

/-- PAT_STATUS. -/
def Dev.showPatStatus (d : Dev) (p : Nat) : Nat :=
  packed [(3, (d.pat p).st.code), (1, flag (d.pat p).lock), (1, flag ((d.pat p).refused != 0)), (3, (d.pat p).refused)]

/-- Clusters in service (R32). -/
def Dev.clustersIn (d : Dev) : Nat := 16 - d.flt.out.length

/-- Engines of a core in service (R527). -/
def Dev.enginesPerCore (d : Dev) : Nat := if d.pwr.halved then 2 else 4

/-- CAP_GEOMETRY. -/
def Dev.showGeometry (d : Dev) : Nat :=
  packed [(8, d.clustersIn), (8, 8), (8, d.enginesPerCore), (16, 1024), (16, 1000 - 100 * d.pwr.point)]

/-- CAP_FLASH. -/
def Dev.showFlash (d : Dev) : Nat :=
  packed [(8, d.stk.channels), (8, d.stk.dies), (16, d.stk.rawGiB / 1024), (8, maskOf 8 fun v => (d.vol? v).isSome)]

/-- CAP_STRAPS. -/
def Dev.showStraps (d : Dev) : Nat :=
  let s := d.boot.straps
  packed [(4, s.pos), (2, s.wing), (4, s.wingSize), (2, s.wings), (1, flag s.headN), (2, s.pwrCap)]

/-- CAP_POOL_STATUS. -/
def Dev.showPool (d : Dev) : Nat :=
  packed [(6, d.presenting.getD 0), (1, flag d.boot.assembled), (1, flag d.boot.serving), (7, d.rosterCount (· == 2)), (7, d.expected.length)]

/-! ### Tick, host port, attention, catalogue, tiers, regions (R559, R560) -/

/-- TIK_STATUS. -/
def Dev.showTik (d : Dev) : Nat :=
  packed [(1, flag d.tim.locked), (1, flag d.tim.holdover), (1, flag d.tim.faultBit), (1, flag d.tim.master), (1, flag d.tim.pend.isSome)]

/-- HPI_STATUS. -/
def Dev.showHost (d : Dev) : Nat :=
  packed [(8, d.host.width), (8, d.host.rate), (1, flag (d.host.linkUp && !d.host.flit)), (1, flag d.host.linkUp)]

/-- ATN_STATUS; the merge network is whole while no cluster is out and the bridge keeps its width (R21, R457). -/
def Dev.showAttention (d : Dev) : Nat :=
  packed [(15, 8 * d.clustersIn * d.enginesPerCore), (1, flag (d.flt.out.isEmpty && !d.flt.degraded.contains 2)),
    (16, maskOf 16 fun c => !d.flt.out.contains c)]

/-- CAT_STATUS. -/
def Dev.showCatalogue (d : Dev) : Nat :=
  let near := (d.cat.ents.filter fun e => decide (e.1 < onChipSlots)).length
  packed [(16, maskOf 16 fun c => !d.flt.out.contains c), (1, flag (!d.cat.sweep.isEmpty)), (19, near), (26, d.cat.ents.length - near)]

/-- TIR_STATUS. -/
def Dev.showTiers (d : Dev) : Nat :=
  packed [(20, d.poolGiB), (20, d.freeBytes / 2 ^ 30), (1, flag (d.tier.floors.any fun e => decide (e.2 < d.reg regTirFloorp e.1)))]

/-- RGN_STATUS: slots, range entries (the owner's and each grant's), mappings, rebuilds. -/
def Dev.showRegions (d : Dev) : Nat :=
  packed [(13, d.rgn.slots.length), (17, (d.rgn.slots.map fun e => 1 + e.2.grants.length).sum), (18, d.rgn.maps.length),
    (8, (d.rgn.slots.filter fun e => e.2.rebuild.isSome).length)]

/-! ### Stacks and fabric (R561) -/

/-- The governor refuses demotions of a volume in the second in progress (R322). -/
def Dev.throttledNow (d : Dev) (v : Volume) : Bool := v.throttled && v.refusedWindow == d.tim.now / 10 ^ 9

/-- STK_STATUS; recovery is one command, MAP_LOAD: until it has come, step 1 of R330 is shown as running (DESIGN CHOICE, assumption 63). -/
def Dev.showStacks (d : Dev) : Nat :=
  let all := fun (f : Volume → Bool) => maskOf 8 fun v => ((d.vol? v).map f).getD false
  let recovering := d.stk.discovered && !d.stk.clean && d.stepDue 8 [3, 4]
  packed [(8, d.stk.channels), (8, d.stk.dies), (8, all (·.protected_)), (8, flag recovering), (8, all d.throttledNow)]

/-- STK_VOLn. -/
def Dev.showVolume (d : Dev) (i : Nat) : Nat :=
  match d.vol? i with
  | none => 0
  | some v => packed [(1, 1), (1, flag v.region), (1, flag v.ct210), (5, flag v.protected_), (8, v.dieFirst), (8, v.dieCount), (10, v.op),
      (14, d.sparePct v), (16, v.formatId)]

/-- STK_GOV_BALANCEn. -/
def Dev.showBalance (d : Dev) (i : Nat) : Nat := match d.vol? i with
  | some v => (v.balance % 2 ^ 64).toNat
  | none => 0

/-- CHG_STATUS. -/
def Dev.showFabric (d : Dev) : Nat :=
  packed [(4, d.pos), (4, d.wing), (16, d.devNo), (20, maskOf 18 fun k => (d.port k).st == .up), (16, maskOf 16 d.fab.relays.contains)]

/-- CHG_DIR_STATUS. -/
def Dev.showDirectory (d : Dev) : Nat :=
  packed [(23, (d.fab.dir.map fun e => (e.2.filter fun y => y.line < 2 ^ 44).length).sum), (17, d.fab.replayA.length), (19, d.fab.replayS.length)]

/-- CHG_PORTk_STATUS. -/
def Dev.showPort (d : Dev) (k : Nat) : Nat :=
  let p := d.port k
  packed [(4, p.st.code), (3, p.lanes), (1, flag p.degraded), (6, p.partner)]

/-! ### Traffic, faults, security, power (R562) -/

/-- TRF_STATUS. -/
def Dev.showTraffic (d : Dev) : Nat := packed [(8, d.adm.gateEntry), (56, flag d.adm.gatePend.isSome), (64, d.adm.cycleStart)]

/-- FLT_STATUS. -/
def Dev.showFaults (d : Dev) : Nat :=
  packed [(16, maskOf 16 d.flt.out.contains), (16, maskOf 16 d.flt.failed.contains), (3, maskOf 3 d.flt.degraded.contains), (1, flag d.flt.sweep),
    (1, flag d.flt.deviceFault)]

/-- SEC_STATUS. -/
def Dev.showSecurity (d : Dev) : Nat :=
  packed [(1, flag d.sec.debug), (7, min 31 d.sec.wrapGen), (6, d.sec.svn), (1, flag d.sec.entropyOk), (1, flag d.sec.poolSecret.isSome),
    (8, d.sec.retained.length)]

/-- PWR_STATUS. -/
def Dev.showPower (d : Dev) : Nat :=
  packed [(3, d.pwr.point), (1, flag d.pwr.halved), (10, d.limitWatts), (10, boardWatts d.boot.straps.pwrCap), (2, d.pwr.sleep)]

/-- PWR_TELEMn. -/
def Dev.showRail (d : Dev) (i : Nat) : Nat :=
  let t := tgetD d.pwr.telem i (0, 0, 0)
  packed [(16, t.1), (16, t.2.1), (16, t.2.2)]

/-- RDB_STATUS. -/
def Dev.showReadback (d : Dev) : Nat := packed [(1, flag d.rejected), (31, flag d.audit.isSome), (32, d.lastFindings)]

/-! ### Every register -/

/-- The words of the read-only registers: register, and its value by instance and patron. -/
def Dev.liveWords (d : Dev) : List (RegRow × (Nat → Nat → Nat)) :=
  [(regPatStatus, fun _ p => d.showPatStatus p), (regPatFault, fun _ p => (d.pat p).fault), (regPatLock, fun _ p => flag (d.pat p).lock),
   (regCapVersion, fun _ _ => packed [(16, 1), (16, Config.stepping)]), (regCapGeometry, fun _ _ => d.showGeometry),
   (regCapMemory, fun _ _ => packed [(32, d.poolBytes / 2 ^ 20), (32, d.reserveMiB)]), (regCapFlash, fun _ _ => d.showFlash),
   (regCapLimits1, fun _ _ => packed [(32, 4194304), (32, sliceSlots * d.clustersIn)]),
   (regCapBootStatus, fun _ _ => packed [(4, d.boot.st.code), (4, d.boot.failStep), (8, d.boot.detail)]),
   (regCapBootMsn, fun i _ => tgetD d.boot.endMs (i + 1) 0), (regCapResetCause, fun _ _ => d.boot.cause),
   (regCapStraps, fun _ _ => d.showStraps), (regCapPoolStatus, fun _ _ => d.showPool)]
  ++ [(regTikStatus, fun _ _ => d.showTik), (regTikTime, fun _ _ => d.tim.now % 2 ^ 64), (regTikCount, fun _ _ => d.tim.count % 2 ^ 64),
   (regTikOffset, fun _ _ => (d.tim.offset % 2 ^ 64).toNat), (regHpiStatus, fun _ _ => d.showHost), (regAtnStatus, fun _ _ => d.showAttention),
   (regCatStatus, fun _ _ => d.showCatalogue), (regTirStatus, fun _ _ => d.showTiers), (regRgnStatus, fun _ _ => d.showRegions)]
  ++ [(regStkStatus, fun _ _ => d.showStacks), (regStkVoln, fun i _ => d.showVolume i), (regStkGovBalancen, fun i _ => d.showBalance i),
   (regChgStatus, fun _ _ => d.showFabric), (regChgDeadMask, fun _ _ => maskOf 64 d.isDead), (regChgEpoch, fun _ _ => d.fab.epoch),
   (regChgWingOffsetw, fun i _ => (d.fab.wingOff.getD i 0 % 2 ^ 64).toNat), (regChgDirStatus, fun _ _ => d.showDirectory),
   (regChgPortkStatus, fun i _ => d.showPort i)]
  ++ [(regTrfStatus, fun _ _ => d.showTraffic), (regFltStatus, fun _ _ => d.showFaults), (regFltLogHead, fun _ _ => d.flt.logSeq),
   (regSecStatus, fun _ _ => d.showSecurity), (regSecRcvStatus, fun _ _ => packed [(4, d.sec.rcvState), (3, d.sec.rcvCheck)]),
   (regPwrStatus, fun _ _ => d.showPower), (regPwrTempn, fun i _ => (tgetD d.pwr.temps i 0 % 2 ^ 16).toNat),
   (regPwrTelemn, fun i _ => d.showRail i), (regRdbStatus, fun _ _ => d.showReadback), (regRdbRejectOffset, fun _ _ => d.rejectOffset)]

/-- What a register shows: write-only and write-one-to-set fields read zero, but PAT_LOCK reads SETUP_LOCK (R10, R557). -/
def Dev.shows (d : Dev) (r : RegRow) (i : Nat := 0) (p : Nat := 0) : Nat :=
  match d.liveWords.find? fun e => e.1 == r with
  | some e => e.2 i p
  | none => r.fields.foldl (fun w f => if f.acc = .wo ∨ f.acc = .w1s then putBits w f.lo f.width 0 else w) (d.regWord r i p)

end Sys2Proof.Machine
end

