-- ==== Sys2Proof/Machine/BarReads.lean ====
section
/-! DEFINITION. Loads from BAR0: the readback window, the capability records and registers beside it, and reserved offsets (R10, R74 to R76, R546, R547, R557). -/

namespace Sys2Proof.Machine

/-- The absolute offset that a load from a function's BAR0 reads, outside the readback windows: the capability records are mirrored at the
start of a virtual function's BAR0; reserved space reads zero (R74–R76). -/
def barLoadAt (p off : Nat) : Option Nat :=
  if p = 0 then (if off < 0xF0000 ∨ (0x100000 ≤ off ∧ off < 0x140000) then some off else none)
  else if off < 0x1000 then some off
  else if off < 0x2000 then some (0x100000 + 0x1000 * p + (off - 0x1000))
  else none

/-- A byte of a register as it shows itself; 0 at an offset that holds none. -/
def Dev.byteAt (d : Dev) (a : Nat) : Byte :=
  match regAt a with
  | some (r, i, p) => BitVec.ofNat 8 (d.shows r i p / 256 ^ (a - r.addr i p))
  | none => 0

/-- READBACK_WINDOW_LOAD: an aligned load of 4 or 8 bytes at a BAR0 offset. Where a block is not presented, and in the window of a
patron that is DISABLED or being reset, the data is not stated and is free. -/
def execReadbackWindowLoad (p off width : Nat) (s : State) : Host.Outcome State Fault Refusal :=
  let len := width / 8
  if !(width == 32 || width == 64) || off % len != 0 then .fault .windowMisaligned else
  .next <| s.onDev fun d =>
    if !d.reached p then d else
    let free := fun (d : Dev) => let (b, d) := d.drawBytes len; d.emit (.window p b)
    match windowAt p off with
    | none => match barLoadAt p off with
      | none => d.emit (.window p (leBytes len 0))
      | some a =>
        if !d.blockOpen (blockOf a) then free d
        else d.emit (.window p ((List.range len).map fun k => d.byteAt (a + k)))
    | some o =>
      let st := (d.pat p).st
      if !d.blockOpen 14 then d
      else if st = .disabled ∨ st = .resetting then free d
      else if p ≠ 0 ∧ d.reg regRdbCtrl 0 0 1 = 0 then (d.count .winLoads p).emit (.window p (leBytes len 0))
      else
        let (n, d) := d.draw
        (d.count .winLoads p).emit (.window p (d.windowData n p o len))

end Sys2Proof.Machine
end

