-- ==== Sys2Proof/Machine/Dispatch.lean ====
section
/-! DEFINITION. Each command's meaning: one arm per constructor of `Instr`. -/

namespace Sys2Proof.Machine

def exec (i : Instr) (s : State) : Host.Outcome State Fault Refusal :=
  match i with
  | .nop d => Sys2Proof.Machine.execNop d s
  | .attend d => Sys2Proof.Machine.execAttend d s
  | .merge d => Sys2Proof.Machine.execMerge d s
  | .append d => Sys2Proof.Machine.execAppend d s
  | .adopt d => Sys2Proof.Machine.execAdopt d s
  | .fork d => Sys2Proof.Machine.execFork d s
  | .trim d => Sys2Proof.Machine.execTrim d s
  | .drop d => Sys2Proof.Machine.execDrop d s
  | .probe d => Sys2Proof.Machine.execProbe d s
  | .accession d => Sys2Proof.Machine.execAccession d s
  | .withdraw d => Sys2Proof.Machine.execWithdraw d s
  | .hint d => Sys2Proof.Machine.execHint d s
  | .stream d => Sys2Proof.Machine.execStream d s
  | .deliver d => Sys2Proof.Machine.execDeliver d s
  | .fill d => Sys2Proof.Machine.execFill d s
  | .copy d => Sys2Proof.Machine.execCopy d s
  | .compare d => Sys2Proof.Machine.execCompare d s
  | .reduce d => Sys2Proof.Machine.execReduce d s
  | .publish d => Sys2Proof.Machine.execPublish d s
  | .revoke d => Sys2Proof.Machine.execRevoke d s
  | .readback d => Sys2Proof.Machine.execReadback d s
  | .audit d => Sys2Proof.Machine.execAudit d s
  | .profileRegister d => Sys2Proof.Machine.execProfileRegister d s
  | .profileRetire d => Sys2Proof.Machine.execProfileRetire d s
  | .tickSet d => Sys2Proof.Machine.execTickSet d s
  | .patronReset d => Sys2Proof.Machine.execPatronReset d s
  | .apertureMap d => Sys2Proof.Machine.execApertureMap d s
  | .volumeFormat d => Sys2Proof.Machine.execVolumeFormat d s
  | .stacksDiscard d => Sys2Proof.Machine.execStacksDiscard d s
  | .governorSet d => Sys2Proof.Machine.execGovernorSet d s
  | .regionCreate d => Sys2Proof.Machine.execRegionCreate d s
  | .regionGrant d => Sys2Proof.Machine.execRegionGrant d s
  | .regionDestroy d => Sys2Proof.Machine.execRegionDestroy d s
  | .shaperSet d => Sys2Proof.Machine.execShaperSet d s
  | .gateSet d => Sys2Proof.Machine.execGateSet d s
  | .fwUpdate d => Sys2Proof.Machine.execFwUpdate d s
  | .deviceReset d => Sys2Proof.Machine.execDeviceReset d s
  | .powerSet d => Sys2Proof.Machine.execPowerSet d s
  | .archiveSleep d => Sys2Proof.Machine.execArchiveSleep d s
  | .sqTailDoorbell p off width value => Sys2Proof.Machine.execSqTailDoorbell p off width value s
  | .cqHeadDoorbell p off width value => Sys2Proof.Machine.execCqHeadDoorbell p off width value s
  | .eqHeadDoorbell p off width value => Sys2Proof.Machine.execEqHeadDoorbell p off width value s
  | .patLock p value => Sys2Proof.Machine.execPatLock p value s
  | .patKeepReset p value => Sys2Proof.Machine.execPatKeepReset p value s
  | .tikLengthWrite arrival value => Sys2Proof.Machine.execTikLengthWrite arrival value s
  | .tikTodNextWrite arrival value => Sys2Proof.Machine.execTikTodNextWrite arrival value s
  | .pwrWake value => Sys2Proof.Machine.execPwrWake value s
  | .secRcvCmd value => Sys2Proof.Machine.execSecRcvCmd value s
  | .fltInjectWrite offset line => Sys2Proof.Machine.execFltInjectWrite offset line s
  | .registerWrite p off width value => Sys2Proof.Machine.execRegisterWrite p off width value s
  | .readbackWindowLoad p off width => Sys2Proof.Machine.execReadbackWindowLoad p off width s
  | .msixVectorUnmask p vector => Sys2Proof.Machine.execMsixVectorUnmask p vector s
  | .apertureRead off len => Sys2Proof.Machine.execApertureRead off len s
  | .apertureWrite off bytes => Sys2Proof.Machine.execApertureWrite off bytes s
  | .apertureAtomic off op width operand compare => Sys2Proof.Machine.execApertureAtomic off op width operand compare s
  | .pcieConfigRequest p off => Sys2Proof.Machine.execPcieConfigRequest p off s
  | .functionLevelReset p => Sys2Proof.Machine.execFunctionLevelReset p s
  | .hotReset => Sys2Proof.Machine.execHotReset s
  | .vfEnableSet n => Sys2Proof.Machine.execVfEnableSet n s
  | .vfEnableClear => Sys2Proof.Machine.execVfEnableClear s
  | .busMasterClear p => Sys2Proof.Machine.execBusMasterClear p s
  | .hostLinkDown => Sys2Proof.Machine.execHostLinkDown s
  | .linkChanged width rate flit => Sys2Proof.Machine.execLinkChanged width rate flit s
  | .perstN => Sys2Proof.Machine.execPerstN s
  | .patronResetDone p => Sys2Proof.Machine.execPatronResetDone p s
  | .tickEdge e => Sys2Proof.Machine.execTickEdge e s
  | .planPhase reach => Sys2Proof.Machine.execPlanPhase reach s
  | .executePhase x => Sys2Proof.Machine.execExecutePhase x s
  | .closePhase x => Sys2Proof.Machine.execClosePhase x s
  | .deadlineExpiry landed => Sys2Proof.Machine.execDeadlineExpiry landed s
  | .tickLengthSwitch => Sys2Proof.Machine.execTickLengthSwitch s
  | .ptmExchange valid offset => Sys2Proof.Machine.execPtmExchange valid offset s
  | .timePpsEdge at_ => Sys2Proof.Machine.execTimePpsEdge at_ s
  | .timeHoldover => Sys2Proof.Machine.execTimeHoldover s
  | .timeFault => Sys2Proof.Machine.execTimeFault s
  | .timeMasterChange locked serving => Sys2Proof.Machine.execTimeMasterChange locked serving s
  | .timeAdoption t => Sys2Proof.Machine.execTimeAdoption t s
  | .gateCycleStart t => Sys2Proof.Machine.execGateCycleStart t s
  | .gateEntryChange => Sys2Proof.Machine.execGateEntryChange s
  | .descriptorFetch p ring raw host => Sys2Proof.Machine.execDescriptorFetch p ring raw host s
  | .admissionGrant => Sys2Proof.Machine.execAdmissionGrant s
  | .churn span unfinished uncorrectable => Sys2Proof.Machine.execChurn span unfinished uncorrectable s
  | .promotion span layer patron kind => Sys2Proof.Machine.execPromotion span layer patron kind s
  | .layerLanded span => Sys2Proof.Machine.execLayerLanded span s
  | .demotionAccepted span => Sys2Proof.Machine.execDemotionAccepted span s
  | .backgroundDemotion => Sys2Proof.Machine.execBackgroundDemotion s
  | .ageVisit span => Sys2Proof.Machine.execAgeVisit span s
  | .streamSlotWrite p id => Sys2Proof.Machine.execStreamSlotWrite p id s
  | .shelfFault window => Sys2Proof.Machine.execShelfFault window s
  | .heldAccessServe index => Sys2Proof.Machine.execHeldAccessServe index s
  | .persistAccept => Sys2Proof.Machine.execPersistAccept s
  | .flashProgramDone volume unit good => Sys2Proof.Machine.execFlashProgramDone volume unit good s
  | .flashSectorRead volume sector stage demand => Sys2Proof.Machine.execFlashSectorRead volume sector stage demand s
  | .blockEraseDone block good => Sys2Proof.Machine.execBlockEraseDone block good s
  | .blockVerify block passed => Sys2Proof.Machine.execBlockVerify block passed s
  | .flashScrub block stage overHalf => Sys2Proof.Machine.execFlashScrub block stage overHalf s
  | .garbageCollection volume => Sys2Proof.Machine.execGarbageCollection volume s
  | .relocation volume unit verified ageHours => Sys2Proof.Machine.execRelocation volume unit verified ageHours s
  | .dieFailed channel die => Sys2Proof.Machine.execDieFailed channel die s
  | .mediaTemperature channel die reading => Sys2Proof.Machine.execMediaTemperature channel die reading s
  | .governorRecompute => Sys2Proof.Machine.execGovernorRecompute s
  | .spanSpaceDiscard volume => Sys2Proof.Machine.execSpanSpaceDiscard volume s
  | .checkpoint elapsedMs => Sys2Proof.Machine.execCheckpoint elapsedMs s
  | .checkpointDone => Sys2Proof.Machine.execCheckpointDone s
  | .laneLock port lanes => Sys2Proof.Machine.execLaneLock port lanes s
  | .trainingTimeout port => Sys2Proof.Machine.execTrainingTimeout port s
  | .portRetryTimer port => Sys2Proof.Machine.execPortRetryTimer port s
  | .flitReceive port f => Sys2Proof.Machine.execFlitReceive port f s
  | .nakReceive port ack => Sys2Proof.Machine.execNakReceive port ack s
  | .linkIdleTimeout port => Sys2Proof.Machine.execLinkIdleTimeout port s
  | .keepaliveSend => Sys2Proof.Machine.execKeepaliveSend s
  | .fabricTimeSend => Sys2Proof.Machine.execFabricTimeSend s
  | .deadDeclaration position => Sys2Proof.Machine.execDeadDeclaration position s
  | .requestRetryTimeout tag => Sys2Proof.Machine.execRequestRetryTimeout tag s
  | .messageResendTimeout dest cls => Sys2Proof.Machine.execMessageResendTimeout dest cls s
  | .combineWindowClose line => Sys2Proof.Machine.execCombineWindowClose line s
  | .load port m => Sys2Proof.Machine.execLoad port m s
  | .readBlock port m => Sys2Proof.Machine.execReadBlock port m s
  | .store port m => Sys2Proof.Machine.execStore port m s
  | .storePartial port m => Sys2Proof.Machine.execStorePartial port m s
  | .writeBlock port m => Sys2Proof.Machine.execWriteBlock port m s
  | .atomic port m => Sys2Proof.Machine.execAtomic port m s
  | .ack port m => Sys2Proof.Machine.execAck port m s
  | .invalidate port m => Sys2Proof.Machine.execInvalidate port m s
  | .invAck port m => Sys2Proof.Machine.execInvAck port m s
  | .data port m => Sys2Proof.Machine.execData port m s
  | .done port m => Sys2Proof.Machine.execDone port m s
  | .result port m => Sys2Proof.Machine.execResult port m s
  | .message port m => Sys2Proof.Machine.execMessage port m s
  | .messageAck port m receipt => Sys2Proof.Machine.execMessageAck port m receipt s
  | .keepalive port m => Sys2Proof.Machine.execKeepalive port m s
  | .time port m offset => Sys2Proof.Machine.execTime port m offset s
  | .ident port m => Sys2Proof.Machine.execIdent port m s
  | .configRead port m => Sys2Proof.Machine.execConfigRead port m s
  | .configWrite port m => Sys2Proof.Machine.execConfigWrite port m s
  | .regionRequest port m => Sys2Proof.Machine.execRegionRequest port m s
  | .regionDone port m => Sys2Proof.Machine.execRegionDone port m s
  | .mapNotice port m => Sys2Proof.Machine.execMapNotice port m s
  | .mirrorWrite port m => Sys2Proof.Machine.execMirrorWrite port m s
  | .mirrorBlock port m => Sys2Proof.Machine.execMirrorBlock port m s
  | .revokeDrainEnd region => Sys2Proof.Machine.execRevokeDrainEnd region s
  | .headAnnounce payload => Sys2Proof.Machine.execHeadAnnounce payload s
  | .headAnnounceResend elapsedMs => Sys2Proof.Machine.execHeadAnnounceResend elapsedMs s
  | .ready payload => Sys2Proof.Machine.execReady payload s
  | .servingReport payload => Sys2Proof.Machine.execServingReport payload s
  | .poolAssembled elapsedMs => Sys2Proof.Machine.execPoolAssembled elapsedMs s
  | .poolMemberMissing elapsedMs => Sys2Proof.Machine.execPoolMemberMissing elapsedMs s
  | .lineReread offset cluster channel what reread => Sys2Proof.Machine.execLineReread offset cluster channel what reread s
  | .readingRoomScrub offset cluster channel what outcome => Sys2Proof.Machine.execReadingRoomScrub offset cluster channel what outcome s
  | .sramScrub corrected => Sys2Proof.Machine.execSramScrub corrected s
  | .sramUncorrectable row unit second requests => Sys2Proof.Machine.execSramUncorrectable row unit second requests s
  | .rowRepair channel row spare frames => Sys2Proof.Machine.execRowRepair channel row spare frames s
  | .referenceSweep => Sys2Proof.Machine.execReferenceSweep s
  | .replayLineRewrite line => Sys2Proof.Machine.execReplayLineRewrite line s
  | .flashMapReload volume segment restored => Sys2Proof.Machine.execFlashMapReload volume segment restored s
  | .clusterFault cluster checker => Sys2Proof.Machine.execClusterFault cluster checker s
  | .repairPlanReady => Sys2Proof.Machine.execRepairPlanReady s
  | .clusterSelfTestDone cluster passed outUs => Sys2Proof.Machine.execClusterSelfTestDone cluster passed outUs s
  | .dieLinkLaneFail link => Sys2Proof.Machine.execDieLinkLaneFail link s
  | .deviceFault cause hostPortOk flashOk => Sys2Proof.Machine.execDeviceFault cause hostPortOk flashOk s
  | .tamperDetect sensor => Sys2Proof.Machine.execTamperDetect sensor s
  | .entropyFail test => Sys2Proof.Machine.execEntropyFail test s
  | .watchdogExpiry core => Sys2Proof.Machine.execWatchdogExpiry core s
  | .wardenViolation check core addr => Sys2Proof.Machine.execWardenViolation check core addr s
  | .firmwareReady => Sys2Proof.Machine.execFirmwareReady s
  | .recoveryLoadDone failing => Sys2Proof.Machine.execRecoveryLoadDone failing s
  | .getVersion session payload => Sys2Proof.Machine.execGetVersion session payload s
  | .getCapabilities session payload => Sys2Proof.Machine.execGetCapabilities session payload s
  | .negotiateAlgorithms session offered payload => Sys2Proof.Machine.execNegotiateAlgorithms session offered payload s
  | .getDigests session payload => Sys2Proof.Machine.execGetDigests session payload s
  | .getCertificate session slot payload => Sys2Proof.Machine.execGetCertificate session slot payload s
  | .challenge session payload => Sys2Proof.Machine.execChallenge session payload s
  | .getMeasurements session index signed payload => Sys2Proof.Machine.execGetMeasurements session index signed payload s
  | .keyExchange session payload => Sys2Proof.Machine.execKeyExchange session payload s
  | .finish session verified => Sys2Proof.Machine.execFinish session verified s
  | .heartbeat session => Sys2Proof.Machine.execHeartbeat session s
  | .keyUpdate session => Sys2Proof.Machine.execKeyUpdate session s
  | .endSession session => Sys2Proof.Machine.execEndSession session s
  | .chunkSend session last chunk => Sys2Proof.Machine.execChunkSend session last chunk s
  | .chunkGet session seq => Sys2Proof.Machine.execChunkGet session seq s
  | .spdmUnsupportedRequest session code => Sys2Proof.Machine.execSpdmUnsupportedRequest session code s
  | .keySet session payload => Sys2Proof.Machine.execKeySet session payload s
  | .poolSecretSet session payload => Sys2Proof.Machine.execPoolSecretSet session payload s
  | .debugChallenge session payload => Sys2Proof.Machine.execDebugChallenge session payload s
  | .debugUnlock session payload verified ageS => Sys2Proof.Machine.execDebugUnlock session payload verified ageS s
  | .bootRom straps ms => Sys2Proof.Machine.execBootRom straps ms s
  | .firmwareLoad image ms => Sys2Proof.Machine.execFirmwareLoad image ms s
  | .stackTraining failing ms => Sys2Proof.Machine.execStackTraining failing ms s
  | .flashDiscovery media ms => Sys2Proof.Machine.execFlashDiscovery media ms s
  | .chaigTraining locked ms => Sys2Proof.Machine.execChaigTraining locked ms s
  | .neighbourExchange idents ms => Sys2Proof.Machine.execNeighbourExchange idents ms s
  | .timeAlignment source ms => Sys2Proof.Machine.execTimeAlignment source ms s
  | .mapLoad clean powerLoss replayed recoveryMs ms => Sys2Proof.Machine.execMapLoad clean powerLoss replayed recoveryMs ms s
  | .regionRestore ms => Sys2Proof.Machine.execRegionRestore ms s
  | .durableReconciliation peers ms => Sys2Proof.Machine.execDurableReconciliation peers ms s
  | .servingStep ms => Sys2Proof.Machine.execServingStep ms s
  | .resetNAssert lowNs => Sys2Proof.Machine.execResetNAssert lowNs s
  | .resetPrepareDone => Sys2Proof.Machine.execResetPrepareDone s
  | .mctpResetRequest => Sys2Proof.Machine.execMctpResetRequest s
  | .mctpWake asleepMs => Sys2Proof.Machine.execMctpWake asleepMs s
  | .mctpTodWrite arrival value => Sys2Proof.Machine.execMctpTodWrite arrival value s
  | .wakeAt asleepMs => Sys2Proof.Machine.execWakeAt asleepMs s
  | .suppliesRemoved => Sys2Proof.Machine.execSuppliesRemoved s
  | .pwrFailN lowNs => Sys2Proof.Machine.execPwrFailN lowNs s
  | .pwrFailSequenceEnd railsOk => Sys2Proof.Machine.execPwrFailSequenceEnd railsOk s
  | .powerEvaluation p => Sys2Proof.Machine.execPowerEvaluation p s
  | .operatingPointStep => Sys2Proof.Machine.execOperatingPointStep s
  | .regulatorPoll rail valid status mv current temp removed => Sys2Proof.Machine.execRegulatorPoll rail valid status mv current temp removed s
  | .thermalSample readings => Sys2Proof.Machine.execThermalSample readings s
  | .thermalTrip sensor reading => Sys2Proof.Machine.execThermalTrip sensor reading s
  | .channelPowerDown channel => Sys2Proof.Machine.execChannelPowerDown channel s
  | .hostLinkUp width rate flit => Sys2Proof.Machine.execHostLinkUp width rate flit s
  | .firmwareOperationDone => Sys2Proof.Machine.execFirmwareOperationDone s
  | .doeDiscovery index => Sys2Proof.Machine.execDoeDiscovery index s
  | .jtagInstruction kind => Sys2Proof.Machine.execJtagInstruction kind s

end Sys2Proof.Machine
end

