-- ==== Sys2Proof/Safety.lean ====
section
/-! DEFINITION. The terms in which claims are stated: a command that completes, what it changes and leaves alone, the request a
descriptor row makes, and the commands that end with nothing. -/

namespace Sys2Proof.Safety

open Sys2Proof.Machine

/-- The step answers a next state. -/
def Runs (s : State) : Prop := ∃ t, step s = .next t

/-- The command answers a next state of which a property holds. -/
def After (c : Instr) (s : State) (P : State → Prop) : Prop := ∃ t, exec c s = .next t ∧ P t

/-- The kinds of state of the device, for saying what a command leaves alone. -/
inductive Part where
  /-- Set-up registers. -/
  | regs
  /-- What the register port keeps besides: writes that wait, the rejected write, the AUDIT in progress. -/
  | port
  /-- Counters. -/
  | ctrs
  /-- The output log. -/
  | out
  /-- The number of free draws. -/
  | free
  /-- Time, without the arbiters. -/
  | tim
  /-- The pointers of the rotating-priority arbiters. -/
  | arbs
  /-- The host link and the patrons, without their completion and event rings. -/
  | host
  /-- The patrons' completion and event rings. -/
  | rings
  | adm
  | seqs
  | cat
  | tier
  | stk
  | fab
  | rgn
  /-- Faults, without the event log. -/
  | flt
  /-- The event log, with the map of its lines. -/
  | log
  | sec
  | boot
  | pwr
  deriving DecidableEq, Repr

/-- Two devices agree on a part. -/
def Part.same (p : Part) (d e : Dev) : Prop :=
  match p with
  | .regs => e.regs = d.regs
  | .port => e.pendRegs = d.pendRegs ∧ e.lowHalf = d.lowHalf ∧ e.rejected = d.rejected ∧ e.rejectOffset = d.rejectOffset
      ∧ e.audit = d.audit ∧ e.lastFindings = d.lastFindings
  | .ctrs => e.ctrs = d.ctrs
  | .out => e.out = d.out
  | .free => e.free = d.free
  | .tim => { e.tim with arbs := [] } = { d.tim with arbs := [] }
  | .arbs => e.tim.arbs = d.tim.arbs
  | .host => { e.host with patrons := [] } = { d.host with patrons := [] }
      ∧ ∀ p, { e.pat p with cq := [], eq := {} } = { d.pat p with cq := [], eq := {} }
  | .rings => ∀ p, (e.pat p).cq = (d.pat p).cq ∧ (e.pat p).eq = (d.pat p).eq
  | .adm => e.adm = d.adm
  | .seqs => e.seqs = d.seqs
  | .cat => e.cat = d.cat
  | .tier => e.tier = d.tier
  | .stk => e.stk = d.stk
  | .fab => e.fab = d.fab
  | .rgn => e.rgn = d.rgn
  | .flt => { e.flt with reserve := [], tables := [], log := [], logSeq := 0, logHeld := [] }
      = { d.flt with reserve := [], tables := [], log := [], logSeq := 0, logHeld := [] }
  | .log => e.flt.reserve = d.flt.reserve ∧ e.flt.tables = d.flt.tables ∧ e.flt.log = d.flt.log ∧ e.flt.logSeq = d.flt.logSeq
      ∧ e.flt.logHeld = d.flt.logHeld
  | .sec => e.sec = d.sec
  | .boot => e.boot = d.boot
  | .pwr => e.pwr = d.pwr

/-- Every part outside a list is as it was. -/
structure Frame (ps : List Part) (d e : Dev) : Prop where
  same : ∀ p, p ∉ ps → p.same d e

/-- Nothing changes but some parts of the device: the queue and every byte of pool memory are as they were. -/
def Changes (ps : List Part) (s t : State) : Prop := t.pending = s.pending ∧ t.mem = s.mem ∧ Frame ps s.dev t.dev

/-- What writing an event changes: the output, the ring, the log, the arbiter that serialises the writers, the counters of what
is lost. -/
def evParts : List Part := [.out, .ctrs, .arbs, .rings, .log]

/-- An event was logged between two devices (R466): the log's running number rose by one, and with every cluster in service the
entry at its place names the event's code and data, the time and the tick. -/
def EventOn (code d0 d1 : Nat) (d e : Dev) : Prop :=
  e.flt.logSeq = d.flt.logSeq + 1 ∧ (d.flt.out = [] → ∃ i : LogInfo,
    tget e.flt.log (d.flt.logSeq % logSlots) = some (logBytes d.flt.logSeq d.tim.now d.tim.count code d0 d1 i))

/-- An event was logged. -/
def Event (code d0 d1 : Nat) (s t : State) : Prop := EventOn code d0 d1 s.dev t.dev

/-- What of an SPDM response the manual leaves to the DMTF's documents: the next free payload. -/
def freeOctets (s : State) (session code : Nat) : Out := .spdm session code (.free s.dev.free (Config.spdmOctets s.dev.free))

/-- A message that arrives through a port is taken: the router is on, the message well formed, its origin admitted (R351, R394). -/
def Taken (s : State) (port code : Nat) (m : Msg) : Prop :=
  s.dev.fabOn = true ∧ msgOk code m = true ∧ s.dev.originOk port code m = true

/-- A message with a property left toward a device, or waits at egress for it. -/
def Sends (dest code : Nat) (P : Msg → Prop) (t : State) : Prop :=
  ∃ m, P m ∧ (Out.chaig dest code m ∈ t.dev.out ∨ (dest, code, m) ∈ t.dev.fab.egress)

/-- A home can serve a request at once: it holds the region as its primary, in service, refuses nothing, every unit is resident, no
line is poisoned, and no line is under invalidation. -/
structure HomeReady (s : State) (code : Nat) (m : Msg) (r : Region) : Prop where
  region : s.dev.regionOf m.addr = some r
  primary : r.mirror = false
  served : s.dev.flt.out = []
  allowed : s.dev.homeRefuses code m = none
  resident : s.dev.awaitsUnit m.addr (reqLines code m) = []
  clean : s.dev.poisonStops code m = none
  quiet : ∀ i, i < reqLines code m → (s.dev.dirEnts (dirSet (m.addr % 2 ^ 50 / 64 + i))).length < 16
    ∧ ∀ e ∈ s.dev.dirEnts (dirSet (m.addr % 2 ^ 50 / 64 + i)), e.inval = false ∧ e.line < 2 ^ 44

/-- A home serves a request of another device that arrives, at once: nothing of the ordered channel waits before one of that channel. -/
structure HomeServes (s : State) (port code : Nat) (m : Msg) (r : Region) : Prop where
  taken : Taken s port code m
  opened : s.dev.regionOpen = true
  ordered : m.vc = 4 → s.dev.ordHeld = []
  remote : srcDev m.source ≠ s.dev.devNo
  ready : HomeReady s code m r

/-- Every response that is held at the home still awaits something. -/
def calm (s : State) : Prop := ∀ h ∈ s.dev.fab.heldRsp, h.lines ≠ [] ∨ h.accept ≠ [] ∨ h.mirror ≠ []

/-- A home serves an update that it sees for the first time: of a region that is neither persisted nor durable, whose units are
allocated, with no window open at home ingress. -/
structure HomeWrites (s : State) (port code : Nat) (m : Msg) (r : Region) : Prop where
  serves : HomeServes s port code m r
  memory : Memory.wf s.mem = true
  slots : m.slots.length % 16 = 0
  waiting : calm s
  once : m.retry = false ∧ tget s.dev.fab.replayA (m.source * 65536 + m.tag) = none ∧ tget s.dev.fab.replayS (m.source * 65536 + m.tag) = none
  plain : r.persist = false ∧ r.durable = false
  units : ∀ i, i < (unitRun m.addr (reqLines code m)).2 →
    (tget s.dev.rgn.units (unitKey (slotOf m.addr) ((unitRun m.addr (reqLines code m)).1 + i))).isSome = true
  windows : s.dev.fab.homeComb = []

/-- No other device is to be told of a write: no line of it has holders, and the region is not a reference region. -/
def unshared (s : State) (code : Nat) (m : Msg) (r : Region) : Prop :=
  r.kind ≠ 2 ∧ ∀ i, i < reqLines code m → s.dev.dirEnts (dirSet (m.addr % 2 ^ 50 / 64 + i)) = []

/-! ### Descriptor rows -/

/-- The request that a descriptor row makes, granted at once, and the device that holds it: an entry of the completion ring
is reserved, the running numbers advance. -/
def granted (s : State) (op : Nat) (x : DescIn) : Req × Dev :=
  let r := s.dev.takeReq x op ((s.dev.pat x.patron).sqAt x.ring).head
  ({ r.1 with admTick := r.2.tim.count, dl := r.2.deadlineOf r.1, stage := 2 }, r.2)

/-- A descriptor runs at once: its ring may be fetched, its completion ring has room, it passes the checks at fetch, its
deadline tick has not ended, and no earlier edit of its sequence is held. -/
structure Grants (s : State) (op : Nat) (x : DescIn) : Prop where
  runs : s.dev.ringRuns x.patron x.ring = true
  room : s.dev.cqRoom x.patron (s.dev.boundCq x.patron x.ring) = true
  form : (granted s op x).2.fetchCheck op x = none
  timely : (granted s op x).2.expired (granted s op x).1 = false
  first : behind (granted s op x).2.adm.held (granted s op x).1 = false

/-- The request that a fetch of some ring entries makes, and the device that holds it: the ring's head has moved past them. -/
def fetched (s : State) (p ring : Nat) (b : List Byte) (h : HostView) : Req × Dev :=
  let sq := (s.dev.pat p).sqAt ring
  let x := descOf p ring b h
  let depth := s.dev.sqDepth p ring
  let idx := (List.range (x.entries + 1)).map fun i => (sq.head + i) % depth
  (s.dev.modSq p ring fun r => { r with
    head := (sq.head + (x.entries + 1)) % depth, marks := r.marks.filter fun i => !idx.contains i, lastTick := s.dev.tim.count }).takeReq
      x (fieldOf b 0 1) sq.head

/-- The device whose records a READBACK writes: the READBACK itself is outstanding while it executes. -/
def readingDev (s : State) (x : DescIn) : Dev :=
  let g := granted s 0x40 x
  { g.2 with free := g.2.free + 1, adm := { g.2.adm with planned := { g.1 with stage := 5 } :: g.2.adm.planned } }

/-- An edit runs at once: its descriptor does, its plan finds its frames, on the device that then holds, and what it reads or writes lies
in clusters in service. -/
structure Planned (s : State) (op : Nat) (x : DescIn) (d : Dev) : Prop where
  grants : Grants s op x
  served : d.fenced (granted s op x).1 = false
  ready : (granted s op x).2.planOne (granted s op x).2.adm.held (granted s op x).1 = .ready d

/-- Every patron but one, and the host port without its patrons, are as they were. -/
def OthersKept (p : Nat) (s t : State) : Prop :=
  (∀ q, q ≠ p → t.dev.pat q = s.dev.pat q) ∧ { t.dev.host with patrons := [] } = { s.dev.host with patrons := [] }

/-- A completion with this answer is due for a request, after a read of each peer that its outputs went to (R98). -/
def Answered (q : Req) (a : Ans) (t : State) : Prop := ∃ ps, { q.due a t.dev.tim.count with peers := ps } ∈ t.dev.adm.due

/-- A completion with this answer is due for a request when firmware finishes. -/
def AnsweredFw (q : Req) (a : Ans) (t : State) : Prop := ∃ ps, { q.due a t.dev.tim.count with peers := ps } ∈ t.dev.adm.fw

/-- The spans of a request's first walk. -/
def firstSpans (q : Req) : List Nat := (q.walks.head?.map fun (w : Walk) => w.spans).getD []

/-- A DELIVER of folios that has begun its walk: the device that holds it, and the request with its walk. -/
structure Delivers (s : State) (x : DescIn) (d : Dev) (q : Req) : Prop where
  grants : Grants s 0x22 x
  folios : x.fld 0 0 1 = 1
  noWeights : x.fld 0 1 1 = 0
  plan : (granted s 0x22 x).2.deliverPlan (granted s 0x22 x).1 = (d, q, none)
  served : d.fenced q = false
  present : (firstSpans q).findIdx? d.vacantAt = none
  resident : d.awaited (x.fld 2 0 16 + x.fld 4 0 16 - 1) (firstSpans q) = []
  clean : d.flt.frames = [] ∧ ∀ i ∈ firstSpans q, d.blockPoisoned 0 i = false
  fits : ∀ b ∈ (({ s with dev := d }).deliverBlocks q (firstSpans q) []).1, b.1 + b.2.length ≤ x.outLen 32
  taken : x.refuses 32 = false

/-- An ATTEND that has begun its walks and can compute: the device that holds it, and the request with its walks. Every span it reads is
resident and holds nothing poisoned or damaged, and its buffers are accepted. -/
structure Attends (s : State) (x : DescIn) (d : Dev) (q : Req) : Prop where
  grants : Grants s 0x01 x
  plan : ((granted s 0x01 x).2.follow (granted s 0x01 x).1).attendPlan (granted s 0x01 x).1 = (d, q, none)
  served : d.fenced q = false
  resident : ∀ ss, ss = (d.attendViews q).flatMap (fun v => (v.reads x).map (·.2)) →
    (d.deepLead x.patron (atnLayer x) ss (some (q.admTick, q.admNo))).awaited (atnLayer x) ss = [] ∧ ∀ i ∈ ss, ∀ y, d.span? i = some y → y.damaged = false
  clean : d.flt.frames = []
  taken : x.refuses 64 = false ∧ ((x.buf 80).absent = true ∨ x.refuses 80 = false)

/-- A region operation or near-memory operation runs at this device: it is the region's home, with a record of it. -/
def HomeHere (s : State) (id : Nat) (r : Region) : Prop :=
  s.dev.servesRegion id = s.dev.devNo ∧ s.dev.regionOf (regionAddr id) = some r

/-- A near-memory operation can run here at once: its extents are mapped and this device's own, permitted at the home, with their
units resident in clusters in service, and no line of theirs poisoned. -/
structure NearHere (s : State) (op : Nat) (x : DescIn) : Prop where
  grants : Grants s op x
  mapped : s.dev.extentRefused x.patron (nearLen x)
    ((nearWrites op x).map (fun e => (e.1, e.2, 1)) ++ (nearReads op x).map fun e => (e.1, e.2, 0)) = none
  pool : ¬(op = 0x31 ∧ (hostSrc x || hostDst x) = true)
  home : s.dev.servesRegion (addrRegion (nearDst x)) = s.dev.devNo
  own : ∀ a ∈ (nearReads op x).map (·.1) ++ (nearWrites op x).map (·.1), (s.dev.regionOf a).isSome = true ∧ addrDev a = s.dev.devNo
    ∧ s.dev.fencedUnit a (nearLen x / 64) = false ∧ s.dev.awaitsUnit a (nearLen x / 64) = []
  allowed : ∀ (a : Nat) (w : Bool), a ∈ ((if w then nearWrites op x else nearReads op x).map (·.1)) →
    s.dev.homeRefuses (if w then 0x0A else 0x03) { source := s.dev.devNo + 64 * x.patron, addr := a, arg := nearLen x / 64 - 1 } = none
  clean : s.dev.flt.lines = [] ∧ ∀ a ∈ (nearReads op x).map (·.1), ∀ b ∈ extentLines (nearLen x) a, s.dev.linePoisoned (b % 2 ^ 50 / 64) = false

/-- The device after an allocation of the units of a run that are not there yet, where there is room for all without a victim. -/
def spaceFor (d : Dev) (x first : Nat) (r : Region) : Nat → Option Dev
  | 0 => some d
  | n + 1 => (spaceFor d x first r n).bind fun d =>
    if (tget d.rgn.units (unitKey x (first + n))).isSome then some d else d.allocUnit x (first + n) r

/-- The bytes of a pool extent of this device. -/
def poolBytesAt (s : State) (addr n : Nat) : List Byte := memRead s.mem (addr % 2 ^ 50) n

end Sys2Proof.Safety
end

