-- ==== Sys2Proof/Certificates/Slice0/Obligations.lean ====
section
/-! DEFINITION. The statements for the provers. -/

open Sys2Proof Sys2Proof.Machine Sys2Proof.Safety

/-- A step runs the command at the front of the queue, on the state with the queue's rest, and nothing else. -/
def Obligations.StepRunsFront : Prop :=
  ∀ (c : Instr) (s : State), step { s with pending := c :: s.pending } = exec c s

/-- The block idles on an empty queue (the model's choice, assumption 4). -/
def Obligations.EmptyQueueIdles : Prop :=
  ∀ s : State, s.pending = [] → step s = .next s

/-- A command never puts a command into the queue or takes one out of it: the queue is outside the block (derived from the
form of the model; every row's effect in the spec is on the block's own state). -/
def Obligations.QueueUntouched : Prop :=
  ∀ (c : Instr) (s t : State), exec c s = .next t → t.pending = s.pending

/-- Every step from every state keeps pool memory in its canonical form: addresses strictly rising, no listed zero. -/
def Obligations.MemoryFormKept : Prop :=
  ∀ s t : State, Memory.wf s.mem = true → step s = .next t → Memory.wf t.mem = true

/-- After reset no byte of pool memory is listed, no command waits, and the memory is in its form. -/
def Obligations.ResetHoldsNothing : Prop :=
  State.reset.pending = [] ∧ State.reset.mem = [] ∧ Memory.wf State.reset.mem = true

/-- Every command completes, but for a register store or window load of a shape the register port does not have (assumption on
access shapes) and a debug-port instruction to the device's inside once debug is unlocked, whose effect the spec does not give. -/
def Obligations.EveryOtherRowCompletes : Prop :=
  ∀ (c : Instr) (s : State), (∀ a o v w, c ≠ .registerWrite a o v w) → (∀ a o w, c ≠ .readbackWindowLoad a o w)
    → (∀ k, c ≠ .jtagInstruction k) → ∃ t, exec c s = .next t

/-- Length and time-of-day writes (R43, R34): a TIK_LENGTH write in range before SETUP_LOCK is stored and waits for its edge; after
SETUP_LOCK it is discarded; a length out of 5 to 500 is refused and its offset shown; a time of day is kept for the next edge. -/
def Obligations.TimeRegisterRows : Prop :=
  ∀ (s : State) (a v : Nat), s.dev.reached 0 = true → s.dev.blockOpen 1 = true →
    ((s.dev.pat 0).lock = false → 5 ≤ v → v ≤ 500 → planFits (s.dev.reg regTikPlanLen) v = true → s.dev.follower = false →
      After (.tikLengthWrite a v) s fun t =>
        t.dev.tim = { s.dev.tim with pend := some { len := v, plan := none, switchAt := a } } ∧ t.dev.reg regTikLength = v
        ∧ t.dev.tim.len = s.dev.tim.len ∧ Changes [.tim, .regs] s t) ∧
    ((s.dev.pat 0).lock = true → exec (.tikLengthWrite a v) s = .next s) ∧
    ((s.dev.pat 0).lock = false → v < 512 → (v < 5 ∨ 500 < v) → After (.tikLengthWrite a v) s fun t =>
      t.dev.rejected = true ∧ t.dev.rejectOffset = 0x10008 ∧ t.dev.tim = s.dev.tim ∧ Changes [.port, .ctrs] s t) ∧
    (v < 2 ^ 64 → s.dev.timeSource ≠ 3 → After (.tikTodNextWrite a v) s fun t =>
      t.dev.tim = { s.dev.tim with tod := s.dev.tim.tod ++ [(a, v)], freeLoaded := false } ∧ t.dev.reg regTikTodNext = v ∧ Changes [.tim, .regs] s t)

/-- The time of day from board management (R509): it is kept as a write of TIK_TOD_NEXT is, whether or not the host is there. -/
def Obligations.MctpTimeRow : Prop :=
  ∀ (s : State) (a v : Nat), v < 2 ^ 64 → s.dev.timeSource ≠ 3 → s.dev.boot.st ≠ .off → s.dev.boot.st ≠ .tamperHold →
    After (.mctpTodWrite a v) s fun t =>
      t.dev.tim = { s.dev.tim with tod := s.dev.tim.tod ++ [(a, v)], freeLoaded := false } ∧ t.dev.reg regTikTodNext = v ∧ Changes [.tim, .regs] s t

/-- The new length takes effect at its edge and not before (R44): on an edge that satisfies the rule TICK_LENGTH_SWITCH puts length
and plan length in force, shows them in the registers and reports TICK_CHANGED; on any other edge it changes nothing. -/
def Obligations.TickLengthSwitches : Prop :=
  ∀ (s : State) (p : PendLen), s.dev.tim.pend = some p →
    (s.dev.tim.switches p = true → s.dev.follower = false → p.len < 512 → (p.plan.getD s.dev.tim.plan) < 64 →
      After .tickLengthSwitch s fun t =>
        t.dev.tim.len = p.len ∧ t.dev.tim.plan = p.plan.getD s.dev.tim.plan ∧ t.dev.tim.pend = none
        ∧ t.dev.reg regTikLength = p.len ∧ t.dev.reg regTikPlanLen = p.plan.getD s.dev.tim.plan ∧ t.dev.tim.count = s.dev.tim.count
        ∧ t.dev.tim.now = s.dev.tim.now ∧ Event 0x0012 p.len s.dev.tim.count s t ∧ Changes (.tim :: .regs :: .host :: evParts) s t) ∧
    (s.dev.tim.switches p = false → exec .tickLengthSwitch s = .next s)

/-- Corrections (R36, R38, R39, R40): an exchange or a PPS edge of the own source sets the measured offset; the third good one in a
row locks; an offset above 2 µs is absorbed by the length of ticks; without corrections the device is in holdover, after 10 s in
time fault, each reported once. -/
def Obligations.TimeCorrections : Prop :=
  ∀ s : State, s.dev.tim.ticking = true → s.dev.tim.provisional = false →
    (∀ off : Int, s.dev.timeSource = 0 → off.natAbs ≤ 50 → s.dev.tim.good = 2 → After (.ptmExchange true off) s fun t =>
      t.dev.tim.offset = off ∧ t.dev.tim.locked = true ∧ t.dev.tim.good = 3 ∧ t.dev.tim.missed = 0 ∧ t.dev.tim.holdover = false
      ∧ t.dev.tim.slew = off ∧ t.dev.tim.coarse = false ∧ t.dev.tim.faultBit = false ∧ t.dev.tim.now = s.dev.tim.now
      ∧ t.dev.tim.count = s.dev.tim.count ∧ Changes [.tim] s t) ∧
    (∀ off : Int, s.dev.timeSource = 0 → 2000 < off.natAbs → After (.ptmExchange true off) s fun t =>
      t.dev.tim.slew = off ∧ t.dev.tim.coarse = true ∧ t.dev.tim.locked = false ∧ t.dev.tim.good = 0 ∧ Changes [.tim] s t) ∧
    (∀ off : Int, s.dev.timeSource = 0 → s.dev.tim.missed = 0 → After (.ptmExchange false off) s fun t =>
      t.dev.tim = { s.dev.tim with missed := 1 } ∧ Changes [.tim] s t) ∧
    (∀ a v, s.dev.timeSource = 1 → s.dev.tim.todAt a = some v → After (.timePpsEdge a) s fun t =>
      t.dev.tim.offset = (10 ^ 9 * v : Nat) - (a : Int) ∧ t.dev.tim.todPrev = some v
      ∧ t.dev.tim.tod = s.dev.tim.tod.filter (fun x => !decide (x.1 + 10 ^ 8 ≤ a)) ∧ Changes [.tim] s t) ∧
    (s.dev.timeSource ≠ 3 → s.dev.tim.holdover = false → After .timeHoldover s fun t =>
      t.dev.tim.holdover = true ∧ t.dev.tim.holdoverAt = s.dev.tim.now ∧ t.dev.tim.locked = false
      ∧ Event 0x0010 (ofSigned 64 s.dev.tim.offset) 0 s t ∧ Changes (.tim :: evParts) s t) ∧
    (s.dev.tim.holdover = true → s.dev.tim.faultSent = false → After .timeFault s fun t =>
      t.dev.tim.faultBit = true ∧ t.dev.tim.holdover = true ∧ Event 0x0011 (max (10 ^ 10) (s.dev.tim.now - s.dev.tim.holdoverAt)) 0 s t
      ∧ Changes (.tim :: evParts) s t) ∧
    (s.dev.tim.holdover = false → exec .timeFault s = .next s)

/-- The wing's time (R35, R37, R42, R509): the next position with a locked source becomes master; the first correction of a master
on provisional time waits for the next edge while no patron is ACTIVE; the master sends its time over every port that is UP; a
follower that does not tick yet takes the length. -/
def Obligations.WingTimeRows : Prop :=
  ∀ s : State, s.dev.wingMode = true →
    (∀ (x : Nat) (l m : List Nat), nextPosition s.dev.tim.masterPos l = some x → After (.timeMasterChange l m) s fun t =>
      t.dev.tim.masterPos = x ∧ t.dev.tim.master = decide (x = s.dev.pos) ∧ t.dev.tim.count = s.dev.tim.count
      ∧ t.dev.flt.logSeq = s.dev.flt.logSeq + 1 ∧ Changes [.tim, .free, .log, .ctrs] s t) ∧
    (∀ t0 : Nat, s.dev.tim.master = true → s.dev.tim.ticking = true → s.dev.tim.provisional = true → s.dev.tim.adopted = false →
      s.dev.anyActive = false → s.dev.tim.adopt = none → After (.timeAdoption t0) s fun t =>
        t.dev.tim = { s.dev.tim with missed := 0, holdover := false, adopt := some ((t0 : Int) - s.dev.tim.now, 0) } ∧ Changes [.tim] s t) ∧
    (s.dev.tim.master = true → s.dev.tim.ticking = true → s.dev.fabOn = true → After .fabricTimeSend s fun t =>
      (∀ k, k < 15 → s.dev.portUp k = true → Sends (16 * s.dev.wing + meshPartner s.dev.pos k) 0x39
        (fun m => m.slots = s.dev.timePayload ∧ m.source = s.dev.devNo) t) ∧ Changes [.out, .fab, .ctrs, .adm] s t) ∧
    (∀ (port : Nat) (m : Msg) (off : Int), Taken s port 0x39 m → srcDev m.source / 16 = s.dev.wing →
      srcDev m.source ≠ s.dev.devNo → srcDev m.source % 16 = s.dev.tim.masterPos → s.dev.tim.ticking = false →
      fieldOf m.slots 16 2 ≠ 0 → After (.time port m off) s fun t =>
        t.dev.tim = { s.dev.tim with len := fieldOf m.slots 16 2 } ∧ Changes [.tim] s t)

/-- Gate cycles (R427, R428): a list that waits is taken at its first cycle start from now on, a cycle start begins with entry 0,
the next entry follows, and the last stays in force. -/
def Obligations.GateRows : Prop :=
  ∀ s : State,
    (∀ (g : GateList) (n : Nat), s.dev.adm.gatePend = some g → g.period ≠ 0 → g.startAt n = n → s.dev.tim.now ≤ n →
      After (.gateCycleStart n) s fun t =>
        t.dev.adm = { s.dev.adm with gates := g, gatePend := none, cycleStart := n, gateEntry := 0 } ∧ Changes [.adm, .ctrs] s t) ∧
    (∀ n, s.dev.adm.gatePend = none → s.dev.adm.gates.period ≠ 0 → s.dev.adm.gates.startAt n = n → s.dev.adm.cycleStart < n →
      After (.gateCycleStart n) s fun t =>
        t.dev.adm = { s.dev.adm with cycleStart := n, gateEntry := 0 } ∧ Changes [.adm, .ctrs] s t) ∧
    (s.dev.adm.gates.period ≠ 0 → s.dev.adm.gateEntry + 1 < s.dev.adm.gates.entries.length → After .gateEntryChange s fun t =>
      t.dev.adm = { s.dev.adm with gateEntry := s.dev.adm.gateEntry + 1 } ∧ Changes [.adm] s t) ∧
    (s.dev.adm.gates.entries.length ≤ s.dev.adm.gateEntry + 1 → exec .gateEntryChange s = .next s)

/-- Control rows that complete at once: NOP with no effect (R87), TICK_SET (a pending length and plan, R45), APERTURE_MAP (the
slot's register, R110), GATE_SET with a period (the list that waits, R427), SHAPER_SET of a quantum (the register's next value,
R440) and DEVICE_RESET naming the boot epoch (R503). -/
def Obligations.ControlRowsComplete : Prop :=
  ∀ (s : State) (x : DescIn),
    (Grants s 0x00 x → After (.nop x) s fun t =>
      Answered (granted s 0x00 x).1 {} t ∧ Changes [.adm, .rings, .ctrs] s t) ∧
    (Grants s 0x80 x → After (.tickSet x) s fun t =>
      t.dev.tim.pend = some { len := x.fld 0 0 16, plan := some (x.fld 2 0 16), switchAt := x.fld 8 0 64 }
      ∧ Answered (granted s 0x80 x).1 {} t ∧ Changes [.adm, .rings, .ctrs, .tim] s t) ∧
    (Grants s 0x82 x → After (.apertureMap x) s fun t =>
      t.dev.regWord regHpiAptSlots (x.fld 0 0 6) = x.fld 1 0 6 + 64 * x.fld 1 6 1 + 2 ^ 64 * x.fld 8 0 64
      ∧ Answered (granted s 0x82 x).1 {} t ∧ Changes [.adm, .rings, .ctrs, .regs] s t) ∧
    (Grants s 0x8A x → x.fld 0 0 32 ≠ 0 → After (.gateSet x) s fun t =>
      ∃ g : GateList, g.period = x.fld 0 0 32 ∧ g.phase = x.fld 4 0 32 ∧ g.entries = gateEntries (x.input 0 16) (x.fld 8 0 7)
        ∧ t.dev.adm.gatePend = some g ∧ t.dev.adm.gates = s.dev.adm.gates
        ∧ Answered (granted s 0x8A x).1 { r0 := g.nextStart s.dev.tim.now } t ∧ Changes [.adm, .rings, .ctrs] s t) ∧
    (Grants s 0x89 x → x.fld 0 6 1 = 0 → x.fld 1 0 4 = 10 → After (.shaperSet x) s fun t =>
      (regTrfQuantump.addr (x.fld 0 0 6), x.fld 4 0 32) ∈ t.dev.pendRegs
      ∧ Answered (granted s 0x89 x).1
          { r0 := tgetD s.dev.adm.deficit (x.fld 0 0 6) 0, r1 := (s.dev.tim.count + 1) % 2 ^ 32 } t
      ∧ Changes [.adm, .rings, .ctrs, .port] s t) ∧
    (Grants s 0x8C x → x.fld 0 0 32 = s.dev.fab.epoch → After (.deviceReset x) s fun t =>
      t.dev.boot = { s.dev.boot with resetDue := true }
      ∧ Answered (granted s 0x8C x).1 {} t ∧ Changes [.adm, .rings, .ctrs, .boot] s t)

/-- Rows of archive, governor, volumes and firmware. POWER_SET with ACTION 2 stores the limit and firmware answers with the watts in force
(R531); with ACTION 1 (ARCHIVE_SLEEP), with no other patron ACTIVE and no live region, it holds the sleep and WAKE_AT and answers at once
(R532). GOVERNOR_SET of an existing volume with both fields non-zero sets its life and rated cycles, has its budget recomputed and
answers with it (R335). VOLUME_FORMAT that names the volume's FORMAT_ID, with no live region backed by it, removes the volume with DELETE;
without DELETE, when no other volume overlaps its dies and the volume is not write-protected, it makes an empty volume of the KIND,
parity scheme and dies asked for, with a new non-zero FORMAT_ID, and answers with that and the capacity (R333). FW_UPDATE of an image that
passes, with none in progress, stages it (R487). STACKS_DISCARD inside a persisted region by its owner unmaps every sector of the range in
every REGION volume and answers with the number that were mapped (R334). Each leaves every part it does not name, the queue and pool
memory as they were. -/
def Obligations.FirmwareRowsComplete : Prop :=
  ∀ (s : State) (x : DescIn),
    (Grants s 0x8D x → x.fld 0 0 2 = 2 → x.fld 2 0 16 < 1024 → After (.powerSet x) s fun t =>
      t.dev.reg regPwrLimit = x.fld 2 0 16 ∧ AnsweredFw (granted s 0x8D x).1 { r0 := t.dev.limitWatts } t
      ∧ Changes [.adm, .rings, .ctrs, .regs] s t) ∧
    (Grants s 0x8D x → x.fld 0 0 2 = 1 → s.dev.liveRegions = 0 → (∀ e ∈ s.dev.host.patrons, e.1 = 0 ∨ e.2.st ≠ .active) →
      After (.archiveSleep x) s fun t =>
        t.dev.pwr = { s.dev.pwr with sleep := 1, wakeAt := x.fld 8 0 64 }
        ∧ Answered (granted s 0x8D x).1 {} t ∧ Changes [.adm, .rings, .ctrs, .pwr] s t) ∧
    (∀ v : Volume, Grants s 0x85 x → s.dev.vol? x.object = some v → x.fld 0 0 16 ≠ 0 → x.fld 4 0 32 ≠ 0 →
      After (.governorSet x) s fun t =>
        (∃ w : Volume, t.dev.vol? x.object = some w ∧ w.lifeDays = x.fld 0 0 16 ∧ w.ratedCycles = x.fld 4 0 32 ∧ w.recalc = true
          ∧ AnsweredFw (granted s 0x85 x).1 { r0 := t.dev.budgetOf w } t)
        ∧ Changes [.adm, .rings, .ctrs, .regs, .stk] s t) ∧
    (Grants s 0x83 x → x.fld 0 2 1 = 1 → x.fld 8 0 64 = ((s.dev.vol? x.object).map (·.formatId)).getD 0 →
      s.dev.backed x.object = 0 → After (.volumeFormat x) s fun t =>
        t.dev.vol? x.object = none ∧ AnsweredFw (granted s 0x83 x).1 {} t
        ∧ Changes (.adm :: .stk :: .tier :: .free :: evParts) s t) ∧
    (Grants s 0x83 x → x.fld 0 2 1 = 0 → x.fld 8 0 64 = ((s.dev.vol? x.object).map (·.formatId)).getD 0 →
      s.dev.backed x.object = 0 → ((s.dev.vol? x.object).map (·.protected_)).getD false = false →
      (∀ e ∈ s.dev.stk.volumes, e.1 = x.object ∨ e.2.dieFirst + e.2.dieCount ≤ x.fld 1 0 8 ∨ x.fld 1 0 8 + x.fld 2 0 8 ≤ e.2.dieFirst) →
      After (.volumeFormat x) s fun t =>
        (∃ w : Volume, t.dev.vol? x.object = some w ∧ w.region = (x.fld 0 0 1 == 1) ∧ w.ct210 = (x.fld 0 1 1 == 1)
          ∧ w.dieFirst = x.fld 1 0 8 ∧ w.dieCount = x.fld 2 0 8 ∧ w.units = [] ∧ w.formatId ≠ 0
          ∧ AnsweredFw (granted s 0x83 x).1 { r0 := w.formatId, r1 := w.capacity % 2 ^ 48 } t)
        ∧ Changes (.adm :: .stk :: .tier :: .free :: evParts) s t) ∧
    (Grants s 0x8B x → s.dev.sec.fwBusy = false → s.dev.sec.rcvState ≠ 1 →
      imageCheck (x.input 0 0) s.dev.sec.svn x.host.sigOk x.host.revoked = 0 → After (.fwUpdate x) s fun t =>
        t.dev.sec.fwBusy = true ∧ t.dev.sec.norValid = false ∧ t.dev.sec.norVersion = imgField (x.input 0 0) 12 4
        ∧ AnsweredFw (granted s 0x8B x).1 { r0 := imgField (x.input 0 0) 12 4 } t ∧ Changes [.adm, .rings, .ctrs, .sec] s t) ∧
    (∀ r : Region, Grants s 0x84 x → s.dev.servesRegion x.object = s.dev.devNo → tget s.dev.rgn.slots (x.object / 64) = some r →
      r.id = x.object → r.persist = true → r.isOwner s.dev.devNo x.patron = true → r.st ≠ 4 → r.st ≠ 5 →
      x.fld 0 0 64 + x.fld 8 0 64 ≤ r.size → After (.stacksDiscard x) s fun t =>
        AnsweredFw (granted s 0x84 x).1
          { r0 := (s.dev.mappedSectors (x.object / 64) (x.fld 0 0 64 / 4096) (x.fld 8 0 64 / 4096)).length } t
        ∧ (∀ (n k : Nat) (v : Volume) (y : FUnit), x.fld 0 0 64 / 4096 ≤ n → n < x.fld 0 0 64 / 4096 + x.fld 8 0 64 / 4096 →
          t.dev.vol? k = some v → v.region = true → tget v.units (flashUnit (x.object / 64) 0 + n / 16) = some y →
          tget y.sectors (n % 16) = none)
        ∧ Changes (.adm :: .stk :: .rgn :: evParts) s t)

/-- PROFILE_REGISTER of a free profile that fits its patron's share binds it (R145, R150); PROFILE_RETIRE of one that nothing
uses frees it (R152). -/
def Obligations.ProfileRowsComplete : Prop :=
  ∀ (s : State) (x : DescIn),
    (Grants s 0x50 x → tget s.dev.seqs.profiles x.object = none →
      s.dev.fitShortfall x.patron { body := x.body, owner := x.patron } = 0 → After (.profileRegister x) s fun t =>
        (∃ p : Profile, tget t.dev.seqs.profiles x.object = some p ∧ p.body = x.body ∧ p.owner = x.patron ∧ p.shortfall = 0
          ∧ AnsweredFw (granted s 0x50 x).1 { r1 := p.cap } t)
        ∧ Changes [.adm, .rings, .ctrs, .seqs] s t) ∧
    (∀ p : Profile, Grants s 0x51 x → tget s.dev.seqs.profiles x.object = some p → p.owner = x.patron → p.st ≠ 2 →
      s.dev.profUsed x.object = false → s.dev.cat.ents = [] → After (.profileRetire x) s fun t =>
        tget t.dev.seqs.profiles x.object = none ∧ Answered (granted s 0x51 x).1 { r0 := 0 } t
        ∧ Changes [.adm, .rings, .ctrs, .seqs] s t)

/-- READBACK writes the records it finds and reports how many (R540); AUDIT begins with its first pass while no other
executes (R549). -/
def Obligations.ReadbackRowsComplete : Prop :=
  ∀ (s : State) (x : DescIn),
    (Grants s 0x40 x → x.refuses 16 = false → After (.readback x) s fun t =>
      ∃ r : RunSt, r = (readingDev s x).readRun s.dev.free (x.fld 0 0 8)
          (if patronClass (x.fld 0 0 8) then x.fld 1 0 6 else x.patron) x.patron (x.fld 4 0 32) (x.fld 8 0 64) {}
        ∧ (r.data ≠ [] → Out.hostWrite x.patron x.tag (bodyOff 16) 0 (.bytes r.data) ∈ t.dev.out)
        ∧ (∃ a : Ans, a.r0 = r.written + 2 ^ 32 * r.zeros ∧ a.status = stOk ∧ Answered (granted s 0x40 x).1 a t)
        ∧ Changes [.adm, .rings, .ctrs, .out, .free, .flt] s t) ∧
    (Grants s 0x41 x → s.dev.audit = none → After (.audit x) s fun t =>
      (∃ a : AuditSt, t.dev.audit = some a ∧ a.q = (granted s 0x41 x).1 ∧ a.tick = s.dev.tim.count)
      ∧ t.dev.adm.due = s.dev.adm.due ∧ Changes [.adm, .rings, .ctrs, .port] s t)

/-- PATRON_RESET without discard of an ACTIVE patron puts it into RESETTING, and its completion waits for the reset's end (R105). -/
def Obligations.PatronResetRowStarts : Prop :=
  ∀ (s : State) (x : DescIn), Grants s 0x81 x → s.dev.exists_ (x.fld 0 0 6) = true → x.fld 0 6 1 = 1 →
    (s.dev.pat (x.fld 0 0 6)).st = .active → After (.patronReset x) s fun t =>
      (t.dev.pat (x.fld 0 0 6)).st = .resetting ∧ (t.dev.pat (x.fld 0 0 6)).lock = false
      ∧ (x.fld 0 0 6, false, (granted s 0x81 x).1) ∈ t.dev.adm.resetAns ∧ t.mem = s.mem

/-- Doorbells (R82): an accepted tail doorbell moves the tail of its ring alone, an accepted completion or event head doorbell
frees the entries up to its index; other rings, the patron's state and every other patron are as they were. -/
def Obligations.DoorbellRowsComplete : Prop :=
  ∀ (s : State) (p off v : Nat), s.dev.served p = true → s.dev.active p = true → off % 4 = 0 → v < 65536 →
    (off < 0x40 → v < s.dev.sqDepth p (off / 4) → s.dev.bktRate (bktPol p) = 0 → After (.sqTailDoorbell p off 32 v) s fun t =>
      (t.dev.pat p).sqAt (off / 4) = { (s.dev.pat p).sqAt (off / 4) with tail := v }
      ∧ (∀ r, r ≠ off / 4 → (t.dev.pat p).sqAt r = (s.dev.pat p).sqAt r)
      ∧ (t.dev.pat p) = { s.dev.pat p with sq := (t.dev.pat p).sq } ∧ OthersKept p s t ∧ Changes [.host] s t) ∧
    (0x40 ≤ off → off < 0x80 → v < s.dev.cqDepth p (off / 4 - 16) →
      ((s.dev.pat p).cqAt (off / 4 - 16)).consumed + ringSpan (s.dev.cqDepth p (off / 4 - 16)) ((s.dev.pat p).cqAt (off / 4 - 16)).headIdx v
        ≤ ((s.dev.pat p).cqAt (off / 4 - 16)).written → After (.cqHeadDoorbell p off 32 v) s fun t =>
      ((t.dev.pat p).cqAt (off / 4 - 16)).headIdx = v
      ∧ ((t.dev.pat p).cqAt (off / 4 - 16)).consumed = ((s.dev.pat p).cqAt (off / 4 - 16)).consumed
        + ringSpan (s.dev.cqDepth p (off / 4 - 16)) ((s.dev.pat p).cqAt (off / 4 - 16)).headIdx v
      ∧ ((t.dev.pat p).cqAt (off / 4 - 16)).written = ((s.dev.pat p).cqAt (off / 4 - 16)).written
      ∧ (∀ r, r ≠ off / 4 - 16 → (t.dev.pat p).cqAt r = (s.dev.pat p).cqAt r) ∧ OthersKept p s t ∧ Changes [.rings] s t) ∧
    (off = 0x80 → v < s.dev.eqDepth p → (s.dev.pat p).eq.lost = 0 →
      (s.dev.pat p).eq.consumed + ringSpan (s.dev.eqDepth p) (s.dev.pat p).eq.headIdx v ≤ (s.dev.pat p).eq.written →
      After (.eqHeadDoorbell p off 32 v) s fun t =>
        (t.dev.pat p).eq = { (s.dev.pat p).eq with headIdx := v, consumed := ((s.dev.pat p).eq.consumed + ringSpan (s.dev.eqDepth p) (s.dev.pat p).eq.headIdx v) }
        ∧ OthersKept p s t ∧ Changes [.rings] s t)

/-- An ignored doorbell moves nothing (R83): in each of the seven cases every tail, head and freed entry stays as it was; the error
is counted, and reported at most once per ring and tick. -/
def Obligations.IgnoredDoorbellsMoveNothing : Prop :=
  ∀ (s : State) (p off width v : Nat), s.dev.served p = true →
    (∀ c, doorbellCase off width v (s.dev.sqDepth p (off / 4)) false (s.dev.active p) = some c →
      After (.sqTailDoorbell p off width v) s fun t =>
        (∀ q r, ((t.dev.pat q).sqAt r).tail = ((s.dev.pat q).sqAt r).tail ∧ ((t.dev.pat q).sqAt r).head = ((s.dev.pat q).sqAt r).head)
        ∧ (s.dev.errTick p off = some s.dev.tim.count → Changes [.ctrs] s t)) ∧
    (∀ c, doorbellCase off width v (s.dev.cqDepth p (off / 4 - 16)) (decide (((s.dev.pat p).cqAt (off / 4 - 16)).written
          < ((s.dev.pat p).cqAt (off / 4 - 16)).consumed + ringSpan (s.dev.cqDepth p (off / 4 - 16))
            ((s.dev.pat p).cqAt (off / 4 - 16)).headIdx v)) (s.dev.active p) = some c →
      After (.cqHeadDoorbell p off width v) s fun t =>
        ∀ q r, ((t.dev.pat q).cqAt r).headIdx = ((s.dev.pat q).cqAt r).headIdx ∧ ((t.dev.pat q).cqAt r).consumed = ((s.dev.pat q).cqAt r).consumed) ∧
    (0x84 ≤ off → After (.eqHeadDoorbell p off width v) s fun t =>
      ∀ q, (t.dev.pat q).eq.headIdx = (s.dev.pat q).eq.headIdx ∧ (t.dev.pat q).eq.consumed = (s.dev.pat q).eq.consumed)

/-- PAT_LOCK (R80): the rings of a CONFIGURING patron that pass every check are empty and its patron is ACTIVE with SETUP_LOCK; the
first check that fails is shown and nothing else changes; in any other state the write has no effect. -/
def Obligations.PatLockActivates : Prop :=
  ∀ (s : State) (p v : Nat), s.dev.reached p = true → v % 2 = 1 →
    ((s.dev.pat p).st = .configuring → s.dev.lockCheck p = none → After (.patLock p v) s fun t =>
      (t.dev.pat p).st = .active ∧ (t.dev.pat p).lock = true ∧ (t.dev.pat p).refused = 0 ∧ (t.dev.pat p).sq = []
      ∧ t.mem = s.mem ∧ t.pending = s.pending
      ∧ (p ≠ 0 → t.dev.tier.floors = grantFloors s.dev.floorWanted (List.range 64) s.dev.poolGiB
        ∧ Changes (.host :: .tier :: evParts) s t)) ∧
    (∀ c, (s.dev.pat p).st = .configuring → s.dev.lockCheck p = some c → After (.patLock p v) s fun t =>
      t.dev.pat p = { s.dev.pat p with refused := c } ∧ OthersKept p s t ∧ Changes [.host] s t) ∧
    ((s.dev.pat p).st ≠ .configuring → exec (.patLock p v) s = .next s)

/-- Patron resets begin (R104, R105, R106): by PAT_KEEP_RESET, by a function level reset of a virtual function, and for every patron
by a function level reset of patron 0, by a hot reset and by clearing VF Enable; the patron is RESETTING with no ring entry and
SETUP_LOCK clear. -/
def Obligations.PatronResetRows : Prop :=
  ∀ s : State,
    (∀ p v, s.dev.reached p = true → v % 2 = 1 → (s.dev.pat p).st = .active → After (.patKeepReset p v) s fun t =>
      (t.dev.pat p).st = .resetting ∧ (t.dev.pat p).lock = false ∧ (t.dev.pat p).sq = [] ∧ (t.dev.pat p).reset = some { discard := false }
      ∧ t.dev.sec = s.dev.sec ∧ t.mem = s.mem ∧ t.pending = s.pending) ∧
    (∀ p, s.dev.reached p = true → p ≠ 0 → (s.dev.pat p).st = .active → After (.functionLevelReset p) s fun t =>
      (t.dev.pat p).st = .resetting ∧ (t.dev.pat p).lock = false ∧ (t.dev.pat p).reset = some { discard := true }
      ∧ tgetD t.dev.sec.gens p 0 = (tgetD s.dev.sec.gens p 0 + 1) % 2 ^ 32 ∧ t.pending = s.pending) ∧
    (s.dev.reached 0 = true → After (.functionLevelReset 0) s fun t =>
      ∀ p, p < 64 → (s.dev.pat p).st ≠ .disabled → (t.dev.pat p).st = .resetting) ∧
    (After .hotReset s fun t => ∀ p, p < 64 → (s.dev.pat p).st ≠ .disabled → (t.dev.pat p).st = .resetting) ∧
    (s.dev.host.linkUp = true → s.dev.host.numVf ≠ 0 → After .vfEnableClear s fun t =>
      t.dev.host.numVf = 0 ∧ ∀ p, p < 64 → (s.dev.pat p).st ≠ .disabled → (t.dev.pat p).st = .resetting)

/-- A patron reset ends (R106): a function that exists is CONFIGURING, one that was removed is DISABLED; a keeping reset keeps what
is stored. -/
def Obligations.PatronResetEnds : Prop :=
  ∀ (s : State) (p : Nat), (s.dev.pat p).st = .resetting → (s.dev.pat p).reset = some { discard := false, follow := false } →
    s.dev.adm.open_ p = [] → After (.patronResetDone p) s fun t =>
      (t.dev.pat p).st = (if s.dev.exists_ p then .configuring else .disabled) ∧ (t.dev.pat p).reset = none
      ∧ t.dev.seqs.recs = s.dev.seqs.recs ∧ t.dev.seqs.profiles = s.dev.seqs.profiles ∧ t.dev.cat.ents = s.dev.cat.ents
      ∧ t.dev.sec = s.dev.sec ∧ t.mem = s.mem ∧ t.pending = s.pending

/-- Virtual functions, bus mastering, links and vectors (R72, R101, R102, R103): VF Enable makes the patrons of the virtual
functions CONFIGURING, a function that loses bus mastering or its link faults, an unmasked vector sends what was pending. -/
def Obligations.FunctionRowsComplete : Prop :=
  ∀ s : State,
    (∀ n p, s.dev.host.linkUp = true → s.dev.host.numVf = 0 → n ≤ 63 → 1 ≤ p → p ≤ n → (s.dev.pat p).st = .disabled →
      After (.vfEnableSet n) s fun t => t.dev.host.numVf = n ∧ (t.dev.pat p).st = .configuring ∧ Changes [.host, .rings] s t) ∧
    (∀ p, s.dev.reached p = true → s.dev.active p = true → After (.busMasterClear p) s fun t =>
      (t.dev.pat p).st = .faulted ∧ (t.dev.pat p).fault = 3 ∧ Event 0x0003 3 (s.dev.outstanding p) s t ∧ Changes (.host :: evParts) s t) ∧
    (∀ p k, s.dev.reached p = true → k < 32 → k ∈ (s.dev.pat p).msixMasked → k ∈ (s.dev.pat p).msixPend → (s.dev.pat p).msixMasked.Nodup →
      After (.msixVectorUnmask p k) s fun t =>
        (t.dev.pat p).msixMasked = (s.dev.pat p).msixMasked.erase k ∧ (t.dev.pat p).msixPend = (s.dev.pat p).msixPend.erase k
        ∧ t.dev.out = s.dev.out ++ [.msix p k] ∧ OthersKept p s t ∧ Changes [.host, .out, .ctrs] s t) ∧
    (s.dev.host.linkUp = true → After .hostLinkDown s fun t =>
      t.dev.host.linkUp = false ∧ (∀ p, p < 64 → s.dev.active p = true → (t.dev.pat p).st = .faulted ∧ (t.dev.pat p).fault = 4)
      ∧ (∀ p, p < 64 → s.dev.active p = false → (t.dev.pat p).st = (s.dev.pat p).st)) ∧
    (∀ w r f, s.dev.host.linkUp = false → After (.hostLinkUp w r f) s fun t =>
      t.dev.host.linkUp = true ∧ t.dev.host.width = w ∧ t.dev.host.rate = r ∧ t.dev.host.flit = f ∧ t.dev.seqs = s.dev.seqs ∧ t.mem = s.mem) ∧
    (∀ w r f, s.dev.host.linkUp = true → (w ≠ s.dev.host.width ∨ r ≠ s.dev.host.rate) → After (.linkChanged w r f) s fun t =>
      t.dev.host.width = w ∧ t.dev.host.rate = r ∧ t.dev.host.flit = f ∧ t.dev.host.linkUp = true
      ∧ Event 0x0005 (w % 256 + 256 * (r % 256)) 0 s t ∧ Changes (.host :: evParts) s t)

/-- Configuration requests (R70, R510): from the end of step 2 on a request succeeds, and the identifiers read 0x1EB7 and 0x0640 for
the physical function; before it, it is answered with retry status. -/
def Obligations.ConfigRowsComplete : Prop :=
  ∀ (s : State) (p off : Nat), s.dev.exists_ p = true →
    (s.dev.boot.st = .serving → After (.pcieConfigRequest p off) s fun t =>
      t.dev.out = s.dev.out ++ [.config p off false (cfgRead p off)] ∧ Changes [.out] s t) ∧
    (s.dev.boot.st = .booting → 2 ∉ s.dev.boot.steps → After (.pcieConfigRequest p off) s fun t =>
      t.dev.out = s.dev.out ++ [.config p off true 0] ∧ Changes [.out] s t) ∧
    cfgRead 0 0 = 0x06401EB7

/-- The pool aperture (R77, R78): an access through a slot that maps nothing reads all ones, or discards its bytes, and leaves
every byte of pool memory and every region as they were. -/
def Obligations.ApertureMisses : Prop :=
  ∀ (s : State) (off len : Nat) (b : List Byte), s.dev.served 0 = true → 0 < len → off + len ≤ 2 ^ 36 → s.dev.aperture off = none →
    (After (.apertureRead off len) s fun t =>
      Out.aperture (List.replicate len 0xFF) false ∈ t.dev.out ∧ t.mem = s.mem ∧ t.pending = s.pending ∧ t.dev.rgn = s.dev.rgn) ∧
    (b.length = len → After (.apertureWrite off b) s fun t => t.mem = s.mem ∧ t.pending = s.pending ∧ t.dev.rgn = s.dev.rgn) ∧
    (∀ x y, len = 8 → off % 8 = 0 → After (.apertureAtomic off 0 64 x y) s fun t =>
      t.mem = s.mem ∧ t.pending = s.pending ∧ t.dev.rgn = s.dev.rgn)

/-- Edits (R192, R202 to R211): an APPEND of every layer within the open span lengthens sequence and span; an ADOPT adds 256 tokens
for each span it lists; a FORK of a sequence without an open span makes the child's record with generation 1 and answers with the
parent's generation and length; a TRIM within an open span of one sequence shortens both; a DROP frees the record and answers with its
generation. APPEND, ADOPT and TRIM advance the generation and answer with the new one and the new length. -/
def Obligations.EditRowsComplete : Prop :=
  ∀ (s : State) (x : DescIn) (d : Dev) (i : Nat) (r : Rec), d.seq? x.patron x.object = some (i, r) → r.damaged = false →
    (∀ sp : Span, Planned s 0x03 x d → (appF x).create = false → (appF x).refill = false → appendProfileCheck x (d.prof r.profile) = none →
      genDiffers (appF x).gen r = false → appendState (appF x) (d.prof r.profile) r = true → r.pendCount = 0 →
      (appF x).layers = (d.prof r.profile).layers → r.openSpan ≠ 0 → d.span? r.openSpan = some sp →
      (appF x).pos % 256 + (appF x).count < 256 → sp.fill + (appF x).count < 256 →
      d.metaFits x.patron (d.appendMeta (d.prof r.profile) (appF x) r) = true → After (.append x) s fun t =>
        tget t.dev.seqs.recs i = some { r with gen := nextGen r.gen, length := r.length + (appF x).count, pendLayers := 0, editTick := s.dev.tim.count }
        ∧ (∃ u : Span, t.dev.span? r.openSpan = some u ∧ u.fill = sp.fill + (appF x).count ∧ u.st = sp.st)
        ∧ Answered (granted s 0x03 x).1 { r0 := nextGen r.gen + 2 ^ 32 * (r.length + (appF x).count), r1 := r.openSpan } t
        ∧ t.pending = s.pending ∧ t.mem = s.mem) ∧
    (Planned s 0x04 x d → x.fld 4 0 1 = 0 → genDiffers (x.fld 8 0 32) r = false → r.length = x.fld 0 0 32 → r.pendCount = 0 →
      r.spans + (adoptList (granted s 0x04 x).1).length ≤ 65536 →
      d.adoptFail x.patron r.profile 0 r.length ((d.lastListed r).getD 0) (adoptList (granted s 0x04 x).1) = none →
      d.metaFits x.patron (d.tableMeta r.root (d.listed r.root ++ adoptList (granted s 0x04 x).1)) = true →
      d.anyFull (d.listed r.root ++ adoptList (granted s 0x04 x).1) = false → After (.adopt x) s fun t =>
        (∃ root, tget t.dev.seqs.recs i = some { r with
          gen := nextGen r.gen, length := r.length + 256 * (adoptList (granted s 0x04 x).1).length
          spans := r.spans + (adoptList (granted s 0x04 x).1).length, root := root, editTick := s.dev.tim.count })
        ∧ Answered (granted s 0x04 x).1
            { r0 := nextGen r.gen + 2 ^ 32 * (r.length + 256 * (adoptList (granted s 0x04 x).1).length)
              r1 := (adoptList (granted s 0x04 x).1).length } t
        ∧ t.pending = s.pending ∧ t.mem = s.mem) ∧
    (∀ j, Planned s 0x05 x d → genDiffers (x.fld 4 0 32) r = false → d.seq? x.patron (x.fld 0 0 32) = none → d.freeRec = some j →
      r.openSpan = 0 → d.mayName x.patron r.profile = true → After (.fork x) s fun t =>
        tget t.dev.seqs.recs j = some { r with number := x.fld 0 0 32, gen := 1, editTick := s.dev.tim.count }
        ∧ (i ≠ j → tget t.dev.seqs.recs i = tget d.seqs.recs i)
        ∧ Answered (granted s 0x05 x).1 { r0 := r.gen + 2 ^ 32 * r.length, r1 := 0 } t ∧ t.pending = s.pending ∧ t.mem = s.mem) ∧
    (∀ sp : Span, Planned s 0x06 x d → genDiffers (x.fld 4 0 32) r = false → 256 * (d.listed r.root).length < x.fld 0 0 32 →
      x.fld 0 0 32 ≤ r.length → d.span? r.openSpan = some sp → sp.ref ≤ 1 → After (.trim x) s fun t =>
        tget t.dev.seqs.recs i = some { r with
          gen := nextGen r.gen, length := x.fld 0 0 32, pendCount := 0, pendLayers := 0, editTick := s.dev.tim.count }
        ∧ (∃ u : Span, t.dev.span? r.openSpan = some u ∧ u.fill = x.fld 0 0 32 - 256 * (d.listed r.root).length)
        ∧ Answered (granted s 0x06 x).1 { r0 := nextGen r.gen + 2 ^ 32 * x.fld 0 0 32, r1 := 0 } t
        ∧ t.pending = s.pending ∧ t.mem = s.mem) ∧
    (Planned s 0x07 x d → genDiffers (x.fld 0 0 32) r = false → After (.drop x) s fun t =>
      tget t.dev.seqs.recs i = none ∧ (∃ n, Answered (granted s 0x07 x).1 { r0 := r.gen, r1 := n } t)
      ∧ t.pending = s.pending ∧ t.mem = s.mem)

/-- Catalogue rows (R239, R244, R246): a PROBE of a profile the patron may name completes with OK and a run no longer than it asks for;
an ACCESSION of one closed span into an empty catalogue makes its entry; a WITHDRAW removes the entry of the span it names. -/
def Obligations.CatalogueRowsComplete : Prop :=
  ∀ (s : State) (x : DescIn),
    (Grants s 0x10 x → s.dev.mayName x.patron (x.fld 1 0 8) = true → x.refuses 32 = false → After (.probe x) s fun t =>
      (∃ a : Ans, a.status = stOk ∧ a.r0 % 2 ^ 32 ≤ x.fld 4 0 32 ∧ Answered (granted s 0x10 x).1 a t)
      ∧ t.pending = s.pending ∧ t.mem = s.mem) ∧
    (∀ sp : Span, Grants s 0x11 x → x.fld 0 0 16 = 1 → s.dev.span? x.object = some sp → s.dev.visible x.patron x.object sp = true → sp.ref ≠ 0 →
      sp.firstPos = 0 → (sp.st = 2 ∨ sp.st = 3) → s.dev.cat.ents = [] → s.dev.flt.out = [] → s.dev.scopeMask (x.fld 2 0 7) ≠ 0 →
      s.dev.scopeLimit (x.fld 2 0 7) = 0 → s.dev.anyFull [x.object] = false → After (.accession x) s fun t =>
        (∃ e ∈ t.dev.cat.ents, e.2.span = x.object ∧ e.2.scope = x.fld 2 0 7 ∧ e.2.cls = x.fld 3 0 2 ∧ e.2.publisher = x.patron
          ∧ Answered (granted s 0x11 x).1 { r0 := entAddr e.1 x.object, r1 := 1 } t)
        ∧ t.pending = s.pending ∧ t.mem = s.mem) ∧
    (∀ (sp : Span) (k : Nat) (e : CatEnt), Grants s 0x12 x → x.fld 0 0 16 = 1 → s.dev.span? x.object = some sp → s.dev.cat.ents = [(k, e)] →
      e.span = x.object → e.scope = x.fld 2 0 7 → s.dev.flt.out = [] → (e.scope < 64 ∨ e.publisher = x.patron) → After (.withdraw x) s fun t =>
        t.dev.cat.ents = [] ∧ Answered (granted s 0x12 x).1 { r0 := 1 } t ∧ t.pending = s.pending ∧ t.mem = s.mem)

/-- Reads, hints, streams and deliveries. An ATTEND whose walks begin, whose spans are resident, sound and in service, and whose output
buffers are accepted, completes OK: the low half of RESULT0 is the generation of its first walk, all ones for a batch, and the low half of
RESULT1 the number of visible keys, at most 2^32 − 1. A MERGE into an accepted buffer completes OK with results zero: it writes zeros for
each head of which every input is empty, and with PARTIAL output each head's largest MAX. A touching HINT of a live span that was visible
sets its last-touch tick, answers with 1 and changes nothing else. A STREAM stop of a running stream removes it and answers with its number; where no slot of it is
planned it also writes STREAM_ENDED and changes nothing else. A STREAM start on a layer of an existing sequence holds the stream with the
descriptor's fields and answers with its number; a DELIVER stream also zeroes its progress cell. A DELIVER of folios alone, all present,
resident, sound and in service, that fit an accepted buffer writes every block there and answers with the generation and the bytes. -/
def Obligations.DeliveryRowsComplete : Prop :=
  ∀ (s : State) (x : DescIn),
    (∀ (d : Dev) (q : Req), Attends s x d q → After (.attend x) s fun t =>
      (∃ a : Ans, Answered (granted s 0x01 x).1 a t ∧ a.status = stOk
        ∧ a.r0 % 2 ^ 32 = (if atnBatch x then 0xFFFF_FFFF else ((d.attendViews q).head?.map (·.gen)).getD 0) % 2 ^ 32
        ∧ a.r1 % 2 ^ 32 = min ((d.attendViews q).map fun v => v.keys x).sum (2 ^ 32 - 1))
      ∧ t.pending = s.pending ∧ t.mem = s.mem) ∧
    (∀ n h c e l m, Grants s 0x02 x → x.refuses 32 = false → n = x.fld 4 0 16 → h = x.fld 6 0 16 → c = x.fld 8 0 16 →
      e = (if x.fld 1 1 1 = 1 then 4 else 2) → partialLayout n h c e = (m, l) → After (.merge x) s fun t =>
        Answered (granted s 0x02 x).1 {} t
        ∧ (∀ k, k < n * h → (∀ b ∈ x.parts 16, emptyAt x b k = true) →
          Out.hostWrite x.patron x.tag (bodyOff 32) (k * c * e) (.bytes (List.replicate (c * e) 0)) ∈ t.dev.out)
        ∧ (x.fld 1 2 1 = 1 → ∀ k, k < n * h →
          Out.hostWrite x.patron x.tag (bodyOff 32) (m + 4 * k) (.bytes (leBytes 4 (mergeMax x k))) ∈ t.dev.out)
        ∧ Changes [.adm, .rings, .ctrs, .out, .free] s t) ∧
    (∀ sp : Span, Grants s 0x20 x → x.fld 0 0 2 = 0 → x.fld 1 0 3 = 1 → s.dev.live? x.object = some sp →
      s.dev.visibleBefore x.patron x.object sp = true → s.dev.hintVacant x.object = false → After (.hint x) s fun t =>
        (∃ u : Span, t.dev.span? x.object = some u ∧ u.lastTick = s.dev.tim.count % 2 ^ 32)
        ∧ Answered (granted s 0x20 x).1 { r0 := 1 } t ∧ Changes [.adm, .rings, .ctrs, .seqs] s t) ∧
    (∀ st : StreamSt, Grants s 0x21 x → x.fld 0 0 2 = 2 → tget s.dev.tier.streams (16 * x.patron + x.fld 1 0 4) = some st → After (.stream x) s fun t =>
      tget t.dev.tier.streams (16 * x.patron + x.fld 1 0 4) = none ∧ Answered (granted s 0x21 x).1 { r0 := x.fld 1 0 4 } t
      ∧ t.pending = s.pending ∧ t.mem = s.mem
      ∧ (st.walk = none → st.ended = [] →
        Event 0x0101 (x.fld 1 0 4 + 256) st.delivered s t ∧ Changes (.adm :: .tier :: .fab :: evParts) s t)) ∧
    (∀ (i : Nat) (r : Rec), Grants s 0x21 x → x.fld 0 0 2 ≠ 2 → s.dev.seq? x.patron x.object = some (i, r) →
      x.fld 4 0 16 < (s.dev.prof r.profile).layers → (x.fld 0 0 2 = 1 → s.dev.shelfOn (x.fld 3 0 5) = true) → After (.stream x) s fun t =>
        (∃ st : StreamSt, tget t.dev.tier.streams (16 * x.patron + x.fld 1 0 4) = some st ∧ st.record = i ∧ st.mode = x.fld 0 0 2
          ∧ st.lead = x.fld 2 0 8 ∧ st.window = x.fld 3 0 5 ∧ st.firstLayer = x.fld 4 0 16 ∧ st.slots = x.fld 6 0 8
          ∧ st.slotUnits = x.fld 8 0 32 ∧ st.slotBase = x.fld 12 0 32 ∧ st.cell = x.fld 16 0 32 ∧ st.volume = x.fld 20 0 32
          ∧ st.steps = x.fld 24 0 64 ∧ st.delivered = 0 ∧ st.released = 0)
        ∧ (x.fld 0 0 2 = 1 → Out.peerWrite (x.fld 3 0 5) (x.fld 16 0 32) (.bytes zeroCell) ∈ t.dev.out)
        ∧ Answered (granted s 0x21 x).1 { r0 := x.fld 1 0 4 } t ∧ t.pending = s.pending ∧ t.mem = s.mem
        ∧ (tget s.dev.tier.streams (16 * x.patron + x.fld 1 0 4) = none → Changes [.adm, .rings, .ctrs, .tier, .fab, .out] s t)) ∧
    (∀ (d : Dev) (q : Req), Delivers s x d q → After (.deliver x) s fun t =>
      (∀ b ∈ (({ s with dev := d }).deliverBlocks q (firstSpans q) []).1,
        Out.hostWrite x.patron x.tag (bodyOff 32) b.1 (.bytes b.2) ∈ t.dev.out)
      ∧ Answered (granted s 0x22 x).1 { r0 := (q.walks.head?.map fun (w : Walk) => w.gen).getD 0,
                                         r1 := ((({ s with dev := d }).deliverBlocks q (firstSpans q) []).1.map fun (b : Nat × List Byte) => b.2.length).sum % 2 ^ 48 } t
      ∧ t.pending = s.pending ∧ t.mem = s.mem)

/-- Near-memory operations at their own home (R404 to R406): FILL writes the pattern, COPY the source's bytes, REDUCE the reduced
elements, each over the destination extent and no other byte; COMPARE changes no memory and answers the first differing offset. -/
def Obligations.NearRowsComplete : Prop :=
  ∀ (s : State) (op : Nat) (x : DescIn) (r : Region), NearHere s op x → Memory.wf s.mem = true →
    s.dev.regionOf (nearDst x) = some r → (r.persist = true → ((s.dev.vol? r.volume).map (·.protected_)).getD false = false) →
    (spaceFor s.dev (slotOf (nearDst x)) (unitRun (nearDst x) (nearLen x / 64)).1 r (unitRun (nearDst x) (nearLen x / 64)).2).isSome = true →
    (op = 0x30 → After (.fill x) s fun t =>
      poolBytesAt t (nearDst x) (nearLen x) = (List.range (nearLen x / 8)).flatMap (fun _ => leBytes 8 (nearSrc x))
      ∧ (∀ a, (a < nearDst x % 2 ^ 50 ∨ nearDst x % 2 ^ 50 + nearLen x ≤ a) → memGet t.mem a = memGet s.mem a) ∧ t.pending = s.pending) ∧
    (op = 0x31 → After (.copy x) s fun t =>
      poolBytesAt t (nearDst x) (nearLen x) = poolBytesAt s (nearSrc x) (nearLen x)
      ∧ (∀ a, (a < nearDst x % 2 ^ 50 ∨ nearDst x % 2 ^ 50 + nearLen x ≤ a) → memGet t.mem a = memGet s.mem a) ∧ t.pending = s.pending) ∧
    (op = 0x32 → After (.compare x) s fun t =>
      (∃ f, Answered (granted s 0x32 x).1
        { r0 := (firstDiff (poolBytesAt s (nearDst x) (nearLen x)) (poolBytesAt s (nearSrc x) (nearLen x)) 0).getD noField, r1 := nearLen x, flags := f } t)
      ∧ t.mem = s.mem ∧ t.pending = s.pending) ∧
    (op = 0x33 → After (.reduce x) s fun t =>
      poolBytesAt t (nearDst x) (nearLen x) = (List.range (nearLen x / (if x.fld 0 2 2 = 1 then 2 else 4))).flatMap
          (reduceElem (x.fld 0 2 2) (x.fld 0 4 2) ((List.range (nearNsrc x)).map fun i => poolBytesAt s (nearSrcAt x i) (nearLen x)))
      ∧ (∀ a, (a < nearDst x % 2 ^ 50 ∨ nearDst x % 2 ^ 50 + nearLen x ≤ a) → memGet t.mem a = memGet s.mem a) ∧ t.pending = s.pending)

/-- Region operations at the region's home (R386, R389, R397, R400, R402): PUBLISH raises the version and notes the tick; REGION_GRANT
adds the grant; REVOKE marks the requester's grant as revoking; REGION_DESTROY puts the region into DESTROYED; REGION_CREATE makes
the record. -/
def Obligations.RegionRowsAtHome : Prop :=
  ∀ (s : State) (x : DescIn),
    (∀ r : Region, HomeHere s x.object r → r.mirror = false → r.live = none →
      (Grants s 0x34 x → r.revoked s.dev.devNo x.patron = false → r.grants_ s.dev.devNo x.patron 3 none = true →
        s.dev.writesOpen x.patron x.object = false →
        x.fld 0 0 64 = r.version → After (.publish x) s fun t =>
          (∃ r' : Region, tget t.dev.rgn.slots (x.object / 64) = some r' ∧ r'.version = r.version + 1 ∧ r'.versionTick = s.dev.tim.count
            ∧ r'.grants = r.grants ∧ r'.size = r.size) ∧ t.mem = s.mem ∧ t.pending = s.pending) ∧
      (Grants s 0x87 x → r.orphan = false → r.kind ≠ 0 → r.isOwner (x.fld 0 0 6) (x.fld 1 0 6) = false → (r.kind = 2 → x.fld 2 0 4 = 1) →
        x.fld 4 0 32 < r.unitCount → x.fld 4 0 32 + x.fld 8 0 32 ≤ r.unitCount → r.grants = [] → s.dev.rangeEntries < 65536 →
        s.dev.rgn.maps.length < 16384 → After (.regionGrant x) s fun t =>
          (∃ r' : Region, tget t.dev.rgn.slots (x.object / 64) = some r' ∧ r'.grants =
            [{ dev := x.fld 0 0 6, patron := x.fld 1 0 6, rights := x.fld 2 0 4, first := x.fld 4 0 32, count := x.fld 8 0 32 }]) ∧ t.mem = s.mem ∧ t.pending = s.pending) ∧
      (∀ g : Grant, Grants s 0x35 x → x.fld 2 0 1 = 0 → (x.patron = 0 ∨ (r.isOwner s.dev.devNo x.patron = true ∧ r.orphan = false)) →
        r.isOwner (x.fld 0 0 6) (x.fld 1 0 6) = false → r.grants = [g] → g.dev = x.fld 0 0 6 → g.patron = x.fld 1 0 6 → g.revoking = false →
        r.revoke = none → s.dev.fab.homeComb = [] → After (.revoke x) s fun t =>
          (∃ r' : Region, tget t.dev.rgn.slots (x.object / 64) = some r' ∧ r'.grants = [{ g with revoking := true }]
            ∧ r'.target = some (x.fld 0 0 6, x.fld 1 0 6) ∧ r'.st = r.st) ∧ t.mem = s.mem ∧ t.pending = s.pending) ∧
      (Grants s 0x88 x → r.orphan = false → r.id % 64 = s.dev.devNo → r.revoke = none → s.dev.fab.homeComb = [] → After (.regionDestroy x) s fun t =>
        (∃ r' : Region, tget t.dev.rgn.slots (x.object / 64) = some r' ∧ r'.st = 5 ∧ r'.destroy = true ∧ ∀ g ∈ r'.grants, g.revoking = true)
        ∧ t.mem = s.mem ∧ t.pending = s.pending)) ∧
    (Grants s 0x86 x → s.dev.servesRegion x.object = s.dev.devNo → tget s.dev.rgn.slots (x.object / 64) = none →
      (regionFrom x x.object).durable = false → s.dev.volumeOk (regionFrom x x.object) = true → s.dev.rangeEntries < 65536 → After (.regionCreate x) s fun t =>
        (∃ r' : Region, tget t.dev.rgn.slots (x.object / 64) = some r' ∧ r'.id = x.object ∧ r'.size = (regionFrom x x.object).size
          ∧ r'.attrs = (regionFrom x x.object).attrs ∧ r'.grants = []) ∧ t.mem = s.mem ∧ t.pending = s.pending)

/-- Region operations and near-memory operations whose home is another live device travel there in a REGION_REQUEST with the
descriptor's body (R404, R416), and wait for its REGION_DONE. -/
def Obligations.RegionRowsTravel : Prop :=
  ∀ (s : State) (x : DescIn) (op : Nat) (c : Instr) (v : Nat), v ≠ s.dev.devNo → s.dev.isDead v = false → s.dev.inPool v = true →
    Grants s op x →
    (∀ id, (op, c, id) ∈ [(0x34, Instr.publish x, x.object), (0x35, .revoke x, x.object), (0x86, .regionCreate x, x.object),
        (0x87, .regionGrant x, x.object), (0x88, .regionDestroy x, x.object)] → s.dev.servesRegion id = v →
      (op = 0x34 → s.dev.writesOpen x.patron x.object = false) → After c s fun t =>
      (∃ o ∈ t.dev.fab.outst, o.dest = v ∧ o.code = 0x50 ∧ o.m.addr = regionAddr id ∧ o.m.slots.drop 16 = padSlots x.body)
      ∧ Changes [.adm, .rings, .ctrs, .fab, .out] s t) ∧
    ((op, c) ∈ [(0x30, Instr.fill x), (0x31, .copy x), (0x32, .compare x), (0x33, .reduce x)] →
      s.dev.extentRefused x.patron (nearLen x)
        ((nearWrites op x).map (fun e => (e.1, e.2, 1)) ++ (nearReads op x).map fun e => (e.1, e.2, 0)) = none →
      ¬(op = 0x31 ∧ (hostSrc x || hostDst x) = true) → s.dev.servesRegion (addrRegion (nearDst x)) = v → After c s fun t =>
        (∃ o ∈ t.dev.fab.outst, o.dest = v ∧ o.code = 0x50 ∧ o.m.addr = regionAddr (addrRegion (nearDst x))
          ∧ o.m.slots.drop 16 = padSlots x.body)
        ∧ Changes [.adm, .rings, .ctrs, .fab, .out] s t)

/-- DESCRIPTOR_FETCH (R90, R102, R422): a whole descriptor that its ring announces, with room in its completion ring and no check
failing, becomes the ring's head and the submission head moves past it; a failed read of the ring faults the patron with cause 1. -/
def Obligations.DescriptorFetchRows : Prop :=
  ∀ (s : State) (p ring : Nat) (h : HostView), s.dev.ringRuns p ring = true → tget s.dev.adm.heads (16 * p + ring) = none →
    s.dev.cqRoom p (s.dev.boundCq p ring) = true →
    (∀ b : List Byte, (descOf p ring b h).entries < ringSpan (s.dev.sqDepth p ring) ((s.dev.pat p).sqAt ring).head ((s.dev.pat p).sqAt ring).tail →
      (descOf p ring b h).fence = false → ((s.dev.pat p).sqAt ring).marks = [] →
      (fetched s p ring b h).2.fetchCheck (fieldOf b 0 1) (descOf p ring b h) = none →
      After (.descriptorFetch p ring (some b) h) s fun t =>
        tget t.dev.adm.heads (16 * p + ring) = some (fetched s p ring b h).1
        ∧ (fetched s p ring b h).1.d = descOf p ring b h ∧ (fetched s p ring b h).1.op = fieldOf b 0 1
        ∧ ((t.dev.pat p).sqAt ring).head
          = (((s.dev.pat p).sqAt ring).head + ((descOf p ring b h).entries + 1)) % s.dev.sqDepth p ring
        ∧ Changes [.adm, .host, .rings, .ctrs] s t) ∧
    (ringSpan (s.dev.sqDepth p ring) ((s.dev.pat p).sqAt ring).head ((s.dev.pat p).sqAt ring).tail ≠ 0 →
      After (.descriptorFetch p ring none h) s fun t =>
        (t.dev.pat p).st = .faulted ∧ (t.dev.pat p).fault = 1 ∧ (∀ q, q ≠ p → (t.dev.pat q).st = (s.dev.pat q).st)
        ∧ Changes (.host :: evParts) s t)

/-- ADMISSION_GRANT (R424, R426, R61): in a turn in progress the candidate is granted when it is uncharged and its patron's deficit
covers its cost, and leaves its slot; a candidate past its deadline leaves it as a completion LATE due in the next tick, at no
charge. -/
def Obligations.AdmissionGrantRow : Prop :=
  ∀ (s : State) (p r : Nat) (q : Req), s.dev.admits = true → s.dev.adm.turn = true → p = tgetD s.dev.tim.arbs 0 0 / 16 →
    s.dev.candidate p = some (r, q) →
    (s.dev.expired q = false → isCharged q.op = false → 1 ≤ tgetD s.dev.adm.deficit p 0 → s.dev.adm.charge ≤ s.dev.budget →
      After .admissionGrant s fun t =>
        (∃ a : Req, t.dev.adm.admitted = s.dev.adm.admitted ++ [a] ∧ a.d = q.d ∧ a.op = q.op ∧ a.id = q.id
          ∧ a.admTick = s.dev.tim.count ∧ a.admNo = s.dev.adm.count ∧ a.stage = 2)
        ∧ tget t.dev.adm.heads (16 * p + r) = none ∧ t.dev.adm.count = s.dev.adm.count + 1 ∧ t.dev.adm.charge = s.dev.adm.charge
        ∧ Changes [.adm, .arbs, .ctrs] s t) ∧
    (s.dev.expired q = true → After .admissionGrant s fun t =>
      t.dev.adm.admitted = s.dev.adm.admitted ∧ t.dev.adm.charge = s.dev.adm.charge ∧ tget t.dev.adm.heads (16 * p + r) = none
      ∧ (∃ x ∈ t.dev.adm.due, x.tag = q.d.tag ∧ x.patron = q.d.patron ∧ x.status = stLate ∧ x.tick = s.dev.tim.count + 1)
      ∧ Changes [.adm, .arbs, .ctrs] s t)

/-- TICK_EDGE (R41, R47): the next tick opens at the next whole multiple of the length, with an empty count, charge and filter and
the admit phase in force; with the device stopped by a fault or a failing supply time and the tick number advance alone; before
time alignment nothing happens. -/
def Obligations.TickEdgeRow : Prop :=
  ∀ (s : State) (e : EdgeIn),
    (s.dev.edgesRun = true → s.dev.halted = false → s.dev.tim.ticking = true → s.dev.tim.adopt = none → After (.tickEdge e) s fun t =>
      t.dev.tim.count = s.dev.tim.count + 1 ∧ t.dev.tim.now = s.dev.tim.nextEdge ∧ t.dev.tim.ticking = true
      ∧ t.dev.tim.phase = .admission ∧ t.dev.adm.count = 0 ∧ t.dev.adm.charge = 0 ∧ t.dev.adm.filter = []
      ∧ t.dev.adm.admitted = [] ∧ t.pending = s.pending) ∧
    (s.dev.edgesRun = true → s.dev.halted = true → s.dev.tim.ticking = true → After (.tickEdge e) s fun t =>
      t.dev.tim.count = s.dev.tim.count + 1 ∧ t.dev.tim.now = s.dev.tim.nextEdge ∧ Changes [.tim] s t) ∧
    (s.dev.edgesRun = false → exec (.tickEdge e) s = .next s)

/-- PLAN_PHASE after the admit phase opens the plan phase (R47, R53): each request it reaches that is neither an edit nor an ATTEND or DELIVER
is planned, and what it does not reach stays sealed where the requests have numbers of their own. EXECUTE_PHASE after the plan phase opens
the execute phase, whatever is planned (R54); a planned NOP that may run completes with zero results, and one that does not finish stays
planned with no completion (R58). Out of their order both rows change nothing. -/
def Obligations.PlanAndExecutePhases : Prop :=
  ∀ s : State,
    (∀ reach, s.dev.inPhase .admission = true → After (.planPhase reach) s fun t =>
      ((∀ y ∈ s.dev.adm.sealed_.drop reach, ∀ z ∈ s.dev.adm.waiting ++ s.dev.adm.sealed_.take reach, z.id ≠ y.id) →
        t.dev.adm.sealed_ = s.dev.adm.sealed_.drop reach) ∧ t.dev.tim.phase = .plan ∧ t.dev.tim.count = s.dev.tim.count
      ∧ (∀ q ∈ s.dev.adm.sealed_.take reach, isEdit q.op = false → q.op ≠ 0x01 → q.op ≠ 0x22 →
          ∃ y ∈ t.dev.adm.planned, y.id = q.id ∧ y.d = q.d ∧ y.op = q.op ∧ y.stage = 3)
      ∧ t.pending = s.pending) ∧
    (∀ reach, s.dev.inPhase .admission = false → exec (.planPhase reach) s = .next s) ∧
    (∀ q : Req, s.dev.inPhase .plan = true → s.dev.adm.planned = [q] → q.op = 0 → s.dev.mayRun q = true → q.lateEdge = false →
      After (.executePhase {}) s fun t =>
        t.dev.adm.planned = [] ∧ Answered q {} t ∧ t.dev.tim.phase = .execute ∧ t.dev.tim.count = s.dev.tim.count
        ∧ t.pending = s.pending) ∧
    (∀ q : Req, s.dev.inPhase .plan = true → s.dev.adm.planned = [q] → q.op = 0 → After (.executePhase { unfinished := [q.id] }) s fun t =>
      t.dev.adm.planned = [q] ∧ t.dev.adm.due = s.dev.adm.due ∧ t.dev.tim.phase = .execute ∧ t.pending = s.pending) ∧
    (∀ x, s.dev.inPhase .plan = true → After (.executePhase x) s fun t => t.dev.tim.phase = .execute ∧ t.pending = s.pending) ∧
    (∀ x, s.dev.inPhase .plan = false → exec (.executePhase x) s = .next s)

/-- The close phase writes the completion that is due into its ring (R92), and firmware's completions become due when firmware
finishes (R150); deadlines end with the tick: every overdue request of the sealed set leaves it with a completion due in the next
tick (R60). -/
def Obligations.CompletionRows : Prop :=
  ∀ s : State,
    (∀ x : Due, s.dev.inPhase .execute = true → s.dev.adm.due = [x] → x.tick ≤ s.dev.tim.count → s.dev.ringsOn x.patron = true →
      s.dev.boot.resetDue = false → s.dev.sec.activate = false → s.dev.pwr.sleep = 0 → After (.closePhase {}) s fun t =>
        ((t.dev.pat x.patron).cqAt (s.dev.boundCq x.patron x.sq)).written
          = ((s.dev.pat x.patron).cqAt (s.dev.boundCq x.patron x.sq)).written + 1
        ∧ (∃ i b, Out.completion x.patron (s.dev.boundCq x.patron x.sq) i b ∈ t.dev.out)
        ∧ t.dev.tim.phase = .close ∧ t.pending = s.pending) ∧
    (∀ x, s.dev.inPhase .execute = false → exec (.closePhase x) s = .next s) ∧
    (∀ landed, s.dev.tim.ticking = true → s.dev.powered = true → s.dev.halted = false → After (.deadlineExpiry landed) s fun t =>
      (∀ q ∈ s.dev.adm.sealed_, s.dev.overdue q = true → q ∉ t.dev.adm.sealed_ ∧ ∃ y ∈ t.dev.adm.due,
        y.tag = q.d.tag ∧ y.patron = q.d.patron ∧ y.tick = s.dev.tim.count + 1 ∧ (y.status = stLate ∨ y.status = stStall))
      ∧ (∀ q ∈ s.dev.adm.sealed_, s.dev.overdue q = false → q ∈ t.dev.adm.sealed_) ∧ t.pending = s.pending) ∧
    (s.dev.sec.restarting = false → After .firmwareOperationDone s fun t =>
      t.dev.adm.fw = [] ∧ (∀ x ∈ s.dev.adm.fw, { x with tick := s.dev.tim.count } ∈ t.dev.adm.due) ∧ t.pending = s.pending) ∧
    (s.dev.sec.restarting = true → exec .firmwareOperationDone s = .next s)

/-- Movements of spans between tiers and what else happens to spans. Promotion of a span that none promotes yet (R264, R266): its movement
lock is taken, its patron is charged, the promotion is recorded, and the frame of its next layer is obtained, where its class may start,
its share allows it and the frame has a place. The last layer of a promotion that lands (R265) puts its folio, where the stacks' copy is
under the owner's key. A demotion of a whole span that a loan window or a lending region accepts (R262, R271) makes the copy record of its
folios; the stacks accept the units that balance and room allow, and with the last one record the copy (R300). Background demotion, with no
free space to be regained (R263, R283), starts the demotion of the one streamed span that has no stacks copy. Besides, the visit of a
span's and a region unit's age (R257), the churn of one layer of a full span in the execute phase, its other layers left (R138, R24), the
next planned slot of a layer stream without weights or end (R277) and a loan window that faults (R272). Each leaves what it does not name
as it was. -/
def Obligations.SpanRowsComplete : Prop :=
  ∀ s : State,
  (∀ (i : Nat) (x : Span), s.dev.span? i = some x →
    (∀ l p kind cls h u, cls = (if kind = 0 then ((s.dev.adm.waiting.find? fun q => q.d.patron == p).map (·.d.tclass)).getD 0 else 2) →
      p < 64 → kind ≤ 2 → l < (s.dev.prof x.profile).layers → x.resLayers ≤ l → x.st = 3 → x.copied = true →
      tget s.dev.tier.promos i = none → tget s.dev.tier.demos i = none → ((x.frames[x.resLayers]?).map (·.primary)) = some 0 →
      ∀ e, e = s.dev.startPromo i l p kind cls → e.patronStart p cls = true →
      e.within p (e.reserved p + classBytes (e.promoClass i x.resLayers x.source (e.prof x.profile))) = true →
      e.allReserved + classBytes (e.promoClass i x.resLayers x.source (e.prof x.profile)) ≤ e.freeBytes →
      e.place e.seqs.used (orderR15 i x.resLayers) (e.promoClass i x.resLayers x.source (e.prof x.profile)) = some (h, u) →
      After (.promotion i l p kind) s fun t =>
        tget t.dev.tier.promos i = some { upTo := l, patron := p, kind := kind, cls := cls, source := x.source, adm := (s.dev.tim.count, 0) }
        ∧ t.dev.span? i = some { x with moveLock := true, charged := (if bit x.charged p then x.charged else x.charged + 2 ^ p), frames := lmod x.frames x.resLayers fun f => { f with primary := h, lead := false } }
        ∧ t.dev.seqs.used = u ∧ (∀ j, j ≠ i → t.dev.span? j = s.dev.span? j)
        ∧ (x.source ≠ 3 → Changes [.tier, .seqs, .adm, .ctrs, .out] s t)) ∧
    (∀ m c, tget s.dev.tier.promos i = some m → m.upTo = x.resLayers + m.landed →
      (((x.frames[m.upTo]?).map (·.primary)).getD 0) ≠ 0 → ¬(m.source = 2 ∧ (s.dev.mapWaits i = true ∨ s.dev.copyMismatch i x = true)) →
      s.dev.folioOn i m.upTo m.source = some c → s.dev.tim.phase ≠ .close → After (.layerLanded i) s fun t =>
        t.dev.span? i = some { x with closed := tset x.closed m.upTo c }
        ∧ tget t.dev.tier.promos i = some { m with landed := m.landed + 1 }
        ∧ (∀ j, j ≠ i → t.dev.span? j = s.dev.span? j) ∧ Changes [.seqs, .tier, .ctrs] s t) ∧
    (∀ m fs, tget s.dev.tier.demos i = some m → m.left ≠ 0 → i < 2 ^ 40 → s.dev.frameOut x = false → x.st = 3 → s.dev.wholeFolios i x = some fs →
      (m.target = 1 ∨ m.target = 3 → After (.demotionAccepted i) s fun t =>
        (∃ k c, tget t.dev.tier.copies k = some c ∧ c.span = i ∧ c.tier = m.target ∧ c.window = m.volume
          ∧ c.offset = m.offset ∧ c.bytes = m.left ∧ c.folios = fs)
        ∧ (∃ y, t.dev.span? i = some y ∧ y.copyOn m.target = true ∧ y.frames = x.frames ∧ y.resLayers = x.resLayers)
        ∧ tget t.dev.tier.demos i = some { m with left := 0 } ∧ Changes [.tier, .seqs, .ctrs] s t) ∧
      (∀ v n b, m.target = 2 → s.dev.stacksOn = true → s.dev.vol? m.volume = some v → v.protected_ = false → n = s.dev.demoPart i m →
        b = ((List.range n).map fun j => s.dev.demoSize i (m.done + j)).sum → After (.demotionAccepted i) s fun t =>
          tget t.dev.tier.demos i = some (s.dev.demoAfter i m)
          ∧ (∃ w : Volume, t.dev.vol? m.volume = some w ∧ w.balance = v.balance - b ∧ w.accepted = v.accepted + b)
          ∧ t.dev.stk.acceptedTick = s.dev.stk.acceptedTick + b
          ∧ ((s.dev.demoAfter i m).left ≠ 0 → t.dev.seqs = s.dev.seqs)
          ∧ ((s.dev.demoAfter i m).left = 0 → (∃ c, tget t.dev.stk.copies i = some c ∧ c.volume = m.volume ∧ c.firstUnit = m.offset
            ∧ c.count = (s.dev.prof x.profile).copyUnits) ∧ ∃ y, t.dev.span? i = some y ∧ y.onStacks = true ∧ y.frames = x.frames)
          ∧ Changes [.tier, .stk, .seqs, .ctrs] s t)) ∧
    (∀ k v u, (s.dev.reg regTirCtrl 0 0 0 ≠ 1 ∨ s.dev.reg regTirFreeTarget * 2 ^ 30 ≤ s.dev.freeBytes) →
      (s.dev.seqs.spans.filter fun e => e.2.st == 3 && e.2.streamed && !e.2.onStacks && !e.2.moveLock && !e.2.tailHeld
        && e.2.pins == 0 && !s.dev.fitHeld e.1 e.2) = [(i, x)] → tget s.dev.tier.demos i = none → s.dev.mayStart 3 = true →
      s.dev.frameOut x = false → (s.dev.wholeFolios i x).isSome = true → s.dev.spanVolume = some k → s.dev.vol? k = some v →
      s.dev.copyPlace k (s.dev.prof x.profile).copyUnits = some u → s.dev.stacksOn = true → v.protected_ = false →
      (copyUnit (s.dev.prof x.profile).flashClass 0 : Int) ≤ v.balance → After .backgroundDemotion s fun t =>
        tget t.dev.tier.demos i = some { left := (s.dev.prof x.profile).copyBytes, target := 2, volume := k, offset := u
                                         units := (s.dev.prof x.profile).copyUnits, growth := true }
        ∧ (∀ j, j ≠ i → tget t.dev.tier.demos j = tget s.dev.tier.demos j) ∧ Changes [.tier, .adm, .ctrs] s t)) ∧
    (∀ i, After (.ageVisit i) s fun t =>
      t.dev.span? i = (s.dev.span? i).map (fun x => { x with lastTick := s.dev.clampAge x.lastTick })
      ∧ tget t.dev.rgn.units i = (tget s.dev.rgn.units i).map (fun u => { u with lastTick := s.dev.clampAge u.lastTick })
      ∧ (∀ j, j ≠ i → t.dev.span? j = s.dev.span? j ∧ tget t.dev.rgn.units j = tget s.dev.rgn.units j) ∧ Changes [.seqs, .rgn] s t) ∧
    (∀ i x l at_ h tl u, s.dev.inPhase .execute = true → s.dev.span? i = some x → x.churnAt = some at_ → at_ ≤ s.dev.tim.count → x.ref ≠ 0 →
      x.st = 2 → s.dev.flt.frames = [] → s.dev.flt.out = [] → l < (s.dev.prof x.profile).layers →
      tget (tgetD s.dev.seqs.churn i []) l = none →
      s.dev.churnPlace (hCluster (((x.frames[l]?).map (·.primary)).getD 0)) (s.dev.prof x.profile) (x.keepsTwin (s.dev.prof x.profile)) = some (h, tl, u) →
      After (.churn i ((List.range (s.dev.prof x.profile).layers).filter (· != l)) false) s fun t =>
        (∃ c, tget (tgetD t.dev.seqs.churn i []) l = some c ∧ c.primary = h ∧ c.tail = tl
          ∧ (c.folio, c.clipped) = churnFolio (s.dev.prof x.profile) x.firstPos s.dev.tim.count (tgetD x.rows l []))
        ∧ t.dev.seqs.used = u ∧ t.dev.seqs.spans = s.dev.seqs.spans
        ∧ (∀ j, j ≠ i → tget t.dev.seqs.churn j = tget s.dev.seqs.churn j) ∧ Changes [.seqs, .ctrs] s t) ∧
    (∀ p id st r w, s.dev.inPhase .execute = true → p < 64 → id < 16 → tget s.dev.tier.streams (16 * p + id) = some st → st.mode = 1 →
      st.fresh = false → st.volume = 0 → st.steps = 0 → st.delivered < st.released + st.slots → s.dev.shelfOn st.window = true →
      st.walk = some w → tget s.dev.seqs.recs st.record = some r → (∀ i ∈ w.spans, s.dev.vacantAt i = false) →
      s.dev.flt.out = [] → s.dev.flt.frames = [] →
      ∀ layer b at_, layer = (st.firstLayer + st.delivered) % (s.dev.prof r.profile).layers →
      (∀ i ∈ w.spans, s.dev.blockPoisoned layer i = false) → s.dev.awaited layer w.spans = [] →
      b = deliveryBlock layer w.gen (tokensAt w.length w.pendCount w.pendLayers layer) (s.dev.allImages st.strict layer w.spans).1 none →
      b.length ≤ 65536 * st.slotUnits → at_ = 65536 * st.slotBase + st.delivered % st.slots * (65536 * st.slotUnits) →
      After (.streamSlotWrite p id) s fun t =>
        tget t.dev.tier.streams (16 * p + id) = some st.wrote ∧ st.wrote.delivered = st.delivered + 1
        ∧ [Out.peerWrite st.window at_ (.bytes b), .peerRead st.window at_ 0,
            .peerWrite st.window (st.cell + 8) (.bytes (leBytes 8 (st.delivered + 1)))] <:+ t.dev.out
        ∧ t.mem = s.mem ∧ t.pending = s.pending ∧ t.dev.seqs.recs = s.dev.seqs.recs) ∧
    (∀ w, s.dev.shelfOn w = true → After (.shelfFault w) s fun t =>
      w ∈ t.dev.tier.shelfFaults ∧ t.dev.shelfOn w = false ∧ (∀ e ∈ t.dev.tier.copies, ¬(e.2.tier = 1 ∧ e.2.window = w))
      ∧ t.mem = s.mem ∧ t.pending = s.pending)

/-- The flash of the stacks (R299, R304 to R308, R311 to R316, R319, R320, R323, R325, R326). A good program of a whole unit from staging maps it
at the next open member of its stream's block group, which stays open while its stripe does; a failed one retires the member it went to and
leaves unit and staging as they were. A read of a sector that stage 0 or 1 recovers counts against its block; a sector that no stage recovers
is marked bad, or its span's copy ceases. An erased block is ERASED with its erases counted, a verified one CLOSED with its pages read; a
failed erase or verification retires the block. The first scrub read of a CLOSED block in its period counts its pages and is kept, and
schedules refresh where stage 2 or more than half the capability was needed. Collection makes its victim's CLOSED blocks RELOCATING, or
DIRTY where they hold nothing valid; a unit relocated from a RELOCATING block is mapped at its new place. A die that fails or reports its
temperature is noted; the governor recomputes every budget; span copies are discarded until the reserve is restored; a checkpoint starts
with the changed segments, and when it completes the replay set is the blocks programmed since. Each leaves what it does not name as it
was. -/
def Obligations.FlashRowsComplete : Prop :=
  ∀ s : State,
    (∀ v u x y g gr k p blk, s.dev.vol? v = some x → tget x.units u = some y → y.staged = true → y.fine = false → s.dev.pwr.pwrSeqEnd = false →
      tget s.dev.stk.openGroups (v * 8 + y.strm) = some g → tget s.dev.stk.groups g = some gr → k = s.dev.groupNext x.ct210 gr →
      groupPlace x.ct210 gr.members k = (p, blk) → k < s.dev.groupSize x.ct210 gr.members → s.dev.diePaused blk = false →
      (∀ next, next = s.dev.nextSlot x.ct210 gr.members (s.dev.groupSize x.ct210 gr.members - (k + 1)) (k + 1) →
        next < s.dev.groupSize x.ct210 gr.members →
        next / stripeUnits x.ct210 gr.members.length = gr.filled / stripeUnits x.ct210 gr.members.length →
        After (.flashProgramDone v u true) s fun t =>
          (∃ z, t.dev.vol? v = some z ∧ tget z.units u = some (y.at_ blk p y.strm none)
            ∧ z.programmed = x.programmed + 65536 ∧ ∀ w, w ≠ u → tget z.units w = tget x.units w)
          ∧ t.dev.fblock blk = { s.dev.fblock blk with valid := (s.dev.fblock blk).valid ++ [u], filled := (s.dev.fblock blk).filled + 1 }
          ∧ (∀ j, j ≠ blk → t.dev.fblock j = s.dev.fblock j) ∧ tget t.dev.stk.groups g = some { gr with filled := next }
          ∧ t.dev.stk.staging = s.dev.stk.staging.filter (fun e => e.1 != v * 2 ^ 32 + u) ∧ Changes [.stk, .ctrs] s t) ∧
      After (.flashProgramDone v u false) s fun t =>
        ((t.dev.fblock blk).st = 6 ∨ (t.dev.fblock blk).st = 7)
        ∧ (∃ z, t.dev.vol? v = some z ∧ z.units = x.units) ∧ t.dev.stk.staging = s.dev.stk.staging
        ∧ Changes (.stk :: evParts) s t) ∧
    (∀ v sec x y dm, s.dev.vol? v = some x → tget x.units (sec / 16) = some y → s.dev.pwr.pwrFail = false →
      (∀ stage blk loc, y.sectorAt (sec % 16) = some (blk, loc) → s.dev.dieOut blk = false → stage ≤ 1 →
        After (.flashSectorRead v sec stage dm) s fun t =>
          (t.dev.fblock blk).reads = min ((s.dev.fblock blk).reads + 1) (2 ^ 32 - 1)
          ∧ (∀ j, j ≠ blk → t.dev.fblock j = s.dev.fblock j) ∧ t.dev.stk.volumes = s.dev.stk.volumes ∧ Changes [.stk, .ctrs] s t) ∧
      (s.dev.spanOfUnit v (sec / 16) = none → tget s.dev.rgn.units (unitKey (sec / 16 / 2 ^ 22) (sec / 16 % 2 ^ 22 / 32)) = none →
        After (.flashSectorRead v sec 5 dm) s fun t =>
          (∃ z w f, t.dev.vol? v = some z ∧ tget z.units (sec / 16) = some w ∧ tget w.sectors (sec % 16) = some f ∧ f.bad = true)
          ∧ Changes (.stk :: evParts) s t) ∧
      (∀ i, s.dev.spanOfUnit v (sec / 16) = some i → After (.flashSectorRead v sec 5 dm) s fun t =>
        tget t.dev.stk.copies i = none ∧ (i, 2) ∈ t.dev.tier.ceased ∧ Changes (.stk :: .tier :: evParts) s t)) ∧
    (∀ k v, (s.dev.fblock k).st = 0 → s.dev.diePaused k = false → s.dev.inService k = true → keyBlock k < s.dev.stk.blocksPerDie →
      s.dev.pwr.pwrFail = false → s.dev.volOfBlock k = some v →
      (After (.blockEraseDone k true) s fun t =>
        t.dev.fblock k = { s.dev.fblock k with
          st := 1, erases := min ((s.dev.fblock k).erases + 1) (2 ^ 32 - 1), reads := 0, filled := 0, valid := [], group := 0
          scrubIn := none, bits := none }
        ∧ (∀ j, j ≠ k → t.dev.fblock j = s.dev.fblock j) ∧ Changes [.stk] s t) ∧
      After (.blockEraseDone k false) s fun t =>
        ((t.dev.fblock k).st = 6 ∨ (t.dev.fblock k).st = 7) ∧ Changes (.stk :: evParts) s t) ∧
    (∀ k, (s.dev.fblock k).st = 3 → s.dev.pwr.pwrFail = false →
      ((s.dev.fblock k).refresh = false →
        (s.dev.fblock k).reads + (s.dev.fblock k).filled < s.dev.reg regStkReadLimit 0 0 (if s.dev.inSystem k then 1 else 0) →
        (s.dev.fblock k).reads + (s.dev.fblock k).filled < 2 ^ 32 → After (.blockVerify k true) s fun t =>
          t.dev.fblock k = { s.dev.fblock k with st := 4, reads := (s.dev.fblock k).reads + (s.dev.fblock k).filled }
          ∧ (∀ j, j ≠ k → t.dev.fblock j = s.dev.fblock j) ∧ Changes [.stk] s t) ∧
      ((s.dev.fblock k).refresh = true → (s.dev.fblock k).valid ≠ [] → s.dev.reg regStkCtrl 0 0 2 = 1 → After (.blockVerify k true) s fun t =>
        (t.dev.fblock k).st = 5 ∧ (∀ j, j ≠ k → t.dev.fblock j = s.dev.fblock j) ∧ Changes [.stk] s t) ∧
      After (.blockVerify k false) s fun t =>
        ((t.dev.fblock k).st = 6 ∨ (t.dev.fblock k).st = 7) ∧ Changes (.stk :: evParts) s t) ∧
    (∀ k st h, (s.dev.fblock k).st = 4 → (s.dev.fblock k).valid ≠ [] → s.dev.reg regStkCtrl 0 0 3 = 1 → s.dev.mayStart 5 = true →
      s.dev.sec.restarting = false → s.dev.pwr.pwrFail = false → (s.dev.fblock k).scrubIn ≠ some s.dev.scrubPeriod → st < 5 →
      After (.flashScrub k st h) s fun t =>
        (t.dev.fblock k).reads = min ((s.dev.fblock k).reads + (s.dev.fblock k).filled) (2 ^ 32 - 1)
        ∧ (t.dev.fblock k).scrubIn = some s.dev.scrubPeriod ∧ (t.dev.fblock k).bits = some (st, h)
        ∧ (2 ≤ st ∨ h = true → (t.dev.fblock k).refresh = true ∧ (s.dev.reg regStkCtrl 0 0 2 = 1 → (t.dev.fblock k).st = 5))
        ∧ (∀ j, j ≠ k → t.dev.fblock j = s.dev.fblock j) ∧ Changes [.stk, .adm, .ctrs] s t) ∧
    (∀ v x g, s.dev.sec.restarting = false → s.dev.pwr.pwrFail = false → s.dev.vol? v = some x →
      (s.dev.reg regStkCtrl 0 0 1 = 1 ∨ s.dev.gcForced x = true) → s.dev.freeGroups x < s.dev.reg regStkGcStart →
      (s.dev.gcForced x = true ∨ s.dev.mayStart 4 = true) → s.dev.gcVictim v = some g → After (.garbageCollection v) s fun t =>
        (∀ k ∈ s.dev.groupBlocks g, (s.dev.fblock k).st = 4 → (t.dev.fblock k).st = if (s.dev.fblock k).valid = [] then 0 else 5)
        ∧ (∃ z, t.dev.vol? v = some z ∧ z.collecting = true ∧ z.units = x.units) ∧ Changes [.stk] s t) ∧
    (∀ v u age x y g gr strm k p blk, s.dev.sec.restarting = false → s.dev.pwr.pwrFail = false → s.dev.vol? v = some x →
      tget x.units u = some y → y.staged = false → y.fine = false → (s.dev.fblock y.block).st = 5 →
      (s.dev.gcForced x = true ∨ s.dev.mayStart 4 = true) → strm = (if s.dev.reg regStkColdAge ≤ age then 4 else 3) →
      tget s.dev.stk.openGroups (v * 8 + strm) = some g → tget s.dev.stk.groups g = some gr → k = s.dev.groupNext x.ct210 gr →
      groupPlace x.ct210 gr.members k = (p, blk) → k < s.dev.groupSize x.ct210 gr.members → s.dev.diePaused blk = false → blk ≠ y.block →
      After (.relocation v u true age) s fun t =>
        (∃ z, t.dev.vol? v = some z ∧ tget z.units u = some (y.at_ blk p strm none))
        ∧ u ∉ (t.dev.fblock y.block).valid ∧ u ∈ (t.dev.fblock blk).valid ∧ Changes [.stk, .adm, .ctrs] s t) ∧
    (∀ ch die, ch + 32 * die ∉ s.dev.stk.failedDies → After (.dieFailed ch die) s fun t =>
      ch + 32 * die ∈ t.dev.stk.failedDies
      ∧ (∀ k, (tget s.dev.stk.blocks k).isSome = true → keyChannel k = ch → keyDie k = die → (t.dev.fblock k).st = 6 ∨ (t.dev.fblock k).st = 7)
      ∧ Changes (.stk :: evParts) s t) ∧
    (∀ ch die r, After (.mediaTemperature ch die r) s fun t =>
      (ch + 32 * die ∈ t.dev.stk.hotDies ↔ 10 * s.dev.reg regStkTempWarn ≤ r)
      ∧ (10 * s.dev.reg regStkTempPause ≤ r → ch + 32 * die ∈ t.dev.stk.paused)
      ∧ (r + 50 ≤ 10 * s.dev.reg regStkTempPause → ch + 32 * die ∉ t.dev.stk.paused)
      ∧ t.dev.stk.blocks = s.dev.stk.blocks ∧ t.dev.stk.volumes = s.dev.stk.volumes ∧ Changes (.stk :: evParts) s t) ∧
    (s.dev.sec.restarting = false → twf s.dev.stk.volumes = true → After .governorRecompute s fun t =>
      (∀ v x, s.dev.vol? v = some x → ∃ h, h = x.hist ++ [(s.dev.tim.now, x.accepted, x.programmed)] ∧
        t.dev.vol? v = some { x with hist := h, budget := s.dev.budgetOf { x with hist := h } }) ∧ Changes [.stk] s t) ∧
    (∀ v, s.dev.spanSpaceLow v = true → After (.spanSpaceDiscard v) s fun t =>
      (t.dev.spanSpaceLow v = false ∨ ∀ i c, tget t.dev.stk.copies i = some c → c.volume = v → t.dev.span? i = none)
      ∧ Changes (.stk :: .tier :: evParts) s t) ∧
    (∀ ms, s.dev.stk.ckptRunning = false → s.dev.stk.discovered = true → s.dev.pwr.pwrFail = false →
      s.dev.reg regStkCkptInterval ≤ ms ∨ s.dev.reg regStkCkptBytes * 2 ^ 20 ≤ 65536 * s.dev.stk.changed.length ∨ 1536 ≤ s.dev.stk.replay.length →
      After (.checkpoint ms) s fun t =>
        t.dev.stk = { s.dev.stk with ckptRunning := true, ckptAt := s.dev.tim.count, ckptSegs := s.dev.stk.changed, changed := [], replayNew := [] }
        ∧ Changes [.stk] s t) ∧
    (s.dev.stk.ckptRunning = true → s.dev.pwr.pwrFail = false → After .checkpointDone s fun t =>
      t.dev.stk = { s.dev.stk with ckptRunning := false, ckptSegs := [], replay := s.dev.stk.replayNew, replayNew := [] }
      ∧ Changes [.stk, .ctrs] s t)

/-- Lines of the reading room (R446, R447, R448, R459, R562): a re-read that succeeds counts as corrected, one that fails poisons
the line, a scrub that corrects removes an injected error, an armed injection write leaves the inverted codeword at its line and
clears the mask. -/
def Obligations.LineRowsComplete : Prop :=
  ∀ (s : State) (off g ch : Nat) (w : LineOf), g = ch / 16 → g ∉ s.dev.flt.out → s.dev.inTable off = false → s.dev.injectedRead off = none →
    (∀ n, 1 ≤ n → n ≤ 2 → After (.lineReread off g ch w n) s fun t =>
      t.dev.flt.lines = s.dev.flt.lines ∧ t.dev.flt.frames = s.dev.flt.frames ∧ t.dev.flt.injected = s.dev.flt.injected
      ∧ Changes (.flt :: .free :: evParts) s t) ∧
    (∀ i l, w = .primary i l → s.dev.flt.reserve = [] → tfresh (tkeep s.dev.flt.tables fun i _ => i / 8192 == g) (8192 * g) < 8192 * (g + 1) →
      After (.lineReread off g ch w 3) s fun t =>
        (i, l, 0, off) ∈ t.dev.flt.frames ∧ t.dev.inTable off = true ∧ Event 0x0502 off 1 s t ∧ Changes (.flt :: .free :: evParts) s t) ∧
    (s.dev.reg regFltCtrl 0 0 1 = 1 → s.dev.flt.scrubUnit = some (off / 65536) → After (.readingRoomScrub off g ch w 1) s fun t =>
      t.dev.flt.injected = tdel s.dev.flt.injected off ∧ t.dev.flt.frames = s.dev.flt.frames ∧ t.dev.flt.lines = s.dev.flt.lines
      ∧ Changes (.flt :: .free :: evParts) s t) ∧
    (s.dev.reg regFltCtrl 0 0 1 = 1 → s.dev.flt.scrubUnit = some (off / 65536) → exec (.readingRoomScrub off g ch w 0) s = .next s) ∧
    (s.dev.reg regFltCtrl 0 0 1 = 1 → s.dev.flt.scrubUnit ≠ some (off / 65536) → s.dev.mayStart 5 = true →
      After (.readingRoomScrub off g ch w 0) s fun t =>
        t.dev.flt = { s.dev.flt with scrubUnit := some (off / 65536) } ∧ Changes [.flt, .adm, .log, .ctrs] s t) ∧
    (∀ b : List Byte, b.length = 64 → (s.dev.pat 0).lock = false → s.dev.reg regFltInjectMask ≠ 0 → off = s.dev.reg regFltInjectAddr →
      After (.fltInjectWrite off b) s fun t =>
        (∃ c : List Byte, c.length = 64 ∧ tget t.dev.flt.injected off
          = some ((lineEncode c).zipIdx.map fun e => if bit (s.dev.reg regFltInjectMask) e.2 then ~~~e.1 else e.1))
        ∧ t.dev.reg regFltInjectMask = 0 ∧ (∀ o, o ≠ off → tget t.dev.flt.injected o = tget s.dev.flt.injected o)
        ∧ Changes [.flt, .log, .free, .regs] s t) ∧
    (∀ b : List Byte, s.dev.reg regFltInjectMask = 0 → After (.fltInjectWrite off b) s fun t =>
      t.dev.flt = { s.dev.flt with injected := tdel s.dev.flt.injected off } ∧ Changes [.flt, .log] s t)

/-- Rows, tables and lanes (R453, R455, R456, R457, R458, R460): a spare row or the retired frames, the sweep's end, an emptied
replay line, a segment restored, corrected and lost SRAM words, a spare lane. -/
def Obligations.RepairRowsComplete : Prop :=
  ∀ s : State,
    (∀ ch row, s.dev.reg regFltCtrl 0 0 2 = 1 → ch < 256 → After (.rowRepair ch row true []) s fun t =>
      Event 0x0507 ch row s t ∧ t.dev.seqs = s.dev.seqs ∧ Changes evParts s t) ∧
    (∀ ch row u, s.dev.reg regFltCtrl 0 0 2 = 1 → ch < 256 → u < clusterUnits → u ∉ tgetD s.dev.seqs.retired (ch / 16) [] →
      After (.rowRepair ch row false [u]) s fun t =>
        tgetD t.dev.seqs.retired (ch / 16) [] = tgetD s.dev.seqs.retired (ch / 16) [] ++ [u]
        ∧ (∀ g, g ≠ ch / 16 → tgetD t.dev.seqs.retired g [] = tgetD s.dev.seqs.retired g [])
        ∧ t.dev.seqs.spans = s.dev.seqs.spans ∧ Event 0x0508 (ch / 16) 1 s t ∧ Changes (.seqs :: evParts) s t) ∧
    (s.dev.flt.sweep = true → s.dev.sec.restarting = false → After .referenceSweep s fun t => t.dev.flt.sweep = false ∧ t.pending = s.pending ∧ t.mem = s.mem) ∧
    (s.dev.flt.sweep = false → exec .referenceSweep s = .next s) ∧
    (∀ k, After (.replayLineRewrite k) s fun t =>
      t.dev.fab.poisonReplay = s.dev.fab.poisonReplay.filter (· != k) ∧ t.dev.fab.replayA = s.dev.fab.replayA
      ∧ t.dev.fab.replayS = s.dev.fab.replayS ∧ Changes [.fab, .log] s t) ∧
    (∀ v g, (v, g) ∈ s.dev.stk.waitSegs → s.dev.sec.restarting = false → After (.flashMapReload v g true) s fun t =>
      t.dev.stk.waitSegs = s.dev.stk.waitSegs.filter (· != (v, g)) ∧ t.dev.stk.volumes = s.dev.stk.volumes
      ∧ t.dev.stk.copies = s.dev.stk.copies ∧ Changes [.stk, .log] s t) ∧
    (exec (.sramScrub 0) s = .next s) ∧
    (∀ n, 0 < n → After (.sramScrub n) s fun t => t.dev.flt.frames = s.dev.flt.frames ∧ Changes (.flt :: .free :: evParts) s t) ∧
    (∀ u, After (.sramUncorrectable 4 u false []) s fun t => Event 0x0503 4 0 s t ∧ Changes evParts s t) ∧
    (∀ u p, p = u % 64 → s.dev.active p = true → After (.sramUncorrectable 3 u false []) s fun t =>
      (t.dev.pat p).st = .faulted ∧ (t.dev.pat p).fault = 6) ∧
    (∀ k, k < 3 → s.dev.flt.deviceFault = false → s.dev.flt.lanes.getD k 0 < 2 → k < s.dev.flt.lanes.length →
      After (.dieLinkLaneFail k) s fun t =>
        t.dev.flt.lanes.getD k 0 = s.dev.flt.lanes.getD k 0 + 1 ∧ t.dev.flt.degraded = s.dev.flt.degraded
        ∧ Changes [.flt, .ctrs] s t)

/-- Clusters and firmware (R31, R462, R463, R490, R491): a failing cluster leaves service, its abandoned work resumes with a plan,
a passing self-test returns it; a watchdog or warden event restarts the cores and pauses admission until firmware is ready. -/
def Obligations.ClusterRowsComplete : Prop :=
  ∀ s : State,
    (∀ c k, c < 16 → c ∉ s.dev.flt.out → s.dev.boot.st = .serving → s.dev.headOfWing = none → After (.clusterFault c k) s fun t =>
      t.dev.flt.out = s.dev.flt.out ++ [c] ∧ t.dev.flt.logSeq = s.dev.flt.logSeq + 1 ∧ Out.mctp 3 0x0504 ∈ t.dev.out
      ∧ t.dev.flt.failed = s.dev.flt.failed ∧ Changes (.flt :: .pwr :: evParts) s t) ∧
    (After .repairPlanReady s fun t => t.dev.flt = { s.dev.flt with abandoned := [] } ∧ Changes [.flt, .log] s t) ∧
    (∀ c us, c ∈ s.dev.flt.out → s.dev.fab.held = [] → After (.clusterSelfTestDone c true us) s fun t =>
      c ∉ t.dev.flt.out ∧ t.dev.flt.out = s.dev.flt.out.filter (· != c) ∧ t.dev.flt.logSeq = s.dev.flt.logSeq + 1 ∧ t.dev.rgn = s.dev.rgn
      ∧ t.mem = s.mem) ∧
    (∀ core, s.dev.firmwareRuns = true → s.dev.headOfWing = none → After (.watchdogExpiry core) s fun t =>
      t.dev.sec = { s.dev.sec with restarting := true } ∧ t.dev.adm = { s.dev.adm with paused := true } ∧ Event 0x0509 2 core s t
      ∧ Out.mctp 6 0x0509 ∈ t.dev.out ∧ Changes (.sec :: .adm :: evParts) s t) ∧
    (∀ k core a, k < 6 → (k = 0 → s.dev.wardenPasses a = false) → s.dev.firmwareRuns = true → s.dev.headOfWing = none → After (.wardenViolation k core a) s fun t =>
      t.dev.sec = { s.dev.sec with restarting := true } ∧ t.dev.adm = { s.dev.adm with paused := true } ∧ Event 0x0509 1 core s t
      ∧ Out.mctp 6 0x0509 ∈ t.dev.out ∧ Changes (.sec :: .adm :: evParts) s t) ∧
    (s.dev.firmwareRuns = true → s.dev.sec.advance = none → s.dev.fab.held = [] → After .firmwareReady s fun t =>
      t.dev.sec = { s.dev.sec with restarting := false } ∧ t.dev.adm = { s.dev.adm with paused := false } ∧ Changes [.sec, .adm, .fab] s t)

/-- The device fault (R464): the device stops with DEVICE_FAULT, admission paused, the event logged and reported, AER signalled,
the newest log entries saved, and with flash in order a valid power-loss record. -/
def Obligations.DeviceFaultStops : Prop :=
  ∀ (s : State) (k : Nat) (h f : Bool), s.dev.flt.deviceFault = false → s.dev.boot.st ≠ .off → s.dev.boot.st ≠ .tamperHold →
    After (.deviceFault k h f) s fun t =>
      t.dev.flt.deviceFault = true ∧ t.dev.boot = { s.dev.boot with st := .deviceFault } ∧ t.dev.adm = { s.dev.adm with paused := true }
      ∧ Event 0x050A k s.dev.flt.logSeq s t ∧ Out.mctp 7 0x050A ∈ t.dev.out ∧ Out.aerFatal ∈ t.dev.out
      ∧ t.dev.stk.powerLoss = (if f then s.dev.stk.discovered else s.dev.stk.powerLoss)
      ∧ Changes (.flt :: .boot :: .adm :: .stk :: evParts) s t

/-- A stopped device stays stopped: a further device fault changes nothing (R464). -/
def Obligations.DeviceFaultOnce : Prop :=
  ∀ (s : State) (k : Nat) (h f : Bool), s.dev.flt.deviceFault = true → exec (.deviceFault k h f) s = .next s

/-- SPDM requests that keep no state answer while SPDM is on (R481): GET_VERSION names versions 1.2 and 1.3, GET_MEASUREMENTS the
measurement asked for, CHUNK_GET its part's number; the octets that the manual leaves to the DMTF follow as a free payload; an
unsupported request is answered with an ERROR. -/
def Obligations.SpdmRowsAnswer : Prop :=
  ∀ (s : State) (ses : Nat) (b : List Byte), s.dev.spdmOn = true →
    (After (.getVersion ses b) s fun t =>
      t.dev.out = s.dev.out ++ [.spdm ses 0x84 (.bytes [0x12, 0x13]), freeOctets s ses 0x84] ∧ Changes [.out, .free] s t) ∧
    (After (.getCapabilities ses b) s fun t => t.dev.out = s.dev.out ++ [freeOctets s ses 0xE1] ∧ Changes [.out, .free] s t) ∧
    (After (.getDigests ses b) s fun t => t.dev.out = s.dev.out ++ [freeOctets s ses 0x81] ∧ Changes [.out, .free] s t) ∧
    (After (.getCertificate ses 0 b) s fun t => t.dev.out = s.dev.out ++ [freeOctets s ses 0x82] ∧ Changes [.out, .free] s t) ∧
    (After (.challenge ses b) s fun t => t.dev.out = s.dev.out ++ [freeOctets s ses 0x83] ∧ Changes [.out, .free, .ctrs] s t) ∧
    (∀ i, 1 ≤ i → i ≤ 5 → s.dev.measurement i ≠ [] → After (.getMeasurements ses i false b) s fun t =>
      t.dev.out = s.dev.out ++ [.spdm ses 0xE0 (.bytes (s.dev.measurement i)), freeOctets s ses 0xE0] ∧ Changes [.out, .free] s t) ∧
    (∀ n, After (.chunkGet ses n) s fun t =>
      t.dev.out = s.dev.out ++ [.spdm ses 0x86 (.bytes (leBytes 2 n)), freeOctets s ses 0x86] ∧ Changes [.out, .free] s t) ∧
    (∀ code, After (.spdmUnsupportedRequest ses code) s fun t =>
      t.dev.out = s.dev.out ++ [.spdmError ses 0x07] ∧ Changes [.out, .ctrs] s t)

/-- SPDM requests that keep state: NEGOTIATE_ALGORITHMS is remembered, CHUNK_SEND keeps the part until the last, KEY_EXCHANGE
opens a session while fewer than four are open, FINISH completes it, END_SESSION ends it (R481). -/
def Obligations.SpdmSessionRows : Prop :=
  ∀ (s : State) (ses : Nat) (b : List Byte), s.dev.spdmOn = true →
    (After (.negotiateAlgorithms ses true b) s fun t =>
      t.dev.sec = { s.dev.sec with negotiated := true } ∧ t.dev.out = s.dev.out ++ [freeOctets s ses 0xE3] ∧ Changes [.out, .free, .sec] s t) ∧
    (∀ l, After (.chunkSend ses l b) s fun t =>
      t.dev.sec = { s.dev.sec with chunks := if l then [] else s.dev.sec.chunks ++ b } ∧ t.dev.out = s.dev.out ++ [freeOctets s ses 0x85]
      ∧ Changes [.out, .free, .sec] s t) ∧
    (s.dev.sec.sessions.length < 4 → After (.keyExchange ses b) s fun t =>
      ∃ id : Nat, t.dev.sec = { s.dev.sec with sessions := s.dev.sec.sessions ++ [{ id := id, finished := false }] }
        ∧ Out.spdm ses 0xE4 (.bytes (leBytes 4 id)) ∈ t.dev.out ∧ Changes [.out, .free, .ctrs, .sec] s t) ∧
    ((s.dev.sec.sessions.any fun x => x.id == ses && !x.finished) = true → After (.finish ses true) s fun t =>
      t.dev.sec = { s.dev.sec with sessions := s.dev.sec.sessions.map fun x => if x.id = ses then { x with finished := true } else x }
      ∧ Event 0x0609 ses 1 s t ∧ Changes (.sec :: .free :: evParts) s t) ∧
    (s.dev.inSession ses = true → After (.endSession ses) s fun t =>
      t.dev.sec = { s.dev.sec with sessions := s.dev.sec.sessions.filter fun x => x.id != ses } ∧ t.dev.inSession ses = false
      ∧ Event 0x0609 ses 0 s t ∧ Changes (.sec :: .free :: evParts) s t)

/-- Requests inside a finished session: HEARTBEAT and KEY_UPDATE answer, KEY_SET imports a key of a CONFIGURING patron without
data, POOL_SECRET_SET keeps the secret, DEBUG_CHALLENGE draws a nonce, DEBUG_UNLOCK with a good token over a nonce of at most 60 s
opens debug, clears the keys, uses the nonce up and faults every active patron with cause 5 (R102, R483, R492). -/
def Obligations.VendorRowsComplete : Prop :=
  ∀ (s : State) (ses : Nat) (b : List Byte), s.dev.spdmOn = true → s.dev.inSession ses = true →
    (After (.heartbeat ses) s fun t => t.dev.out = s.dev.out ++ [freeOctets s ses 0xE8] ∧ Changes [.out, .free] s t) ∧
    (After (.keyUpdate ses) s fun t => t.dev.out = s.dev.out ++ [freeOctets s ses 0xE9] ∧ Changes [.out, .free] s t) ∧
    (∀ p, p = leNat ((b.drop 1).take 1) % 64 → (b.drop 4).length = 64 → (b.drop 4).take 32 ≠ (b.drop 4).drop 32 →
      (s.dev.pat p).st = .configuring → s.dev.hasData p = false → s.dev.sec.debug = false → After (.keySet ses b) s fun t =>
        p ∈ t.dev.sec.keyed ∧ tget t.dev.sec.imported p = some (b.drop 4) ∧ t.dev.sec.gens = s.dev.sec.gens
        ∧ Event 0x0603 p (tgetD s.dev.sec.gens p 0) s t
        ∧ Out.spdm ses 0xFE (.bytes (leBytes 1 1 ++ leBytes 1 stOk ++ [0, 0])) ∈ t.dev.out ∧ Changes (.sec :: evParts) s t) ∧
    ((b.drop 4).length = 32 → After (.poolSecretSet ses b) s fun t =>
      t.dev.sec = { s.dev.sec with poolSecret := some (b.drop 4) } ∧ Event 0x060A 0 0 s t ∧ Changes (.sec :: evParts) s t) ∧
    (s.dev.sec.entropyOk = true → After (.debugChallenge ses b) s fun t =>
      t.dev.sec = { s.dev.sec with nonce := some s.dev.free }
      ∧ (∃ x : List Byte, x.length = 32 ∧ t.dev.out = s.dev.out ++ [.spdm ses 0xFE (.bytes (leBytes 1 3 ++ leBytes 1 stOk ++ [0, 0] ++ x))])
      ∧ Changes [.sec, .out, .free] s t) ∧
    (∀ age, s.dev.sec.nonce ≠ none → age ≤ 60 → (b.drop 4).length = 3309 → After (.debugUnlock ses b true age) s fun t =>
      t.dev.sec = { s.dev.sec with keysClear := true, retained := [], nonce := none, debug := true }
      ∧ (∀ p, p < 64 → s.dev.active p = true → (t.dev.pat p).st = .faulted ∧ (t.dev.pat p).fault = 5)
      ∧ ((∀ p, p < 64 → s.dev.active p = false) → Event 0x0607 0 0 s t)
      ∧ (∀ k, (t.dev.port k).keyOut = [] ∧ (t.dev.port k).keyIn = [] ∧ (t.dev.port k).st = (s.dev.port k).st)
      ∧ Changes (.sec :: .fab :: .host :: evParts) s t)

/-- A vendor request, HEARTBEAT, KEY_UPDATE or END_SESSION outside a finished session is answered with an ERROR and has no other
effect (R481, R483). -/
def Obligations.SessionRowsNeedSession : Prop :=
  ∀ (s : State) (ses age : Nat) (b : List Byte) (v : Bool), s.dev.spdmOn = true → s.dev.inSession ses = false →
    ∀ c ∈ [Instr.heartbeat ses, .keyUpdate ses, .endSession ses, .keySet ses b, .poolSecretSet ses b, .debugChallenge ses b,
        .debugUnlock ses b v age],
      After c s fun t => t.dev.out = s.dev.out ++ [.spdmError ses 0x0B] ∧ Changes [.out, .ctrs] s t

/-- Entropy failure, tamper, the recovery command, JTAG, DOE discovery (R474, R486, R492, R493, R68): the failed source is noted
and reported, a watching sensor zeroizes every key, raises WRAP_GEN and holds the device, a recovery load starts in RECOVERY
alone, IDCODE and boundary scan answer, an instruction to the device's inside has no effect while debug is LOCKED, and DOE discovery
answers with the entry of each of the three protocols, or with 12 free octets beyond them (the octets are the PCI-SIG's: log entry 143). -/
def Obligations.SecurityRowsComplete : Prop :=
  ∀ s : State, s.dev.boot.st ≠ .off → s.dev.boot.st ≠ .tamperHold →
    (∀ test, After (.entropyFail test) s fun t =>
      t.dev.sec = { s.dev.sec with entropyOk := false } ∧ Event 0x0601 test 0 s t ∧ Changes (.sec :: evParts) s t) ∧
    (∀ x, s.dev.sensorOn x = true → After (.tamperDetect x) s fun t =>
      t.dev.sec.keyed = [] ∧ t.dev.sec.imported = [] ∧ t.dev.sec.retained = [] ∧ t.dev.sec.poolSecret = none
      ∧ t.dev.sec.wrapGen = min 32 (s.dev.sec.wrapGen + 1) ∧ t.dev.sec.tamperLatched = true ∧ t.dev.sec.keysClear = true
      ∧ t.dev.boot = { s.dev.boot with st := .tamperHold } ∧ t.dev.adm.paused = true ∧ t.dev.host.linkUp = false
      ∧ t.dev.host.patrons = s.dev.host.patrons ∧ (∀ k, (t.dev.port k).keyOut = [] ∧ (t.dev.port k).keyIn = [])
      ∧ Changes [.sec, .boot, .adm, .host, .fab] s t) ∧
    (∀ v, v % 2 = 1 → s.dev.reached 0 = true → s.dev.boot.st = .recovery → s.dev.sec.rcvState ≠ 1 → After (.secRcvCmd v) s fun t =>
      t.dev.sec = { s.dev.sec with rcvState := 1, rcvCheck := 0 } ∧ Changes [.sec] s t) ∧
    (∀ k, k ≤ 1 → After (.jtagInstruction k) s fun t => t.dev.out = s.dev.out ++ [.jtag k] ∧ Changes [.out] s t) ∧
    (∀ k, 1 < k → s.dev.sec.debug = false → exec (.jtagInstruction k) s = .next s) ∧
    (∀ i, s.dev.doeOn = true → i < 3 → After (.doeDiscovery i) s fun t =>
      t.dev.out = s.dev.out ++ [.doe (doeEntry i)] ∧ Changes [.out] s t) ∧
    (∀ i, s.dev.doeOn = true → 3 ≤ i → After (.doeDiscovery i) s fun t =>
      (∃ x : List Byte, x.length = 12 ∧ t.dev.out = s.dev.out ++ [.doe x]) ∧ Changes [.out, .free] s t)

/-- A JTAG instruction to the device's inside is refused exactly when debug is unlocked and the device has power: the manual opens
the access and does not say what it does (R492). -/
def Obligations.JtagStops : Prop :=
  ∀ (s : State) (k : Nat), exec (.jtagInstruction k) s = .refused .debugInternalAccess ↔
    (s.dev.boot.st ≠ .off ∧ 1 < k ∧ s.dev.sec.debug = true)

/-- A home serves what reaches it (R351, R352, R356, R365, R368, R369): a load or READ_BLOCK returns the lines and a tracked load is
entered in the directory; stores, partial stores, blocks and atomics change their own bytes of pool memory and no other, keep a replay
record, and answer at once where no other holder must be invalidated; configuration traffic is answered. -/
def Obligations.HomeRowsComplete : Prop :=
  ∀ (s : State) (port : Nat) (m : Msg) (r : Region),
    (HomeServes s port 0x01 m r → After (.load port m) s fun t =>
      Sends (srcDev m.source) 0x28 (fun x => x.tag = m.tag ∧ x.arg = stOk ∧ x.slots = s.lineData (m.addr / 64 * 64)) t
      ∧ (r.kind ≠ 2 → ∃ e ∈ t.dev.dirEnts (dirSet (m.addr % 2 ^ 50 / 64)), e.line = m.addr % 2 ^ 50 / 64 ∧ bit e.holders (srcDev m.source % 16) = true)
      ∧ Changes [.fab, .rgn, .out, .ctrs] s t) ∧
    (HomeServes s port 0x03 m r → After (.readBlock port m) s fun t =>
      Sends (srcDev m.source) 0x28 (fun x => x.tag = m.tag ∧ x.arg = stOk
        ∧ x.slots = (List.range (m.arg + 1)).flatMap fun i => s.lineData (m.addr / 64 * 64 + 64 * i)) t
      ∧ Changes [.fab, .rgn, .out, .ctrs] s t) ∧
    (∀ c code, (c, code) ∈ [(Instr.store port m, 0x08), (.writeBlock port m, 0x0A)] → HomeWrites s port code m r →
      After c s fun t =>
        memRead t.mem (m.addr % 2 ^ 50) m.slots.length = m.slots
        ∧ (∀ a, a < m.addr % 2 ^ 50 ∨ m.addr % 2 ^ 50 + m.slots.length ≤ a → memGet t.mem a = memGet s.mem a)
        ∧ tget t.dev.fab.replayS (m.source * 65536 + m.tag) = some { src := m.source, tag := m.tag }
        ∧ (unshared s code m r → Sends (srcDev m.source) 0x29 (fun x => x.tag = m.tag ∧ x.arg = stOk) t)
        ∧ t.pending = s.pending ∧ Frame (.fab :: .rgn :: .flt :: .stk :: .tier :: evParts) s.dev t.dev) ∧
    (HomeWrites s port 0x09 m r → After (.storePartial port m) s fun t =>
      (∀ i, i < 64 → memGet t.mem (m.addr % 2 ^ 50 + i)
        = if bit (fieldOf m.slots 0 8) i then (m.slots.drop 16).getD i 0 else memGet s.mem (m.addr % 2 ^ 50 + i))
      ∧ (∀ a, a < m.addr % 2 ^ 50 ∨ m.addr % 2 ^ 50 + 64 ≤ a → memGet t.mem a = memGet s.mem a)
      ∧ tget t.dev.fab.replayS (m.source * 65536 + m.tag) = some { src := m.source, tag := m.tag }
      ∧ (unshared s 0x09 m r → Sends (srcDev m.source) 0x29 (fun x => x.tag = m.tag ∧ x.arg = stOk) t)
      ∧ t.pending = s.pending ∧ Frame (.fab :: .rgn :: .flt :: .stk :: .tier :: evParts) s.dev t.dev) ∧
    (HomeWrites s port 0x10 m r → ∀ n old new, n = atomicWidth m.arg → old = leNat (memRead s.mem (m.addr % 2 ^ 50) n) →
      new = atomicNew (m.arg % 16) (8 * n) old (atomicArgs m.arg m.slots).1 (atomicArgs m.arg m.slots).2 → After (.atomic port m) s fun t =>
        memRead t.mem (m.addr % 2 ^ 50) n = leBytes n new
        ∧ (∀ a, a < m.addr % 2 ^ 50 ∨ m.addr % 2 ^ 50 + n ≤ a → memGet t.mem a = memGet s.mem a)
        ∧ tget t.dev.fab.replayA (m.source * 65536 + m.tag) = some { src := m.source, tag := m.tag, arg := m.arg, result := old }
        ∧ (unshared s 0x10 m r → Sends (srcDev m.source) 0x2A (fun x => x.tag = m.tag ∧ x.arg = stOk ∧ x.slots = leBytes 16 old) t)
        ∧ t.pending = s.pending ∧ Frame (.fab :: .rgn :: .flt :: .stk :: .tier :: evParts) s.dev t.dev) ∧
    (Taken s port 0x40 m → s.dev.sec.restarting = false → s.dev.ordHeld = [] → After (.configRead port m) s fun t =>
      Sends (srcDev m.source) 0x28 (fun x => x.tag = m.tag ∧ x.arg = stOk ∧ x.slots.length = 64) t ∧ Changes [.fab, .out, .ctrs, .free] s t) ∧
    (Taken s port 0x41 m → s.dev.sec.restarting = false → s.dev.ordHeld = [] → After (.configWrite port m) s fun t =>
      Sends (srcDev m.source) 0x29 (fun x => x.tag = m.tag ∧ x.arg = stOk) t ∧ Changes [.fab, .out, .ctrs] s t) ∧
    (∀ i h, s.dev.fab.held[i]? = some h → h.why = 0 → h.code = 0x03 → h.job = none → (∃ k, h.ready = some k ∧ k ≤ s.dev.tim.count) →
      HomeReady s 0x03 h.m r → s.dev.ordHeld = [] → srcDev h.m.source ≠ s.dev.devNo → s.dev.flt.deviceFault = false → After (.heldAccessServe i) s fun t =>
        Sends (srcDev h.m.source) 0x28 (fun x => x.tag = h.m.tag ∧ x.arg = stOk
          ∧ x.slots = (List.range (h.m.arg + 1)).flatMap fun j => s.lineData (h.m.addr / 64 * 64 + 64 * j)) t
        ∧ t.dev.fab.held = s.dev.fab.held.eraseIdx i ∧ Changes [.fab, .rgn, .out, .ctrs] s t)

/-- What answers and ends requests (R354, R355, R356, R363, R365, R367, R368): acknowledgements free the records they name; INVALIDATE
drops the line and is acknowledged; INV_ACK takes a position off those awaited; responses close their request and count toward its
job; a request without response goes out again; a window's groups go out combined. -/
def Obligations.AnswerRowsComplete : Prop :=
  ∀ (s : State) (port : Nat) (m : Msg),
    (Taken s port 0x18 m → After (.ack port m) s fun t =>
      (∀ i, i < 64 → bit (fieldOf m.slots 8 8) i = true →
        tget t.dev.fab.replayA (m.source * 65536 + (fieldOf m.slots 0 2 + i) % 65536) = none
        ∧ tget t.dev.fab.replayS (m.source * 65536 + (fieldOf m.slots 0 2 + i) % 65536) = none)
      ∧ (∀ k, (∀ i, i < 64 → bit (fieldOf m.slots 8 8) i = true → k ≠ m.source * 65536 + (fieldOf m.slots 0 2 + i) % 65536) →
        tget t.dev.fab.replayA k = tget s.dev.fab.replayA k ∧ tget t.dev.fab.replayS k = tget s.dev.fab.replayS k)
      ∧ Changes [.fab, .out, .ctrs] s t) ∧
    (Taken s port 0x20 m → m.addr % 2 ^ 50 ≠ 2 ^ 50 - 1 → After (.invalidate port m) s fun t =>
      tget t.dev.fab.borrow (m.addr / 64) = none ∧ (∀ l, l ≠ m.addr / 64 → tget t.dev.fab.borrow l = tget s.dev.fab.borrow l)
      ∧ Sends (srcDev m.source) 0x21 (fun x => x.tag = m.tag ∧ x.addr = m.addr) t ∧ Changes [.fab, .out, .ctrs] s t) ∧
    (∀ e, Taken s port 0x21 m → m.addr % 2 ^ 50 ≠ 2 ^ 50 - 1 →
      ((s.dev.dirEnts (dirSet (m.addr % 2 ^ 50 / 64))).find? fun e => e.line == m.addr % 2 ^ 50 / 64 && e.awaited.contains (srcDev m.source % 16)) = some e →
      e.loads = [] → After (.invAck port m) s fun t =>
        (∀ x ∈ t.dev.dirEnts (dirSet (m.addr % 2 ^ 50 / 64)), x.line = m.addr % 2 ^ 50 / 64 → x.awaited = e.awaited.erase (srcDev m.source % 16))
        ∧ (e.awaited.erase (srcDev m.source % 16) = [] → ∀ h ∈ t.dev.fab.heldRsp, m.addr % 2 ^ 50 / 64 ∉ h.lines)
        ∧ t.mem = s.mem ∧ t.pending = s.pending) ∧
    (∀ o k j, s.dev.fab.outst.find? (fun o => o.m.tag == m.tag) = some o → tget s.dev.fab.jobs k = some j → 2 ≤ j.wait → m.arg = stOk →
      (Taken s port 0x28 m → o.code = 0x01 → o.job = some k → o.members = [] → m.poison = false → o.stale = false → After (.data port m) s fun t =>
        tget t.dev.fab.jobs k = some { j with wait := j.wait - 1, got := tset j.got (o.m.addr / 64) m.slots }
        ∧ tget t.dev.fab.borrow (o.m.addr / 64) = some (m.slots.take 64)
        ∧ t.dev.fab.outst = s.dev.fab.outst.filter (fun x => x.m.tag != m.tag) ∧ Changes [.fab, .adm, .free] s t) ∧
      (Taken s port 0x29 m → isUpdate o.code = true → o.job = some k → o.members = [] → After (.done port m) s fun t =>
        tget t.dev.fab.jobs k = some { j with wait := j.wait - 1 }
        ∧ Sends o.dest 0x18 (fun x => x.source = o.m.source ∧ x.slots = leBytes 2 o.m.tag ++ List.replicate 6 0 ++ leBytes 8 1) t
        ∧ Changes [.fab, .adm, .out, .ctrs] s t) ∧
      (∀ v, Taken s port 0x2A m → o.members = [(k, v)] → After (.result port m) s fun t =>
        tget t.dev.fab.jobs k = some { j with wait := j.wait - 1, ans := { j.ans with r0 := leNat m.slots % 2 ^ 128 } }
        ∧ Sends o.dest 0x18 (fun x => x.source = o.m.source ∧ x.slots = leBytes 2 o.m.tag ++ List.replicate 6 0 ++ leBytes 8 1) t
        ∧ Changes [.fab, .adm, .out, .ctrs] s t)) ∧
    (∀ o q j k, Taken s port 0x51 m → s.dev.fab.outst.find? (fun o => o.m.tag == m.tag) = some o → o.job = some k →
      tget s.dev.fab.jobs k = some j → j.op < 0x100 → ¬(j.op = 0x86 ∧ j.fetching = true) → j.q = some q → j.asker = none → After (.regionDone port m) s fun t =>
        tget t.dev.fab.jobs k = none
        ∧ (∃ x ∈ t.dev.adm.due, x.patron = q.d.patron ∧ x.tag = q.d.tag ∧ x.status = m.arg ∧ x.r0 = fieldOf m.slots 0 8 ∧ x.r1 = fieldOf m.slots 8 7)
        ∧ Changes [.fab, .adm, .ctrs] s t) ∧
    (∀ tag o, s.dev.flt.deviceFault = false → s.dev.fab.outst.find? (fun o => o.m.tag == tag) = some o → o.sent = true →
      (isUpdate o.code = true ∨ o.code = 0x01 ∨ o.code = 0x03) → After (.requestRetryTimeout tag) s fun t =>
        Sends o.dest o.code (fun x => x.tag = tag ∧ x.retry = true ∧ x.addr = o.m.addr ∧ x.slots = o.m.slots) t
        ∧ Changes [.fab, .adm, .out, .ctrs] s t) ∧
    (∀ line, s.dev.flt.deviceFault = false → After (.combineWindowClose line) s fun t =>
      (∀ c ∈ t.dev.fab.homeComb, c.line ≠ line)
      ∧ ((∀ c ∈ s.dev.fab.homeComb, c.line ≠ line) →
        (∀ e ∈ s.dev.fab.comb, e.2.line = line → Sends e.2.dest e.2.code (fun x => x.addr = e.2.m.addr ∧ x.combined = joinable e.2.code e.2.m ∧ x.slots = e.2.m.slots) t)
        ∧ (∀ e ∈ t.dev.fab.comb, e.2.line ≠ line) ∧ Changes [.fab, .adm, .out, .ctrs] s t)) ∧
    (∀ dest cls k, s.dev.flt.deviceFault = false → k = chanKey dest cls → (s.dev.chan k).unacked ≠ [] →
      ((s.dev.chan k).resends < 4 → After (.messageResendTimeout dest cls) s fun t =>
        (∀ x ∈ (s.dev.chan k).unacked.take 64, Sends dest 0x30 (fun y => y.slots = x.2.2.slots) t)
        ∧ t.dev.chan k = { s.dev.chan k with resends := (s.dev.chan k).resends + 1 } ∧ Changes [.fab, .adm, .out, .ctrs] s t) ∧
      (4 ≤ (s.dev.chan k).resends → (∀ o ∈ s.dev.fab.outst, o.dest ≠ dest) → After (.messageResendTimeout dest cls) s fun t =>
        t.dev.chan k = { s.dev.chan k with unacked := [], resends := 0 } ∧ Event 0x0306 (dest + 256 * cls) (s.dev.chan k).unacked.length s t
        ∧ Changes (.fab :: evParts) s t)) ∧
    (∀ k, Taken s port 0x30 m → k = chanKey (srcDev m.source) 3 → fieldOf m.slots 0 1 % 64 = s.dev.devNo → fieldOf m.slots 1 1 = 3 →
      fieldOf m.slots 4 4 = (s.dev.chan k).recvSeq → After (.message port m) s fun t =>
        t.dev.chan k = { s.dev.chan k with recvSeq := ((s.dev.chan k).recvSeq + 1) % 2 ^ 32 }
        ∧ Sends (srcDev m.source) 0x31 (fun x => fieldOf x.slots 4 4 = fieldOf m.slots 4 4) t ∧ Changes [.fab, .out, .ctrs] s t) ∧
    (Taken s port 0x30 m → fieldOf m.slots 0 1 % 64 ≠ s.dev.devNo → After (.message port m) s fun t =>
      Sends (fieldOf m.slots 0 1 % 64) 0x30 (fun x => x.slots = m.slots ∧ x.relayed = true) t ∧ Changes [.fab, .out, .ctrs] s t) ∧
    (∀ k i rc, Taken s port 0x31 m → fieldOf m.slots 0 1 % 64 = s.dev.devNo → k = chanKey (srcDev m.source) (fieldOf m.slots 1 1) →
      ((s.dev.chan k).unacked.findIdx? fun x => x.1 == fieldOf m.slots 4 4) = some i → After (.messageAck port m rc) s fun t =>
        t.dev.chan k = { s.dev.chan k with unacked := (s.dev.chan k).unacked.drop (i + 1), resends := 0 } ∧ Changes [.fab, .out, .ctrs] s t)

/-- Regions between devices (R389, R401, R402, R408, R411, R413, R416): a MAP_NOTICE installs its mapping; a mirror applies the next
write of its primary and a rebuild target each block; a drained revocation ends; a PUBLISH that arrives is served; a handed sector is
accepted into the stacks. -/
def Obligations.RegionMessagesComplete : Prop :=
  ∀ (s : State) (port : Nat) (m : Msg) (r : Region),
    (Taken s port 0x52 m → srcDev m.source / 16 = s.dev.wing → fieldOf m.slots 12 4 ≠ 0 → s.dev.rgn.maps.length < 16384 →
      After (.mapNotice port m) s fun t =>
        { region := fieldOf m.slots 0 4, patron := srcPatron (fieldOf m.slots 4 2), rights := fieldOf m.slots 6 1, first := fieldOf m.slots 8 4, count := fieldOf m.slots 12 4, attrs := fieldOf m.slots 7 1, partner := m.arg } ∈ t.dev.rgn.maps
        ∧ Sends (srcDev m.source) 0x29 (fun x => x.tag = m.tag ∧ x.arg = stOk) t ∧ Changes [.fab, .rgn, .out, .ctrs] s t) ∧
    (Taken s port 0x58 m → Memory.wf s.mem = true → s.dev.regionOf m.addr = some r → fieldOf m.slots 0 8 = r.mirrorSeq + 1 → m.slots.length = 80 →
      fieldOf m.slots 12 1 ≠ 0x10 → calm s → m.addr % 64 = 0 → m.addr % windowBytes ≠ versionOff → r.persist = false →
      (∀ h ∈ s.dev.fab.held, h.why ≠ 4) → After (.mirrorWrite port m) s fun t =>
        memRead t.mem (m.addr % 2 ^ 50) 64 = m.slots.drop 16
        ∧ (∀ a, a < m.addr % 2 ^ 50 ∨ m.addr % 2 ^ 50 + 64 ≤ a → memGet t.mem a = memGet s.mem a)
        ∧ (∃ q, t.dev.regionOf m.addr = some q ∧ q.mirrorSeq = r.mirrorSeq + 1)
        ∧ (srcDev m.source ≠ s.dev.devNo → Sends (srcDev m.source) 0x29 (fun x => x.tag = m.tag ∧ x.arg = stOk) t)
        ∧ t.pending = s.pending ∧ Frame (.fab :: .rgn :: .flt :: .stk :: .tier :: evParts) s.dev t.dev) ∧
    (Taken s port 0x58 m → s.dev.regionOf m.addr = some r → fieldOf m.slots 0 8 ≤ r.mirrorSeq → After (.mirrorWrite port m) s fun t =>
      Sends (srcDev m.source) 0x29 (fun x => x.tag = m.tag ∧ x.arg = stOk) t ∧ Changes [.fab, .out, .ctrs] s t) ∧
    (Taken s port 0x59 m → Memory.wf s.mem = true → s.dev.regionOf m.addr = some r → calm s → m.slots.length % 16 = 0 →
      After (.mirrorBlock port m) s fun t =>
      memRead t.mem (m.addr % 2 ^ 50) (64 * (m.arg + 1)) = m.slots.drop 16
      ∧ (∀ a, a < m.addr % 2 ^ 50 ∨ m.addr % 2 ^ 50 + 64 * (m.arg + 1) ≤ a → memGet t.mem a = memGet s.mem a)
      ∧ (r.st = 3 → m.addr % windowBytes + 64 * (m.arg + 1) = r.size → ∃ q, t.dev.regionOf m.addr = some q ∧ q.st = 1)
      ∧ t.pending = s.pending ∧ Frame (.fab :: .rgn :: .flt :: .stk :: .tier :: evParts) s.dev t.dev) ∧
    (∀ id k, s.dev.regionOf (regionAddr id) = some r → r.revoke = some k → s.dev.drainOpen r = false → r.destroy = false → r.revokeNext = [] →
      slotOf (regionAddr id) = id / 64 → After (.revokeDrainEnd id) s fun t =>
        tget t.dev.fab.jobs k = none
        ∧ t.dev.regionOf (regionAddr id) = some { r with grants := r.grants.filter (!·.revoking), revoke := none, target := none }
        ∧ t.mem = s.mem ∧ t.pending = s.pending) ∧
    (∀ dev, Taken s port 0x50 m → dev = srcDev m.source → s.dev.regionOpen = true → (∀ e ∈ s.dev.fab.jobs, e.2.asker ≠ some (dev, m.tag)) →
      fieldOf m.slots 2 1 = 0x34 → s.dev.regionOf (regionAddr (addrRegion m.addr) + versionOff) = some r → r.mirror = false → r.live = none →
      slotOf (regionAddr (addrRegion m.addr) + versionOff) = addrRegion m.addr / 64 →
      r.revoked (srcDev (fieldOf m.slots 0 2)) (srcPatron (fieldOf m.slots 0 2)) = false →
      r.grants_ (srcDev (fieldOf m.slots 0 2)) (srcPatron (fieldOf m.slots 0 2)) 3 none = true → fieldOf m.slots 16 8 = r.version →
      After (.regionRequest port m) s fun t =>
        (∃ q, tget t.dev.rgn.slots (addrRegion m.addr / 64) = some q ∧ q.version = r.version + 1 ∧ q.versionTick = s.dev.tim.count)
        ∧ t.mem = s.mem ∧ t.pending = s.pending) ∧
    (∀ k sec at_ x, s.dev.rgn.handed = [(k, sec, at_)] → s.dev.stacksOn = true → s.dev.sectorBytes (k, sec, at_) ≤ s.dev.acceptRoom →
      tget s.dev.rgn.slots (k / 2 ^ 17) = some r → s.dev.vol? r.volume = some x → x.protected_ = false → After .persistAccept s fun t =>
        t.dev.rgn.handed = []
        ∧ (∃ z w f, t.dev.vol? r.volume = some z ∧ tget z.units (flashUnit (k / 2 ^ 17) (k % 2 ^ 17) + sec / 16) = some w
          ∧ tget w.sectors (sec % 16) = some f ∧ f.data = memRead s.mem (k / 2 ^ 17 * windowBytes + k % 2 ^ 17 * unitBytes + 4096 * sec) 4096
          ∧ f.key = s.dev.unitPatron r)
        ∧ (∀ h ∈ t.dev.fab.heldRsp, (k, sec, at_) ∉ h.accept) ∧ t.mem = s.mem ∧ t.pending = s.pending)

/-- Links and pool assembly (R343, R346, R347, R369 to R371, R378, R479, R513 to R516): lanes that lock load the keys of both directions and
the port exchanges identities; a port that does not train fails and is retried; a flit in sequence is taken, a bad one NAKed; a NAK
resends; an idle link retrains; keepalives go out and are taken; an IDENT puts the port UP or MISWIRED; a position silent too long is
declared dead; announces, reports and the roster of the presenting head. -/
def Obligations.LinkRowsComplete : Prop :=
  ∀ (s : State) (k : Nat),
    (∀ lanes secret far, ((s.dev.port k).st = .training ∨ (s.dev.port k).st = .retraining) → (lanes = 4 ∨ lanes = 2) →
      s.dev.sec.poolSecret = some secret → s.dev.sec.keysClear = false → s.dev.partnerOf k = some far → After (.laneLock k lanes) s fun t =>
        (∃ nonce : List Byte, nonce.length = 16 ∧ t.dev.port k = { s.dev.port k with st := .exchange, lanes := lanes, degraded := lanes == 2, flits := 0, keyOut := linkKey secret s.dev.devNo far (s.dev.port k).nonce nonce, keyIn := linkKey secret far s.dev.devNo nonce (s.dev.port k).nonce })
        ∧ (∀ j, j ≠ k → t.dev.port j = s.dev.port j) ∧ Changes [.fab, .free] s t) ∧
    ((s.dev.port k).st = .training → After (.trainingTimeout k) s fun t =>
      t.dev.port k = { s.dev.port k with st := .failed } ∧ (∀ j, j ≠ k → t.dev.port j = s.dev.port j)
      ∧ Event 0x0301 (k + 256 * 5) ((s.dev.partnerOf k).getD 0) s t ∧ Changes (.fab :: evParts) s t) ∧
    ((s.dev.port k).st = .retraining → After (.trainingTimeout k) s fun t =>
      t.dev.port k = { s.dev.port k with st := .failed } ∧ (∀ j, j ≠ k → t.dev.port j = s.dev.port j) ∧ Changes [.fab] s t) ∧
    (((s.dev.port k).st = .failed ∨ (s.dev.port k).st = .miswired) → s.dev.mayTrain k = true → After (.portRetryTimer k) s fun t =>
      (∃ nonce : List Byte, nonce.length = 16
        ∧ t.dev.port k = { s.dev.port k with st := .training, nonce := nonce, keyOut := [], keyIn := [], flits := 0 })
      ∧ (∀ j, j ≠ k → t.dev.port j = s.dev.port j) ∧ Changes [.fab, .free] s t) ∧
    (∀ f : FlitIn, (s.dev.port k).st = .up →
      (f.crcOk = true → f.tagOk = true → f.fseq = (s.dev.port k).expect → After (.flitReceive k f) s fun t =>
        (t.dev.port k).expect = ((s.dev.port k).expect + 1) % 4096 ∧ (t.dev.port k).ackSent = f.fseq ∧ (t.dev.port k).naks = 0
        ∧ (t.dev.port k).skipping = false ∧ (t.dev.port k).st = .up ∧ Changes [.fab, .adm, .out, .ctrs] s t) ∧
      (f.crcOk = false → (s.dev.port k).naks + 1 < 8 → After (.flitReceive k f) s fun t =>
        t.dev.out = s.dev.out ++ [.nak k (((s.dev.port k).expect + 4095) % 4096)]
        ∧ t.dev.port k = { s.dev.port k with skipping := true, naks := (s.dev.port k).naks + 1 }
        ∧ (∀ j, j ≠ k → t.dev.port j = s.dev.port j) ∧ Changes [.fab, .out, .ctrs] s t)) ∧
    (∀ ack, (s.dev.port k).st = .up → ¬((s.dev.port k).nakAck = ack ∧ 7 ≤ (s.dev.port k).nakSeen) → After (.nakReceive k ack) s fun t =>
      t.dev.out = s.dev.out ++ [.resend k ack] ∧ (t.dev.port k).nakAck = ack ∧ (t.dev.port k).st = .up
      ∧ (∀ j, j ≠ k → t.dev.port j = s.dev.port j) ∧ Changes (.fab :: .flt :: .free :: evParts) s t) ∧
    (s.dev.portUp k = true → After (.linkIdleTimeout k) s fun t =>
      (t.dev.port k).st = .retraining ∧ (t.dev.port k).keyOut = [] ∧ Event 0x0301 (k + 256 * 4) (s.dev.port k).partner s t
      ∧ Changes (.fab :: .free :: .adm :: evParts) s t) ∧
    (s.dev.fabOn = true → After .keepaliveSend s fun t =>
      (∀ j, j < 15 → s.dev.portUp j = true → Sends (16 * s.dev.wing + meshPartner s.dev.pos j) 0x38 (fun x =>
        x.source = s.dev.devNo ∧ x.slots = leBytes 4 s.dev.fab.epoch ++ leBytes 2 s.dev.reach ++ leBytes 1 s.dev.gatesUp ++ leBytes 1 0 ++ leBytes 8 s.dev.tim.now) t)
      ∧ Changes [.fab, .out, .ctrs] s t) ∧
    (∀ m dev, Taken s k 0x38 m → dev = srcDev m.source → dev ≠ s.dev.devNo → s.dev.isDead dev = false →
      ((s.dev.peer dev).epoch = none ∨ (s.dev.peer dev).epoch = some (fieldOf m.slots 0 4)) → After (.keepalive k m) s fun t =>
        t.dev.peer dev = { s.dev.peer dev with dead := false, epoch := some (fieldOf m.slots 0 4), reach := fieldOf m.slots 4 2, gate := fieldOf m.slots 6 1 % 8, heard := s.dev.tim.now, direct := if m.relayed then (s.dev.peer dev).direct else some s.dev.tim.now }
        ∧ (∀ j, j ≠ dev → t.dev.peer j = s.dev.peer j) ∧ Changes [.fab] s t) ∧
    (∀ m dev, s.dev.fabOn = true → msgOk 0x3A m = true → (s.dev.port k).st = .exchange → dev = fieldOf m.slots 0 1 % 64 →
      (s.dev.partnerOf k = some dev → 15 ≤ k → After (.ident k m) s fun t =>
        (t.dev.port k).st = .up ∧ (t.dev.port k).partner = dev ∧ Event 0x0302 (k + 256 * (s.dev.port k).lanes) dev s t
        ∧ Changes (.fab :: .adm :: evParts) s t) ∧
      (s.dev.partnerOf k ≠ some dev → After (.ident k m) s fun t =>
        t.dev.port k = { (s.dev.port k).acked (fieldOf m.slots 8 2) with st := .miswired, partner := dev } ∧ (∀ j, j ≠ k → t.dev.port j = s.dev.port j)
        ∧ Event 0x0303 k dev s t ∧ Changes (.fab :: evParts) s t)) ∧
    (∀ pos dev, s.dev.fabOn = true → pos < 16 → pos ≤ s.dev.boot.straps.wingSize → dev = 16 * s.dev.wing + pos → dev ≠ s.dev.devNo →
      s.dev.isDead dev = false → s.dev.fab.outst.filter (fun o => o.dest == dev) = [] → s.dev.rgn.maps = [] → s.dev.rgn.slots = [] →
      s.dev.fab.dir = [] → s.dev.fab.held = [] → dev ∉ s.dev.boot.heads →
      (∀ r, r < 4 → s.dev.reg regTirRemoter r 0 2 = 1 → addrDev (s.dev.reg regTirRemoter r 0 0) ≠ dev) →
      After (.deadDeclaration pos) s fun t =>
        t.dev.isDead dev = true ∧ (∀ j, j ≠ dev → t.dev.peer j = s.dev.peer j)
        ∧ (∀ l b, tget t.dev.fab.borrow l = some b → addrDev (64 * l) ≠ dev)
        ∧ (∀ e ∈ t.dev.fab.egress, e.1 ≠ dev) ∧ Event 0x0304 dev 0 s t ∧ Changes (.fab :: .boot :: evParts) s t) ∧
    (∀ (b : List Byte) (dev : Nat), dev = fieldOf b 1 1 % 64 → fieldOf b 0 1 = 1 →
      (bit (fieldOf b 2 1) 6 = true → After (.headAnnounce b) s fun t =>
        dev ∈ t.dev.boot.heads ∧ dev ∈ t.dev.boot.heard ∧ Changes (.boot :: .fab :: .free :: evParts) s t) ∧
      (bit (fieldOf b 2 1) 6 = false → After (.headAnnounce b) s fun t =>
        t.dev.boot.heads = s.dev.boot.heads.filter (· != dev) ∧ t.dev.boot.heard = s.dev.boot.heard
        ∧ Changes (.boot :: .free :: evParts) s t)) ∧
    (∀ (c : Instr) (b : List Byte) (f : Nat), f = fieldOf b 1 1 % 64 → s.dev.boot.rosterOn = true →
      ((fieldOf b 0 1 = 2 ∧ c = .ready b) ∨ (fieldOf b 0 1 = 3 ∧ c = .servingReport b)) → After c s fun t =>
        (t.dev.rosterEnt f).epoch = fieldOf b 4 4 ∧ (t.dev.rosterEnt f).portsUp = fieldOf b 8 3
        ∧ (t.dev.rosterEnt f).head = bit (fieldOf b 2 1) 6
        ∧ (fieldOf b 0 1 = 2 → (t.dev.rosterEnt f).readyMs = min 65535 (fieldOf b 12 4) ∧ (t.dev.rosterEnt f).servingMs = (s.dev.rosterEnt f).servingMs)
        ∧ (fieldOf b 0 1 = 3 → (t.dev.rosterEnt f).servingMs = min 65535 (fieldOf b 12 4) ∧ (t.dev.rosterEnt f).readyMs = (s.dev.rosterEnt f).readyMs)
        ∧ Changes (.boot :: .free :: evParts) s t) ∧
    (∀ ms, s.dev.headSet = true → s.dev.readyDue = true → s.dev.rosterCount (· == 2) ≠ s.dev.expected.length →
      After (.headAnnounceResend ms) s fun t =>
        (∀ x ∈ s.dev.expected, x ≠ s.dev.devNo → ∃ e ∈ (t.dev.chan (chanKey x 2)).unacked, e.2.2.slots.drop 16 = padSlots (s.dev.asmPayload 1 ms))
        ∧ Changes [.fab, .out, .ctrs] s t) ∧
    (∀ ms, s.dev.boot.rosterOn = true → s.dev.presenting = some s.dev.devNo →
      (s.dev.boot.assembled = false → 1200 ≤ ms → After (.poolAssembled ms) s fun t =>
        t.dev.boot = { s.dev.boot with assembled := true, assembledMs := ms } ∧ Changes (.boot :: evParts) s t) ∧
      (∀ v, 13600 ≤ ms → (s.dev.expected.filter fun x => (s.dev.rosterEnt x).st != 2) = [v] → After (.poolMemberMissing ms) s fun t =>
        Event 0x0022 v (s.dev.rosterEnt v).st s t ∧ Changes evParts s t))

/-- Resets and the boot sequence (R498 to R512, R485, R486): the boot ROM takes the straps and 64 salts of 16 bytes; each further step that
is due ends and its number is kept with its time: firmware's versions and digest, or RECOVERY; training, or BOOT_FAILED; the geometry of
the media chosen, every SPAN volume empty, and keys for all patrons; ports in EXCHANGE where their lanes lock, else FAILED; no port left in
EXCHANGE; device time, with READY; the map, with the event of its recovery where no clean record stands, and a second event where no record
of the power loss does; every unit of a durable region resident; the reconciliation; SERVING, with patron 0 CONFIGURING. A reset asked for in
SERVING prepares first; asked for in another running state, or prepared, it leaves the device BOOTING with its cause and no sequence;
removed supplies leave it OFF; key generations and SVN are kept. A low RESET_N of less than 1 µs does nothing. A recovery load that passes
resets the device; another shows the check that failed. -/
def Obligations.BootRowsComplete : Prop :=
  ∀ (s : State) (ms : Nat) (ends : Nat → BootSt),
    (∀ n, ends n = { s.dev.boot with steps := s.dev.boot.steps ++ [n], endMs := tset s.dev.boot.endMs n ms }) →
    (∀ x, (s.dev.boot.st = .off ∨ (s.dev.boot.st = .booting ∧ s.dev.boot.steps = [])) → s.dev.sec.tamperNew = false →
      After (.bootRom x ms) s fun t =>
        t.dev.boot = { ends 1 with st := .booting, straps := x } ∧ t.dev.tim.master = (x.wingSize == 0 || x.pos == 0)
        ∧ (∀ p, p < 64 → ∃ b : List Byte, tget t.dev.cat.salts p = some b ∧ b.length = 16)
        ∧ Changes [.boot, .ctrs, .regs, .tim, .fab, .cat, .free] s t) ∧
    (∀ im, s.dev.stepDue 2 [1] = true →
      (s.dev.imageFails im = 0 → After (.firmwareLoad im ms) s fun t =>
        t.dev.boot = ends 2 ∧ t.dev.sec.fwVersion = im.version ∧ t.dev.sec.norVersion = im.version ∧ t.dev.sec.meas2 = im.digest
        ∧ t.dev.sec.advance = (if im.advance && decide (s.dev.sec.svn < im.svn) then some im.svn else none) ∧ Changes [.sec, .boot] s t) ∧
      (s.dev.imageFails im ≠ 0 → After (.firmwareLoad im ms) s fun t =>
        t.dev.boot = { s.dev.boot with st := .recovery, failStep := 2, detail := s.dev.imageFails im } ∧ Changes [.boot, .ctrs] s t)) ∧
    (s.dev.stepDue 3 [1] = true →
      (After (.stackTraining none ms) s fun t => t.dev.boot = ends 3 ∧ Changes [.boot] s t) ∧
      (∀ c, After (.stackTraining (some c) ms) s fun t =>
        t.dev.boot = { s.dev.boot with st := .bootFailed, failStep := 3, detail := c } ∧ Changes [.boot, .ctrs] s t)) ∧
    (∀ md : MediaIn, s.dev.stepDue 4 [2] = true →
      (∀ n e ps, mediaChosen md = some (n, e, ps) → After (.flashDiscovery md ms) s fun t =>
        t.dev.boot = ends 4 ∧ t.dev.stk.discovered = true ∧ t.dev.stk.channels = n ∧ t.dev.stk.dies = ps.foldl max 0 + 1
        ∧ t.dev.stk.planes = e.planes ∧ t.dev.stk.blocksPerDie = e.blocksPerDie
        ∧ t.dev.stk.unitsPerBlock = e.pagesPerBlock * e.planes * e.pageData / 65536 ∧ t.dev.sec.keyed = List.range 64
        ∧ (∀ v x, t.dev.vol? v = some x → x.region = false → x.units = []) ∧ Changes (.stk :: .boot :: .sec :: .tier :: evParts) s t) ∧
      (mediaChosen md = none → s.dev.stk.discovered = false → s.dev.stk.dies = 0 → After (.flashDiscovery md ms) s fun t =>
        t.dev.boot = ends 4 ∧ t.dev.sec.keyed = List.range 64 ∧ t.dev.sec.poolSecret = none ∧ Changes (.boot :: .sec :: evParts) s t)) ∧
    (∀ locked secret, s.dev.stepDue 5 [3, 4] = true → s.dev.sec.poolSecret = some secret → s.dev.sec.keysClear = false → After (.chaigTraining locked ms) s fun t =>
      t.dev.boot = ends 5
      ∧ (∀ k, k < 18 → s.dev.mayTrain k = true →
        (t.dev.port k).st = if (locked.any fun x => x.1 == k && (x.2 == 4 || x.2 == 2)) = true then .exchange else .failed)
      ∧ (∀ k, ¬(k < 18 ∧ s.dev.mayTrain k = true) → t.dev.port k = s.dev.port k)
      ∧ Changes (.fab :: .boot :: .free :: evParts) s t) ∧
    (∀ idents : List (Nat × Nat), s.dev.stepDue 6 [5] = true → s.dev.fab.peers = [] →
      (∀ x ∈ idents, ∀ y ∈ idents, x.2 % 64 = y.2 % 64 → x.2 = y.2) → After (.neighbourExchange idents ms) s fun t =>
        t.dev.boot = ends 6 ∧ (∀ k, k < 18 → (t.dev.port k).st ≠ .exchange) ∧ Changes (.fab :: .boot :: .adm :: evParts) s t) ∧
    (∀ src, s.dev.stepDue 7 [6] = true → After (.timeAlignment src ms) s fun t =>
      t.dev.tim.now = src.getD 0 ∧ t.dev.tim.provisional = src.isNone ∧ t.dev.tim.faultBit = src.isNone ∧ t.dev.tim.count = s.dev.tim.count
      ∧ t.dev.boot.st = .ready ∧ t.dev.boot.steps = s.dev.boot.steps ++ [7] ∧ Changes (.tim :: .boot :: .fab :: evParts) s t) ∧
    (∀ clean loss n rec, s.dev.stepDue 8 [3, 4] = true →
      (s.dev.stk.discovered = false → After (.mapLoad clean loss n rec ms) s fun t => t.dev.boot = ends 8 ∧ Changes [.boot] s t) ∧
      (s.dev.stk.discovered = true → clean = true → s.dev.stk.clean = true → After (.mapLoad clean loss n rec ms) s fun t =>
        t.dev.boot = ends 8 ∧ t.dev.stk.clean = true ∧ t.dev.stk.blocks = s.dev.stk.blocks ∧ Changes [.stk, .boot] s t) ∧
      (s.dev.stk.discovered = true → ¬(clean = true ∧ s.dev.stk.clean = true) → loss = true → s.dev.stk.powerLoss = true →
        After (.mapLoad clean loss n rec ms) s fun t =>
          t.dev.boot = ends 8 ∧ Event 0x0209 rec n s t ∧ t.dev.stk.clean = false ∧ t.dev.stk.replay = []
          ∧ t.dev.stk.ckptAt = s.dev.tim.count ∧ Changes (.stk :: .boot :: evParts) s t) ∧
      (s.dev.stk.discovered = true → ¬(clean = true ∧ s.dev.stk.clean = true) → ¬(loss = true ∧ s.dev.stk.powerLoss = true) →
        After (.mapLoad clean loss n rec ms) s fun t =>
          t.dev.boot = ends 8 ∧ t.dev.flt.logSeq = s.dev.flt.logSeq + 2 ∧ t.dev.stk.clean = false ∧ t.dev.stk.replay = []
          ∧ t.dev.stk.ckptAt = s.dev.tim.count ∧ t.pending = s.pending ∧ Frame (.stk :: .boot :: .free :: evParts) s.dev t.dev)) ∧
    (s.dev.stepDue 9 [6, 8] = true → After (.regionRestore ms) s fun t =>
      t.dev.boot = ends 9
      ∧ (∀ k u r, tget s.dev.rgn.units k = some u → tget s.dev.rgn.slots (k / 2 ^ 17) = some r →
        ∃ w, tget t.dev.rgn.units k = some w ∧ (r.durable = true → w.resident = true) ∧ (r.durable = false → w = u))
      ∧ t.pending = s.pending ∧ Frame (.boot :: .rgn :: .fab :: .flt :: .free :: evParts) s.dev t.dev
      ∧ ((∀ e ∈ s.dev.rgn.slots, e.2.durable = false) → Changes (.boot :: .rgn :: .fab :: evParts) s t)) ∧
    (∀ peers, s.dev.stepDue 10 [9] = true → s.dev.stk.clean = false → s.dev.stk.discovered = true →
      After (.durableReconciliation peers ms) s fun t =>
        t.dev.boot = { ends 10 with recovered := true } ∧ Changes [.boot, .fab, .adm, .out, .ctrs, .free] s t) ∧
    (s.dev.stepDue 11 (if (s.dev.stk.clean || !s.dev.stk.discovered) = true then [7, 9] else [7, 9, 10]) = true →
      (∀ h ∈ s.dev.fab.held, h.why ≠ 6) → After (.servingStep ms) s fun t =>
        t.dev.boot.st = .serving ∧ t.dev.boot.steps = s.dev.boot.steps ++ [11] ∧ (t.dev.pat 0).st = .configuring
        ∧ t.dev.stk = { s.dev.stk with clean := false, powerLoss := false }
        ∧ Changes (.boot :: .stk :: .host :: .fab :: evParts) s t) ∧
    (∀ (c : Instr) (cause lowNs : Nat), ((10000 ≤ lowNs ∧ s.dev.pwr.pwrFail = false ∧ c = .resetNAssert lowNs ∧ cause = 2) ∨ (c = .mctpResetRequest ∧ cause = 4)) →
      (s.dev.boot.st = .serving → After c s fun t =>
        t.dev.boot = { s.dev.boot with st := .resetting, nextCause := cause } ∧ t.dev.adm = { s.dev.adm with paused := true }
        ∧ Changes [.boot, .adm] s t) ∧
      ((s.dev.boot.st = .booting ∨ s.dev.boot.st = .ready ∨ s.dev.boot.st = .recovery ∨ s.dev.boot.st = .bootFailed ∨ s.dev.boot.st = .deviceFault) →
        After c s fun t => t.dev.boot = { st := .booting, cause := cause } ∧ t.dev.seqs = {} ∧ t.dev.fab = {} ∧ t.pending = s.pending)) ∧
    (∀ lowNs, lowNs < 1000 → exec (.resetNAssert lowNs) s = .next s) ∧
    (s.dev.boot.st = .resetting → After .resetPrepareDone s fun t =>
      t.dev.boot = { st := .booting, cause := s.dev.boot.nextCause } ∧ t.dev.seqs = {} ∧ t.dev.cat = {} ∧ t.dev.fab = {}
      ∧ t.dev.sec.gens = s.dev.sec.gens ∧ t.dev.sec.svn = s.dev.sec.svn ∧ t.pending = s.pending) ∧
    (After .suppliesRemoved s fun t =>
      t.dev.boot = { st := .off, cause := 1 } ∧ t.dev.pwr = {} ∧ t.dev.seqs = {} ∧ t.dev.cat = {} ∧ t.dev.fab = {}
      ∧ t.dev.sec.gens = s.dev.sec.gens ∧ t.dev.sec.svn = s.dev.sec.svn ∧ t.pending = s.pending) ∧
    (∀ f, s.dev.boot.st = .recovery → s.dev.sec.rcvState = 1 →
      (f = 0 → s.dev.sec.wrapGen < 32 → s.dev.sec.fwBusy = false → After (.recoveryLoadDone f) s fun t =>
        t.dev.boot = { st := .booting, cause := 6 } ∧ t.dev.sec.norValid = true ∧ t.dev.seqs = {} ∧ t.pending = s.pending) ∧
      (f ≠ 0 → After (.recoveryLoadDone f) s fun t =>
        t.dev.sec = { s.dev.sec with rcvState := 2, rcvCheck := f % 8 } ∧ Changes [.sec] s t))

/-- Power and temperature (R327, R464, R502, R521 to R536, R571 to R573): waking from archive sleep; PERST_N; a channel powers down; the
evaluation of each ms decides a step, which is taken at a tick edge; regulators and sensors are read; the thermal trip and a removed
rail stop the device; the power-fail sequence. -/
def Obligations.PowerRowsComplete : Prop :=
  ∀ s : State,
    (∀ (c : Instr) (cause ms : Nat), s.dev.pwr.sleep = 2 → s.dev.powered = true →
      ((c = .pwrWake 1 ∧ s.dev.reached 0 = true ∧ s.dev.blockOpen 13 = true ∧ cause = 1 ∧ ms = s.dev.asleepMs)
        ∨ (c = .wakeAt ms ∧ s.dev.pwr.wakeAt ≠ 0 ∧ cause = 2) ∨ (c = .mctpWake ms ∧ cause = 3)) → After c s fun t =>
        t.dev.pwr = { s.dev.pwr with sleep := 0, wakeAt := 0, chans := [], engGated := false, coreGated := false }
        ∧ t.dev.stk = { s.dev.stk with clean := false } ∧ t.dev.tim.locked = false ∧ t.dev.tim.good = 0 ∧ t.dev.tim.now = s.dev.tim.now
        ∧ (∀ k, k < 18 → s.dev.mayTrain k = true → (t.dev.port k).st = .training)
        ∧ Event 0x0706 cause ms s t ∧ Changes (.pwr :: .stk :: .tim :: .fab :: .free :: evParts) s t) ∧
    (exec (.pwrWake 0) s = .next s) ∧
    (s.dev.boot.st = .deviceFault ∨ s.dev.boot.st = .bootFailed → After .perstN s fun t =>
      t.dev.boot = { st := .booting, cause := 5 } ∧ t.dev.seqs = {} ∧ t.pending = s.pending) ∧
    (s.dev.boot.st = .serving → After .perstN s fun t =>
      t.dev.host.linkUp = false ∧ (∀ p, p < 64 → (s.dev.pat p).st ≠ .disabled → (t.dev.pat p).st = .resetting)
      ∧ t.dev.boot.st = .serving ∧ t.pending = s.pending) ∧
    (∀ ch, ch < 256 → s.dev.powered = true → tget s.dev.pwr.chans ch = none → After (.channelPowerDown ch) s fun t =>
      t.dev.pwr = { s.dev.pwr with chans := tset s.dev.pwr.chans ch 1 } ∧ Changes [.pwr] s t) ∧
    (∀ x : PowerIn, s.dev.powered = true → s.dev.pwr.halved = false →
      (s.dev.reg regPwrCtrl 0 0 2 = 1 → 1000 * s.dev.limitWatts < x.mw10 → After (.powerEvaluation x) s fun t =>
        t.dev.pwr = { s.dev.pwr with pendStep := some (.down 0) } ∧ Event 0x0701 (min 4 s.dev.pwr.below) x.mw10 s t
        ∧ Changes (.pwr :: evParts) s t) ∧
      (x.mw10 ≤ 1000 * s.dev.limitWatts → s.dev.hotSensor = none → s.dev.pwr.point < s.dev.reg regPwrPstateMax →
        After (.powerEvaluation x) s fun t => t.dev.pwr = { s.dev.pwr with pendStep := some (.down 2) } ∧ Changes [.pwr, .ctrs] s t) ∧
      (x.mw10 ≤ 1000 * s.dev.limitWatts → s.dev.hotSensor = none → s.dev.reg regPwrPstateMax < s.dev.pwr.point → s.dev.pwr.regHold = [] →
        100 * x.mw100 < 95 * (1000 * s.dev.limitWatts) → x.cool100 = true → s.dev.sensorsCool = true → s.dev.pwr.pendStep = none → After (.powerEvaluation x) s fun t =>
          t.dev.pwr = { s.dev.pwr with pendStep := some .up } ∧ Changes [.pwr, .ctrs] s t)) ∧
    (s.dev.pwr.pendStep = some .up →
      (s.dev.pwr.halved = true → After .operatingPointStep s fun t =>
        t.dev.pwr = { s.dev.pwr with halved := false, pendStep := none } ∧ Changes [.pwr] s t) ∧
      (s.dev.pwr.halved = false → After .operatingPointStep s fun t =>
        t.dev.pwr = { s.dev.pwr with point := s.dev.pwr.point - 1, pendStep := none } ∧ Changes [.pwr] s t)) ∧
    (∀ why, s.dev.pwr.pendStep = some (.down why) →
      (s.dev.pwr.point < 4 → s.dev.pwr.regHold = [] → After .operatingPointStep s fun t =>
        t.dev.pwr = { s.dev.pwr with point := s.dev.pwr.point + 1, pendStep := none } ∧ Changes [.pwr, .ctrs] s t) ∧
      (4 ≤ s.dev.pwr.point → After .operatingPointStep s fun t =>
        t.dev.pwr = { s.dev.pwr with halved := true, pendStep := none } ∧ Changes [.pwr, .ctrs] s t)) ∧
    (∀ rail st mv cur tmp, s.dev.powered = true → rail < 16 →
      (tget s.dev.pwr.regHold rail = none → After (.regulatorPoll rail true 0 mv cur tmp false) s fun t =>
        t.dev.pwr = { s.dev.pwr with regBad := tset s.dev.pwr.regBad rail 0, telem := tset s.dev.pwr.telem rail (mv, cur, tmp) }
        ∧ Changes [.pwr] s t) ∧
      (st ≠ 0 → tget s.dev.pwr.regHold rail = none → After (.regulatorPoll rail true st mv cur tmp false) s fun t =>
        tget t.dev.pwr.regHold rail = some 0 ∧ tget t.dev.pwr.telem rail = some (mv, cur, tmp) ∧ t.dev.pwr.point = s.dev.pwr.point
        ∧ (s.dev.pwr.point < 4 → s.dev.pwr.halved = false → t.dev.pwr.pendStep = some (.down 2))
        ∧ Event 0x0704 rail st s t ∧ Changes (.pwr :: evParts) s t) ∧
      (s.dev.flt.deviceFault = false → After (.regulatorPoll rail true st mv cur tmp true) s fun t =>
        t.dev.flt.deviceFault = true ∧ t.dev.boot.st = .deviceFault ∧ t.dev.adm.paused = true ∧ t.pending = s.pending ∧ t.mem = s.mem)) ∧
    (∀ k (v : Int), s.dev.powered = true → k < 44 →
      (v < ((4 * s.dev.reg regPwrWarnC 0 0 (flag (isStack k)) : Nat) : Int) → After (.thermalSample [(k, v)]) s fun t =>
        t.dev.pwr = { s.dev.pwr with temps := tset s.dev.pwr.temps k v } ∧ Changes [.pwr] s t) ∧
      (((4 * s.dev.reg regPwrWarnC 0 0 (flag (isStack k)) : Nat) : Int) ≤ v → tget s.dev.pwr.warnAt k = none →
        After (.thermalSample [(k, v)]) s fun t =>
          t.dev.pwr = { s.dev.pwr with temps := tset s.dev.pwr.temps k v, warnAt := tset s.dev.pwr.warnAt k s.dev.tim.now }
          ∧ Event 0x0702 k (v % 2 ^ 16).toNat s t ∧ Changes (.pwr :: evParts) s t) ∧
      (s.dev.pwr.tripped = false → s.dev.flt.deviceFault = false → (if isStack k = true then 420 else 500) ≤ v →
        After (.thermalTrip k v) s fun t =>
          t.dev.pwr.tripped = true ∧ Out.thermTrip ∈ t.dev.out ∧ t.dev.flt.deviceFault = true ∧ t.dev.boot.st = .deviceFault
          ∧ t.pending = s.pending ∧ t.mem = s.mem)) ∧
    (∀ ns, (1000 ≤ ns → s.dev.powered = true → s.dev.pwr.pwrFail = false → After (.pwrFailN ns) s fun t =>
        t.dev.pwr = { s.dev.pwr with pwrFail := true, engGated := true, coreGated := true } ∧ t.dev.adm = { s.dev.adm with paused := true }
        ∧ Changes [.pwr, .adm] s t) ∧
      (ns < 1000 → exec (.pwrFailN ns) s = .next s)) ∧
    (s.dev.pwr.pwrFail = true → s.dev.pwr.pwrSeqEnd = false →
      (After (.pwrFailSequenceEnd false) s fun t =>
        t.dev.pwr = { s.dev.pwr with pwrSeqEnd := true } ∧ t.dev.stk = { s.dev.stk with powerLoss := s.dev.stk.discovered }
        ∧ t.dev.sec = { s.dev.sec with keysClear := true } ∧ (∀ k, (t.dev.port k).keyOut = [] ∧ (t.dev.port k).keyIn = [])
        ∧ Changes [.pwr, .stk, .sec, .fab] s t) ∧
      (After (.pwrFailSequenceEnd true) s fun t =>
        t.dev.boot = { st := .booting, cause := 1 } ∧ t.dev.stk.powerLoss = s.dev.stk.discovered ∧ t.dev.seqs = {} ∧ t.pending = s.pending))

/-- Stores and loads of the host (R9, R10, R74 to R78, R546, R552, R554): a store of a plain register changes it, at once or at the next
tick edge; a store that a range refuses, and one to reserved space, leaves it; a load answers, with zeros where space is reserved; an
aperture access that hits leaves for the device that serves the region, or is answered from the borrow cache. -/
def Obligations.AccessRowsComplete : Prop :=
  ∀ s : State,
    (∀ a v r i w rwl, s.dev.reached 0 = true → a % 4 = 0 → a < 0xF0000 → regAt a = some (r, i, 0) → r.addr i 0 = a → r.bytes = 4 → r.block ≠ 15 →
      a ∉ [regTikLength, regTikTodNext, regPwrWake, regSecRcvCmd, regRdbStatus, regTikCtrl, regTikMasterPos, regTikPlanLen, regChgCtrl, regChgPortEn, regRgnSpare].map (fun x => x.addr 0 0) →
      (gateRegs.any fun g => g.block == r.block && g.off == r.off) = false → s.dev.blockOpen (blockOf a) = true → v < 2 ^ 32 →
      rwl = !(s.dev.pat 0).lock → w = r.written (s.dev.nextWord a r.coldWord) v 0 4 rwl →
      (s.dev.writeRefused r (putBits (s.dev.nextWord a r.coldWord) 0 32 v) 0 4 rwl = false → s.dev.writesWait = false →
        After (.registerWrite 0 a 32 v) s fun t =>
          t.dev.regWord r i 0 = w ∧ (∀ o, o ≠ a → tget t.dev.regs o = tget s.dev.regs o) ∧ Changes [.regs] s t) ∧
      (s.dev.writeRefused r (putBits (s.dev.nextWord a r.coldWord) 0 32 v) 0 4 rwl = false → s.dev.writesWait = true →
        (r.fields.any fun f => f.acc == .rwl) = true → w ≠ s.dev.nextWord a r.coldWord → After (.registerWrite 0 a 32 v) s fun t =>
          t.dev.nextWord a r.coldWord = w ∧ t.dev.regs = s.dev.regs ∧ Changes [.port] s t) ∧
      (s.dev.writeRefused r (putBits (s.dev.nextWord a r.coldWord) 0 32 v) 0 4 rwl = true → After (.registerWrite 0 a 32 v) s fun t =>
        t.dev.regs = s.dev.regs ∧ t.dev.pendRegs = s.dev.pendRegs ∧ t.dev.rejected = true ∧ t.dev.rejectOffset = a
        ∧ Changes [.port, .ctrs] s t)) ∧
    (∀ p off w v, (w = 32 ∨ w = 64) → off % (w / 8) = 0 → barOffset p off = none → exec (.registerWrite p off w v) s = .next s) ∧
    (∀ p off w, (w = 32 ∨ w = 64) → off % (w / 8) = 0 → s.dev.reached p = true →
      (windowAt p off = none → barLoadAt p off = none → After (.readbackWindowLoad p off w) s fun t =>
        t.dev.out = s.dev.out ++ [.window p (leBytes (w / 8) 0)] ∧ Changes [.out] s t) ∧
      (∀ a, windowAt p off = none → barLoadAt p off = some a → s.dev.blockOpen (blockOf a) = true → After (.readbackWindowLoad p off w) s fun t =>
        t.dev.out = s.dev.out ++ [.window p ((List.range (w / 8)).map fun k => s.dev.byteAt (a + k))] ∧ Changes [.out] s t) ∧
      (∀ o, windowAt p off = some o → s.dev.blockOpen 14 = true → (s.dev.pat p).st = .active →
        (p = 0 ∨ s.dev.reg regRdbCtrl 0 0 1 = 1) → After (.readbackWindowLoad p off w) s fun t =>
          (∃ n b, t.dev.out = s.dev.out ++ [.window p b] ∧ b = ({ s.dev with free := s.dev.free + 1 } : Dev).windowData n p o (w / 8))
          ∧ Changes [.out, .ctrs, .free] s t)) ∧
    (∀ off len addr p dest b, s.dev.served 0 = true → 0 < len → off + len ≤ 2 ^ 36 → s.dev.aperture off = some (addr, p) →
      s.dev.rgn.torn.contains (addrRegion addr) = false → addrDev addr / 16 = s.dev.wing → addr % 64 + len ≤ 64 →
      dest = s.dev.servesRegion (addrRegion addr) → dest ≠ s.dev.devNo → s.dev.isDead dest = false → s.dev.lineBusy addr = false →
      (s.dev.mapAllows p (addr / 64 * 64) 0 1 = true → tget s.dev.fab.borrow (addr / 64) = some b → b.length = 64 →
        After (.apertureRead off len) s fun t =>
          t.dev.out = s.dev.out ++ [.aperture ((b.drop (addr % 64)).take len) false] ∧ t.dev.fab.borrow = s.dev.fab.borrow
          ∧ Changes [.out, .fab, .adm] s t) ∧
      (∀ data : List Byte, data.length = len → s.dev.mapAllows p (addr / 64 * 64) 1 1 = true → After (.apertureWrite off data) s fun t =>
        (∃ o ∈ t.dev.fab.outst, o.dest = dest ∧ o.m.addr = addr / 64 * 64 ∧ o.m.source = s.dev.srcOf p 0
          ∧ (len = 64 → o.code = 0x08 ∧ o.m.slots = data)
          ∧ (len < 64 → o.code = 0x09 ∧ fieldOf o.m.slots 0 8 = (2 ^ len - 1) * 2 ^ (addr % 64)
            ∧ (o.m.slots.drop (16 + addr % 64)).take len = data))
        ∧ tget t.dev.fab.borrow (addr / 64) = none ∧ Changes [.fab, .adm, .out, .ctrs] s t) ∧
      (∀ v, len = 8 → off % 8 = 0 → s.dev.mapAllows p (addr / 64 * 64) 2 1 = true → After (.apertureAtomic off 0 64 v 0) s fun t =>
        (∃ o ∈ t.dev.fab.outst, o.dest = dest ∧ o.code = 0x10 ∧ o.m.addr = addr ∧ o.m.arg = 16 ∧ o.m.slots = leBytes 8 v ++ List.replicate 8 0)
        ∧ tget t.dev.fab.borrow (addr / 64) = none ∧ Changes [.fab, .adm, .out, .ctrs] s t))

/-- R81: between any two indices of a ring of depth D lie at most D − 1 descriptors, none exactly when tail and head are equal; a
fetch from an empty ring does nothing. -/
def Obligations.RingHoldsDepthLessOne : Prop :=
  (∀ depth head tail, head < depth → tail < depth → ringSpan depth head tail ≤ depth - 1 ∧ (ringSpan depth head tail = 0 ↔ tail = head)) ∧
  ∀ (s : State) (p ring : Nat) (raw : Option (List Byte)) (h : HostView),
    ((s.dev.pat p).sqAt ring).tail = ((s.dev.pat p).sqAt ring).head → exec (.descriptorFetch p ring raw h) s = .next s

/-- R61: a descriptor whose deadline tick has ended at its admission is not executed: its completion, LATE, is due in the close
phase of the next tick, and nothing of the device beyond rings, requests and counters changes. -/
def Obligations.PastDeadlineIsLate : Prop :=
  ∀ (s : State) (op : Nat) (x : DescIn) (c : Instr), (op, c) ∈ [(0x01, Instr.attend x), (0x02, .merge x), (0x10, .probe x),
      (0x32, .compare x), (0x22, .deliver x)] →
    s.dev.ringRuns x.patron x.ring = true → s.dev.cqRoom x.patron (s.dev.boundCq x.patron x.ring) = true →
    (granted s op x).2.fetchCheck op x = none → x.deadline ≠ 0 → x.deadline < s.dev.tim.count →
    After c s fun t => (∃ ps, t.dev.adm.due = s.dev.adm.due ++ [{ (granted s op x).1.due { status := stLate } (s.dev.tim.count + 1) with peers := ps }])
      ∧ Changes [.adm, .rings, .ctrs] s t

/-- R46: a length change rewrites no deadline: every request, completion and job is as it was, and a deadline is measured against the
number of the tick in progress. -/
def Obligations.LengthChangeKeepsDeadlines : Prop :=
  ∀ s : State, After .tickLengthSwitch s fun t =>
    t.dev.adm = s.dev.adm ∧ t.dev.fab = s.dev.fab ∧ t.dev.tim.count = s.dev.tim.count
    ∧ ∀ q : Req, t.dev.overdue q = s.dev.overdue q ∧ t.dev.expired q = s.dev.expired q

/-- R124: the rotation block size, and its report in the capability word. -/
def Obligations.RotationBlockSize : Prop :=
  (∀ dim k, dim = 2 ^ k → rotBlock false dim = dim) ∧
  (∀ dim, (∀ k, dim ≠ 2 ^ k) → dim % 32 = 0 → rotBlock false dim = 32) ∧
  (∀ dim, (∀ k, dim ≠ 2 ^ k) → dim % 32 ≠ 0 → rotBlock false dim = 16) ∧
  (∀ dim, rotBlock true dim = 64) ∧
  ∀ p : Profile, p.closedClass < 32 → p.openClass < 32 → p.tailClass < 32 → p.flashClass < 32 →
    p.capWord / 2 ^ 21 = rotBlock p.latent p.dim
end

