-- ==== Sys2Proof/Laws/Tab.lean ====
section
/-! SUPPORT. Laws of the finite tables: what a lookup finds after each operation. -/

namespace Sys2Proof.Machine

variable {α : Type}

@[simp] theorem tget_tset_same (t : Tab α) (i : Nat) (x : α) : tget (tset t i x) i = some x := by
  induction t with
  | nil => simp [tset, tget]
  | cons e t ih => obtain ⟨k, v⟩ := e; simp only [tset]; split_ifs <;> simp_all [tget]

theorem tget_tset_other (t : Tab α) {i j : Nat} (h : i ≠ j) (x : α) : tget (tset t i x) j = tget t j := by
  induction t with
  | nil => simp [tset, tget, h]
  | cons e t ih => obtain ⟨k, v⟩ := e; simp only [tset]; split_ifs <;> simp_all [tget]

@[simp] theorem tgetD_tset_same (t : Tab α) (i : Nat) (x d : α) : tgetD (tset t i x) i d = x := by simp [tgetD]

theorem tgetD_tset_other (t : Tab α) {i j : Nat} (h : i ≠ j) (x d : α) : tgetD (tset t i x) j d = tgetD t j d := by
  simp [tgetD, tget_tset_other t h]

theorem tget_tdel_other (t : Tab α) {i j : Nat} (h : i ≠ j) : tget (tdel t i) j = tget t j := by
  induction t with
  | nil => rfl
  | cons e t ih => obtain ⟨k, v⟩ := e; simp only [tdel]; split_ifs <;> simp_all [tget]

@[simp] theorem tget_tdel_same (t : Tab α) (i : Nat) : tget (tdel t i) i = none := by
  induction t with
  | nil => rfl
  | cons e t ih => obtain ⟨k, v⟩ := e; simp only [tdel]; split_ifs <;> simp_all [tget]

theorem tget_tmod_same (t : Tab α) (i : Nat) (f : α → α) : tget (tmod t i f) i = (tget t i).map f := by
  unfold tmod
  split <;> simp_all

theorem tget_tmod_other (t : Tab α) {i j : Nat} (h : i ≠ j) (f : α → α) : tget (tmod t i f) j = tget t j := by
  unfold tmod
  split
  · exact tget_tset_other t h _
  · rfl

theorem tget_tmap {β : Type} (t : Tab α) (f : Nat → α → β) (i : Nat) : tget (tmap t f) i = (tget t i).map (f i) := by
  induction t with
  | nil => rfl
  | cons e t ih => obtain ⟨k, v⟩ := e; simp only [tmap, List.map, tget]; split_ifs with h <;> simp_all [tmap]

end Sys2Proof.Machine
end

