-- ==== Sys2Proof/Laws/Frame.lean ====
section
/-! SUPPORT. What each shared operation on the device leaves alone, as frames over the parts of the device. -/

namespace Sys2Proof.Safety

open Sys2Proof.Machine

theorem Part.same_refl (p : Part) (d : Dev) : p.same d d := by
  cases p <;> simp [Part.same]

theorem Part.same_trans {p : Part} {d e f : Dev} (h : p.same d e) (k : p.same e f) : p.same d f := by
  cases p <;> simp only [Part.same] at h k ⊢
  case host => exact ⟨k.1.trans h.1, fun p => (k.2 p).trans (h.2 p)⟩
  case rings => exact fun p => ⟨(k p).1.trans (h p).1, (k p).2.trans (h p).2⟩
  all_goals first
    | exact k.trans h
    | (simp only [h, k]; trivial)

theorem Frame.refl (ps : List Part) (d : Dev) : Frame ps d d := ⟨fun p _ => Part.same_refl p d⟩

theorem Frame.trans {ps : List Part} {d e f : Dev} (h : Frame ps d e) (k : Frame ps e f) : Frame ps d f :=
  ⟨fun p n => Part.same_trans (h.same p n) (k.same p n)⟩

theorem Frame.mono {ps qs : List Part} {d e : Dev} (h : Frame ps d e) (w : ∀ p ∈ ps, p ∈ qs) : Frame qs d e :=
  ⟨fun p n => h.same p fun m => n (w p m)⟩

/-- A further operation on a device that a frame already covers. -/
theorem Frame.step {ps qs : List Part} {d e f : Dev} (k : Frame ps e f) (w : ∀ p ∈ ps, p ∈ qs) (h : Frame qs d e) : Frame qs d f :=
  h.trans (k.mono w)

theorem Frame.foldl {α : Type} {ps : List Part} {d e : Dev} {f : Dev → α → Dev} {l : List α} (h : Frame ps d e)
    (k : ∀ x y, Frame ps x (f x y)) : Frame ps d (l.foldl f e) := by
  induction l generalizing e with
  | nil => exact h
  | cons y l ih => exact ih (h.trans (k e y))

/-! ### Plain updates of one part -/

theorem Frame.regs (d : Dev) (v) : Frame [.regs] d { d with regs := v } := by constructor; intro p h; cases p <;> simp_all [Part.same, Dev.pat]
theorem Frame.ctrs (d : Dev) (v) : Frame [.ctrs] d { d with ctrs := v } := by constructor; intro p h; cases p <;> simp_all [Part.same, Dev.pat]
theorem Frame.out (d : Dev) (v) : Frame [.out] d { d with out := v } := by constructor; intro p h; cases p <;> simp_all [Part.same, Dev.pat]
theorem Frame.free (d : Dev) (v) : Frame [.free] d { d with free := v } := by constructor; intro p h; cases p <;> simp_all [Part.same, Dev.pat]
theorem Frame.tim (d : Dev) (v) : Frame [.tim, .arbs] d { d with tim := v } := by constructor; intro p h; cases p <;> simp_all [Part.same, Dev.pat]
theorem Frame.arbs (d : Dev) (v) : Frame [.arbs] d { d with tim := { d.tim with arbs := v } } := by
  constructor; intro p h; cases p <;> simp_all [Part.same, Dev.pat]
theorem Frame.tim_only (d : Dev) (v : TimeSt) (e : v.arbs = d.tim.arbs) : Frame [.tim] d { d with tim := v } := by
  constructor; intro p h; cases p <;> simp_all [Part.same, Dev.pat]
theorem Frame.host (d : Dev) (v) : Frame [.host, .rings] d { d with host := v } := by constructor; intro p h; cases p <;> simp_all [Part.same]
theorem Frame.link (d : Dev) (v : HostSt) (e : v.patrons = d.host.patrons) : Frame [.host] d { d with host := v } := by
  constructor; intro p h; cases p <;> simp_all [Part.same, Dev.pat]
theorem Frame.adm (d : Dev) (v) : Frame [.adm] d { d with adm := v } := by constructor; intro p h; cases p <;> simp_all [Part.same, Dev.pat]
theorem Frame.seqs (d : Dev) (v) : Frame [.seqs] d { d with seqs := v } := by constructor; intro p h; cases p <;> simp_all [Part.same, Dev.pat]
theorem Frame.cat (d : Dev) (v) : Frame [.cat] d { d with cat := v } := by constructor; intro p h; cases p <;> simp_all [Part.same, Dev.pat]
theorem Frame.tier (d : Dev) (v) : Frame [.tier] d { d with tier := v } := by constructor; intro p h; cases p <;> simp_all [Part.same, Dev.pat]
theorem Frame.stk (d : Dev) (v) : Frame [.stk] d { d with stk := v } := by constructor; intro p h; cases p <;> simp_all [Part.same, Dev.pat]
theorem Frame.fab (d : Dev) (v) : Frame [.fab] d { d with fab := v } := by constructor; intro p h; cases p <;> simp_all [Part.same, Dev.pat]
theorem Frame.rgn (d : Dev) (v) : Frame [.rgn] d { d with rgn := v } := by constructor; intro p h; cases p <;> simp_all [Part.same, Dev.pat]
theorem Frame.flt (d : Dev) (v) : Frame [.flt, .log] d { d with flt := v } := by constructor; intro p h; cases p <;> simp_all [Part.same, Dev.pat]
theorem Frame.log (d : Dev) (v : FltSt)
    (e : { v with reserve := [], tables := [], log := [], logSeq := 0, logHeld := [] }
      = { d.flt with reserve := [], tables := [], log := [], logSeq := 0, logHeld := [] }) : Frame [.log] d { d with flt := v } := by
  constructor; intro p h; cases p <;> simp_all [Part.same, Dev.pat]
theorem Frame.sec (d : Dev) (v) : Frame [.sec] d { d with sec := v } := by constructor; intro p h; cases p <;> simp_all [Part.same, Dev.pat]
theorem Frame.boot (d : Dev) (v) : Frame [.boot] d { d with boot := v } := by constructor; intro p h; cases p <;> simp_all [Part.same, Dev.pat]
theorem Frame.pwr (d : Dev) (v) : Frame [.pwr] d { d with pwr := v } := by constructor; intro p h; cases p <;> simp_all [Part.same, Dev.pat]

/-! ### Patrons and their rings -/

theorem pat_modPat (d : Dev) (p q : Nat) (f : PatronSt → PatronSt) : (d.modPat p f).pat q = if q = p then f (d.pat p) else d.pat q := by
  simp only [Dev.pat, Dev.modPat]
  split
  · rename_i h; subst h; exact tgetD_tset_same ..
  · rename_i h; exact tgetD_tset_other _ (fun e => h e.symm) _ _

theorem modPat_frame (d : Dev) (p : Nat) (f : PatronSt → PatronSt) : Frame [.host, .rings] d (d.modPat p f) := Frame.host d _

theorem modRings_frame (d : Dev) (p : Nat) (f : PatronSt → PatronSt)
    (e : ∀ x : PatronSt, { f x with cq := [], eq := {} } = { x with cq := [], eq := {} }) : Frame [.rings] d (d.modPat p f) := by
  constructor; intro q h
  cases q
  case host =>
    refine ⟨rfl, fun q => ?_⟩
    rw [pat_modPat]
    split
    · rename_i h; subst h; exact e _
    · rfl
  case rings => simp at h
  all_goals simp [Part.same, Dev.modPat]

theorem modCq_frame (d : Dev) (p r : Nat) (f : CqSt → CqSt) : Frame [.rings] d (d.modCq p r f) := modRings_frame _ _ _ fun _ => rfl
theorem modEq_frame (d : Dev) (p : Nat) (f : EqSt → EqSt) : Frame [.rings] d (d.modEq p f) := modRings_frame _ _ _ fun _ => rfl

/-! ### Output, draws, counters, registers -/

theorem emit_frame (d : Dev) (o : Out) : Frame [.out] d (d.emit o) := by
  unfold Dev.emit; split
  · exact Frame.refl _ d
  · exact Frame.out d _

theorem draw_frame (d : Dev) : Frame [.free] d d.draw.2 := Frame.free d _
theorem drawBits_frame (d : Dev) (w : Nat) : Frame [.free] d (d.drawBits w).2 := Frame.free d _
theorem drawBytes_frame (d : Dev) (n : Nat) : Frame [.free] d (d.drawBytes n).2 := Frame.free d _

theorem count2_frame (d : Dev) (c : Ctr) (i j n : Nat) : Frame [.ctrs] d (d.count2 c i j n) := by
  unfold Dev.count2; split
  · exact Frame.refl _ d
  · exact Frame.ctrs d _
theorem count_frame (d : Dev) (c : Ctr) (i n : Nat) : Frame [.ctrs] d (d.count c i n) := count2_frame ..

theorem setRegWord_frame (d : Dev) (a cold w : Nat) : Frame [.regs] d (d.setRegWord a cold w) := Frame.regs d _
theorem setReg_frame (d : Dev) (r : RegRow) (i p f v : Nat) : Frame [.regs] d (d.setReg r i p f v) := by
  unfold Dev.setReg; split
  · exact setRegWord_frame ..
  · exact Frame.refl _ d

theorem arbGrant_frame (d : Dev) (a i n : Nat) : Frame [.arbs] d (d.arbGrant a i n) := Frame.arbs d _

/-! ### Events -/

theorem cleanReserve_frame (d : Dev) (w : LineOf) : Frame [.log] d (d.cleanReserve w) := by
  unfold Dev.cleanReserve; split
  · exact Frame.refl _ d
  · exact Frame.log d _ rfl

theorem logEvent_frame (d : Dev) (code d0 d1 : Nat) (i : LogInfo) : Frame [.log, .ctrs] d (d.logEvent code d0 d1 i) := by
  have one : ∀ v : FltSt, { v with reserve := [], tables := [], log := [], logSeq := 0, logHeld := [] }
      = { d.flt with reserve := [], tables := [], log := [], logSeq := 0, logHeld := [] } →
      Frame [.log, .ctrs] d { d with flt := v } := fun v e => Frame.mono (Frame.log d v e) (by decide)
  have two : ∀ e, Frame [.log, .ctrs] d e → ∀ c i n, Frame [.log, .ctrs] d (e.count c i n) :=
    fun e h c i n => h.trans (Frame.mono (count_frame e c i n) (by decide))
  have three : ∀ e, Frame [.log, .ctrs] d e → ∀ w, Frame [.log, .ctrs] d (e.cleanReserve w) :=
    fun e h w => h.trans (Frame.mono (cleanReserve_frame e w) (by decide))
  unfold Dev.logEvent
  dsimp only
  split
  · split
    · exact one _ rfl
    · refine two _ ?_ _ _ _; exact one _ rfl
  · split
    · refine two _ (three _ ?_ _) _ _ _; exact one _ rfl
    · refine three _ ?_ _; exact one _ rfl

theorem putEvent_frame (d : Dev) (p code src d0 d1 : Nat) : Frame [.out, .arbs, .rings] d (d.putEvent p code src d0 d1) := by
  unfold Dev.putEvent
  exact (modEq_frame ..).step (by decide) ((emit_frame ..).step (by decide) ((arbGrant_frame ..).mono (by decide)))

theorem ringEvent_frame (d : Dev) (p code src d0 d1 : Nat) : Frame [.out, .arbs, .rings, .ctrs] d (d.ringEvent p code src d0 d1) := by
  unfold Dev.ringEvent
  have first : ∀ c : Prop, [Decidable c] → Frame [.out, .arbs, .rings, .ctrs] d (if c then (d.putEvent p 1 p (d.pat p).eq.lost 0).modEq p
      fun e => { e with lost := 0 } else d) := by
    intro c _
    split
    · exact (modEq_frame ..).step (by decide) ((putEvent_frame ..).mono (by decide))
    · exact Frame.refl _ d
  split
  · exact Frame.refl _ d
  · dsimp only
    split
    · exact (count_frame ..).step (by decide) ((modEq_frame ..).step (by decide) (first _))
    · exact (putEvent_frame ..).step (by decide) (first _)

theorem devEvent_frame (d : Dev) (code d0 d1 : Nat) (i : LogInfo) : Frame evParts d (d.devEvent code d0 d1 i) :=
  (ringEvent_frame ..).step (by decide) ((logEvent_frame ..).mono (by decide))
theorem patEvent_frame (d : Dev) (p code d0 d1 : Nat) (i : LogInfo) : Frame evParts d (d.patEvent p code d0 d1 i) :=
  (ringEvent_frame ..).step (by decide) ((logEvent_frame ..).mono (by decide))
theorem patEvent0_frame (d : Dev) (p code d0 d1 : Nat) : Frame evParts d (d.patEvent0 p code d0 d1) :=
  (ringEvent_frame ..).step (by decide) ((logEvent_frame ..).mono (by decide))
theorem bothEvent_frame (d : Dev) (p code src d0 d1 : Nat) (i : LogInfo) : Frame evParts d (d.bothEvent p code src d0 d1 i) := by
  unfold Dev.bothEvent
  have h : Frame evParts d ((d.logEvent code d0 d1 { i with patron := p }).ringEvent p code src d0 d1) :=
    (ringEvent_frame ..).step (by decide) ((logEvent_frame ..).mono (by decide))
  split
  · exact h
  · exact (ringEvent_frame ..).step (by decide) h

/-- Every event takes one running number of the log. -/
theorem cleanReserve_logSeq (d : Dev) (w : LineOf) : (d.cleanReserve w).flt.logSeq = d.flt.logSeq := by
  unfold Dev.cleanReserve; split <;> rfl
theorem count2_flt (d : Dev) (c : Ctr) (i j n : Nat) : (d.count2 c i j n).flt = d.flt := by unfold Dev.count2; split <;> rfl
theorem count_flt (d : Dev) (c : Ctr) (i n : Nat) : (d.count c i n).flt = d.flt := count2_flt ..
theorem emit_flt (d : Dev) (o : Out) : (d.emit o).flt = d.flt := by unfold Dev.emit; split <;> rfl
theorem logEvent_logSeq (d : Dev) (code d0 d1 : Nat) (i : LogInfo) : (d.logEvent code d0 d1 i).flt.logSeq = d.flt.logSeq + 1 := by
  unfold Dev.logEvent
  dsimp only
  repeat' split
  all_goals simp only [count_flt, cleanReserve_logSeq]
theorem putEvent_flt (d : Dev) (p code src d0 d1 : Nat) : (d.putEvent p code src d0 d1).flt = d.flt := by
  unfold Dev.putEvent; simp only [Dev.modEq, Dev.modPat, emit_flt]; rfl
theorem ringEvent_flt (d : Dev) (p code src d0 d1 : Nat) : (d.ringEvent p code src d0 d1).flt = d.flt := by
  unfold Dev.ringEvent
  dsimp only
  repeat' split
  all_goals simp only [count_flt, putEvent_flt, Dev.modEq, Dev.modPat]
theorem devEvent_logSeq (d : Dev) (code d0 d1 : Nat) (i : LogInfo) : (d.devEvent code d0 d1 i).flt.logSeq = d.flt.logSeq + 1 := by
  unfold Dev.devEvent; rw [ringEvent_flt, logEvent_logSeq]
theorem patEvent_logSeq (d : Dev) (p code d0 d1 : Nat) (i : LogInfo) : (d.patEvent p code d0 d1 i).flt.logSeq = d.flt.logSeq + 1 := by
  unfold Dev.patEvent; rw [ringEvent_flt, logEvent_logSeq]
theorem patEvent0_logSeq (d : Dev) (p code d0 d1 : Nat) : (d.patEvent0 p code d0 d1).flt.logSeq = d.flt.logSeq + 1 := by
  unfold Dev.patEvent0; rw [ringEvent_flt, logEvent_logSeq]

/-! ### What an event leaves in the log -/

theorem cleanReserve_log (d : Dev) (w : LineOf) : (d.cleanReserve w).flt.log = d.flt.log := by
  unfold Dev.cleanReserve; split <;> rfl
theorem logEvent_event (d : Dev) (code d0 d1 : Nat) (i : LogInfo) : EventOn code d0 d1 d (d.logEvent code d0 d1 i) := by
  refine ⟨logEvent_logSeq .., fun h => ⟨i, ?_⟩⟩
  unfold Dev.logEvent
  simp only [h, List.contains_nil, Bool.false_eq_true, if_false]
  split
  · rw [count_flt, cleanReserve_log]; exact tget_tset_same ..
  · rw [cleanReserve_log]; exact tget_tset_same ..

theorem EventOn.after {code d0 d1 : Nat} {d e f : Dev} (h : EventOn code d0 d1 d e) (k : f.flt = e.flt) : EventOn code d0 d1 d f := by
  unfold EventOn; rw [k]; exact h
theorem EventOn.before {code d0 d1 : Nat} {d e f : Dev} (h : EventOn code d0 d1 e f) (a : e.flt.logSeq = d.flt.logSeq)
    (b : d.flt.out = [] → e.flt.out = []) (c : e.tim.now = d.tim.now) (k : e.tim.count = d.tim.count) : EventOn code d0 d1 d f := by
  refine ⟨by rw [← a]; exact h.1, fun n => ?_⟩
  obtain ⟨i, hi⟩ := h.2 (b n)
  exact ⟨i, by rw [a, c, k] at hi; exact hi⟩

theorem devEvent_event (d : Dev) (code d0 d1 : Nat) (i : LogInfo) : EventOn code d0 d1 d (d.devEvent code d0 d1 i) :=
  (logEvent_event ..).after (ringEvent_flt ..)
theorem patEvent_event (d : Dev) (p code d0 d1 : Nat) (i : LogInfo) : EventOn code d0 d1 d (d.patEvent p code d0 d1 i) :=
  (logEvent_event ..).after (ringEvent_flt ..)
theorem patEvent0_event (d : Dev) (p code d0 d1 : Nat) : EventOn code d0 d1 d (d.patEvent0 p code d0 d1) :=
  (logEvent_event ..).after (ringEvent_flt ..)
theorem bothEvent_event (d : Dev) (p code src d0 d1 : Nat) (i : LogInfo) : EventOn code d0 d1 d (d.bothEvent p code src d0 d1 i) := by
  unfold Dev.bothEvent
  dsimp only
  split
  · exact (logEvent_event ..).after (ringEvent_flt ..)
  · exact ((logEvent_event ..).after (ringEvent_flt ..)).after (ringEvent_flt ..)

/-! ### Completions -/

theorem countStatus_frame (d : Dev) (p st : Nat) : Frame [.ctrs] d (d.countStatus p st) := by
  unfold Dev.countStatus
  repeat' split
  all_goals first | exact Frame.refl _ d | exact count_frame ..

theorem countOp_frame (d : Dev) (p op st : Nat) : Frame [.ctrs] d (d.countOp p op st) := by
  unfold Dev.countOp
  extract_lets d1 d2 d3
  have h2 : Frame [.ctrs] d d2 := by
    simp only [d2]
    split
    · exact (count_frame ..).step (by decide) (countStatus_frame ..)
    · exact countStatus_frame ..
  have h3 : Frame [.ctrs] d d3 := (count_frame ..).step (by decide) h2
  repeat' split
  all_goals first | exact h2 | exact h3 | exact (count_frame ..).step (by decide) h2 | exact (count_frame ..).step (by decide) h3

theorem complete_frame (d : Dev) (q : Req) (a : Ans) : Frame [.adm, .ctrs] d (d.complete q a) :=
  (Frame.adm (d.countOp q.d.patron q.op a.status) _).step (by decide) ((countOp_frame ..).mono (by decide))
theorem completeNext_frame (d : Dev) (q : Req) (a : Ans) : Frame [.adm, .ctrs] d (d.completeNext q a) :=
  (Frame.adm (d.countOp q.d.patron q.op a.status) _).step (by decide) ((countOp_frame ..).mono (by decide))
theorem completeFw_frame (d : Dev) (q : Req) (a : Ans) : Frame [.adm, .ctrs] d (d.completeFw q a) :=
  (Frame.adm (d.countOp q.d.patron q.op a.status) _).step (by decide) ((countOp_frame ..).mono (by decide))
theorem finish_frame (d : Dev) (q : Req) (a : Ans) : Frame [.adm, .ctrs] d (d.finish q a) := by
  unfold Dev.finish
  extract_lets e
  split
  · exact complete_frame ..
  · exact (Frame.adm e _).step (by decide) (complete_frame ..)

theorem countStatus_tim (d : Dev) (p st : Nat) : (d.countStatus p st).tim = d.tim := by
  have h := (countStatus_frame d p st); have a := h.same .tim (by decide); have b := h.same .arbs (by decide)
  simp only [Part.same] at a b
  rw [TimeSt.mk.injEq] at a
  cases h1 : (d.countStatus p st).tim; cases h2 : d.tim
  simp_all

theorem granted_frame (s : State) (op : Nat) (x : DescIn) : Frame [.adm, .rings, .ctrs] s.dev (granted s op x).2 := by
  have h : Frame [.adm, .rings, .ctrs] s.dev { s.dev with adm := { s.dev.adm with nextId := s.dev.adm.nextId + 1, fetchSeq := s.dev.adm.fetchSeq + 1 } } :=
    Frame.mono (Frame.adm s.dev _) (by decide)
  have h2 := h.trans (Frame.mono (modCq_frame _ x.patron (s.dev.boundCq x.patron x.ring) fun c => { c with reserved := c.reserved + 1 }) (by decide))
  exact h2.trans (Frame.mono (count_frame _ .fetched x.patron 1) (by decide))

/-! ### Objects of the larger parts -/

theorem modSpan_frame (d : Dev) (i : Nat) (f : Span → Span) : Frame [.seqs] d (d.modSpan i f) := Frame.seqs d _
theorem setRec_frame (d : Dev) (i : Nat) (r : Rec) : Frame [.seqs] d (d.setRec i r) := Frame.seqs d _
theorem modPort_frame (d : Dev) (k : Nat) (f : Port → Port) : Frame [.fab] d (d.modPort k f) := Frame.fab d _
theorem modPeer_frame (d : Dev) (k : Nat) (f : Peer → Peer) : Frame [.fab] d (d.modPeer k f) := Frame.fab d _
theorem modChan_frame (d : Dev) (k : Nat) (f : MsgChan → MsgChan) : Frame [.fab] d (d.modChan k f) := Frame.fab d _
theorem modJob_frame (d : Dev) (k : Nat) (f : Job → Job) : Frame [.fab] d (d.modJob k f) := Frame.fab d _
theorem modRegion_frame (d : Dev) (x : Nat) (f : Region → Region) : Frame [.rgn] d (d.modRegion x f) := Frame.rgn d _
theorem modUnit_frame (d : Dev) (k : Nat) (f : RUnit → RUnit) : Frame [.rgn] d (d.modUnit k f) := Frame.rgn d _
theorem modVol_frame (d : Dev) (v : Nat) (f : Volume → Volume) : Frame [.stk] d (d.modVol v f) := Frame.stk d _

end Sys2Proof.Safety
end

