-- ==== Sys2Proof/Laws/Memory.lean ====
section
/-! SUPPORT. Laws of pool memory: every operation keeps the canonical form; what a read finds after a write (R387). -/

namespace Sys2Proof.Machine

/-- The canonical form with every offset at or above a bound. -/
def Memory.above (lo : Nat) : List Host.Cell → Prop
  | [] => True
  | (a, b) :: m => lo ≤ a ∧ b ≠ 0 ∧ Memory.above (a + 1) m

theorem Memory.above_mono {lo lo' : Nat} (h : lo' ≤ lo) (m : List Host.Cell) (hm : Memory.above lo m) : Memory.above lo' m := by
  cases m with
  | nil => trivial
  | cons e m => obtain ⟨a, b⟩ := e; exact ⟨le_trans h hm.1, hm.2⟩

theorem Memory.wf_iff (m : List Host.Cell) : Memory.wf m = true ↔ Memory.above 0 m := by
  have key : ∀ (m : List Host.Cell) (a : Nat) (b : Byte), Memory.wf ((a, b) :: m) = true ↔ b ≠ 0 ∧ Memory.above (a + 1) m := by
    intro m
    induction m with
    | nil => intro a b; simp [Memory.wf, Memory.above]
    | cons e m ih =>
      obtain ⟨a', b'⟩ := e
      intro a b
      simp only [Memory.wf, Bool.and_eq_true, bne_iff_ne, decide_eq_true_eq, ih, Memory.above]
      constructor
      · rintro ⟨⟨h1, h2⟩, h3, h4⟩; exact ⟨h1, h2, h3, h4⟩
      · rintro ⟨h1, h2, h3, h4⟩; exact ⟨⟨h1, h2⟩, h3, h4⟩
  cases m with
  | nil => simp [Memory.wf, Memory.above]
  | cons e m => obtain ⟨a, b⟩ := e; rw [key]; simp [Memory.above]

theorem Memory.above_memSet (m : List Host.Cell) : ∀ (lo i : Nat) (x : Byte), lo ≤ i → Memory.above lo m → Memory.above lo (memSet m i x) := by
  induction m with
  | nil =>
    intro lo i x hi _
    simp only [memSet]
    split_ifs with hx
    · trivial
    · exact ⟨hi, hx, trivial⟩
  | cons e m ih =>
    obtain ⟨a, b⟩ := e
    intro lo i x hi h
    obtain ⟨h1, h2, h3⟩ := h
    simp only [memSet]
    split_ifs with c1 c2 c3 c4
    · exact Memory.above_mono (by omega) m h3
    · exact ⟨hi, c2, by subst c1; exact h3⟩
    · exact ⟨h1, h2, h3⟩
    · exact ⟨hi, c4, c3, h2, h3⟩
    · exact ⟨h1, h2, ih (a + 1) i x (by omega) h3⟩

theorem memSet_wf (m : List Host.Cell) (i : Nat) (x : Byte) (h : Memory.wf m = true) : Memory.wf (memSet m i x) = true :=
  (Memory.wf_iff _).mpr (Memory.above_memSet m 0 i x (Nat.zero_le i) ((Memory.wf_iff m).mp h))

theorem memWrite_wf (bs : List Byte) : ∀ (m : List Host.Cell) (a : Nat), Memory.wf m = true → Memory.wf (memWrite m a bs) = true := by
  induction bs with
  | nil => intro m a h; exact h
  | cons b bs ih => intro m a h; exact ih _ _ (memSet_wf m a b h)

theorem memWriteMask_wf (bs : List Byte) :
    ∀ (m : List Host.Cell) (a k : Nat), Memory.wf m = true → Memory.wf (memWriteMask m a k bs) = true := by
  induction bs with
  | nil => intro m a k h; exact h
  | cons b bs ih =>
    intro m a k h
    simp only [memWriteMask]
    split_ifs
    · exact ih _ _ _ (memSet_wf m a b h)
    · exact ih _ _ _ h

theorem Memory.above_filter (f : Host.Cell → Bool) (m : List Host.Cell) : ∀ lo, Memory.above lo m → Memory.above lo (m.filter f) := by
  induction m with
  | nil => intro lo h; exact h
  | cons e m ih =>
    obtain ⟨a, b⟩ := e
    intro lo h
    obtain ⟨h1, h2, h3⟩ := h
    simp only [List.filter_cons]
    split_ifs
    · exact ⟨h1, h2, ih _ h3⟩
    · exact Memory.above_mono (by omega) _ (ih _ h3)

theorem memory_filter_wf (f : Host.Cell → Bool) (m : List Host.Cell) (h : Memory.wf m = true) : Memory.wf (m.filter f) = true :=
  (Memory.wf_iff _).mpr (Memory.above_filter f m 0 ((Memory.wf_iff m).mp h))

theorem memDrop_wf (m : List Host.Cell) (lo hi : Nat) (h : Memory.wf m = true) : Memory.wf (memDrop m lo hi) = true :=
  memory_filter_wf _ m h

theorem memGet_of_above (m : List Host.Cell) : ∀ lo i, Memory.above lo m → i < lo → memGet m i = 0 := by
  induction m with
  | nil => intros; rfl
  | cons e m ih =>
    obtain ⟨a, b⟩ := e
    intro lo i h hi
    have hne : a ≠ i := by have := h.1; omega
    simp only [memGet, if_neg hne]
    exact ih (a + 1) i h.2.2 (by have := h.1; omega)

/-- A byte reads as it was last written. -/
theorem memGet_memSet_same (m : List Host.Cell) (i : Nat) (x : Byte) (h : Memory.wf m = true) : memGet (memSet m i x) i = x := by
  have key : ∀ (m : List Host.Cell) (lo : Nat), Memory.above lo m → memGet (memSet m i x) i = x := by
    intro m
    induction m with
    | nil => intro lo _; simp only [memSet]; split_ifs with hx <;> simp [memGet, hx]
    | cons e m ih =>
      obtain ⟨a, b⟩ := e
      intro lo h
      simp only [memSet]
      split_ifs with c1 c2 c3 c4
      · subst c1; rw [memGet_of_above m (a + 1) a h.2.2 (by omega), c2]
      · simp [memGet]
      · simp only [memGet, if_neg c1]; rw [memGet_of_above m (a + 1) i h.2.2 (by omega), c4]
      · simp [memGet]
      · simp only [memGet, if_neg c1]; exact ih (a + 1) h.2.2
  exact key m 0 ((Memory.wf_iff m).mp h)

/-- Every other byte reads as before. -/
theorem memGet_memSet_other (m : List Host.Cell) {i j : Nat} (hij : i ≠ j) (x : Byte) : memGet (memSet m i x) j = memGet m j := by
  induction m with
  | nil => simp only [memSet]; split_ifs <;> simp [memGet, hij]
  | cons e m ih =>
    obtain ⟨a, b⟩ := e
    simp only [memSet]
    split_ifs with c1 c2 c3 c4
    · subst c1; simp [memGet, hij]
    · subst c1; simp [memGet, hij]
    · rfl
    · simp [memGet, hij]
    · simp only [memGet]; split_ifs <;> first | rfl | exact ih

/-- A write leaves every byte outside its range. -/
theorem memGet_memWrite_outside (bs : List Byte) : ∀ (m : List Host.Cell) (a j : Nat), j < a ∨ a + bs.length ≤ j →
    memGet (memWrite m a bs) j = memGet m j := by
  induction bs with
  | nil => intros; rfl
  | cons b bs ih =>
    intro m a j h
    simp only [List.length_cons] at h
    simp only [memWrite]
    rw [ih _ _ _ (by omega), memGet_memSet_other m (by omega)]

/-- A write puts each of its bytes in its place. -/
theorem memGet_memWrite_inside (bs : List Byte) : ∀ (m : List Host.Cell) (a k : Nat), Memory.wf m = true → (hk : k < bs.length) →
    memGet (memWrite m a bs) (a + k) = bs[k] := by
  induction bs with
  | nil => intro m a k _ hk; simp at hk
  | cons b bs ih =>
    intro m a k h hk
    simp only [memWrite]
    cases k with
    | zero =>
      rw [memGet_memWrite_outside bs _ (a + 1) (a + 0) (by omega)]
      simpa using memGet_memSet_same m a b h
    | succ k =>
      have := ih (memSet m a b) (a + 1) k (memSet_wf m a b h) (by simpa using hk)
      rw [show a + (k + 1) = a + 1 + k by omega]
      simpa using this

/-- A dropped range reads zero. -/
theorem memGet_memDrop_outside (m : List Host.Cell) (lo hi j : Nat) (h : j < lo ∨ hi ≤ j) : memGet (memDrop m lo hi) j = memGet m j := by
  induction m with
  | nil => rfl
  | cons e m ih =>
    obtain ⟨a, b⟩ := e
    unfold memDrop at ih ⊢
    simp only [List.filter_cons]
    split_ifs with c
    · simp only [memGet, ih]
    · simp only [memGet]
      split_ifs with ha
      · subst ha; simp at c; omega
      · exact ih

theorem memGet_memDrop_inside (m : List Host.Cell) (lo hi j : Nat) (h : lo ≤ j) (h' : j < hi) : memGet (memDrop m lo hi) j = 0 := by
  induction m with
  | nil => rfl
  | cons e m ih =>
    obtain ⟨a, b⟩ := e
    unfold memDrop at ih ⊢
    simp only [List.filter_cons]
    split_ifs with c
    · simp only [memGet]
      split_ifs with ha
      · subst ha; simp at c; omega
      · exact ih
    · exact ih

end Sys2Proof.Machine
end

