-- ==== Sys2Proof/Laws/Kept.lean ====
section
/-! SUPPORT. What every meaning keeps: it leaves the queue of waiting commands alone, and it keeps the canonical form of pool
memory. One lemma per operation on the state, in the order of the files that define them. -/

set_option tactic.hygienic false

namespace Sys2Proof.Machine

/-- What leads from `s` to `t` left the queue alone and kept the memory's form. -/
def Kept (s t : State) : Prop := t.pending = s.pending ∧ (Memory.wf s.mem = true → Memory.wf t.mem = true)

theorem Kept.refl (s : State) : Kept s s := ⟨rfl, id⟩

theorem Kept.trans {r s t : State} (h : Kept r s) (k : Kept s t) : Kept r t := ⟨k.1.trans h.1, k.2 ∘ h.2⟩

theorem Kept.withDev {r s : State} {d : Dev} (h : Kept r s) : Kept r { s with dev := d } := h

theorem Kept.withMem {r s : State} {m : List Host.Cell} {d : Dev} (h : Kept r s)
    (w : Memory.wf s.mem = true → Memory.wf m = true) : Kept r { s with mem := m, dev := d } := ⟨h.1, w ∘ h.2⟩

theorem Kept.onDev {r s : State} {f : Dev → Dev} (h : Kept r s) : Kept r (s.onDev f) := h

theorem Kept.of_onDev {s t : State} {f : Dev → Dev} (h : Kept (s.onDev f) t) : Kept s t := h

theorem Kept.foldl {α : Type} {r s : State} {f : State → α → State} {l : List α} (h : Kept r s) (k : ∀ t x, Kept t (f t x)) :
    Kept r (l.foldl f s) := by
  induction l generalizing s with
  | nil => exact h
  | cons x l ih => exact ih (h.trans (k s x))

theorem Kept.snd {α : Type} {r t : State} {a : α} {p : α × State} (e : p = (a, t)) (h : Kept r p.2) : Kept r t := by
  subst e; exact h

theorem Kept.fst {α : Type} {r t : State} {a : α} {p : State × α} (e : p = (t, a)) (h : Kept r p.1) : Kept r t := by
  subst e; exact h

theorem State.homeLoad_kept (s : State) (port code : Nat) (m : Msg) (job : Option Nat) (track pass : Bool) :
    Kept s (State.homeLoad s port code m job track pass) := by
  unfold State.homeLoad
  repeat' first
    | assumption
    | with_reducible exact Kept.refl _
    | split
    | intro x
    | lift_lets
    | fail_if_no_progress with_reducible apply Kept.withDev

theorem State.putLine_kept (s : State) (r : Region) (off mask : Nat) (b : List Byte) (writer : Nat) (poison : Bool) :
    Kept s (s.putLine r off mask b writer poison).2 := by
  unfold State.putLine
  lift_lets
  intro line k full mem d1 d2 d3 h
  split
  refine Kept.withMem (Kept.refl s) fun w => ?_
  simp only [mem]
  split
  · exact memWrite_wf _ _ _ w
  · exact memWriteMask_wf _ _ _ _ w

/-- A fold of line writes keeps what one write keeps. -/
theorem Kept.foldLines {α β γ δ : Type} {r : State} {f : α × β × γ × δ × State → Nat → α × β × γ × δ × State}
    (k : ∀ p i, Kept p.2.2.2.2 (f p i).2.2.2.2) (l : List Nat) :
    ∀ p : α × β × γ × δ × State, Kept r p.2.2.2.2 → Kept r (l.foldl f p).2.2.2.2 := by
  induction l with
  | nil => intro p h; exact h
  | cons i l ih => intro p h; exact ih _ (h.trans (k p i))

theorem State.applyUpdate_kept (s : State) (code : Nat) (m : Msg) (job : Option Nat) (r : Region) :
    Kept s (s.applyUpdate code m job r) := by
  unfold State.applyUpdate
  extract_lets x off dev
  generalize hp : (ite (code = 0x10) _ _ : List Nat × List Nat × List (Nat × Nat × Nat) × Nat × State) = p
  have h : Kept s p.2.2.2.2 := by
    subst hp
    split
    · exact Kept.withDev (State.putLine_kept ..)
    · refine Kept.foldLines (fun p i => ?_) _ _ (Kept.refl s)
      exact Kept.withDev (State.putLine_kept p.2.2.2.2 r _ _ _ _ _)
  exact Kept.withDev h

theorem State.applyOne_kept (s : State) (code : Nat) (m : Msg) (job : Option Nat) (r : Region) : Kept s (s.applyOne code m job r) := by
  unfold State.applyOne
  lift_lets
  intro lines
  split
  split
  · exact (Kept.refl s).onDev
  · exact Kept.withDev (Kept.refl s)
  · exact Kept.trans (Kept.withDev (Kept.refl s)) (State.applyUpdate_kept ..)

theorem State.closeHome_kept (s : State) (f : HomeComb → Bool) : Kept s (s.closeHome f) := by
  unfold State.closeHome
  lift_lets
  intro cs s'
  refine Kept.foldl (Kept.refl s).onDev fun t x => ?_
  split
  · exact State.applyOne_kept ..
  · exact (Kept.refl t).onDev

theorem State.serialise_kept (s : State) (port code : Nat) (m : Msg) (job : Option Nat) (r : Region) :
    Kept s (s.serialise port code m job r) := by
  unfold State.serialise
  lift_lets
  intro line s'
  split
  · exact (Kept.refl s).onDev
  · have h : Kept s s' := State.closeHome_kept ..
    clear_value s'
    split
    · exact h.trans (State.applyOne_kept ..)
    · exact h

theorem State.homeServe_kept (s : State) (port code : Nat) (m : Msg) (job : Option Nat) (tried pass : Bool) :
    Kept s (State.homeServe s port code m job tried pass) := by
  unfold State.homeServe
  lift_lets
  intro d lines
  split
  · exact Kept.withDev (Kept.refl s)
  split
  · exact State.homeLoad_kept ..
  split
  · exact Kept.withDev (Kept.refl s)
  split
  · exact Kept.withDev (Kept.refl s)
  split
  · exact Kept.withDev (Kept.refl s)
  intro out d'
  clear_value d'
  split
  · exact Kept.withDev (Kept.refl s)
  split
  · exact Kept.withDev (Kept.refl s)
  split
  · split
    · exact Kept.withDev (Kept.refl s)
    split
    · exact State.homeLoad_kept ..
    · exact Kept.withDev (Kept.refl s)
  · split
    · exact (Kept.refl s).onDev.trans (State.homeLoad_kept ..)
    generalize (Region.persist _ && _) = w
    split
    · exact Kept.withDev (Kept.refl s)
    · exact State.serialise_kept ..

theorem State.homeArrive_kept (s : State) (port code : Nat) (m : Msg) (job : Option Nat) : Kept s (s.homeArrive port code m job) := by
  unfold State.homeArrive
  split
  · exact (Kept.refl s).onDev
  · exact State.homeServe_kept ..

theorem State.serveLoads_kept (s : State) (l : List HeldReq) : Kept s (State.serveLoads s l) := by
  unfold State.serveLoads
  repeat' first
    | assumption
    | with_reducible exact Kept.refl _
    | with_reducible apply Kept.onDev
    | (with_reducible refine Kept.foldl ?_ ?_)
    | with_reducible refine Kept.trans ?_ (State.homeServe_kept ..)
    | with_reducible refine Kept.fst (by assumption) ?_
    | with_reducible refine Kept.snd (by assumption) ?_
    | intro x

theorem State.invAck_kept (s : State) (set line pos : Nat) : Kept s (State.invAck s set line pos) := by
  unfold State.invAck
  split
  exact (Kept.withDev (Kept.refl s)).trans (State.serveLoads_kept ..)

theorem State.endJob_kept (s : State) (k : Nat) (a : Ans) : Kept s (State.endJob s k a) := by
  unfold State.endJob
  repeat' first
    | assumption
    | with_reducible exact Kept.refl _
    | with_reducible apply Kept.onDev

theorem State.runNear_kept (s : State) (k : Nat) : Kept s (s.runNear k) := by
  unfold State.runNear
  split
  · exact Kept.refl s
  · lift_lets
    intro x len lines d rd wr own hold
    split
    · exact (Kept.onDev (Kept.refl s)).trans (State.endJob_kept ..)
    · try lift_lets
      intro out a poisoned d1
      clear_value poisoned d1 a
      split
      · exact Kept.withDev (Kept.refl s)
      · split
        · exact ((Kept.refl s).onDev).trans (State.endJob_kept ..)
        · split
          · exact Kept.withDev (Kept.refl s)
          · split
            · exact (Kept.withDev (Kept.refl s)).trans (State.endJob_kept ..)
            · split
              split
              · exact State.endJob_kept ..
              · split
                · exact State.endJob_kept ..
                · generalize (r.persist && _) = w
                  split
                  · exact State.endJob_kept ..
                  · split
                    split
                    · exact State.endJob_kept ..
                    · exact Kept.withDev (Kept.refl s)
                    · lift_lets
                      intro d'
                      exact Kept.foldl (Kept.withDev (Kept.refl s)) fun t i => State.applyUpdate_kept ..

theorem State.startNear_kept (s : State) (k : Nat) : Kept s (s.startNear k) := by
  unfold State.startNear
  split
  · exact Kept.refl s
  · lift_lets
    intro reads s' far d d'
    have h : Kept s s' := (Kept.refl s).onDev
    clear_value s'
    split
    · exact h.trans (State.runNear_kept ..)
    · exact h.withDev

theorem State.startHostCopy_kept (s : State) (k : Nat) : Kept s (State.startHostCopy s k) := by
  unfold State.startHostCopy
  repeat' first
    | assumption
    | with_reducible exact Kept.refl _
    | with_reducible apply Kept.onDev
    | (with_reducible refine Kept.foldl ?_ ?_)
    | with_reducible refine Kept.trans ?_ (State.homeArrive_kept ..)
    | with_reducible refine Kept.fst (by assumption) ?_
    | with_reducible refine Kept.snd (by assumption) ?_
    | split
    | (intro x; first | (have hx : State := x; clear hx; subst x) | skip)
    | lift_lets

theorem State.opNear_kept (s : State) (q : Req) : Kept s (State.opNear s q) := by
  unfold State.opNear
  repeat' first
    | assumption
    | with_reducible exact Kept.refl _
    | with_reducible apply Kept.onDev
    | with_reducible refine Kept.trans ?_ (State.startNear_kept ..)
    | with_reducible refine Kept.trans ?_ (State.startHostCopy_kept ..)
    | split
    | intro x
    | lift_lets
    | fail_if_no_progress with_reducible apply Kept.withDev

theorem State.freeRegion_kept (s : State) (x : Nat) : Kept s (s.freeRegion x) := by
  unfold State.freeRegion
  split
  · exact Kept.refl s
  · lift_lets
    intros
    exact Kept.withMem (Kept.refl s) (memDrop_wf _ _ _)

theorem State.homeCreate_kept (s : State) (k : Nat) (j : Job) : Kept s (s.homeCreate k j) := by
  unfold State.homeCreate
  lift_lets
  intro id x r asMirror s'
  have h : Kept s s' := by
    simp only [s']
    split
    · exact State.freeRegion_kept ..
    · exact Kept.refl s
  intro d
  split
  · exact h.trans (State.endJob_kept ..)
  split
  · exact h.trans (State.endJob_kept ..)
  split
  · split
    · exact (h.withDev).trans (State.endJob_kept ..)
    · exact h.withDev
    · exact (h.withDev).trans (State.endJob_kept ..)
  split
  · exact h.trans (State.endJob_kept ..)
  split
  · exact h.trans (State.endJob_kept ..)
  split
  · exact (h.withDev).trans (State.endJob_kept ..)
  · exact h.withDev
  · split
    · exact h.withDev
    · exact h.withDev

theorem State.copyChunk_kept (s : State) (r : Region) (t off : Nat) : Kept s (State.copyChunk s r t off) := by
  unfold State.copyChunk
  repeat' first
    | assumption
    | with_reducible exact Kept.refl _
    | (with_reducible refine Kept.foldl ?_ ?_)
    | intro x
    | lift_lets
    | fail_if_no_progress with_reducible apply Kept.withDev

theorem State.rebuildUnit_kept (s : State) (x : Nat) : Kept s (State.rebuildUnit s x) := by
  unfold State.rebuildUnit
  repeat' first
    | assumption
    | with_reducible exact Kept.refl _
    | with_reducible apply Kept.onDev
    | (with_reducible refine Kept.foldl ?_ ?_)
    | with_reducible refine Kept.trans ?_ (State.copyChunk_kept ..)
    | split
    | intro x

theorem State.rebuildStep_kept (s : State) : Kept s (State.rebuildStep s) := by
  unfold State.rebuildStep
  repeat' first
    | assumption
    | with_reducible exact Kept.refl _
    | (with_reducible refine Kept.foldl ?_ ?_)
    | with_reducible refine Kept.trans ?_ (State.rebuildUnit_kept ..)
    | intro x

theorem State.copyDone_kept (s : State) (x : Nat) : Kept s (State.copyDone s x) := by
  unfold State.copyDone
  repeat' first
    | assumption
    | with_reducible exact Kept.refl _
    | with_reducible apply Kept.onDev
    | with_reducible refine Kept.trans ?_ (State.rebuildUnit_kept ..)
    | split
    | intro x
    | lift_lets

theorem State.rebuildAnswer_kept (s : State) (k : Nat) (j : Job) (a : Ans) : Kept s (State.rebuildAnswer s k j a) := by
  unfold State.rebuildAnswer
  repeat' first
    | assumption
    | with_reducible exact Kept.refl _
    | with_reducible apply Kept.onDev
    | with_reducible refine Kept.trans ?_ (State.rebuildUnit_kept ..)
    | split

theorem State.homeGrant_kept (s : State) (k : Nat) (j : Job) : Kept s (State.homeGrant s k j) := by
  unfold State.homeGrant
  repeat' first
    | assumption
    | with_reducible exact Kept.refl _
    | with_reducible refine Kept.trans ?_ (State.endJob_kept ..)
    | split
    | intro x
    | lift_lets
    | fail_if_no_progress with_reducible apply Kept.withDev

theorem State.homePublish_kept (s : State) (k : Nat) (j : Job) : Kept s (State.homePublish s k j) := by
  unfold State.homePublish
  repeat' first
    | assumption
    | with_reducible exact Kept.refl _
    | with_reducible apply Kept.onDev
    | with_reducible refine Kept.trans ?_ (State.endJob_kept ..)
    | split
    | intro x
    | lift_lets
    | fail_if_no_progress with_reducible apply Kept.withDev

theorem State.revokePoint_kept (s : State) (k x : Nat) (target : Option (Nat × Nat)) (destroy : Bool) : Kept s (State.revokePoint s k x target destroy) := by
  unfold State.revokePoint
  lift_lets
  intro s'
  have h : Kept s s' := State.closeHome_kept ..
  clear_value s'
  split
  · exact h
  · refine Kept.foldl h.withDev fun t e => ?_
    split
    · exact ((Kept.refl t).onDev).trans (State.endJob_kept ..)
    · exact Kept.refl t

theorem State.homeRevoke_kept (s : State) (k : Nat) (j : Job) : Kept s (State.homeRevoke s k j) := by
  unfold State.homeRevoke
  repeat' first
    | assumption
    | with_reducible exact Kept.refl _
    | with_reducible apply Kept.onDev
    | with_reducible refine Kept.trans ?_ (State.endJob_kept ..)
    | with_reducible refine Kept.trans ?_ (State.revokePoint_kept ..)
    | split
    | intro x
    | lift_lets

theorem State.homeDestroy_kept (s : State) (k : Nat) (j : Job) : Kept s (State.homeDestroy s k j) := by
  unfold State.homeDestroy
  repeat' first
    | assumption
    | with_reducible exact Kept.refl _
    | with_reducible apply Kept.onDev
    | with_reducible refine Kept.trans ?_ (State.endJob_kept ..)
    | with_reducible refine Kept.trans ?_ (State.freeRegion_kept ..)
    | with_reducible refine Kept.trans ?_ (State.revokePoint_kept ..)
    | split

theorem State.nextRevoke_kept (s : State) (x : Nat) : Kept s (State.nextRevoke s x) := by
  unfold State.nextRevoke
  repeat' first
    | assumption
    | with_reducible exact Kept.refl _
    | with_reducible apply Kept.onDev
    | with_reducible refine Kept.trans ?_ (State.homeRevoke_kept ..)
    | with_reducible refine Kept.trans ?_ (State.homeDestroy_kept ..)
    | split
    | (intro x; first | (have hx : State := x; clear hx; subst x) | skip)
    | lift_lets

theorem State.drainEnd_kept (s : State) (id : Nat) : Kept s (State.drainEnd s id) := by
  unfold State.drainEnd
  repeat' first
    | assumption
    | with_reducible exact Kept.refl _
    | with_reducible apply Kept.onDev
    | (with_reducible refine Kept.foldl ?_ ?_)
    | with_reducible refine Kept.trans ?_ (State.endJob_kept ..)
    | with_reducible refine Kept.trans ?_ (State.freeRegion_kept ..)
    | with_reducible refine Kept.trans ?_ (State.nextRevoke_kept ..)
    | split
    | intro x

theorem State.acceptSector_kept (s : State) (h : Nat × Nat × Nat) : Kept s (State.acceptSector s h) := by
  unfold State.acceptSector
  repeat' first
    | assumption
    | with_reducible exact Kept.refl _
    | split
    | intro x
    | lift_lets
    | fail_if_no_progress with_reducible apply Kept.withDev

theorem State.acceptSectors_kept (s : State) (l kept : List (Nat × Nat × Nat)) : Kept s (s.acceptSectors l kept) := by
  induction l generalizing s kept with
  | nil => exact (Kept.refl s).onDev
  | cons h t ih =>
    unfold State.acceptSectors
    repeat' first
      | exact (Kept.refl s).onDev
      | exact ih ..
      | exact (State.acceptSector_kept ..).trans (ih ..)
      | split

theorem State.mirrorApply_kept (s : State) (m : Msg) (r : Region) : Kept s (State.mirrorApply s m r) := by
  unfold State.mirrorApply
  repeat' first
    | assumption
    | with_reducible exact Kept.refl _
    | with_reducible apply Kept.onDev
    | with_reducible refine Kept.trans ?_ (State.putLine_kept ..)
    | split
    | (intro x; first | (have hx : State := x; clear hx; subst x) | skip)
    | lift_lets
    | fail_if_no_progress with_reducible apply Kept.withDev

theorem State.mirrorWriteIn_kept (s : State) (port : Nat) (m : Msg) : Kept s (State.mirrorWriteIn s port m) := by
  unfold State.mirrorWriteIn
  repeat' first
    | assumption
    | with_reducible exact Kept.refl _
    | with_reducible apply Kept.onDev
    | (with_reducible refine Kept.foldl ?_ ?_)
    | with_reducible refine Kept.trans ?_ (State.mirrorApply_kept ..)
    | split
    | intro x
    | lift_lets

theorem State.mirrorBlockIn_kept (s : State) (m : Msg) : Kept s (State.mirrorBlockIn s m) := by
  unfold State.mirrorBlockIn
  repeat' first
    | assumption
    | with_reducible exact Kept.refl _
    | with_reducible apply Kept.onDev
    | (with_reducible refine Kept.foldl ?_ ?_)
    | with_reducible refine Kept.trans ?_ (State.putLine_kept ..)
    | split
    | (intro x; first | (have hx : State := x; clear hx; subst x) | skip)
    | lift_lets
    | fail_if_no_progress with_reducible apply Kept.withDev

theorem State.homeRegionOp_kept (s : State) (hint : State → Nat → Job → State) (k : Nat)
    (hh : ∀ s k j, Kept s (hint s k j)) : Kept s (s.homeRegionOp hint k) := by
  unfold State.homeRegionOp
  split
  · exact Kept.refl s
  · split_ifs
    · exact State.startNear_kept ..
    · exact State.homePublish_kept ..
    · exact State.homeRevoke_kept ..
    · exact State.homeCreate_kept ..
    · exact State.homeGrant_kept ..
    · exact State.homeDestroy_kept ..
    · exact hh ..
    · exact State.endJob_kept ..

theorem State.opRegion_kept (s : State) (hint : State → Nat → Job → State) (q : Req) (id : Nat) (hh : ∀ s k j, Kept s (hint s k j)) : Kept s (State.opRegion s hint q id) := by
  unfold State.opRegion
  repeat' first
    | assumption
    | with_reducible exact Kept.refl _
    | with_reducible apply Kept.onDev
    | with_reducible refine Kept.trans ?_ (State.homeRegionOp_kept (hh := hh) ..)
    | split
    | intro x
    | lift_lets
    | fail_if_no_progress with_reducible apply Kept.withDev

theorem State.regionRequestIn_kept (s : State) (hint : State → Nat → Job → State) (m : Msg) (hh : ∀ s k j, Kept s (hint s k j)) : Kept s (State.regionRequestIn s hint m) := by
  unfold State.regionRequestIn
  repeat' first
    | assumption
    | with_reducible exact Kept.refl _
    | with_reducible refine Kept.trans ?_ (State.homeRegionOp_kept (hh := hh) ..)
    | split
    | intro x
    | lift_lets
    | fail_if_no_progress with_reducible apply Kept.withDev

theorem State.regionDoneIn_kept (s : State) (m : Msg) : Kept s (s.regionDoneIn m) := by
  unfold State.regionDoneIn
  split
  · exact Kept.refl s
  · lift_lets
    intro d s' a
    have h : Kept s s' := Kept.withDev (Kept.refl s)
    clear_value s'
    split
    · exact h
    · split_ifs
      · exact h.trans (State.rebuildAnswer_kept ..)
      · exact h.onDev
      · exact (h.trans (State.freeRegion_kept ..)).trans (State.endJob_kept ..)
      · exact h.onDev.trans (State.endJob_kept ..)

theorem State.onMsg_kept (s : State) (port code : Nat) (m : Msg) (f : State → State) (hf : ∀ t, Kept t (f t)) : Kept s (State.onMsg s port code m f) := by
  unfold State.onMsg
  repeat' first
    | assumption
    | with_reducible exact Kept.refl _
    | with_reducible apply Kept.onDev
    | with_reducible refine Kept.trans ?_ (hf _)
    | split

theorem State.configServe_kept (s : State) (code : Nat) (m : Msg) : Kept s (s.configServe code m) := (Kept.refl s).onDev

theorem State.configTry_kept (s : State) (port code : Nat) (m : Msg) : Kept s (s.configTry port code m) := by
  unfold State.configTry
  split
  · exact (Kept.refl s).onDev
  · exact State.configServe_kept ..

theorem State.configIn_kept (s : State) (port code : Nat) (m : Msg) : Kept s (s.configIn port code m) := by
  unfold State.configIn
  split
  · exact (Kept.refl s).onDev
  · exact State.configTry_kept ..

theorem State.serveHeld_kept (s : State) (h : HeldReq) (tried : Bool) : Kept s (s.serveHeld h tried) := by
  unfold State.serveHeld
  split
  · exact (Kept.refl s).onDev
  split
  · exact State.configTry_kept ..
  split
  · split
    · split_ifs
      · exact State.homePublish_kept ..
      · exact State.homeCreate_kept ..
      · exact State.runNear_kept ..
    · exact Kept.refl s
  · exact State.homeServe_kept ..

theorem State.serveBehind_kept (s : State) (n : Nat) : Kept s (s.serveBehind n) := by
  induction n generalizing s with
  | zero => exact Kept.refl s
  | succ n ih =>
    unfold State.serveBehind
    split
    · exact Kept.refl s
    split
    · exact Kept.refl s
    · exact ((Kept.refl s).onDev.trans (State.serveHeld_kept ..)).trans (ih _)

theorem State.serveOrdered_kept (s : State) : Kept s s.serveOrdered := State.serveBehind_kept ..

theorem State.serveWhere_kept (s : State) (f : HeldReq → Bool) (tried : Bool) : Kept s (State.serveWhere s f tried) := by
  unfold State.serveWhere
  lift_lets
  intro hs s'
  have h : Kept s s' := (Kept.refl s).onDev
  exact (Kept.foldl h fun t x => State.serveHeld_kept ..).trans (State.serveOrdered_kept _)

theorem State.fetched_kept (s : State) (k : Nat) : Kept s (s.fetched k) := by
  unfold State.fetched
  split
  · exact Kept.refl s
  · split
    · exact Kept.refl s
    · split
      · exact (Kept.refl s).onDev
      · split
        · exact (Kept.refl s).onDev
        · split
          · exact (Kept.refl s).onDev.trans (State.endJob_kept ..)
          · refine Kept.trans (Kept.foldl (Kept.refl s) fun t e => ?_) (State.runNear_kept ..)
            exact Kept.withMem (Kept.refl t) (memWrite_wf _ _ _)

theorem State.deadRequest_kept (s : State) (o : Outst) : Kept s (State.deadRequest s o) := by
  unfold State.deadRequest
  repeat' first
    | assumption
    | with_reducible exact Kept.refl _
    | with_reducible apply Kept.onDev
    | with_reducible refine Kept.trans ?_ (State.endJob_kept ..)
    | with_reducible refine Kept.trans ?_ (State.freeRegion_kept ..)
    | with_reducible refine Kept.trans ?_ (State.rebuildAnswer_kept ..)
    | with_reducible refine Kept.trans ?_ (State.serveWhere_kept ..)
    | with_reducible refine Kept.trans ?_ (State.fetched_kept ..)
    | split
    | (intro x; first | (have hx : State := x; clear hx; subst x) | skip)
    | lift_lets

theorem State.declareDead_kept (s : State) (dev : Nat) : Kept s (s.declareDead dev) := by
  unfold State.declareDead
  lift_lets
  intro d
  split
  · exact Kept.refl s
  · try lift_lets
    intros
    refine Kept.onDev (Kept.trans (Kept.onDev (Kept.foldl (Kept.onDev (Kept.foldl (Kept.withDev (Kept.refl s)) fun t o => ?_))
      fun t w => ?_)) (State.serveWhere_kept ..))
    · exact State.deadRequest_kept ..
    · exact State.invAck_kept ..

theorem State.heardFrom_kept (s : State) (dev epoch : Nat) : Kept s (s.heardFrom dev epoch) := by
  unfold State.heardFrom
  lift_lets
  intro old changed s1 back s2 s3
  have h1 : Kept s s1 := by
    simp only [s1]
    split
    · exact State.declareDead_kept ..
    · exact Kept.refl s
  have h3 : Kept s s3 := by
    simp only [s3]
    split
    · exact h1.onDev.onDev
    · exact h1.onDev
  split
  · exact h3.onDev.onDev
  · exact h3

theorem State.identIn_kept (s : State) (port dev epoch : Nat) : Kept s (State.identIn s port dev epoch) := by
  unfold State.identIn
  repeat' first
    | assumption
    | with_reducible exact Kept.refl _
    | with_reducible apply Kept.onDev
    | with_reducible refine Kept.trans ?_ (State.heardFrom_kept ..)
    | split

theorem State.request_kept (s : State) (port code : Nat) (m : Msg) : Kept s (State.request s port code m) := by
  unfold State.request
  repeat' first
    | assumption
    | with_reducible exact Kept.refl _
    | with_reducible apply Kept.onDev
    | with_reducible refine Kept.trans ?_ (State.homeArrive_kept ..)
    | with_reducible refine Kept.fst (by assumption) ?_
    | with_reducible refine Kept.snd (by assumption) ?_
    | split
    | intro x
    | lift_lets
    | fail_if_no_progress with_reducible apply Kept.withDev

theorem State.doneIn_kept (s : State) (m : Msg) : Kept s (State.doneIn s m) := by
  unfold State.doneIn
  repeat' first
    | assumption
    | with_reducible exact Kept.refl _
    | with_reducible apply Kept.onDev
    | with_reducible refine Kept.trans ?_ (State.copyDone_kept ..)
    | split
    | lift_lets
    | fail_if_no_progress with_reducible apply Kept.withDev

theorem State.mapNoticeIn_kept (s : State) (m : Msg) : Kept s (State.mapNoticeIn s m) := by
  unfold State.mapNoticeIn
  repeat' first
    | assumption
    | with_reducible exact Kept.refl _
    | with_reducible apply Kept.onDev

theorem State.onMessage_kept (s : State) (port code : Nat) (m : Msg) (f : State → State) (hf : ∀ t, Kept t (f t)) : Kept s (State.onMessage s port code m f) := by
  unfold State.onMessage
  repeat' first
    | assumption
    | with_reducible exact Kept.refl _
    | with_reducible apply Kept.onDev
    | with_reducible refine Kept.trans ?_ (State.onMsg_kept (hf := ?_) ..)
    | with_reducible refine Kept.trans ?_ (hf _)
    | split
    | intro x
    | lift_lets

theorem State.background_kept (s : State) : Kept s (State.background s) := by
  unfold State.background
  repeat' first
    | assumption
    | with_reducible exact Kept.refl _
    | split
    | intro x
    | lift_lets
    | fail_if_no_progress with_reducible apply Kept.withDev

theorem State.homeHint_kept (s : State) (k : Nat) (j : Job) : Kept s (State.homeHint s k j) := by
  unfold State.homeHint
  repeat' first
    | assumption
    | with_reducible exact Kept.refl _
    | with_reducible refine Kept.trans ?_ (State.endJob_kept ..)
    | lift_lets
    | fail_if_no_progress with_reducible apply Kept.withDev

theorem State.opHint_kept (s : State) (q : Req) : Kept s (State.opHint s q) := by
  unfold State.opHint
  repeat' first
    | assumption
    | with_reducible exact Kept.refl _
    | with_reducible refine Kept.trans ?_ (State.opRegion_kept (hh := State.homeHint_kept) ..)
    | split
    | (intro x; first | (have hx : State := x; clear hx; subst x) | skip)
    | lift_lets
    | fail_if_no_progress with_reducible apply Kept.withDev

theorem State.fetchLines_kept (s t : State) (p key id : Nat) (addrs : List Nat) (h : s.fetchLines p key id addrs = .waits t) :
    Kept s t := by
  unfold State.fetchLines at h
  dsimp only at h
  repeat' split at h
  all_goals first
    | (injection h with h; subst h; exact Kept.withDev (Kept.refl s))
    | cases h

theorem State.fetchLines_ready (s t : State) (p key id : Nat) (addrs : List Nat) (h : s.fetchLines p key id addrs = .ready t) :
    Kept s t := by
  unfold State.fetchLines at h
  dsimp only at h
  repeat' split at h
  all_goals first
    | (injection h with h; subst h; exact Kept.withDev (Kept.refl s))
    | (injection h with h; subst h; exact Kept.refl s)
    | cases h

theorem State.volume_kept (s t : State) (p key id off first count : Nat) (h : s.volume p key id off first count = .waits t) :
    Kept s t := by
  unfold State.volume at h
  dsimp only at h
  repeat' split at h
  all_goals first
    | (injection h with h; subst h; exact State.fetchLines_kept _ _ _ _ _ _ (by assumption))
    | (injection h with h; subst h
       exact (State.fetchLines_ready _ _ _ _ _ _ (by assumption)).trans (State.fetchLines_kept _ _ _ _ _ _ (by assumption)))
    | cases h

theorem State.volume_ranges (s t : State) (p key id off first count : Nat) (ws : List (Nat × Nat))
    (h : s.volume p key id off first count = .ranges t ws) : Kept s t := by
  unfold State.volume at h
  dsimp only at h
  repeat' split at h
  all_goals first
    | (injection h with h; subst h
       exact (State.fetchLines_ready _ _ _ _ _ _ (by assumption)).trans (State.fetchLines_ready _ _ _ _ _ _ (by assumption)))
    | cases h

theorem State.volumes_kept (s : State) (p key id off first count : Nat) (c : Prop) [Decidable c] :
    (∀ t, (if c then s.volume p key id off first count else .ranges s []) = .waits t → Kept s t)
    ∧ ∀ t ws, (if c then s.volume p key id off first count else .ranges s []) = .ranges t ws → Kept s t := by
  split
  · exact ⟨fun t h => State.volume_kept _ _ _ _ _ _ _ _ h, fun t ws h => State.volume_ranges _ _ _ _ _ _ _ _ _ h⟩
  · refine ⟨fun t h => (by cases h), fun t ws h => ?_⟩
    injection h with h
    subst h
    exact Kept.refl s

theorem State.deliverRun_kept (s : State) (q : Req) : Kept s (s.deliverRun q).1 := by
  unfold State.deliverRun
  lift_lets
  intro x d last strict ss
  split
  · lift_lets
    intros
    exact Kept.refl s
  · split
    · exact Kept.withDev (Kept.refl s)
    · try lift_lets
      intro layers s' d'
      have h : Kept s s' := (Kept.refl s).onDev
      clear_value s'
      split
      · exact h.onDev
      · split
        · exact h.onDev
        · rename_i e
          exact h.trans ((State.volumes_kept ..).1 _ e)
        · rename_i e
          have k := h.trans ((State.volumes_kept ..).2 _ _ e)
          dsimp only
          split_ifs <;> exact k.withDev

theorem State.opDeliver_kept (s : State) (q : Req) : Kept s (State.opDeliver s q).1 := by
  unfold State.opDeliver
  repeat' first
    | assumption
    | with_reducible exact Kept.refl _
    | with_reducible refine Kept.trans ?_ (State.deliverRun_kept ..)
    | split
    | lift_lets
    | fail_if_no_progress with_reducible apply Kept.withDev

theorem State.slotWrite_kept (s : State) (p id : Nat) : Kept s (s.slotWrite p id) := by
  unfold State.slotWrite
  extract_lets key d
  split
  · exact Kept.refl s
  split
  · exact Kept.refl s
  extract_lets
  rename State → Nat → State => stop
  have hs : ∀ t r, Kept t (stop t r) := fun t r => (Kept.refl t).onDev
  split
  · exact hs ..
  split
  · exact Kept.refl s
  · exact hs ..
  extract_lets layers layer ss s' d'
  split
  · exact Kept.refl s
  split
  · exact (Kept.refl s).onDev
  have h : Kept s s' := (Kept.refl s).onDev
  clear_value s'
  split
  · exact h.onDev.trans (hs ..)
  generalize hv : (ite (_ ≠ 0) _ _ : Volumes) = v
  cases v with
  | stop a => exact h.trans (hs ..)
  | waits t => exact h.trans ((State.volumes_kept ..).1 _ hv)
  | ranges t ws =>
    have k : Kept s t := h.trans ((State.volumes_kept ..).2 _ _ hv)
    dsimp only
    split
    · exact k.trans (hs ..)
    · exact k.withDev

theorem State.discardSector_kept (s : State) (v u j off : Nat) : Kept s (s.discardSector v u j off) := by
  unfold State.discardSector
  extract_lets k d d' d''
  split
  · exact Kept.withDev (Kept.refl s)
  · split
    · exact Kept.withDev (Kept.refl s)
    · exact Kept.withDev (Kept.refl s)

theorem State.discardRegion_kept (s : State) (dev : Nat) (x : DescIn) : Kept s (s.discardRegion dev x).1 := by
  unfold State.discardRegion
  lift_lets
  intro d slot
  split
  · exact Kept.refl s
  · extract_lets copied rights off len secs hits
    split
    · exact Kept.refl s
    split
    · exact Kept.refl s
    · exact Kept.foldl (Kept.refl s) fun t h => State.discardSector_kept ..

theorem State.homeExtra_kept (s : State) (k : Nat) (j : Job) : Kept s (s.homeExtra k j) := by
  unfold State.homeExtra
  split
  · exact (State.discardRegion_kept ..).trans (State.endJob_kept ..)
  · exact State.homeHint_kept ..

theorem State.opStacksDiscard_kept (s : State) (q : Req) : Kept s (s.opStacksDiscard q).1 := State.discardRegion_kept ..

theorem State.dropRegionLines_kept (s : State) (p : Nat) : Kept s (s.dropRegionLines p) := by
  refine Kept.foldl (Kept.refl s) fun t e => ?_
  split
  · exact Kept.withMem (Kept.refl t) (memDrop_wf _ _ _)
  · exact Kept.refl t

theorem State.resetPatron_kept (s : State) (p : Nat) (discard : Bool) : Kept s (State.resetPatron s p discard) := by
  unfold State.resetPatron
  repeat' first
    | assumption
    | with_reducible exact Kept.refl _
    | with_reducible apply Kept.onDev
    | with_reducible refine Kept.trans ?_ (State.dropRegionLines_kept ..)
    | split

theorem State.resetDone_kept (s : State) (p : Nat) : Kept s (State.resetDone s p) := by
  unfold State.resetDone
  repeat' first
    | assumption
    | with_reducible exact Kept.refl _
    | with_reducible refine Kept.trans ?_ (State.resetPatron_kept ..)
    | split
    | intro x
    | lift_lets
    | fail_if_no_progress with_reducible apply Kept.withDev

theorem State.resetEvery_kept (s : State) : Kept s (State.resetEvery s) := by
  unfold State.resetEvery
  repeat' first
    | assumption
    | with_reducible exact Kept.refl _
    | (with_reducible refine Kept.foldl ?_ ?_)
    | with_reducible refine Kept.trans ?_ (State.resetPatron_kept ..)
    | intro x

theorem State.opPatronReset_kept (s : State) (q : Req) : Kept s (State.opPatronReset s q) := by
  unfold State.opPatronReset
  repeat' first
    | assumption
    | with_reducible exact Kept.refl _
    | with_reducible apply Kept.onDev
    | with_reducible refine Kept.trans ?_ (State.resetPatron_kept ..)
    | split
    | intro x
    | lift_lets

theorem State.accessParts_kept (s : State) (k : Nat) (parts : List (Nat × Msg × Nat × Nat × List Byte)) : Kept s (State.accessParts s k parts) := by
  unfold State.accessParts
  repeat' first
    | assumption
    | with_reducible exact Kept.refl _
    | with_reducible apply Kept.onDev
    | (with_reducible refine Kept.foldl ?_ ?_)
    | with_reducible refine Kept.trans ?_ (State.homeServe_kept ..)
    | with_reducible refine Kept.fst (by assumption) ?_
    | with_reducible refine Kept.snd (by assumption) ?_
    | split
    | intro x
    | lift_lets

theorem State.apertureAccess_kept (s : State) (op off len right : Nat)
    (parts : Nat → Nat → List (Nat × Msg × Nat × Nat × List Byte)) : Kept s (s.apertureAccess op off len right parts) := by
  unfold State.apertureAccess
  lift_lets
  intro d
  by_cases ho : op = 0x100 <;> simp only [ho, if_true, if_false]
  all_goals
    split
    · exact Kept.refl s
    · split
      · exact Kept.withDev (Kept.refl s)
      · try lift_lets
        intros
        split
        · exact Kept.withDev (Kept.refl s)
        · exact (Kept.withDev (Kept.refl s)).trans (State.accessParts_kept ..)

theorem State.revertSector_kept (s : State) (k sec : Nat) : Kept s (s.revertSector k sec) := by
  unfold State.revertSector
  split
  · exact Kept.refl s
  · lift_lets
    intro off old mem
    have hm : Memory.wf s.mem = true → Memory.wf mem = true := memDrop_wf _ _ _
    clear_value mem old
    split
    · exact Kept.withMem (Kept.refl s) hm
    · split
      · exact Kept.withMem (Kept.refl s) hm
      · exact Kept.withMem (Kept.refl s) fun w => memWrite_wf _ _ _ (hm w)

theorem State.loseRoom_kept (s : State) : Kept s s.loseRoom := by
  unfold State.loseRoom
  lift_lets
  intro waiting s'
  have h : Kept s s' := Kept.foldl (Kept.refl s) fun t h => State.revertSector_kept ..
  intro left
  exact h.withMem (memory_filter_wf _ _)

theorem State.deviceReset_kept (s : State) (cause : Nat) : Kept s (State.deviceReset s cause) := by
  unfold State.deviceReset
  repeat' first
    | assumption
    | with_reducible exact Kept.refl _
    | with_reducible apply Kept.onDev
    | with_reducible refine Kept.trans ?_ (State.loseRoom_kept ..)

theorem State.requestReset_kept (s : State) (cause : Nat) : Kept s (State.requestReset s cause) := by
  unfold State.requestReset
  repeat' first
    | assumption
    | with_reducible exact Kept.refl _
    | with_reducible apply Kept.onDev
    | with_reducible refine Kept.trans ?_ (State.deviceReset_kept ..)
    | split

theorem State.beginDeviceReset_kept (s : State) : Kept s (State.beginDeviceReset s) := by
  unfold State.beginDeviceReset
  repeat' first
    | assumption
    | with_reducible exact Kept.refl _
    | with_reducible apply Kept.onDev
    | with_reducible refine Kept.trans ?_ (State.requestReset_kept ..)
    | split

theorem State.loseSector_kept (s : State) (v u off j : Nat) (f : FSector) : Kept s (s.loseSector v u off j f) := by
  unfold State.loseSector
  split
  lift_lets
  intro s'
  split
  · exact Kept.withDev (Kept.refl s)
  · exact Kept.withMem (Kept.refl s) fun w => memWrite_wf _ _ _ (memDrop_wf _ _ _ w)

theorem State.loseStaging_kept (s : State) : Kept s s.loseStaging := by
  refine Kept.foldl (Kept.refl s) fun t e => ?_
  lift_lets
  intro us
  exact Kept.foldl (Kept.refl t) fun t u => Kept.foldl (Kept.refl t) fun t c => State.loseSector_kept ..

theorem State.mapLoad_kept (s : State) (clean powerLoss : Bool) (replayed recoveryMs : Nat) : Kept s (State.mapLoad s clean powerLoss replayed recoveryMs) := by
  unfold State.mapLoad
  repeat' first
    | assumption
    | with_reducible exact Kept.refl _
    | with_reducible apply Kept.onDev
    | with_reducible refine Kept.trans ?_ (State.loseStaging_kept ..)
    | split
    | intro x
    | lift_lets

theorem State.openService_kept (s : State) : Kept s (State.openService s) := by
  unfold State.openService
  repeat' first
    | assumption
    | with_reducible exact Kept.refl _
    | with_reducible apply Kept.onDev
    | (with_reducible refine Kept.foldl ?_ ?_)
    | with_reducible refine Kept.trans ?_ (State.homeRegionOp_kept (hh := State.homeExtra_kept) ..)
    | with_reducible refine Kept.trans ?_ (State.request_kept ..)
    | split
    | intro x
    | lift_lets

theorem State.writeRegister_kept (s : State) (r : RegRow) (i p lo n v : Nat) : Kept s (State.writeRegister s r i p lo n v) := by
  unfold State.writeRegister
  repeat' first
    | assumption
    | with_reducible exact Kept.refl _
    | with_reducible apply Kept.onDev
    | with_reducible refine Kept.trans ?_ (State.resetPatron_kept ..)
    | split

theorem State.storeBytes_kept (s : State) (a n v : Nat) : Kept s (State.storeBytes s a n v) := by
  unfold State.storeBytes
  repeat' first
    | assumption
    | with_reducible exact Kept.refl _
    | with_reducible apply Kept.onDev
    | with_reducible refine Kept.trans ?_ (State.writeRegister_kept ..)
    | split
    | intro x
    | lift_lets

theorem State.storeAt_kept (s : State) (a n v : Nat) : Kept s (State.storeAt s a n v) := by
  unfold State.storeAt
  repeat' first
    | assumption
    | with_reducible exact Kept.refl _
    | with_reducible refine Kept.trans ?_ (State.storeBytes_kept ..)
    | split

theorem State.answers_kept (s : State) (q : Req) (r : Dev × Ans) : Kept s (State.answers s q r).1 := by
  unfold State.answers
  repeat' first
    | assumption
    | with_reducible exact Kept.refl _
    | fail_if_no_progress with_reducible apply Kept.withDev

theorem State.answersFw_kept (s : State) (q : Req) (r : Dev × Ans) : Kept s (State.answersFw s q r).1 := by
  unfold State.answersFw
  repeat' first
    | assumption
    | with_reducible exact Kept.refl _
    | fail_if_no_progress with_reducible apply Kept.withDev

theorem State.mayWait_kept (s : State) (q : Req) (r : EdRes) : Kept s (State.mayWait s q r).1 := by
  unfold State.mayWait
  repeat' first
    | assumption
    | with_reducible exact Kept.refl _
    | with_reducible refine Kept.trans ?_ (State.answers_kept ..)
    | split
    | fail_if_no_progress with_reducible apply Kept.withDev

theorem State.runEdit_kept (s : State) (f : Dev → Req → EdRes) (q : Req) : Kept s (State.runEdit s f q).1 := by
  unfold State.runEdit
  repeat' first
    | assumption
    | with_reducible exact Kept.refl _
    | with_reducible refine Kept.trans ?_ (State.mayWait_kept ..)

theorem State.readEnds_kept (r : State × Req × Option Ans) : Kept r.1 (State.readEnds r).1 := by
  unfold State.readEnds
  split
  · exact State.answers_kept ..
  · exact Kept.refl _

theorem State.runAttend_kept (s : State) (q : Req) : Kept s (s.runAttend q).1 :=
  (Kept.withDev (Kept.refl s)).trans (State.readEnds_kept _)

theorem State.runDeliver_kept (s : State) (q : Req) : Kept s (s.runDeliver q).1 :=
  (State.opDeliver_kept s q).trans (State.readEnds_kept _)

theorem State.runDiscard_kept (s : State) (q : Req) : Kept s (State.runDiscard s q).1 := by
  unfold State.runDiscard
  split
  · exact (State.opStacksDiscard_kept s q).trans (State.answersFw_kept ..)
  · exact State.opRegion_kept s _ q _ State.homeExtra_kept

theorem State.runPowerSet_kept (s : State) (q : Req) : Kept s (State.runPowerSet s q).1 := by
  unfold State.runPowerSet
  repeat' first
    | assumption
    | with_reducible exact Kept.refl _
    | with_reducible refine Kept.trans ?_ (State.answers_kept ..)
    | with_reducible refine Kept.trans ?_ (State.answersFw_kept ..)
    | split

theorem State.runAudit_kept (s : State) (q : Req) : Kept s (State.runAudit s q).1 := by
  unfold State.runAudit
  repeat' first
    | assumption
    | with_reducible exact Kept.refl _
    | with_reducible refine Kept.trans ?_ (State.answers_kept ..)
    | split
    | intro x
    | lift_lets
    | fail_if_no_progress with_reducible apply Kept.withDev

theorem State.byItself_kept (s : State) : Kept s s.byItself.1 := Kept.refl s

theorem State.runPublish_kept (s : State) (q : Req) : Kept s (s.runPublish q).1 := by
  unfold State.runPublish
  split
  · exact Kept.refl s
  · exact State.opRegion_kept s _ q _ State.homeHint_kept

theorem State.runOp_kept (s : State) (q : Req) : Kept s (s.runOp q).1 := by
  unfold State.runOp
  split
  · exact State.answers_kept ..
  · exact State.runAttend_kept ..
  · exact State.mayWait_kept ..
  · exact State.runEdit_kept ..
  · exact State.runEdit_kept ..
  · exact State.runEdit_kept ..
  · exact State.runEdit_kept ..
  · exact State.runEdit_kept ..
  · exact State.mayWait_kept ..
  · exact State.mayWait_kept ..
  · exact State.mayWait_kept ..
  · exact State.opHint_kept s q
  · exact State.answers_kept ..
  · exact State.runDeliver_kept ..
  · exact State.opNear_kept s q
  · exact State.opNear_kept s q
  · exact State.opNear_kept s q
  · exact State.opNear_kept s q
  · exact State.runPublish_kept ..
  · exact State.opRegion_kept s _ q _ State.homeHint_kept
  · exact State.answers_kept ..
  · exact State.runAudit_kept ..
  · exact State.answersFw_kept ..
  · exact State.answers_kept ..
  · exact State.answers_kept ..
  · exact State.opPatronReset_kept s q
  · exact State.answers_kept ..
  · exact State.answersFw_kept ..
  · exact State.runDiscard_kept ..
  · exact State.answersFw_kept ..
  · exact State.opRegion_kept s _ q _ State.homeHint_kept
  · exact State.opRegion_kept s _ q _ State.homeHint_kept
  · exact State.opRegion_kept s _ q _ State.homeHint_kept
  · exact State.answers_kept ..
  · exact State.answers_kept ..
  · exact State.answersFw_kept ..
  · exact State.answers_kept ..
  · exact State.runPowerSet_kept ..
  · exact State.answers_kept ..

theorem State.runNow_kept (s : State) (q : Req) : Kept s (s.runNow q) := by
  unfold State.runNow
  split
  · exact (Kept.refl s).onDev
  · lift_lets
    intro go
    have hg : ∀ t q, Kept t (go t q) := by
      intro t q
      simp only [go]
      split <;> rename_i h
      · exact Kept.fst h (State.runOp_kept t _)
      · exact (Kept.fst h (State.runOp_kept t _)).onDev
    split
    · split
      · split
        · exact Kept.withDev (Kept.refl s)
        · exact (Kept.withDev (Kept.refl s)).trans (hg _ _)
      · exact Kept.withDev (Kept.refl s)
      · exact Kept.withDev (Kept.refl s)
    · split
      · generalize (if q.op = 0x01 then s.dev.attendPlan q else s.dev.deliverPlan q) = r
        rcases r with ⟨d, q', _ | a⟩
        · dsimp only
          split
          · exact Kept.withDev (Kept.refl s)
          · exact (Kept.withDev (Kept.refl s)).trans (hg _ _)
        · exact Kept.withDev (Kept.refl s)
      · exact hg s q

theorem State.descriptor_kept (s : State) (op : Nat) (x : DescIn) : Kept s (State.descriptor s op x) := by
  unfold State.descriptor
  repeat' first
    | assumption
    | with_reducible exact Kept.refl _
    | with_reducible refine Kept.trans ?_ (State.runNow_kept ..)
    | split
    | intro x
    | lift_lets
    | fail_if_no_progress with_reducible apply Kept.withDev

theorem State.tickEdge_kept (s : State) (e : EdgeIn) : Kept s (s.tickEdge e) := by
  unfold State.tickEdge
  lift_lets
  intros
  split
  · exact Kept.refl s
  · split
    · exact Kept.withDev (Kept.refl s)
    · exact ((Kept.withDev (Kept.refl s)).trans (State.rebuildStep_kept _)).trans (State.openService_kept _)

theorem State.runPlanned_kept (x : ExecIn) (s : State) (q : Req) : Kept s (State.runPlanned x s q) := by
  unfold State.runPlanned
  repeat' first
    | assumption
    | with_reducible exact Kept.refl _
    | with_reducible apply Kept.onDev
    | with_reducible refine Kept.trans ?_ (State.runOp_kept ..)
    | with_reducible refine Kept.fst (by assumption) ?_
    | split
    | (intro x; first | (have hx : State := x; clear hx; subst x) | skip)
    | lift_lets

theorem State.executePhase_kept (s : State) (x : ExecIn) : Kept s (State.executePhase s x) := by
  unfold State.executePhase
  repeat' first
    | assumption
    | with_reducible exact Kept.refl _
    | with_reducible apply Kept.onDev
    | (with_reducible refine Kept.foldl ?_ ?_)
    | with_reducible refine Kept.trans ?_ (State.runPlanned_kept ..)
    | intro x

theorem dropSectors_wf (base : Nat) (l : List (Nat × FSector)) :
    ∀ m, Memory.wf m = true → Memory.wf (dropSectors base l m) = true := by
  induction l with
  | nil => intro m h; exact h
  | cons x l ih => intro m h; exact ih _ (memDrop_wf _ _ _ h)

theorem State.readPrior_kept (s : State) (k : Nat) : Kept s (s.readPrior k) := by
  unfold State.readPrior
  refine Kept.foldl (Kept.refl s) fun t e => ?_
  lift_lets
  intro at_
  split
  refine Kept.withMem (Kept.refl t) fun w => ?_
  split
  · exact memWrite_wf _ _ _ (memDrop_wf _ _ _ w)
  · exact memDrop_wf _ _ _ w

theorem State.fillUnit_kept (s : State) (k : Nat) (u : RUnit) (d : Dev) : Kept s (s.fillUnit k u d) :=
  (Kept.withMem (Kept.refl s) (dropSectors_wf _ _ _)).trans (State.readPrior_kept ..)

theorem State.landUnit_kept (s : State) (k : Nat) : Kept s (s.landUnit k) := by
  unfold State.landUnit
  lift_lets
  intro x
  split
  · split
    · exact Kept.refl s
    · split
      · exact (Kept.refl s).onDev
      · split
        · exact Kept.refl s
        · exact Kept.withDev (Kept.refl s)
        · exact State.fillUnit_kept ..
  · exact Kept.refl s

theorem State.landUnits_kept (s : State) : Kept s (State.landUnits s) := by
  unfold State.landUnits
  repeat' first
    | assumption
    | with_reducible exact Kept.refl _
    | with_reducible apply Kept.onDev
    | (with_reducible refine Kept.foldl ?_ ?_)
    | with_reducible refine Kept.trans ?_ (State.landUnit_kept ..)
    | intro x

theorem State.closePhase_kept (s : State) (x : CloseIn) : Kept s (s.closePhase x) := by
  unfold State.closePhase
  extract_lets s1 s2 s3
  have h1 : Kept s s1 := (State.landUnits_kept _).of_onDev
  have h3 : Kept s s3 := Kept.trans (Kept.onDev h1) (State.beginDeviceReset_kept s2)
  exact Kept.onDev h3

theorem State.payloadIn_kept (s : State) (port cls : Nat) (b : List Byte) : Kept s (State.payloadIn s port cls b) := by
  unfold State.payloadIn
  repeat' first
    | assumption
    | with_reducible exact Kept.refl _
    | with_reducible apply Kept.onDev
    | with_reducible refine Kept.trans ?_ (State.regionRequestIn_kept (hh := State.homeExtra_kept) ..)
    | with_reducible refine Kept.trans ?_ (State.regionDoneIn_kept ..)
    | with_reducible refine Kept.trans ?_ (State.doneIn_kept ..)
    | with_reducible refine Kept.trans ?_ (State.mapNoticeIn_kept ..)
    | split

end Sys2Proof.Machine
end

