-- ==== Sys2Proof/Laws/Run.lean ====
section
/-! SUPPORT. A descriptor row whose descriptor runs is its operation on the granted request: the lemmas that lead from the row
to the operation, and from the operation to its completion. -/

namespace Sys2Proof.Safety

open Sys2Proof.Machine

/-- The state in which a granted descriptor's operation runs. -/
def grantedState (s : State) (op : Nat) (x : DescIn) : State := { s with dev := (granted s op x).2 }

/-- What an operation leaves: a request that still waits joins the planner's set. -/
def settled (r : State × Option Req) : State :=
  match r with
  | (s, none) => s
  | (s, some q) => s.onDev fun d => d.addWaiting q

/-- The request as it runs: with the merge cluster that the planner names for it (R21). -/
def named (d : Dev) (q : Req) : Req := { q with merge := some (d.mergeCluster q) }

theorem descriptor_runNow {s : State} {op : Nat} {x : DescIn} (h : Grants s op x) :
    s.descriptor op x = ({ s with dev := (granted s op x).2.follow (granted s op x).1 } : State).runNow (granted s op x).1 := by
  obtain ⟨h1, h2, h3, h4, -⟩ := h
  unfold State.descriptor
  simp only [granted] at h3 h4
  simp only [h1, h2, h3, h4, Bool.not_true, Bool.false_eq_true, or_self, if_false]
  rfl

theorem follow_other {d : Dev} {q : Req} (h : q.op ≠ 0x01) : d.follow q = d := by
  unfold Dev.follow; rw [if_pos h]

/-- An operation that edits no sequence and begins no walk runs at once. -/
theorem descriptor_other {s : State} {op : Nat} {x : DescIn} (h : Grants s op x) (e : isEdit op = false)
    (w : op ≠ 0x01 ∧ op ≠ 0x22) :
    s.descriptor op x = settled ((grantedState s op x).runOp (named (granted s op x).2 (granted s op x).1)) := by
  rw [descriptor_runNow h, follow_other (q := (granted s op x).1) w.1]
  unfold State.runNow
  have h5 := h.first
  have e' : isEdit (granted s op x).1.op = false := e
  have w' : ¬(((granted s op x).1.op = 0x01 ∨ (granted s op x).1.op = 0x22) ∧ (granted s op x).1.walks.isEmpty = true) :=
    fun k => k.1.elim w.1 w.2
  simp only [h5, e', w', Bool.false_eq_true, if_false]
  rfl

/-- An operation that begins a walk runs at once when its plan does, in clusters in service. -/
theorem descriptor_walk {s : State} {op : Nat} {x : DescIn} (h : Grants s op x) (w : op = 0x01 ∨ op = 0x22) {d : Dev} {q : Req}
    (p : (if op = 0x01 then ((granted s op x).2.follow (granted s op x).1).attendPlan (granted s op x).1
        else (granted s op x).2.deliverPlan (granted s op x).1) = (d, q, none)) (f : d.fenced q = false)
    (g : behind ((granted s op x).2.follow (granted s op x).1).adm.held (granted s op x).1 = false) :
    s.descriptor op x = settled (({ s with dev := d } : State).runOp (named d q)) := by
  rw [descriptor_runNow h]
  unfold State.runNow
  have e' : isEdit (granted s op x).1.op = false := by rcases w with rfl | rfl <;> rfl
  have w' : ((granted s op x).1.op = 0x01 ∨ (granted s op x).1.op = 0x22) ∧ (granted s op x).1.walks.isEmpty = true := ⟨w, rfl⟩
  have p' : (if (granted s op x).1.op = 0x01 then ((granted s op x).2.follow (granted s op x).1).attendPlan (granted s op x).1
      else ((granted s op x).2.follow (granted s op x).1).deliverPlan (granted s op x).1) = (d, q, none) := by
    rcases w with rfl | rfl
    · exact p
    · rw [follow_other (q := (granted s 0x22 x).1) (show (0x22 : Nat) ≠ 0x01 by decide)]; exact p
  simp only [g, e', w', p', f, Bool.false_eq_true, if_false, if_true, and_self]
  rfl

/-- An edit runs at once when its plan finds it ready, in clusters in service. -/
theorem descriptor_edit {s : State} {op : Nat} {x : DescIn} {d : Dev} (h : Grants s op x) (e : isEdit op = true)
    (p : (granted s op x).2.planOne (granted s op x).2.adm.held (granted s op x).1 = .ready d) (f : d.fenced (granted s op x).1 = false) :
    s.descriptor op x = settled (({ s with dev := d } : State).runOp (named d (granted s op x).1)) := by
  have o : op ≠ 0x01 := by rintro rfl; exact absurd e (by decide)
  rw [descriptor_runNow h, follow_other (q := (granted s op x).1) o]
  unfold State.runNow
  have h5 := h.first
  have e' : isEdit (granted s op x).1.op = true := e
  simp only [h5, e', Bool.false_eq_true, if_false, if_true, p, f]
  rfl

theorem granted_req (s : State) (op : Nat) (x : DescIn) : (granted s op x).1.d = x ∧ (granted s op x).1.op = op
    ∧ (granted s op x).1.walks = [] := ⟨rfl, rfl, rfl⟩

/-! ### The operation of each opcode -/

theorem runOp_00 (s : State) (q : Req) (h : q.op = 0x00) : s.runOp q = s.answers q (s.dev, {}) := by
  unfold State.runOp; simp only [h]
theorem runOp_01 (s : State) (q : Req) (h : q.op = 0x01) : s.runOp q = s.runAttend q := by
  unfold State.runOp; simp only [h]
theorem runOp_02 (s : State) (q : Req) (h : q.op = 0x02) : s.runOp q = s.mayWait q (s.dev.opMerge q) := by
  unfold State.runOp; simp only [h]
theorem runOp_03 (s : State) (q : Req) (h : q.op = 0x03) : s.runOp q = s.runEdit Dev.opAppend q := by
  unfold State.runOp; simp only [h]
theorem runOp_04 (s : State) (q : Req) (h : q.op = 0x04) : s.runOp q = s.runEdit Dev.opAdopt q := by
  unfold State.runOp; simp only [h]
theorem runOp_05 (s : State) (q : Req) (h : q.op = 0x05) : s.runOp q = s.runEdit Dev.opFork q := by
  unfold State.runOp; simp only [h]
theorem runOp_06 (s : State) (q : Req) (h : q.op = 0x06) : s.runOp q = s.runEdit Dev.opTrim q := by
  unfold State.runOp; simp only [h]
theorem runOp_07 (s : State) (q : Req) (h : q.op = 0x07) : s.runOp q = s.runEdit Dev.opDrop q := by
  unfold State.runOp; simp only [h]
theorem runOp_10 (s : State) (q : Req) (h : q.op = 0x10) : s.runOp q = s.mayWait q (s.dev.opProbe q) := by
  unfold State.runOp; simp only [h]
theorem runOp_11 (s : State) (q : Req) (h : q.op = 0x11) : s.runOp q = s.mayWait q (s.dev.opAccession q) := by
  unfold State.runOp; simp only [h]
theorem runOp_12 (s : State) (q : Req) (h : q.op = 0x12) : s.runOp q = s.mayWait q (s.dev.opWithdraw q) := by
  unfold State.runOp; simp only [h]
theorem runOp_20 (s : State) (q : Req) (h : q.op = 0x20) : s.runOp q = (s.opHint q).byItself := by
  unfold State.runOp; simp only [h]
theorem runOp_21 (s : State) (q : Req) (h : q.op = 0x21) : s.runOp q = s.answers q (s.dev.opStream q) := by
  unfold State.runOp; simp only [h]
theorem runOp_22 (s : State) (q : Req) (h : q.op = 0x22) : s.runOp q = s.runDeliver q := by
  unfold State.runOp; simp only [h]
theorem runOp_30 (s : State) (q : Req) (h : q.op = 0x30) : s.runOp q = (s.opNear q).byItself := by
  unfold State.runOp; simp only [h]
theorem runOp_31 (s : State) (q : Req) (h : q.op = 0x31) : s.runOp q = (s.opNear q).byItself := by
  unfold State.runOp; simp only [h]
theorem runOp_32 (s : State) (q : Req) (h : q.op = 0x32) : s.runOp q = (s.opNear q).byItself := by
  unfold State.runOp; simp only [h]
theorem runOp_33 (s : State) (q : Req) (h : q.op = 0x33) : s.runOp q = (s.opNear q).byItself := by
  unfold State.runOp; simp only [h]
theorem runOp_34 (s : State) (q : Req) (h : q.op = 0x34) : s.runOp q = s.runPublish q := by
  unfold State.runOp; simp only [h]
theorem runOp_35 (s : State) (q : Req) (h : q.op = 0x35) : s.runOp q = (s.opRegion State.homeHint q q.d.object).byItself := by
  unfold State.runOp; simp only [h]
theorem runOp_40 (s : State) (q : Req) (h : q.op = 0x40) : s.runOp q = s.answers q (s.dev.opReadback q) := by
  unfold State.runOp; simp only [h]
theorem runOp_41 (s : State) (q : Req) (h : q.op = 0x41) : s.runOp q = s.runAudit q := by
  unfold State.runOp; simp only [h]
theorem runOp_50 (s : State) (q : Req) (h : q.op = 0x50) : s.runOp q = s.answersFw q (s.dev.opProfileRegister q) := by
  unfold State.runOp; simp only [h]
theorem runOp_51 (s : State) (q : Req) (h : q.op = 0x51) : s.runOp q = s.answers q (s.dev.opProfileRetire q) := by
  unfold State.runOp; simp only [h]
theorem runOp_80 (s : State) (q : Req) (h : q.op = 0x80) : s.runOp q = s.answers q (s.dev.opTickSet q) := by
  unfold State.runOp; simp only [h]
theorem runOp_81 (s : State) (q : Req) (h : q.op = 0x81) : s.runOp q = (s.opPatronReset q).byItself := by
  unfold State.runOp; simp only [h]
theorem runOp_82 (s : State) (q : Req) (h : q.op = 0x82) : s.runOp q = s.answers q (s.dev.opApertureMap q) := by
  unfold State.runOp; simp only [h]
theorem runOp_83 (s : State) (q : Req) (h : q.op = 0x83) : s.runOp q = s.answersFw q (s.dev.opVolumeFormat q) := by
  unfold State.runOp; simp only [h]
theorem runOp_84 (s : State) (q : Req) (h : q.op = 0x84) : s.runOp q = s.runDiscard q := by
  unfold State.runOp; simp only [h]
theorem runOp_85 (s : State) (q : Req) (h : q.op = 0x85) : s.runOp q = s.answersFw q (s.dev.opGovernorSet q) := by
  unfold State.runOp; simp only [h]
theorem runOp_86 (s : State) (q : Req) (h : q.op = 0x86) : s.runOp q = (s.opRegion State.homeHint q q.d.object).byItself := by
  unfold State.runOp; simp only [h]
theorem runOp_87 (s : State) (q : Req) (h : q.op = 0x87) : s.runOp q = (s.opRegion State.homeHint q q.d.object).byItself := by
  unfold State.runOp; simp only [h]
theorem runOp_88 (s : State) (q : Req) (h : q.op = 0x88) : s.runOp q = (s.opRegion State.homeHint q q.d.object).byItself := by
  unfold State.runOp; simp only [h]
theorem runOp_89 (s : State) (q : Req) (h : q.op = 0x89) : s.runOp q = s.answers q (s.dev.opShaperSet q) := by
  unfold State.runOp; simp only [h]
theorem runOp_8A (s : State) (q : Req) (h : q.op = 0x8A) : s.runOp q = s.answers q (s.dev.opGateSet q) := by
  unfold State.runOp; simp only [h]
theorem runOp_8B (s : State) (q : Req) (h : q.op = 0x8B) : s.runOp q = s.answersFw q (s.dev.opFwUpdate q) := by
  unfold State.runOp; simp only [h]
theorem runOp_8C (s : State) (q : Req) (h : q.op = 0x8C) : s.runOp q = s.answers q (s.dev.opDeviceReset q) := by
  unfold State.runOp; simp only [h]
theorem runOp_8D (s : State) (q : Req) (h : q.op = 0x8D) : s.runOp q = s.runPowerSet q := by
  unfold State.runOp; simp only [h]

/-! ### Completions -/

theorem countStatus_adm (d : Dev) (p st : Nat) : (d.countStatus p st).adm = d.adm := by
  unfold Dev.countStatus
  repeat' split
  all_goals rfl

theorem count2_adm (d : Dev) (c : Ctr) (i j n : Nat) : (d.count2 c i j n).adm = d.adm := by unfold Dev.count2; split <;> rfl
theorem count_adm (d : Dev) (c : Ctr) (i n : Nat) : (d.count c i n).adm = d.adm := count2_adm ..
theorem count2_tim (d : Dev) (c : Ctr) (i j n : Nat) : (d.count2 c i j n).tim = d.tim := by unfold Dev.count2; split <;> rfl
theorem count_tim (d : Dev) (c : Ctr) (i n : Nat) : (d.count c i n).tim = d.tim := count2_tim ..

theorem countOp_adm (d : Dev) (p op st : Nat) : (d.countOp p op st).adm = d.adm := by
  unfold Dev.countOp
  dsimp only
  repeat' split
  all_goals simp only [count_adm, countStatus_adm]

theorem countOp_tim (d : Dev) (p op st : Nat) : (d.countOp p op st).tim = d.tim := by
  have k : ∀ d : Dev, (d.countStatus p st).tim = d.tim := by
    intro d
    unfold Dev.countStatus
    repeat' split
    all_goals simp only [count_tim]
  unfold Dev.countOp
  dsimp only
  repeat' split
  all_goals simp only [count_tim, k]

theorem complete_due (d : Dev) (q : Req) (a : Ans) :
    ∃ ps, (d.complete q a).adm.due = d.adm.due ++ [{ q.due a d.tim.count with peers := ps }] := by
  unfold Dev.complete Dev.peersDone Dev.dueOf; simp only [countOp_adm, countOp_tim]; exact ⟨_, rfl⟩
theorem complete_tim (d : Dev) (q : Req) (a : Ans) : (d.complete q a).tim = d.tim := by unfold Dev.complete Dev.peersDone; simp only [countOp_tim]
theorem completeFw_fw (d : Dev) (q : Req) (a : Ans) :
    ∃ ps, (d.completeFw q a).adm.fw = d.adm.fw ++ [{ q.due a d.tim.count with peers := ps }] := by
  unfold Dev.completeFw Dev.peersDone Dev.dueOf; simp only [countOp_adm, countOp_tim]; exact ⟨_, rfl⟩
theorem completeFw_tim (d : Dev) (q : Req) (a : Ans) : (d.completeFw q a).tim = d.tim := by unfold Dev.completeFw Dev.peersDone; simp only [countOp_tim]

theorem finish_due (d : Dev) (q : Req) (a : Ans) :
    ∃ ps, (d.finish q a).adm.due = d.adm.due ++ [{ q.due a d.tim.count with peers := ps }] := by
  unfold Dev.finish; dsimp only; split <;> exact complete_due ..
theorem finish_tim (d : Dev) (q : Req) (a : Ans) : (d.finish q a).tim = d.tim := by
  unfold Dev.finish; dsimp only; split <;> simp only [complete_tim]

theorem answers_answered (s : State) (q : Req) (r : Dev × Ans) : Answered q r.2 (settled (s.answers q r)) := by
  obtain ⟨ps, h⟩ := finish_due r.1 q r.2
  exact ⟨ps, by simp [settled, State.answers, h, finish_tim]⟩
theorem answersFw_answered (s : State) (q : Req) (r : Dev × Ans) : AnsweredFw q r.2 (settled (s.answersFw q r)) := by
  obtain ⟨ps, h⟩ := completeFw_fw r.1 q r.2
  exact ⟨ps, by simp [settled, State.answersFw, h, completeFw_tim]⟩

/-! ### Frames from the row to the completion -/

theorem granted_tim (s : State) (op : Nat) (x : DescIn) : (granted s op x).2.tim = s.dev.tim := by
  simp only [granted, Dev.takeReq, count_tim]; rfl

theorem answers_changes {s : State} {op : Nat} {x : DescIn} {r : Dev × Ans} {ps : List Part} (h : Frame ps (granted s op x).2 r.1)
    (a : .adm ∈ ps) (b : .rings ∈ ps) (c : .ctrs ∈ ps) (q : Req) : Changes ps s (settled ((grantedState s op x).answers q r)) := by
  refine ⟨rfl, rfl, ?_⟩
  have h0 : Frame ps s.dev (granted s op x).2 := Frame.mono (granted_frame s op x) (by simp; exact ⟨a, b, c⟩)
  exact (h0.trans h).trans (Frame.mono (finish_frame _ _ _) (by simp; exact ⟨a, c⟩))

theorem answersFw_changes {s : State} {op : Nat} {x : DescIn} {r : Dev × Ans} {ps : List Part} (h : Frame ps (granted s op x).2 r.1)
    (a : .adm ∈ ps) (b : .rings ∈ ps) (c : .ctrs ∈ ps) (q : Req) : Changes ps s (settled ((grantedState s op x).answersFw q r)) := by
  refine ⟨rfl, rfl, ?_⟩
  have h0 : Frame ps s.dev (granted s op x).2 := Frame.mono (granted_frame s op x) (by simp; exact ⟨a, b, c⟩)
  exact (h0.trans h).trans (Frame.mono (completeFw_frame _ _ _) (by simp; exact ⟨a, c⟩))

/-! ### What taking the request leaves -/

section
variable (s : State) (op : Nat) (x : DescIn)
theorem granted_regs : (granted s op x).2.regs = s.dev.regs := (granted_frame s op x).same .regs (by decide)
theorem granted_pendRegs : (granted s op x).2.pendRegs = s.dev.pendRegs := ((granted_frame s op x).same .port (by decide)).1
theorem granted_audit : (granted s op x).2.audit = s.dev.audit := ((granted_frame s op x).same .port (by decide)).2.2.2.2.1
theorem granted_out : (granted s op x).2.out = s.dev.out := (granted_frame s op x).same .out (by decide)
theorem granted_free : (granted s op x).2.free = s.dev.free := (granted_frame s op x).same .free (by decide)
theorem granted_seqs : (granted s op x).2.seqs = s.dev.seqs := (granted_frame s op x).same .seqs (by decide)
theorem granted_cat : (granted s op x).2.cat = s.dev.cat := (granted_frame s op x).same .cat (by decide)
theorem granted_tier : (granted s op x).2.tier = s.dev.tier := (granted_frame s op x).same .tier (by decide)
theorem granted_stk : (granted s op x).2.stk = s.dev.stk := (granted_frame s op x).same .stk (by decide)
theorem granted_fab : (granted s op x).2.fab = s.dev.fab := (granted_frame s op x).same .fab (by decide)
theorem granted_rgn : (granted s op x).2.rgn = s.dev.rgn := (granted_frame s op x).same .rgn (by decide)
theorem granted_sec : (granted s op x).2.sec = s.dev.sec := (granted_frame s op x).same .sec (by decide)
theorem granted_boot : (granted s op x).2.boot = s.dev.boot := (granted_frame s op x).same .boot (by decide)
theorem granted_pwr : (granted s op x).2.pwr = s.dev.pwr := (granted_frame s op x).same .pwr (by decide)
theorem granted_flt : (granted s op x).2.flt = s.dev.flt := by
  simp only [granted, Dev.takeReq, count_flt]; rfl
theorem granted_reg (r : RegRow) (i p f : Nat) : (granted s op x).2.reg r i p f = s.dev.reg r i p f := by
  simp only [Dev.reg, Dev.regWord, granted_regs]
theorem granted_st (p : Nat) : ((granted s op x).2.pat p).st = (s.dev.pat p).st := by
  have h := ((granted_frame s op x).same .host (by decide)).2 p
  simp only [PatronSt.mk.injEq] at h; exact h.1
theorem granted_numVf : (granted s op x).2.host.numVf = s.dev.host.numVf := by
  have h := ((granted_frame s op x).same .host (by decide)).1
  simp only [HostSt.mk.injEq] at h; tauto
theorem granted_deficit : (granted s op x).2.adm.deficit = s.dev.adm.deficit := by
  simp only [granted, Dev.takeReq, count_adm]; rfl
theorem granted_due : (granted s op x).2.adm.due = s.dev.adm.due := by
  simp only [granted, Dev.takeReq, count_adm]; rfl
theorem granted_gates : (granted s op x).2.adm.gates = s.dev.adm.gates := by
  simp only [granted, Dev.takeReq, count_adm]; rfl
end

end Sys2Proof.Safety
end

