-- ==== Sys2Proof/WellFormed.lean ====
section
/-! DEFINITION. Well-formed commands: every operand within the field that carries it (R72, R80, R85, R337, R350). -/

namespace Sys2Proof

/-- A descriptor's header and body fit their fields (R72, R80, R85). -/
def DescIn.wf (d : DescIn) : Bool :=
  decide (d.patron < 64) && decide (d.ring < 16) && decide (d.entries < 4) && decide (d.tclass < 8)
    && decide (d.tag < 2 ^ 16) && decide (d.object < 2 ^ 32) && decide (d.deadline < 2 ^ 64)
    && decide (d.body.length = 48 + 64 * d.entries)

/-- A message's header fits its slot (R350), and the port exists (R337). -/
def Msg.wf (port : Nat) (m : Msg) : Bool :=
  decide (port < 18) && decide (m.vc < 8) && decide (m.tag < 2 ^ 16) && decide (m.source < 2 ^ 16)
    && decide (m.addr < 2 ^ 56) && decide (m.arg < 256) && decide (m.load < 256) && decide (m.backoff < 256)
    && decide (m.slots.length % 16 = 0)

/-- A doorbell write fits the doorbell page (R82). -/
def wfDoorbell (p off width value : Nat) : Bool :=
  decide (p < 64) && decide (off < 4096) && decide (width ≤ 64) && decide (value < 2 ^ 64)

/-- The command's operands fit the fields and buses that carry them. -/
def Instr.wellFormed : Instr → Bool
  | .nop d | .attend d | .merge d | .append d | .adopt d | .fork d | .trim d | .drop d | .probe d | .accession d
  | .withdraw d | .hint d | .stream d | .deliver d | .fill d | .copy d | .compare d | .reduce d | .publish d
  | .revoke d | .readback d | .audit d | .profileRegister d | .profileRetire d | .tickSet d | .patronReset d
  | .apertureMap d | .volumeFormat d | .stacksDiscard d | .governorSet d | .regionCreate d | .regionGrant d
  | .regionDestroy d | .shaperSet d | .gateSet d | .fwUpdate d | .deviceReset d | .powerSet d | .archiveSleep d => d.wf
  | .sqTailDoorbell p o w v => wfDoorbell p o w v && decide (o < 0x40)
  | .cqHeadDoorbell p o w v => wfDoorbell p o w v && decide (0x40 ≤ o) && decide (o < 0x80)
  | .eqHeadDoorbell p o w v => wfDoorbell p o w v && decide (0x80 ≤ o)
  | .patLock p _ | .patKeepReset p _ | .functionLevelReset p | .busMasterClear p | .patronResetDone p
  | .pcieConfigRequest p _ => decide (p < 64)
  | .descriptorFetch p r _ _ => decide (p < 64) && decide (r < 16)
  | .registerWrite p o _ _ | .readbackWindowLoad p o _ => decide (p < 64) && decide (o < 2 ^ 24)
  | .msixVectorUnmask p v => decide (p < 64) && decide (v < 32)
  | .vfEnableSet n => decide (n ≤ 63)
  | .streamSlotWrite p i => decide (p < 64) && decide (i < 16)
  | .load p m | .readBlock p m | .store p m | .storePartial p m | .writeBlock p m | .atomic p m | .ack p m
  | .invalidate p m | .invAck p m | .data p m | .done p m | .result p m | .message p m | .messageAck p m _
  | .keepalive p m | .time p m _ | .ident p m | .configRead p m | .configWrite p m | .regionRequest p m
  | .regionDone p m | .mapNotice p m | .mirrorWrite p m | .mirrorBlock p m => m.wf p
  | .laneLock p _ | .trainingTimeout p | .portRetryTimer p | .flitReceive p _ | .nakReceive p _
  | .linkIdleTimeout p => decide (p < 18)
  | .clusterFault c _ | .clusterSelfTestDone c _ _ => decide (c < 16)
  | .headAnnounce b | .ready b | .servingReport b => decide (b.length = 32)
  | _ => true

end Sys2Proof
end

