-- ==== Sys2Proof/Tests/Slice0.lean ====
section
/-! SUPPORT. Tests of the model's own, on fixed values: what the checks of instructions refuse, and for each statement with
hypotheses a state and operands that meet them together. -/

namespace Sys2Proof.Tests

open Sys2Proof Sys2Proof.Machine Sys2Proof.Safety

-- one kernel evaluation at a time: side by side they would take more memory than the check allows
set_option Elab.async false

/-- The set-up registers of patron 0's first rings: 16 entries each. -/
def wRegs : Tab Nat := [(regPatSqnCtrl.addr 0 0, 4), (regPatCqnCtrl.addr 0 0, 4), (regPatEqCtrl.addr 0 0, 4)]

/-- A serving device in a tick, patron 0 ACTIVE with a submission, a completion and an event ring. -/
def wDev : Dev :=
  { regs := wRegs, host := { linkUp := true, flit := true, patrons := [(0, { st := .active, lock := true, sq := [(0, { tail := 4 })] })] }
    tim := { ticking := true, count := 100, now := 2000000 }, boot := { st := .serving, steps := List.range 12 } }

/-- That device with nothing waiting and no memory listed. -/
def wState : State := { pending := [], mem := [], dev := wDev }

/-- The state with another device. -/
def wWith (f : Dev → Dev) : State := { wState with dev := f wDev }

/-- The simplest descriptor of patron 0. -/
def wDesc : DescIn := { patron := 0, body := List.replicate 48 0 }

theorem test_reset_idles : (step State.reset matches .next _) = true := by decide

/-- A message whose header fits and whose body is whole slots. -/
def wSlots : Msg := { vc := 0, source := 1, addr := 64, slots := List.replicate 16 0 }

/-- One command that each check accepts. -/
theorem test_wellformed_accepts : ([.nop wDesc, .sqTailDoorbell 0 0x3C 32 1, .cqHeadDoorbell 0 0x40 32 1, .eqHeadDoorbell 0 0x80 32 1, .patLock 63 1,
    .descriptorFetch 0 15 none {}, .registerWrite 0 0xFFFFF8 32 0, .msixVectorUnmask 0 31, .vfEnableSet 63, .streamSlotWrite 0 15, .load 17 wSlots,
    .laneLock 17 0, .clusterFault 15 0, .ready (List.replicate 32 0), .tickEdge {}] : List Instr).all Instr.wellFormed = true := by decide

/-- Each check refuses a term with its one operand out of range: the descriptor's header and body, the message's header and body,
the doorbell's page and offset, the patron, ring, vector, function, slot, port, cluster and payload. -/
theorem test_wellformed_refuses : ([.nop { wDesc with patron := 64 }, .attend { wDesc with ring := 16 }, .merge { wDesc with entries := 4 },
    .fill { wDesc with tclass := 8 }, .append { wDesc with tag := 2 ^ 16 }, .drop { wDesc with object := 2 ^ 32 },
    .compare { wDesc with deadline := 2 ^ 64 }, .audit { wDesc with body := [] }, .load 18 wSlots, .store 0 { wSlots with vc := 8 },
    .ack 0 { wSlots with tag := 2 ^ 16 }, .done 0 { wSlots with source := 2 ^ 16 }, .data 0 { wSlots with addr := 2 ^ 56 },
    .atomic 0 { wSlots with arg := 256 }, .result 0 { wSlots with load := 256 }, .message 0 { wSlots with backoff := 256 },
    .ident 0 { wSlots with slots := [0] }, .sqTailDoorbell 64 0 32 0, .sqTailDoorbell 0 0x40 32 0, .cqHeadDoorbell 0 0x80 32 0,
    .eqHeadDoorbell 0 0x7C 32 0, .eqHeadDoorbell 0 4096 32 0, .sqTailDoorbell 0 0 65 0, .sqTailDoorbell 0 0 32 (2 ^ 64), .patLock 64 1,
    .descriptorFetch 0 16 none {}, .registerWrite 0 (2 ^ 24) 32 0, .msixVectorUnmask 0 32, .vfEnableSet 64, .streamSlotWrite 0 16,
    .laneLock 18 0, .clusterFault 16 0, .ready []] : List Instr).any Instr.wellFormed = false := by decide

/-- A ring entry that holds a NOP. -/
def wNopRaw : List Byte := List.replicate 64 0

/-- A NOP as a request. -/
def wReq : Req := { id := 7, d := wDesc, op := 0 }

/-- A state with that request as the head of ring 0 and patron 0's turn in progress. -/
def wTurn : State := wWith fun d => { d with adm := { d.adm with heads := [(0, wReq)], turn := true, deficit := [(0, 5)] } }

theorem wit_DescriptorFetchRows_1 : wState.dev.ringRuns 0 0 = true ∧ tget wState.dev.adm.heads 0 = none
    ∧ wState.dev.cqRoom 0 (wState.dev.boundCq 0 0) = true
    ∧ (descOf 0 0 wNopRaw {}).entries < ringSpan (wState.dev.sqDepth 0 0) ((wState.dev.pat 0).sqAt 0).head ((wState.dev.pat 0).sqAt 0).tail
    ∧ (descOf 0 0 wNopRaw {}).fence = false ∧ ((wState.dev.pat 0).sqAt 0).marks = []
    ∧ (fetched wState 0 0 wNopRaw {}).2.fetchCheck (fieldOf wNopRaw 0 1) (descOf 0 0 wNopRaw {}) = none := by decide +kernel

theorem wit_DescriptorFetchRows_2 : ringSpan (wState.dev.sqDepth 0 0) ((wState.dev.pat 0).sqAt 0).head ((wState.dev.pat 0).sqAt 0).tail ≠ 0 := by
  decide +kernel

theorem wit_AdmissionGrantRow_1 : wTurn.dev.admits = true ∧ wTurn.dev.adm.turn = true ∧ 0 = tgetD wTurn.dev.tim.arbs 0 0 / 16
    ∧ wTurn.dev.candidate 0 = some (0, wReq) ∧ wTurn.dev.expired wReq = false ∧ isCharged wReq.op = false
    ∧ 1 ≤ tgetD wTurn.dev.adm.deficit 0 0 ∧ wTurn.dev.adm.charge ≤ wTurn.dev.budget := by decide +kernel

/-- The same turn with a MERGE whose deadline tick is over. -/
def wLate : State :=
  wWith fun d => { d with adm := { d.adm with heads := [(0, { wReq with op := 2, d := { wDesc with deadline := 3 } })], turn := true } }

theorem wit_AdmissionGrantRow_2 : wLate.dev.admits = true ∧ 0 = tgetD wLate.dev.tim.arbs 0 0 / 16
    ∧ wLate.dev.candidate 0 = some (0, { wReq with op := 2, d := { wDesc with deadline := 3 } })
    ∧ wLate.dev.expired { wReq with op := 2, d := { wDesc with deadline := 3 } } = true := by decide +kernel

theorem wit_TickEdgeRow_1 : wState.dev.edgesRun = true ∧ wState.dev.halted = false ∧ wState.dev.tim.ticking = true
    ∧ wState.dev.tim.adopt = none := by decide +kernel

theorem wit_TickEdgeRow_2 : (wWith fun d => { d with flt := { d.flt with deviceFault := true } }).dev.halted = true
    ∧ (wWith fun d => { d with flt := { d.flt with deviceFault := true } }).dev.edgesRun = true := by decide +kernel

theorem wit_TickEdgeRow_3 : State.reset.dev.edgesRun = false := by decide +kernel

/-- A tick in a phase. -/
def wPhase (p : Phase) (a : AdmSt) : State := wWith fun d => { d with tim := { d.tim with phase := p }, adm := a }

theorem wit_PlanAndExecutePhases_1 : (wPhase .admission { sealed_ := [wReq] }).dev.inPhase .admission = true
    ∧ wReq ∈ (wPhase .admission { sealed_ := [wReq] }).dev.adm.sealed_.take 1 ∧ isEdit wReq.op = false ∧ wReq.op ≠ 0x01 ∧ wReq.op ≠ 0x22 := by
  decide +kernel

theorem wit_PlanAndExecutePhases_2 : wState.dev.inPhase .admission = false ∧ wState.dev.inPhase .plan = false := by decide +kernel

theorem wit_PlanAndExecutePhases_3 : (wPhase .plan { planned := [wReq] }).dev.inPhase .plan = true
    ∧ (wPhase .plan { planned := [wReq] }).dev.mayRun wReq = true ∧ wReq.op = 0 ∧ wReq.lateEdge = false := by decide +kernel

/-- A completion that is due. -/
def wDue : Due := wReq.due {} 100

theorem wit_CompletionRows_1 : (wPhase .execute { due := [wDue] }).dev.inPhase .execute = true ∧ wDue.tick ≤ 100
    ∧ (wPhase .execute { due := [wDue] }).dev.ringsOn wDue.patron = true
    ∧ (wPhase .execute { due := [wDue] }).dev.boot.resetDue = false ∧ (wPhase .execute { due := [wDue] }).dev.sec.activate = false := by
  decide +kernel

theorem wit_CompletionRows_2 : wState.dev.inPhase .execute = false ∧ wState.dev.sec.restarting = false := by decide +kernel

theorem wit_CompletionRows_3 : wState.dev.powered = true ∧ wState.dev.halted = false
    ∧ wState.dev.overdue { wReq with op := 2, dl := 100 } = true ∧ wState.dev.overdue { wReq with op := 2, dl := 101 } = false := by decide +kernel

theorem wit_CompletionRows_4 : (wWith fun d => { d with sec := { d.sec with restarting := true } }).dev.sec.restarting = true := by decide

/-- A profile of two layers, one head of 64 channels. -/
def wProf : Profile :=
  { body := leBytes 8 7 ++ leBytes 2 2 ++ leBytes 2 1 ++ [1, 0] ++ leBytes 2 64 ++ List.replicate 12 0 ++ leBytes 4 1 ++ leBytes 4 256
      ++ List.replicate 12 0 }

/-- A closed folio of it. -/
def wClosed : Closed := { heads := [{}] }

/-- The test device with profile 1 and span 5. -/
def wSpan (x : Span) (f : Dev → Dev := id) : State :=
  wWith fun d => f { d with seqs := { d.seqs with profiles := [(1, wProf)], spans := [(5, { x with profile := 1 })] } }

/-- Span 5 CLOSED with a copy on the stacks and nothing resident. -/
def wCold : State :=
  wSpan { st := 3, onStacks := true, frames := [{}, {}], fill := 256, ref := 1 } fun d =>
    { d with stk := { copies := [(5, { volume := 0, firstUnit := 0, count := 2, folios := [(0, wClosed), (1, wClosed)] })] } }

/-- The same, its promotion under way with the frame of layer 0 obtained. -/
def wLanding : State :=
  wSpan { st := 3, onStacks := true, moveLock := true, frames := [{ primary := 65536 }, {}], fill := 256, ref := 1 } fun d =>
    { d with stk := { copies := [(5, { volume := 0, firstUnit := 0, count := 2, folios := [(0, wClosed), (1, wClosed)] })] }
             tier := { promos := [(5, { upTo := 0, patron := 0, kind := 0 })] } }

/-- Span 5 resident, CLOSED, with a demotion of some bytes left. -/
def wDemoting (target left : Nat) : State :=
  wSpan { st := 3, streamed := true, resLayers := 2, frames := [{ primary := 65536 }, { primary := 131072 }], closed := [(0, wClosed), (1, wClosed)]
          fill := 256, ref := 1 } fun d =>
    { d with tier := { demos := if left = 0 then [] else [(5, { left := left, target := target, units := left / 65536 })] }
             stk := { discovered := true, channels := 32, dies := 4, planes := 2, rawGiB := 4096, volumes := [(0, { capacity := 100, balance := 10 ^ 9 })] }
             tim := { d.tim with len := 500 } }

theorem wit_SpanRows_promotion : wCold.dev.span? 5 = some { st := 3, onStacks := true, frames := [{}, {}], fill := 256, ref := 1, profile := 1 }
    ∧ 0 < (wCold.dev.prof 1).layers ∧ tget wCold.dev.tier.promos 5 = none
    ∧ (let e := wCold.dev.startPromo 5 0 0 0 0
       e.patronStart 0 0 = true ∧ e.within 0 (e.reserved 0 + classBytes (e.promoClass 5 0 2 (e.prof 1))) = true
       ∧ e.allReserved + classBytes (e.promoClass 5 0 2 (e.prof 1)) ≤ e.freeBytes
       ∧ (e.place e.seqs.used (orderR15 5 0) (e.promoClass 5 0 2 (e.prof 1))).isSome = true) := by decide +kernel

theorem wit_SpanRows_landing : tget wLanding.dev.tier.promos 5 = some { upTo := 0, patron := 0, kind := 0 }
    ∧ ((wLanding.dev.span? 5).map fun x => x.resLayers) = some 0 ∧ wLanding.dev.mapWaits 5 = false
    ∧ wLanding.dev.folioOn 5 0 2 = some wClosed ∧ wLanding.dev.tim.phase ≠ .close := by decide +kernel

theorem wit_SpanRows_demotion : tget (wDemoting 1 9).dev.tier.demos 5 = some { left := 9, target := 1 }
    ∧ ((wDemoting 1 9).dev.span? 5).all (fun x => ((wDemoting 1 9).dev.wholeFolios 5 x).isSome && !(wDemoting 1 9).dev.frameOut x) = true
    ∧ (wDemoting 2 (2 ^ 17)).dev.stacksOn = true ∧ ((wDemoting 2 (2 ^ 17)).dev.vol? 0).isSome = true
    ∧ ((wDemoting 2 (2 ^ 17)).dev.demoAfter 5 { left := 2 ^ 17, target := 2, units := 2 }).left = 0
    ∧ ((wDemoting 2 (2 ^ 30)).dev.demoAfter 5 { left := 2 ^ 30, target := 2, units := 2 ^ 14 }).left ≠ 0 := by decide +kernel

theorem wit_SpanRows_background : (wDemoting 2 0).dev.reg regTirFreeTarget * 2 ^ 30 ≤ (wDemoting 2 0).dev.freeBytes
    ∧ ((wDemoting 2 0).dev.seqs.spans.filter fun e => e.2.st == 3 && e.2.streamed && !e.2.onStacks && !e.2.moveLock && !e.2.tailHeld
        && e.2.pins == 0 && !(wDemoting 2 0).dev.fitHeld e.1 e.2) = (wDemoting 2 0).dev.seqs.spans
    ∧ (wDemoting 2 0).dev.mayStart 3 = true ∧ (wDemoting 2 0).dev.spanVolume = some 0
    ∧ (wDemoting 2 0).dev.copyPlace 0 ((wDemoting 2 0).dev.prof 1).copyUnits = some 0
    ∧ (copyUnit ((wDemoting 2 0).dev.prof 1).flashClass 0 : Int) ≤ 10 ^ 9 := by decide +kernel

/-- A full span whose churn is due, in the execute phase. -/
def wChurn : State :=
  wSpan { st := 2, churnAt := some 90, frames := [{ primary := 65536 }, { primary := 131072 }], fill := 256, ref := 1 } fun d =>
    { d with tim := { d.tim with phase := .execute } }

theorem wit_SpanRows_churn : wChurn.dev.inPhase .execute = true ∧ 90 ≤ wChurn.dev.tim.count ∧ wChurn.dev.flt.frames = []
    ∧ wChurn.dev.flt.out = [] ∧ tget (tgetD wChurn.dev.seqs.churn 5 []) 0 = none
    ∧ (wChurn.dev.churnPlace (hCluster 65536) (wChurn.dev.prof 1) false).isSome = true := by decide +kernel

/-- The walk of a slot of an empty sequence. -/
def wWalk : Walk := { record := 3, gen := 1, length := 0, pendCount := 0, pendLayers := 0, root := 0, openSpan := 0 }

/-- A layer stream of an empty sequence into loan window 2. -/
def wStream : State :=
  wWith fun d =>
    { d with regs := tset d.regs (regTirShelfnCtrl.addr 2 0) 1
             seqs := { d.seqs with profiles := [(1, wProf)], recs := [(3, { profile := 1, owner := 0, number := 3 })] }
             tier := { streams := [(0, { mode := 1, window := 2, slots := 4, slotUnits := 1, slotBase := 0, cell := 2 ^ 20, record := 3, fresh := false, walk := some wWalk })] } }

/-- It, in the execute phase. -/
def wStreamRuns : State := wStream.onDev fun d => { d with tim := { d.tim with phase := .execute } }

theorem wit_SpanRows_stream : wStreamRuns.dev.inPhase .execute = true ∧ wStreamRuns.dev.shelfOn 2 = true
    ∧ (tget wStreamRuns.dev.tier.streams 0).all (fun x => x.walk.isSome && x.mode == 1 && !x.fresh && decide (x.delivered < x.released + x.slots)) = true
    ∧ tget wStreamRuns.dev.seqs.recs 3 = some { profile := 1, owner := 0, number := 3 }
    ∧ (deliveryBlock 0 1 (tokensAt 0 0 0 0) (wStreamRuns.dev.allImages false 0 []).1 none).length ≤ 65536 := by decide +kernel

/-- Its open group: no unit yet. -/
def wGroup : FGroup := { volume := 0, strm := 0, members := [10, 2 ^ 22 + 10, 2 ^ 23 + 10] }

/-- A volume of three channels with one open block group (blocks 10 of each), a DIRTY block 20, an ERASED-to-verify block 30, and block 40 in
a state, which holds unit 4; unit 3 is staged. -/
def wStk (b40 : Nat) (f : StkSt → StkSt := id) : State :=
  wWith fun d =>
    { d with stk := f (
        { discovered := true, channels := 3, dies := 1, planes := 2, blocksPerDie := 100, unitsPerBlock := 8
          volumes := [(0, { dieCount := 1, capacity := 100, balance := 10 ^ 9, units := [(3, {}), (4, { staged := false, block := 40 })] })]
          blocks := [(10, { st := 2, volume := 0, group := 7 }), (20, {}), (30, { st := 3 }),
            (40, { st := b40, volume := 0, group := 9, valid := [4], filled := 1 }), (2 ^ 22 + 10, { st := 2, volume := 0, group := 7 }), (2 ^ 23 + 10, { st := 2, volume := 0, group := 7 })]
          groups := [(7, wGroup), (9, { volume := 0, strm := 0, members := [40] })]
          openGroups := [(0, 7), (3, 7), (4, 7)], staging := [(3, 0)] } ) }

/-- Volume 0 of it. -/
def wVol : Volume := { dieCount := 1, capacity := 100, balance := 10 ^ 9, units := [(3, {}), (4, { staged := false, block := 40 })] }

theorem wit_FlashRows_program : (wStk 4).dev.vol? 0 = some wVol ∧ tget wVol.units 3 = some {} ∧ (wStk 4).dev.pwr.pwrSeqEnd = false
    ∧ tget (wStk 4).dev.stk.openGroups 0 = some 7 ∧ tget (wStk 4).dev.stk.groups 7 = some wGroup
    ∧ (wStk 4).dev.groupNext false wGroup = 0 ∧ groupPlace false wGroup.members 0 = (0, 2 ^ 22 + 10) ∧ 0 < (wStk 4).dev.groupSize false wGroup.members
    ∧ (wStk 4).dev.diePaused (2 ^ 22 + 10) = false ∧ (wStk 4).dev.nextSlot false wGroup.members ((wStk 4).dev.groupSize false wGroup.members - 1) 1 = 1
    ∧ 1 < (wStk 4).dev.groupSize false wGroup.members ∧ 1 / stripeUnits false 3 = 0 / stripeUnits false 3 := by decide +kernel

theorem wit_FlashRows_read : tget wVol.units (64 / 16) = some { staged := false, block := 40 }
    ∧ ({ staged := false, block := 40 } : FUnit).sectorAt (64 % 16) = some (40, 0) ∧ (wStk 4).dev.dieOut 40 = false ∧ (wStk 4).dev.spanOfUnit 0 4 = none
    ∧ tget (wStk 4).dev.rgn.units (unitKey (4 / 2 ^ 22) (4 % 2 ^ 22 / 32)) = none
    ∧ (wStk 4 fun x => { x with copies := [(5, { volume := 0, firstUnit := 4, count := 1 })] }).dev.spanOfUnit 0 4 = some 5 := by decide +kernel

theorem wit_FlashRows_erase : ((wStk 4).dev.fblock 20).st = 0 ∧ (wStk 4).dev.diePaused 20 = false ∧ (wStk 4).dev.inService 20 = true
    ∧ keyBlock 20 < (wStk 4).dev.stk.blocksPerDie ∧ (wStk 4).dev.volOfBlock 20 = some 0 ∧ ((wStk 4).dev.fblock 30).st = 3
    ∧ ((wStk 4).dev.fblock 30).reads + ((wStk 4).dev.fblock 30).filled < (wStk 4).dev.reg regStkReadLimit 0 0 (if (wStk 4).dev.inSystem 30 then 1 else 0)
    ∧ (wStk 4).dev.reg regStkCtrl 0 0 2 = 1 ∧ ((wStk 3).dev.fblock 40).valid ≠ []
    ∧ ((wStk 3 fun x => { x with blocks := [(40, { st := 3, valid := [4], refresh := true })] }).dev.fblock 40).refresh = true := by decide +kernel

theorem wit_FlashRows_collect : ((wStk 4).dev.fblock 40).st = 4 ∧ ((wStk 4).dev.fblock 40).valid ≠ [] ∧ ((wStk 4).dev.fblock 40).scrubIn = none ∧ (wStk 4).dev.reg regStkCtrl 0 0 3 = 1
    ∧ (wStk 4).dev.mayStart 5 = true ∧ (wStk 4).dev.sec.restarting = false ∧ (wStk 4).dev.reg regStkCtrl 0 0 1 = 1
    ∧ (wStk 4).dev.freeGroups wVol < (wStk 4).dev.reg regStkGcStart ∧ (wStk 4).dev.gcForced wVol = true
    ∧ (wStk 4).dev.gcVictim 0 = some 9 := by decide +kernel

theorem wit_FlashRows_relocate : ((wStk 5).dev.fblock 40).st = 5 ∧ tget wVol.units 4 = some { staged := false, block := 40 }
    ∧ tget (wStk 5).dev.stk.openGroups 3 = some 7 ∧ tget (wStk 5).dev.stk.openGroups 4 = some 7 ∧ (wStk 5).dev.groupNext false wGroup = 0
    ∧ (groupPlace false wGroup.members 0).2 ≠ 40 ∧ twf (wStk 5).dev.stk.volumes = true := by decide +kernel

theorem wit_FlashRows_work : 0 + 32 * 0 ∉ (wStk 4).dev.stk.failedDies
    ∧ (wStk 4 fun x => { x with volumes := [(0, { wVol with capacity := 2 })] }).dev.spanSpaceLow 0 = true
    ∧ (wStk 4).dev.stk.ckptRunning = false ∧ (wStk 4).dev.pwr.pwrFail = false ∧ (wStk 4).dev.reg regStkCkptInterval ≤ 10 ^ 6
    ∧ (wStk 4 fun x => { x with ckptRunning := true }).dev.stk.ckptRunning = true := by decide +kernel

/-- The test device in a wing of four with a second wing, its fabric enabled, its ports in a state. -/
def wFab (st : PortState) (f : FabSt → FabSt := id) : State :=
  wWith fun d =>
    { d with regs := tset d.regs (regChgPortEn.addr 0 0) (2 ^ 18 - 1)
             boot := { d.boot with straps := { wingSize := 3, wings := 1 } }, sec := { d.sec with poolSecret := some [1] }
             fab := f { ports := (List.range 18).map fun k => (k, { st := st }) } }

/-- A message that arrives from device 1. -/
def wMsg (vc addr : Nat) (slots : List Byte) : Msg := { vc := vc, source := 1, addr := addr, slots := slots }

/-- The body of a keepalive, or of an IDENT of device 16. -/
def wKeep : List Byte := leBytes 16 0
/-- The body of an IDENT. -/
def wIdent (dev : Nat) : List Byte := leBytes 1 dev ++ List.replicate 15 0

theorem wit_LinkRows_train : ((wFab .training).dev.port 0).st = .training ∧ (wFab .training).dev.sec.poolSecret = some [1]
    ∧ (wFab .training).dev.partnerOf 0 = some 1 ∧ ((wFab .retraining).dev.port 0).st = .retraining
    ∧ ((wFab .failed).dev.port 0).st = .failed ∧ (wFab .failed).dev.mayTrain 0 = true
    ∧ (wFab .training).dev.sec.keysClear = false := by decide +kernel

theorem wit_LinkRows_flit : ((wFab .up).dev.port 0).st = .up ∧ ((wFab .up).dev.port 0).expect = 0 ∧ ((wFab .up).dev.port 0).naks + 1 < 8
    ∧ ¬(((wFab .up).dev.port 0).nakAck = 5 ∧ 7 ≤ ((wFab .up).dev.port 0).nakSeen) ∧ (wFab .up).dev.portUp 0 = true := by decide +kernel

theorem wit_LinkRows_messages : (wFab .up).dev.fabOn = true ∧ msgOk 0x38 (wMsg 5 0 wKeep) = true
    ∧ (wFab .up).dev.originOk 0 0x38 (wMsg 5 0 wKeep) = true ∧ srcDev (wMsg 5 0 wKeep).source ≠ (wFab .up).dev.devNo
    ∧ (wFab .up).dev.isDead 1 = false ∧ ((wFab .up).dev.peer 1).epoch = none
    ∧ msgOk 0x3A (wMsg 5 0 (wIdent 16)) = true ∧ ((wFab .exchange).dev.port 15).st = .exchange ∧ (wFab .exchange).dev.fabOn = true
    ∧ (wFab .exchange).dev.partnerOf 15 = some (fieldOf (wIdent 16) 0 1 % 64)
    ∧ (wFab .exchange).dev.partnerOf 15 ≠ some (fieldOf (wIdent 5) 0 1 % 64) := by decide +kernel

theorem wit_LinkRows_dead : 1 ≤ (wFab .up).dev.boot.straps.wingSize ∧ 1 = 16 * (wFab .up).dev.wing + 1 ∧ 1 ≠ (wFab .up).dev.devNo
    ∧ (wFab .up).dev.fab.outst.filter (fun o => o.dest == 1) = [] ∧ (wFab .up).dev.rgn.maps = [] ∧ (wFab .up).dev.rgn.slots = []
    ∧ (wFab .up).dev.fab.dir = [] ∧ (wFab .up).dev.fab.held = [] ∧ 1 ∉ (wFab .up).dev.boot.heads
    ∧ ∀ r, r < 4 → (wFab .up).dev.reg regTirRemoter r 0 2 = 1 → addrDev ((wFab .up).dev.reg regTirRemoter r 0 0) ≠ 1 := by decide +kernel

/-- An assembly message of device 17 with a topic. -/
def wAsm (topic : Nat) : List Byte := leBytes 1 topic ++ leBytes 1 17 ++ leBytes 1 (3 + 16 + 64) ++ List.replicate 29 0

/-- The presenting head, which keeps a roster in which device 1 alone is missing. -/
def wHead : State :=
  wWith fun d =>
    { d with boot := { d.boot with straps := { wingSize := 1, headN := false }, rosterOn := true, heads := [0]
                                   roster := [(0, { st := 2 }), (1, { st := 0 })] } }

theorem wit_LinkRows_assembly : fieldOf (wAsm 1) 0 1 = 1 ∧ bit (fieldOf (wAsm 1) 2 1) 6 = true
    ∧ bit (fieldOf (leBytes 1 1 ++ wAsm 1) 2 1) 6 = false ∧ wHead.dev.boot.rosterOn = true ∧ fieldOf (wAsm 2) 0 1 = 2
    ∧ fieldOf (wAsm 3) 0 1 = 3 ∧ wHead.dev.headSet = true ∧ wHead.dev.readyDue = true
    ∧ wHead.dev.rosterCount (· == 2) ≠ wHead.dev.expected.length ∧ wHead.dev.presenting = some wHead.dev.devNo
    ∧ wHead.dev.boot.assembled = false ∧ (wHead.dev.expected.filter fun x => (wHead.dev.rosterEnt x).st != 2) = [1] := by decide +kernel

/-- A media-table entry that meets every criterion, and eight channels with one such die each. -/
def wEntry : MediaEntry := {}
def wMedia : MediaIn := { found := (List.range 8).map fun c => { channel := c, entry := some wEntry } }

/-- A device in a state of its boot, with the steps that have ended. -/
def wBoot (st : DevState) (steps : List Nat) (f : Dev → Dev := id) : State :=
  { pending := [], mem := [], dev := f { boot := { st := st, steps := steps }, sec := { norValid := true, poolSecret := some [1] } } }

theorem wit_BootRows_early : (wBoot .booting []).dev.boot.steps = [] ∧ (wBoot .booting []).dev.sec.tamperNew = false
    ∧ (wBoot .booting [1]).dev.stepDue 2 [1] = true ∧ (wBoot .booting [1]).dev.imageFails { svn := 0 } = 0
    ∧ (wBoot .booting [1]).dev.imageFails { svn := 0, failing := 5 } ≠ 0 ∧ (wBoot .booting [1]).dev.stepDue 3 [1] = true
    ∧ (wBoot .booting [1, 2]).dev.stepDue 4 [2] = true ∧ mediaChosen wMedia = some (8, wEntry, [0]) ∧ mediaChosen {} = none ∧ (wBoot .booting [1, 2, 3, 4]).dev.stepDue 5 [3, 4] = true
    ∧ (wBoot .booting [1, 2, 3, 4]).dev.sec.poolSecret = some [1] ∧ (wBoot .booting [1, 2, 3, 4]).dev.sec.keysClear = false := by decide +kernel

theorem wit_BootRows_late : (wBoot .booting [1, 2, 3, 4, 5]).dev.stepDue 6 [5] = true ∧ (wBoot .booting [1, 2, 3, 4, 5]).dev.fab.peers = []
    ∧ (wBoot .booting [1, 2, 3, 4, 5, 6]).dev.stepDue 7 [6] = true ∧ (wBoot .booting [1, 2, 3, 4]).dev.stepDue 8 [3, 4] = true
    ∧ (wBoot .booting [1, 2, 3, 4]).dev.stk.discovered = false
    ∧ (wBoot .booting (List.range 9)).dev.stepDue 9 [6, 8] = true
    ∧ (wBoot .booting (List.range 10) fun d => { d with stk := { discovered := true } }).dev.stepDue 10 [9] = true
    ∧ (wBoot .ready (List.range 10)).dev.stepDue 11 [7, 9] = true ∧ (wBoot .ready (List.range 10)).dev.stk.clean = false := by decide +kernel

theorem wit_BootRows_map : (wBoot .booting [3, 4] fun d => { d with stk := { discovered := true, clean := true } }).dev.stepDue 8 [3, 4] = true
    ∧ (wBoot .booting [3, 4] fun d => { d with stk := { discovered := true, clean := true } }).dev.stk.clean = true
    ∧ (wBoot .booting [3, 4] fun d => { d with stk := { discovered := true } }).dev.stk.clean = false := by decide +kernel

theorem wit_BootRows_resets : wState.dev.pwr.pwrFail = false ∧ wState.dev.boot.st = .serving ∧ (wBoot .ready []).dev.boot.st = .ready
    ∧ (wBoot .resetting []).dev.boot.st = .resetting
    ∧ (wBoot .recovery [] fun d => { d with sec := { d.sec with rcvState := 1 } }).dev.sec.rcvState = 1
    ∧ (wBoot .recovery [] fun d => { d with sec := { d.sec with rcvState := 1 } }).dev.sec.wrapGen < 32
    ∧ (wBoot .recovery [] fun d => { d with sec := { d.sec with rcvState := 1 } }).dev.sec.fwBusy = false := by decide +kernel

/-- The test device with another power state. -/
def wPwr (f : PwrSt → PwrSt) : State := wWith fun d => { d with pwr := f d.pwr }

theorem wit_PowerRows_wake : (wPwr fun x => { x with sleep := 2, wakeAt := 9 }).dev.pwr.sleep = 2 ∧ wState.dev.powered = true
    ∧ (wPwr fun x => { x with sleep := 2, wakeAt := 9 }).dev.reached 0 = true
    ∧ (wPwr fun x => { x with sleep := 2, wakeAt := 9 }).dev.blockOpen 13 = true
    ∧ (wPwr fun x => { x with sleep := 2, wakeAt := 9 }).dev.pwr.wakeAt ≠ 0
    ∧ wState.dev.boot.st = .serving ∧ (wBoot .bootFailed []).dev.boot.st = .bootFailed ∧ tget wState.dev.pwr.chans 3 = none := by decide +kernel

theorem wit_PowerRows_evaluate : wState.dev.pwr.halved = false ∧ wState.dev.reg regPwrCtrl 0 0 2 = 1
    ∧ 1000 * wState.dev.limitWatts < 700000 ∧ 400000 ≤ 1000 * wState.dev.limitWatts ∧ wState.dev.hotSensor = none
    ∧ (wWith fun d => { d with regs := tset d.regs (regPwrPstateMax.addr 0 0) 2 }).dev.pwr.point
      < (wWith fun d => { d with regs := tset d.regs (regPwrPstateMax.addr 0 0) 2 }).dev.reg regPwrPstateMax
    ∧ (wPwr fun x => { x with point := 2 }).dev.reg regPwrPstateMax < (wPwr fun x => { x with point := 2 }).dev.pwr.point
    ∧ (wPwr fun x => { x with point := 2 }).dev.pwr.regHold = [] ∧ 100 * 400000 < 95 * (1000 * wState.dev.limitWatts)
    ∧ wState.dev.pwr.pendStep = none ∧ (wPwr fun x => { x with point := 2 }).dev.sensorsCool = true := by decide +kernel

theorem wit_PowerRows_steps : (wPwr fun x => { x with point := 2, pendStep := some .up }).dev.pwr.pendStep = some .up
    ∧ (wPwr fun x => { x with point := 4, halved := true, pendStep := some .up }).dev.pwr.halved = true
    ∧ (wPwr fun x => { x with pendStep := some (.down 0) }).dev.pwr.point < 4
    ∧ 4 ≤ (wPwr fun x => { x with point := 4, pendStep := some (.down 0) }).dev.pwr.point := by decide +kernel

theorem wit_PowerRows_sensors : tget wState.dev.pwr.regHold 3 = none ∧ wState.dev.flt.deviceFault = false
    ∧ (40 : Int) < ((4 * wState.dev.reg regPwrWarnC 0 0 (flag (isStack 3)) : Nat) : Int)
    ∧ ((4 * wState.dev.reg regPwrWarnC 0 0 (flag (isStack 3)) : Nat) : Int) ≤ 500 ∧ tget wState.dev.pwr.warnAt 3 = none
    ∧ wState.dev.pwr.tripped = false ∧ (if isStack 3 = true then 420 else 500) ≤ (500 : Int)
    ∧ wState.dev.pwr.pwrFail = false ∧ (wPwr fun x => { x with pwrFail := true }).dev.pwr.pwrSeqEnd = false := by decide +kernel

theorem wit_AccessRows_registers : regTirFreeTarget.addr 0 0 % 4 = 0 ∧ regTirFreeTarget.addr 0 0 < 0xF0000
    ∧ regAt (regTirFreeTarget.addr 0 0) = some (regTirFreeTarget, 0, 0) ∧ regTirFreeTarget.bytes = 4 ∧ regTirFreeTarget.block ≠ 15
    ∧ regTirFreeTarget.addr 0 0 ∉ [regTikLength, regTikTodNext, regPwrWake, regSecRcvCmd, regRdbStatus, regTikCtrl, regTikMasterPos, regTikPlanLen, regChgCtrl, regChgPortEn, regRgnSpare].map (fun x => x.addr 0 0)
    ∧ (gateRegs.any fun g => g.block == regTirFreeTarget.block && g.off == regTirFreeTarget.off) = false
    ∧ wState.dev.blockOpen (blockOf (regTirFreeTarget.addr 0 0)) = true ∧ wState.dev.writesWait = true := by decide +kernel

/-- The test device with patron 0 still CONFIGURING. -/
def wConf : State := wWith fun d => { d with host := { linkUp := true, flit := true, patrons := [(0, { st := .configuring })] } }

theorem wit_AccessRows_store : wConf.dev.reached 0 = true ∧ wConf.dev.writesWait = false ∧ (wConf.dev.pat 0).lock = false
    ∧ wConf.dev.writeRefused regTirFreeTarget (putBits (wConf.dev.nextWord (regTirFreeTarget.addr 0 0) regTirFreeTarget.coldWord) 0 32 9) 0 4 true = false
    ∧ wConf.dev.blockOpen (blockOf (regTikPtmInterval.addr 0 0)) = true ∧ barOffset 0 0xF8000 = none := by decide +kernel

theorem wit_AccessRows_window : windowAt 0 0x150000 = none ∧ barLoadAt 0 0x150000 = none
    ∧ windowAt 0 (regTirFreeTarget.addr 0 0) = none ∧ barLoadAt 0 (regTirFreeTarget.addr 0 0) = some (regTirFreeTarget.addr 0 0)
    ∧ windowAt 0 0x800000 = some 0 ∧ wState.dev.blockOpen 14 = true ∧ (wState.dev.pat 0).st = .active := by decide +kernel

/-- The test device in a wing of four, aperture slot 0 enabled onto a region of device 1, which it holds a line of. -/
def wApt : State :=
  wWith fun d =>
    { d with regs := tset d.regs (regHpiAptSlots.addr 0 0) (64 + 2 ^ 64 * 2 ^ 50)
             boot := { d.boot with straps := { wingSize := 3 } }
             rgn := { maps := [{ region := 1, patron := 0, rights := 15, first := 0, count := 4 }] }
             fab := { borrow := [(2 ^ 44, List.replicate 64 7)], ports := [(0, { st := .up })] } }

theorem wit_AccessRows_aperture : wApt.dev.served 0 = true ∧ wApt.dev.aperture 8 = some (2 ^ 50 + 8, 0)
    ∧ wApt.dev.rgn.torn.contains (addrRegion (2 ^ 50 + 8)) = false ∧ addrDev (2 ^ 50 + 8) / 16 = wApt.dev.wing
    ∧ wApt.dev.servesRegion (addrRegion (2 ^ 50 + 8)) = 1 ∧ wApt.dev.isDead 1 = false ∧ wApt.dev.lineBusy (2 ^ 50 + 8) = false
    ∧ wApt.dev.mapAllows 0 (2 ^ 50) 0 1 = true ∧ wApt.dev.mapAllows 0 (2 ^ 50) 1 1 = true ∧ wApt.dev.mapAllows 0 (2 ^ 50) 2 1 = true
    ∧ tget wApt.dev.fab.borrow (2 ^ 50 / 64) = some (List.replicate 64 7) := by decide +kernel

/-- A home: region 0 of four units, owned by patron 0 of device 1, whose lines are asked for over port 0. -/
def wHomeWith (r : Region → Region) (f : Dev → Dev := id) : State :=
  wWith fun d => f
    { d with boot := { d.boot with straps := { wingSize := 3 } }
             fab := { ports := [(0, { st := .up })] }
             rgn := { slots := [(0, r { attrs := 0, ownerDev := 1, ownerPatron := 0, size := 2 ^ 23 })]
                      units := [(0, {}), (1, {}), (2, {}), (3, {})] } }

/-- That home. -/
def wHome : State := wHomeWith id

/-- The region of it. -/
def wRegion : Region := { attrs := 0, ownerDev := 1, ownerPatron := 0, size := 2 ^ 23 }

/-- What `HomeReady` asks, as a check. -/
def homeReadyB (s : State) (code : Nat) (m : Msg) (r : Region) : Bool :=
  s.dev.regionOf m.addr == some r && !r.mirror && s.dev.flt.out.isEmpty && (s.dev.homeRefuses code m).isNone
    && (s.dev.awaitsUnit m.addr (reqLines code m)).isEmpty && (s.dev.poisonStops code m).isNone && s.dev.fab.dir.isEmpty

/-- What `HomeServes` asks, as a check. -/
def homeServesB (s : State) (port code : Nat) (m : Msg) (r : Region) : Bool :=
  s.dev.fabOn && msgOk code m && s.dev.originOk port code m && s.dev.regionOpen && srcDev m.source != s.dev.devNo && homeReadyB s code m r

/-- What `HomeWrites` asks, as a check. -/
def homeWritesB (s : State) (port code : Nat) (m : Msg) (r : Region) : Bool :=
  homeServesB s port code m r && Memory.wf s.mem && m.slots.length % 16 == 0 && s.dev.fab.heldRsp.isEmpty && !m.retry
    && (tget s.dev.fab.replayA (m.source * 65536 + m.tag)).isNone && (tget s.dev.fab.replayS (m.source * 65536 + m.tag)).isNone
    && !r.persist && !r.durable && s.dev.fab.homeComb.isEmpty
    && (List.range (unitRun m.addr (reqLines code m)).2).all fun i =>
      (tget s.dev.rgn.units (unitKey (slotOf m.addr) ((unitRun m.addr (reqLines code m)).1 + i))).isSome

/-- A line of bytes. -/
def wLine (b : Byte) : List Byte := List.replicate 64 b

/-- A partial store of byte 1 of a line. -/
def wPartial : List Byte := leBytes 8 2 ++ List.replicate 8 0 ++ wLine 5

theorem wit_HomeRows_reads : homeServesB wHome 0 0x01 (wMsg 0 0 []) wRegion = true ∧ homeServesB wHome 0 0x03 { wMsg 0 0 [] with arg := 1 } wRegion = true
    ∧ wRegion.kind ≠ 2 := by decide +kernel

theorem wit_HomeRows_writes : homeWritesB wHome 0 0x08 (wMsg 0 64 (wLine 5)) wRegion = true
    ∧ homeWritesB wHome 0 0x0A (wMsg 0 64 (wLine 5)) wRegion = true ∧ homeWritesB wHome 0 0x09 (wMsg 0 64 wPartial) wRegion = true
    ∧ homeWritesB wHome 0 0x10 { wMsg 0 64 (leBytes 16 3) with arg := 16 } wRegion = true
    ∧ wHome.dev.dirEnts (dirSet (64 / 64)) = [] := by decide +kernel

theorem wit_HomeRows_config : msgOk 0x40 (wMsg 4 0 []) = true ∧ wHome.dev.originOk 0 0x40 (wMsg 4 0 []) = true
    ∧ msgOk 0x41 (wMsg 4 0 (wLine 0)) = true ∧ wHome.dev.sec.restarting = false := by decide +kernel

/-- The home with a held READ_BLOCK whose unit has landed. -/
def wHeld : State :=
  wHomeWith id fun d => { d with fab := { d.fab with held := [{ port := 0, code := 0x03, m := wMsg 0 0 [], why := 0, ready := some 100 }] } }

theorem wit_HomeRows_held : wHeld.dev.fab.held[0]? = some { port := 0, code := 0x03, m := wMsg 0 0 [], why := 0, ready := some 100 }
    ∧ 100 ≤ wHeld.dev.tim.count ∧ homeReadyB wHeld 0x03 (wMsg 0 0 []) wRegion = true ∧ wHeld.dev.flt.deviceFault = false := by decide +kernel

/-- The home with one outstanding request of a job, toward device 1. -/
def wOut (o : Outst) (j : Job) : State :=
  wHomeWith id fun d => { d with fab := { d.fab with outst := [o], jobs := [(4, j)] } }

/-- A load of job 4. -/
def wLoadOut : Outst := { dest := 1, code := 0x01, m := { tag := 7, source := 0, addr := 2 ^ 50 }, job := some 4, sent := true }
/-- A store of job 4. -/
def wStoreOut : Outst := { dest := 1, code := 0x08, m := { tag := 7, source := 0, addr := 2 ^ 50, slots := wLine 1 }, job := some 4, sent := true }
/-- An atomic of job 4. -/
def wAtomOut : Outst := { dest := 1, code := 0x10, m := { tag := 7, source := 0, addr := 2 ^ 50 }, members := [(4, 3)], sent := true }
/-- A job with two parts open. -/
def wJob : Job := { op := 0x100, x := wDesc, wait := 2 }

theorem wit_AnswerRows_acks : msgOk 0x18 (wMsg 0 0 (leBytes 2 7 ++ List.replicate 6 0 ++ leBytes 8 1)) = true ∧ msgOk 0x20 (wMsg 2 64 []) = true
    ∧ msgOk 0x21 (wMsg 2 64 []) = true ∧ wHome.dev.originOk 0 0x18 (wMsg 0 0 []) = true ∧ wHome.dev.originOk 0 0x20 (wMsg 2 64 []) = true
    ∧ (64 : Nat) % 2 ^ 50 ≠ 2 ^ 50 - 1 := by decide +kernel

/-- The home with an invalidation of line 1 that awaits position 1. -/
def wInval : State :=
  wHomeWith id fun d => { d with fab := { d.fab with dir := [(dirSet 1, [{ line := 1, holders := 2, inval := true, awaited := [1] }])] } }

theorem wit_AnswerRows_invAck : ((wInval.dev.dirEnts (dirSet (64 / 64))).find? fun e => e.line == 64 / 64 && e.awaited.contains (srcDev 1 % 16))
    = some { line := 1, holders := 2, inval := true, awaited := [1] } := by decide +kernel

theorem wit_AnswerRows_responses : (wOut wLoadOut wJob).dev.fab.outst.find? (fun o => o.m.tag == 7) = some wLoadOut
    ∧ tget (wOut wLoadOut wJob).dev.fab.jobs 4 = some wJob ∧ msgOk 0x28 { wMsg 1 0 (wLine 3) with tag := 7 } = true
    ∧ msgOk 0x29 { wMsg 1 0 [] with tag := 7 } = true ∧ msgOk 0x2A { wMsg 1 0 (leBytes 16 9) with tag := 7 } = true
    ∧ msgOk 0x51 { wMsg 1 0 (leBytes 16 9) with tag := 7 } = true ∧ isUpdate wStoreOut.code = true
    ∧ (wOut wLoadOut wJob).dev.fabOn = true ∧ (wOut wLoadOut wJob).dev.originOk 0 0x28 (wMsg 1 0 (wLine 3)) = true := by decide +kernel

/-- The home with a region operation of patron 0 that another device serves. -/
def wAsked : State :=
  wOut { dest := 1, code := 0x50, m := { tag := 7 }, job := some 4, sent := true } { op := 0x83, x := wDesc, q := some wReq, wait := 1 }

theorem wit_AnswerRows_region : (tget wAsked.dev.fab.jobs 4).map (fun j => (j.q, j.asker, j.op)) = some (some wReq, none, 0x83)
    ∧ wAsked.dev.fab.outst.find? (fun o => o.m.tag == 7) = some { dest := 1, code := 0x50, m := { tag := 7 }, job := some 4, sent := true } := by
  decide +kernel

/-- Two messages to device 1 in class 3 that are not acknowledged, sent again some times. -/
def wChan (n : Nat) : State :=
  wHomeWith id fun d =>
    { d with fab := { d.fab with chans := [(chanKey 1 3, { nextSeq := 2, resends := n, unacked := [(0, 1, wMsg 3 0 []), (1, 1, wMsg 3 0 [])] })] } }

/-- A message of device 1 to a device in class 3, number 0. -/
def wMessage (dest : Nat) : Msg := wMsg 3 0 (leBytes 1 dest ++ leBytes 1 3 ++ leBytes 2 16 ++ leBytes 12 0 ++ leBytes 16 5)
/-- An acknowledgement of it. -/
def wMessageAck : Msg := wMsg 3 0 (leBytes 2 (256 * 3) ++ leBytes 30 0)

theorem wit_AnswerRows_messages : ((wChan 0).dev.chan (chanKey 1 3)).unacked ≠ [] ∧ ((wChan 0).dev.chan (chanKey 1 3)).resends < 4
    ∧ 4 ≤ ((wChan 4).dev.chan (chanKey 1 3)).resends ∧ (wChan 4).dev.fab.outst = [] ∧ msgOk 0x30 (wMessage 0) = true
    ∧ msgOk 0x30 (wMessage 2) = true ∧ fieldOf (wMessage 0).slots 4 4 = ((wChan 0).dev.chan (chanKey 1 3)).recvSeq
    ∧ msgOk 0x31 wMessageAck = true ∧ fieldOf wMessageAck.slots 0 1 % 64 = (wChan 0).dev.devNo
    ∧ ((wChan 0).dev.chan (chanKey 1 (fieldOf wMessageAck.slots 1 1))).unacked.findIdx? (fun x => x.1 == fieldOf wMessageAck.slots 4 4) = some 0
    ∧ (wChan 0).dev.originOk 0 0x30 (wMessage 0) = true ∧ (wChan 0).dev.originOk 0 0x31 wMessageAck = true := by decide +kernel

/-- A MAP_NOTICE of two units. -/
def wNotice : Msg := wMsg 0 0 (leBytes 4 1 ++ leBytes 2 0 ++ [15, 0] ++ leBytes 4 0 ++ leBytes 4 2)
/-- The mirror of device 1's region in slot 0, and a write of its primary. -/
def wMirror : State := wHomeWith fun r => { r with mirror := true, partner := 1, attrs := 3, mirrorSeq := 4 }
/-- A mirror write of line 1 with a sequence number. -/
def wMirrorMsg (n : Nat) : Msg := wMsg 0 64 (leBytes 8 n ++ leBytes 4 0 ++ [8, 0, 0, 0] ++ wLine 6)
/-- A mirror block of line 1. -/
def wBlockMsg : Msg := wMsg 0 64 (leBytes 16 0 ++ wLine 6)

theorem wit_RegionMessages_notice : msgOk 0x52 wNotice = true ∧ wHome.dev.originOk 0 0x52 wNotice = true ∧ srcDev wNotice.source / 16 = wHome.dev.wing
    ∧ fieldOf wNotice.slots 12 4 ≠ 0 ∧ wHome.dev.rgn.maps.length < 16384 := by decide +kernel

theorem wit_RegionMessages_mirror : msgOk 0x58 (wMirrorMsg 5) = true ∧ (wMirror.dev.regionOf 64).map (·.mirrorSeq) = some 4
    ∧ fieldOf (wMirrorMsg 5).slots 0 8 = 4 + 1 ∧ (wMirrorMsg 5).slots.length = 80 ∧ fieldOf (wMirrorMsg 5).slots 12 1 ≠ 0x10
    ∧ wMirror.dev.fab.heldRsp = [] ∧ (64 : Nat) % windowBytes ≠ versionOff ∧ wMirror.dev.fab.held = [] ∧ msgOk 0x59 wBlockMsg = true
    ∧ Memory.wf wMirror.mem = true ∧ fieldOf (wMirrorMsg 4).slots 0 8 ≤ 4 := by decide +kernel

/-- The home whose region revokes a grant for job 4. -/
def wRevoke : State :=
  wHomeWith (fun r => { r with grants := [{ dev := 1, patron := 3, rights := 1, first := 0, count := 1, revoking := true }], revoke := some 4 }) fun d =>
    { d with fab := { d.fab with jobs := [(4, { op := 0x84, x := wDesc, q := some wReq })] } }

theorem wit_RegionMessages_revoke : (wRevoke.dev.regionOf (regionAddr 0)).map (fun r => (r.revoke, r.destroy, r.revokeNext)) = some (some 4, false, [])
    ∧ ((wRevoke.dev.regionOf (regionAddr 0)).map wRevoke.dev.drainOpen) = some false ∧ slotOf (regionAddr 0) = 0 / 64 := by decide +kernel

/-- A PUBLISH of device 1 for region 0 at version 0. -/
def wPublish : Msg := wMsg 0 0 (leBytes 2 1 ++ [0x34] ++ List.replicate 45 0)

theorem wit_RegionMessages_publish : msgOk 0x50 wPublish = true ∧ wHome.dev.originOk 0 0x50 wPublish = true ∧ wHome.dev.regionOpen = true
    ∧ wHome.dev.fab.jobs = [] ∧ fieldOf wPublish.slots 2 1 = 0x34
    ∧ (wHome.dev.regionOf (regionAddr (addrRegion 0) + versionOff)).map (fun r => (r.mirror, r.live.isNone, r.version)) = some (false, true, 0)
    ∧ wRegion.revoked 1 0 = false ∧ wRegion.grants_ 1 0 3 none = true ∧ fieldOf wPublish.slots 16 8 = 0 := by decide +kernel

/-- The home of a PERSIST region that has handed sector 0 of unit 0 to the stacks. -/
def wHanded : State :=
  wHomeWith (fun r => { r with attrs := 8 }) fun d =>
    { d with rgn := { d.rgn with handed := [(0, 0, 90)] }
             tim := { d.tim with len := 500 }
             stk := { discovered := true, channels := 32, dies := 4, planes := 2, rawGiB := 9, unitsPerBlock := 8, volumes := [(0, { region := true, capacity := 100 })] } }

theorem wit_RegionMessages_persist : wHanded.dev.rgn.handed = [(0, 0, 90)] ∧ wHanded.dev.stacksOn = true ∧ 4096 ≤ wHanded.dev.acceptRoom
    ∧ (tget wHanded.dev.rgn.slots 0).map (·.volume) = some 0 ∧ (wHanded.dev.vol? 0).isSome = true := by decide +kernel

/-- A descriptor body of `n` bytes with fields written at their offsets: offset, bytes, value. -/
def wBody (n : Nat) (fs : List (Nat × Nat × Nat)) : List Byte :=
  fs.foldl (fun b f => b.take f.1 ++ leBytes f.2.1 f.2.2 ++ b.drop (f.1 + f.2.1)) (List.replicate n 0)

/-- A descriptor of patron 0 with a class, an object and such a body. -/
def wReqOf (cls object : Nat) (fs : List (Nat × Nat × Nat)) (h : HostView := {}) : DescIn :=
  { patron := 0, tclass := cls, object := object, body := wBody 48 fs, host := h }

/-- What `Grants` asks, as a check. -/
def grantsB (s : State) (op : Nat) (x : DescIn) : Bool :=
  s.dev.ringRuns x.patron x.ring && s.dev.cqRoom x.patron (s.dev.boundCq x.patron x.ring) && ((granted s op x).2.fetchCheck op x).isNone
    && !(granted s op x).2.expired (granted s op x).1 && !behind (granted s op x).2.adm.held (granted s op x).1

/-- What `Planned` asks, as a check. -/
def plannedB (s : State) (op : Nat) (x : DescIn) : Bool :=
  grantsB s op x && match (granted s op x).2.planOne (granted s op x).2.adm.held (granted s op x).1 with
    | .ready d => !d.fenced (granted s op x).1
    | _ => false

theorem wit_ControlRows : grantsB wState 0x00 (wReqOf 0 0 []) = true
    ∧ grantsB wState 0x80 (wReqOf 6 0 [(0, 2, 20), (2, 2, 8)]) = true
    ∧ (20 ≠ wState.dev.tim.len ∨ 8 ≠ wState.dev.tim.plan) ∧ grantsB wState 0x82 (wReqOf 6 0 [(0, 1, 3), (1, 1, 64)]) = true
    ∧ grantsB wState 0x8A (wReqOf 6 0 [(0, 4, 20), (8, 1, 1), (16, 8, 64), (24, 4, 8)] { inputs := [some (leBytes 4 9 ++ leBytes 4 255)] }) = true
    ∧ grantsB wState 0x89 (wReqOf 6 0 [(1, 1, 10), (4, 4, 7)]) = true ∧ grantsB wState 0x8C (wReqOf 6 0 []) = true
    ∧ wState.dev.fab.epoch = 0 := by decide +kernel

/-- The stacks as the tests of descriptors need them: a SPAN volume 0. -/
def wVols : State :=
  wWith fun d => { d with stk := { discovered := true, channels := 32, dies := 8, planes := 2, rawGiB := 4096, blocksPerDie := 10, unitsPerBlock := 8, volumes := [(0, { dieCount := 4, capacity := 100 })] } }

theorem wit_FirmwareRows : grantsB wState 0x8D (wReqOf 6 0 [(0, 1, 2), (2, 2, 500)]) = true ∧ grantsB wState 0x8D (wReqOf 6 0 [(0, 1, 1)]) = true
    ∧ wState.dev.liveRegions = 0 ∧ grantsB wVols 0x85 (wReqOf 6 0 [(0, 2, 400), (4, 4, 3000)]) = true ∧ (wVols.dev.vol? 0).isSome = true
    ∧ grantsB wVols 0x83 (wReqOf 6 0 [(0, 1, 4)]) = true ∧ ((wVols.dev.vol? 0).map (·.formatId)).getD 0 = 0
    ∧ wVols.dev.backed 0 = 0 := by decide +kernel

/-- A VOLUME_FORMAT of REGION volume 1 on dies 4 to 7. -/
def wFormat : DescIn := wReqOf 6 1 [(0, 1, 1), (1, 1, 4), (2, 1, 4)]

theorem wit_FirmwareRows_format : grantsB wVols 0x83 wFormat = true ∧ wFormat.fld 8 0 64 = ((wVols.dev.vol? 1).map (·.formatId)).getD 0
    ∧ wVols.dev.backed 1 = 0 ∧ ((wVols.dev.vol? 1).map (·.protected_)).getD false = false
    ∧ wVols.dev.stk.volumes.all (fun e => decide (e.2.dieFirst + e.2.dieCount ≤ wFormat.fld 1 0 8)) = true := by decide +kernel

/-- The home of a PERSIST region that patron 0 owns. -/
def wPersist : State := wHomeWith fun r => { r with attrs := 8, ownerDev := 0 }

theorem wit_FirmwareRows_discard : grantsB wPersist 0x84 (wReqOf 6 0 [(8, 8, 4096)]) = true ∧ wPersist.dev.servesRegion 0 = wPersist.dev.devNo
    ∧ (tget wPersist.dev.rgn.slots 0).all (·.id == 0) = true
    ∧ (tget wPersist.dev.rgn.slots 0).all (fun r => r.persist && r.isOwner 0 0 && decide (r.st ≠ 4) && decide (r.st ≠ 5)
      && decide (4096 ≤ r.size)) = true := by decide +kernel

theorem wit_ProfileRows : grantsB wState 0x50 { wReqOf 0 3 [] with body := wProf.body } = true ∧ tget wState.dev.seqs.profiles 3 = none
    ∧ wState.dev.fitShortfall 0 { body := wProf.body, owner := 0 } = 0
    ∧ grantsB (wSpan {} fun d => { d with seqs := { d.seqs with spans := [] } }) 0x51 (wReqOf 0 1 []) = true
    ∧ (wSpan {} fun d => { d with seqs := { d.seqs with spans := [] } }).dev.profUsed 1 = false ∧ wProf.owner = 0 ∧ wProf.st ≠ 2
    ∧ wState.dev.cat.ents = [] := by decide +kernel

theorem wit_ReadbackRows : grantsB wState 0x40 (wReqOf 0 0 [(0, 1, 7), (4, 4, 1), (16, 8, 64), (24, 4, 4096)]) = true
    ∧ grantsB wState 0x41 (wReqOf 6 0 [(0, 1, 1)]) = true ∧ wState.dev.audit = none := by decide +kernel

/-- Patron 1, a virtual function's, ACTIVE. -/
def wVf : State :=
  wWith fun d => { d with host := { d.host with numVf := 1, patrons := d.host.patrons ++ [(1, { st := .active, lock := true })] } }

theorem wit_PatronReset : grantsB wVf 0x81 (wReqOf 6 0 [(0, 1, 65)]) = true ∧ wVf.dev.exists_ 1 = true ∧ (wVf.dev.pat 1).st = .active := by
  decide +kernel

/-- Sequence 7 of patron 0: its record, and its open span 5, which holds 10 tokens. -/
def wRec : Rec := { profile := 1, owner := 0, number := 7, length := 10, openSpan := 5 }

/-- The test device with that sequence, and span 9, CLOSED and resident, of position 0. -/
def wEdit (r : Rec) : State :=
  wWith fun d =>
    { d with seqs :=
      { profiles := [(1, wProf)], recs := [(3, r)]
        spans := [(5, { st := 1, profile := 1, ref := 1, fill := 10, key := 77, frames := [{ primary := 65536 * 5 + 4 }, { primary := 65536 * 5 + 8 }] }),
          (9, { st := 3, profile := 1, ref := 1, fill := 256, key := 88, resLayers := 2, frames := [{ primary := 65536 + 4 }, { primary := 65536 + 8 }]
                closed := [(0, wClosed), (1, wClosed)] })] } }

/-- An APPEND of one token of both layers in FP8. -/
def wAppend : DescIn :=
  wReqOf 0 7 [(0, 2, 1), (4, 2, 2), (6, 1, 17), (8, 4, 10), (12, 4, 1), (16, 8, 64), (24, 4, 324)] { inputs := [some (List.replicate 324 0)] }
/-- An ADOPT of span 9 by an empty sequence. -/
def wAdopt : DescIn := wReqOf 0 7 [(8, 4, 1), (16, 8, 64), (24, 4, 4)] { inputs := [some (leBytes 4 9)] }
/-- A FORK into sequence 8. -/
def wFork : DescIn := wReqOf 0 7 [(0, 4, 8), (4, 4, 1)]
/-- A TRIM to five tokens. -/
def wTrim : DescIn := wReqOf 0 7 [(0, 4, 5), (4, 4, 1)]
/-- A DROP. -/
def wDrop : DescIn := wReqOf 0 7 [(0, 4, 1)]
/-- The record of an empty sequence. -/
def wEmpty : Rec := { wRec with length := 0, openSpan := 0 }

theorem wit_EditRows_append : plannedB (wEdit wRec) 0x03 wAppend = true ∧ (appF wAppend).create = false ∧ (appF wAppend).refill = false
    ∧ genDiffers (appF wAppend).gen wRec = false ∧ appendState (appF wAppend) wProf wRec = true ∧ wRec.pendCount = 0
    ∧ appendProfileCheck wAppend wProf = none ∧ (appF wAppend).layers = wProf.layers ∧ (appF wAppend).pos % 256 + (appF wAppend).count < 256
    ∧ (wEdit wRec).dev.metaFits 0 ((wEdit wRec).dev.appendMeta wProf (appF wAppend) wRec) = true := by decide +kernel

theorem wit_EditRows_adopt : plannedB (wEdit wEmpty) 0x04 wAdopt = true ∧ genDiffers (wAdopt.fld 8 0 32) wEmpty = false
    ∧ adoptList (granted (wEdit wEmpty) 0x04 wAdopt).1 = [9]
    ∧ (wEdit wEmpty).dev.adoptFail 0 1 0 0 (((wEdit wEmpty).dev.lastListed wEmpty).getD 0) [9] = none
    ∧ (wEdit wEmpty).dev.metaFits 0 ((wEdit wEmpty).dev.tableMeta 0 [9]) = true ∧ (wEdit wEmpty).dev.anyFull [9] = false := by decide +kernel

theorem wit_EditRows_fork : plannedB (wEdit wEmpty) 0x05 wFork = true ∧ genDiffers (wFork.fld 4 0 32) wEmpty = false
    ∧ (wEdit wEmpty).dev.seq? 0 8 = none ∧ (wEdit wEmpty).dev.freeRec = some 0 ∧ (wEdit wEmpty).dev.mayName 0 1 = true := by decide +kernel

theorem wit_EditRows_trim : plannedB (wEdit wRec) 0x06 wTrim = true ∧ genDiffers (wTrim.fld 4 0 32) wRec = false
    ∧ 256 * ((wEdit wRec).dev.listed 0).length < 5 ∧ ((wEdit wRec).dev.span? 5).all (fun x => decide (x.ref ≤ 1)) = true
    ∧ plannedB (wEdit wRec) 0x07 wDrop = true ∧ genDiffers (wDrop.fld 0 0 32) wRec = false := by decide +kernel

/-- A PROBE of one position. -/
def wProbe : DescIn :=
  wReqOf 0 0 [(0, 1, 1), (1, 1, 1), (4, 4, 1), (16, 8, 64), (24, 4, 1024), (32, 8, 4096), (40, 4, 16)] { inputs := [some (List.replicate 1024 0)] }
/-- An ACCESSION of span 9 into the private scope. -/
def wAccession : DescIn := wReqOf 0 9 [(0, 2, 1), (3, 1, 2)]
/-- The catalogue with one entry, of span 9. -/
def wCat : State :=
  { wEdit wRec with dev := { (wEdit wRec).dev with cat := { ents := [(4, { key := 88, span := 9, scope := 0, cls := 2, publisher := 0, stamp := 1 })] } } }

theorem wit_CatalogueRows : grantsB (wEdit wRec) 0x10 wProbe = true ∧ (wEdit wRec).dev.mayName 0 (wProbe.fld 1 0 8) = true
    ∧ grantsB (wEdit wRec) 0x11 wAccession = true
    ∧ ((wEdit wRec).dev.span? 9).all (fun x => (wEdit wRec).dev.visible 0 9 x && x.ref != 0 && x.firstPos == 0 && x.st == 3) = true
    ∧ (wEdit wRec).dev.scopeMask 0 ≠ 0 ∧ (wEdit wRec).dev.scopeLimit 0 = 0 ∧ (wEdit wRec).dev.anyFull [9] = false
    ∧ grantsB wCat 0x12 (wReqOf 0 9 [(0, 2, 1)]) = true := by decide +kernel

/-- A two-entry descriptor of patron 0. -/
def wLong (object : Nat) (fs : List (Nat × Nat × Nat)) (h : HostView := {}) : DescIn :=
  { patron := 0, object := object, entries := 1, body := wBody 112 fs, host := h }

/-- An ATTEND of sequence 7 with one query at its last token. -/
def wAttend : DescIn :=
  wLong 7 [(2, 1, 1), (32, 8, 2 ^ 64 - 1), (48, 8, 64), (56, 4, 128), (64, 8, 4096), (72, 4, 128)] { inputs := [some (List.replicate 128 0)] }

/-- What `Attends` asks, as a check. -/
def attendsB (s : State) (x : DescIn) : Bool :=
  grantsB s 0x01 x && match (granted s 0x01 x).2.attendPlan (granted s 0x01 x).1 with
    | (d, q, none) =>
      let ss := (d.attendViews q).flatMap fun v => (v.reads x).map (·.2)
      !d.fenced q && ((d.deepLead x.patron (atnLayer x) ss).awaited (atnLayer x) ss).isEmpty && d.flt.frames.isEmpty
        && (ss.all fun i => (d.span? i).all fun y => !y.damaged) && !x.refuses 64 && (x.buf 80).absent
    | _ => false

theorem wit_DeliveryRows_attend : attendsB (wEdit wRec) wAttend = true := by decide +kernel

/-- A MERGE of two partials of one head of 16 channels into a partial. -/
def wMerge : DescIn :=
  wReqOf 0 0 [(0, 1, 2), (1, 1, 4), (4, 2, 1), (6, 2, 1), (8, 2, 16), (16, 8, 64), (24, 4, 2), (28, 4, 1), (32, 8, 4096), (40, 4, 256)]
    { inputs := [some []], lists := [(16, [List.replicate 192 0, List.replicate 192 0])] }

theorem wit_DeliveryRows_merge : grantsB wState 0x02 wMerge = true ∧ wMerge.refuses 32 = false ∧ partialLayout 1 1 16 2 = (64, (partialLayout 1 1 16 2).2) := by
  decide +kernel

/-- A touching HINT of span 9. -/
def wHint : DescIn := wReqOf 0 9 [(1, 1, 1)]

theorem wit_DeliveryRows_hint : grantsB (wEdit wRec) 0x20 wHint = true ∧ ((wEdit wRec).dev.live? 9).isSome = true
    ∧ ((wEdit wRec).dev.live? 9).all ((wEdit wRec).dev.visibleBefore 0 9) = true ∧ (wEdit wRec).dev.hintVacant 9 = false
    ∧ grantsB wStream 0x21 (wReqOf 0 0 [(0, 1, 2)]) = true ∧ (tget wStream.dev.tier.streams 0).isSome = true := by decide +kernel

/-- A STREAM start of layer 1 ahead of sequence 7, and one that delivers into loan window 2. -/
def wStart : DescIn := wReqOf 0 7 [(0, 1, 0), (2, 1, 1), (4, 2, 1)]
def wStartDeliver : DescIn := wReqOf 0 7 [(0, 1, 1), (2, 1, 1), (3, 1, 2), (6, 1, 4), (8, 4, 1), (12, 4, 0), (16, 4, 2 ^ 20)]
def wShelf : State :=
  (wEdit wRec).onDev fun d => { d with regs := tset d.regs (regTirShelfnCtrl.addr 2 0) (1 + 4 + 2 ^ 16 * 64) }

theorem wit_DeliveryRows_stream : grantsB (wEdit wRec) 0x21 wStart = true ∧ ((wEdit wRec).dev.seq? 0 7).isSome = true
    ∧ ((wEdit wRec).dev.seq? 0 7).all (fun r => decide (1 < ((wEdit wRec).dev.prof r.2.profile).layers)) = true
    ∧ wShelf.dev.shelfOn 2 = true ∧ grantsB wShelf 0x21 wStartDeliver = true := by decide +kernel

/-- A DELIVER of the folios of sequence 7 after its first, layer 0. -/
def wDeliver : DescIn := wLong 7 [(0, 1, 1), (4, 2, 1), (8, 4, 1), (32, 8, 64), (40, 4, 65536)]

/-- What `Delivers` asks, as a check. -/
def deliversB (s : State) (x : DescIn) : Bool :=
  grantsB s 0x22 x && x.fld 0 0 1 == 1 && x.fld 0 1 1 == 0 && match (granted s 0x22 x).2.deliverPlan (granted s 0x22 x).1 with
    | (d, q, none) =>
      !d.fenced q && ((firstSpans q).findIdx? d.vacantAt).isNone && (d.awaited (x.fld 2 0 16 + x.fld 4 0 16 - 1) (firstSpans q)).isEmpty
        && d.flt.frames.isEmpty && ((firstSpans q).all fun i => !d.blockPoisoned 0 i)
        && ((({ s with dev := d }).deliverBlocks q (firstSpans q) []).1.all fun b => decide (b.1 + b.2.length ≤ x.outLen 32)) && !x.refuses 32
    | _ => false

theorem wit_DeliveryRows_deliver : deliversB (wEdit wRec) wDeliver = true := by decide +kernel

/-- The home of a region of patron 0, mapped to it. -/
def wNear : State :=
  wHomeWith (fun r => { r with ownerDev := 0 }) fun d => { d with rgn := { d.rgn with maps := [{ region := 0, patron := 0, rights := 15, first := 0, count := 4 }] } }

/-- What `NearHere` asks, as a check. -/
def nearHereB (s : State) (op : Nat) (x : DescIn) : Bool :=
  let reads := (nearReads op x).map (·.1)
  let writes := (nearWrites op x).map (·.1)
  grantsB s op x && (s.dev.extentRefused x.patron (nearLen x)
      ((nearWrites op x).map (fun e => (e.1, e.2, 1)) ++ (nearReads op x).map fun e => (e.1, e.2, 0))).isNone
    && !(op == 0x31 && (hostSrc x || hostDst x)) && s.dev.servesRegion (addrRegion (nearDst x)) == s.dev.devNo
    && ((reads ++ writes).all fun a => (s.dev.regionOf a).isSome && addrDev a == s.dev.devNo && !s.dev.fencedUnit a (nearLen x / 64)
      && (s.dev.awaitsUnit a (nearLen x / 64)).isEmpty)
    && (reads.all fun a => (s.dev.homeRefuses 0x03 { source := s.dev.devNo + 64 * x.patron, addr := a, arg := nearLen x / 64 - 1 }).isNone)
    && (writes.all fun a => (s.dev.homeRefuses 0x0A { source := s.dev.devNo + 64 * x.patron, addr := a, arg := nearLen x / 64 - 1 }).isNone)
    && s.dev.flt.lines.isEmpty && (reads.all fun a => (extentLines (nearLen x) a).all fun b => !s.dev.linePoisoned (b % 2 ^ 50 / 64))

/-- A FILL of line 1, a COPY and a COMPARE of line 1 from line 2. -/
def wNearDesc : DescIn := wReqOf 0 0 [(8, 8, 64), (16, 8, 64), (24, 8, 128)]
/-- A REDUCE of two sources into line 1. -/
def wReduce : DescIn :=
  { patron := 0, entries := 2, body := wBody 176 [(1, 1, 2), (8, 8, 64), (16, 8, 64), (48, 8, 128), (56, 8, 192)] }

theorem wit_NearRows : nearHereB wNear 0x30 wNearDesc = true ∧ nearHereB wNear 0x31 wNearDesc = true ∧ nearHereB wNear 0x32 wNearDesc = true
    ∧ nearHereB wNear 0x33 wReduce = true ∧ (wNear.dev.regionOf 64).isSome = true
    ∧ ((wNear.dev.regionOf 64).map fun r => (spaceFor wNear.dev 0 (unitRun 64 1).1 r (unitRun 64 1).2).isSome) = some true := by decide +kernel

theorem wit_RegionRowsAtHome : wNear.dev.servesRegion 0 = wNear.dev.devNo ∧ (wNear.dev.regionOf (regionAddr 0)).isSome = true
    ∧ grantsB wNear 0x34 (wReqOf 0 0 []) = true ∧ grantsB wNear 0x88 (wReqOf 6 0 []) = true
    ∧ grantsB (wHomeWith fun r => { r with attrs := 1, ownerDev := 0 }) 0x87 (wReqOf 6 0 [(0, 1, 1), (1, 1, 3), (2, 1, 1), (8, 4, 1)]) = true
    ∧ grantsB (wHomeWith fun r => { r with ownerDev := 0, grants := [{ dev := 1, patron := 3, rights := 1, first := 0, count := 1 }] }) 0x35
      (wReqOf 0 0 [(0, 1, 1), (1, 1, 3)]) = true
    ∧ grantsB wNear 0x86 (wReqOf 6 64 [(8, 8, 2 ^ 21)]) = true ∧ tget wNear.dev.rgn.slots 1 = none
    ∧ wNear.dev.volumeOk (regionFrom (wReqOf 6 64 [(8, 8, 2 ^ 21)]) 64) = true
    ∧ wNear.dev.writesOpen 0 0 = false ∧ wNear.dev.fab.homeComb = [] := by decide +kernel

theorem wit_RegionRowsTravel : 1 ≠ wNear.dev.devNo ∧ wNear.dev.isDead 1 = false ∧ wNear.dev.inPool 1 = true ∧ grantsB wNear 0x34 (wReqOf 0 1 []) = true
    ∧ wNear.dev.servesRegion 1 = 1 ∧ wNear.dev.writesOpen 0 1 = false
    ∧ grantsB wApt 0x30 (wReqOf 0 0 [(8, 8, 64), (16, 8, 2 ^ 50), (24, 8, 5)]) = true
    ∧ wApt.dev.extentRefused 0 64 [(2 ^ 50, 64, 1)] = none ∧ wApt.dev.servesRegion (addrRegion (2 ^ 50)) = 1 := by decide +kernel

/-- The test device with a register field set, and changed further. -/
def wSet (r : RegRow) (field v : Nat) (f : Dev → Dev := id) : State := wWith fun d => f (d.setReg r 0 0 field v)

/-- Patron 0 before its SETUP_LOCK, with rings that pass every check. -/
def wConfiguring : State :=
  wWith fun d => { d with regs := [(regPatSqnCtrl.addr 0 0, 4), (regPatCqnCtrl.addr 0 0, 4), (regPatEqCtrl.addr 0 0, 6), (regTikPlanLen.addr 0 0, 10)]
                          host := { d.host with patrons := [(0, { st := .configuring })] } }

theorem wit_TimeRegisterRows : wConfiguring.dev.reached 0 = true ∧ wConfiguring.dev.blockOpen 1 = true ∧ (wConfiguring.dev.pat 0).lock = false
    ∧ planFits (wConfiguring.dev.reg regTikPlanLen) 20 = true ∧ wConfiguring.dev.follower = false ∧ wConfiguring.dev.timeSource ≠ 3
    ∧ wState.dev.reached 0 = true ∧ wState.dev.blockOpen 1 = true ∧ (wState.dev.pat 0).lock = true := by decide +kernel

theorem wit_MctpTimeRow : wState.dev.timeSource ≠ 3 ∧ wState.dev.boot.st ≠ .off ∧ wState.dev.boot.st ≠ .tamperHold := by decide +kernel

/-- A change to 10 µs waits, at an edge of both lengths and between two. -/
def wLength (now : Nat) : State := wWith fun d => { d with tim := { d.tim with pend := some { len := 10 }, now := now, phase := .admission } }

theorem wit_TickLengthSwitches : (wLength 2000000).dev.tim.switches { len := 10 } = true ∧ (wLength 2000000).dev.follower = false
    ∧ (PendLen.plan { len := 10 }).getD (wLength 2000000).dev.tim.plan < 64 ∧ (wLength 2005000).dev.tim.switches { len := 10 } = false := by
  decide +kernel

/-- The test device with its time changed. -/
def wTim (f : TimeSt → TimeSt) (source : Nat := 0) : State := wSet regTikCtrl 0 source fun d => { d with tim := f d.tim }

theorem wit_TimeCorrections : (wTim fun t => { t with good := 2 }).dev.tim.ticking = true ∧ (wTim fun t => { t with good := 2 }).dev.tim.provisional = false
    ∧ (wTim fun t => { t with good := 2 }).dev.timeSource = 0 ∧ (wTim id).dev.tim.missed = 0 ∧ (wTim id 1).dev.timeSource = 1
    ∧ (wTim (fun t => { t with tod := [(10, 7)] }) 1).dev.tim.todAt (10 ^ 8 + 10) = some 7 ∧ (wTim id).dev.timeSource ≠ 3
    ∧ (wTim fun t => { t with holdover := true }).dev.tim.faultSent = false ∧ (wTim id).dev.tim.holdover = false := by decide +kernel

/-- Device 0 of a wing that keeps wing time, its ports UP. -/
def wWing (f : TimeSt → TimeSt) : State := { wFab .up with dev := ({ (wFab .up).dev with tim := f (wFab .up).dev.tim }).setReg regTikCtrl 0 0 1 1 }

/-- The payload of a TIME message with a tick length. -/
def wTimeMsg : Msg := wMsg 5 0 (List.replicate 16 0 ++ leBytes 2 20 ++ List.replicate 14 0)

theorem wit_WingTimeRows : (wWing id).dev.wingMode = true ∧ nextPosition (wWing id).dev.tim.masterPos [3, 1] = some 1
    ∧ (wWing fun t => { t with provisional := true }).dev.tim.master = true ∧ (wWing id).dev.tim.ticking = true
    ∧ (wWing id).dev.fabOn = true ∧ (wWing id).dev.portUp 0 = true ∧ (wWing id).dev.tim.adopt = none
    ∧ (wConfiguring.dev.anyActive = false) ∧ msgOk 0x39 wTimeMsg = true
    ∧ (wWing fun t => { t with ticking := false, masterPos := 1 }).dev.originOk 0 0x39 wTimeMsg = true
    ∧ srcDev wTimeMsg.source / 16 = (wWing id).dev.wing ∧ srcDev wTimeMsg.source ≠ (wWing id).dev.devNo
    ∧ srcDev wTimeMsg.source % 16 = 1 ∧ fieldOf wTimeMsg.slots 16 2 = 20 := by decide +kernel

/-- The test device with its admission changed. -/
def wAdm (f : AdmSt → AdmSt) : State := wWith fun d => { d with adm := f d.adm }
/-- A gate list of 40 µs with two entries. -/
def wGates : GateList := { period := 40, entries := [(20, 255), (20, 1)] }

theorem wit_GateRows : (wAdm fun a => { a with gatePend := some wGates }).dev.adm.gatePend = some wGates ∧ wGates.startAt 2000000 = 2000000
    ∧ (wAdm id).dev.tim.now ≤ 2000000 ∧ (wAdm fun a => { a with gates := wGates, cycleStart := 1960000 }).dev.adm.gatePend = none
    ∧ (wAdm fun a => { a with gates := wGates }).dev.adm.gateEntry + 1 < wGates.entries.length
    ∧ wGates.entries.length ≤ (wAdm fun a => { a with gates := wGates, gateEntry := 1 }).dev.adm.gateEntry + 1 := by decide +kernel

theorem wit_DoorbellRows : wState.dev.served 0 = true ∧ wState.dev.active 0 = true ∧ 15 < wState.dev.sqDepth 0 (0x00 / 4)
    ∧ wState.dev.bktRate (bktPol 0) = 0 ∧ 1 < wState.dev.cqDepth 0 (0x40 / 4 - 16) ∧ 1 < wState.dev.eqDepth 0
    ∧ (let d := { wState.dev with host := { wState.dev.host with patrons := [(0, { st := .active, cq := [(0, { written := 1 })], eq := { written := 1 } })] } }
       ((d.pat 0).cqAt 0).consumed + ringSpan (d.cqDepth 0 0) ((d.pat 0).cqAt 0).headIdx 1 ≤ ((d.pat 0).cqAt 0).written
       ∧ (d.pat 0).eq.consumed + ringSpan (d.eqDepth 0) (d.pat 0).eq.headIdx 1 ≤ (d.pat 0).eq.written ∧ (d.pat 0).eq.lost = 0) := by decide +kernel

/-- The cases of an ignored doorbell that a store to a ring meets, in their order, each at a boundary value. -/
theorem wit_IgnoredDoorbells : doorbellCase 2 32 0 16 false true = some 1 ∧ doorbellCase 0 32 65536 16 false true = some 2
    ∧ doorbellCase 0 32 0 0 false true = some 3 ∧ doorbellCase 0 32 16 16 false true = some 4 ∧ doorbellCase 0x40 32 15 16 true true = some 5
    ∧ doorbellCase 0 32 15 16 false false = some 6 ∧ wState.dev.served 0 = true := by decide +kernel

theorem wit_PatLockActivates : wConfiguring.dev.reached 0 = true ∧ (wConfiguring.dev.pat 0).st = .configuring ∧ wConfiguring.dev.lockCheck 0 = none
    ∧ (wWith fun d => { d with regs := [], host := { d.host with patrons := [(0, { st := .configuring })] } }).dev.lockCheck 0 = some 3
    ∧ (wState.dev.pat 0).st ≠ .configuring ∧ wState.dev.reached 0 = true := by decide +kernel

/-- Two functions, patron 1 ACTIVE. -/
def wTwo (f : PatronSt → PatronSt := id) : State :=
  wWith fun d => { d with host := { d.host with numVf := 1, patrons := [(0, { st := .active, lock := true }), (1, f { st := .active, lock := true })] } }

theorem wit_PatronResetRows : (wTwo).dev.reached 1 = true ∧ ((wTwo).dev.pat 1).st = .active ∧ (wTwo).dev.reached 0 = true
    ∧ (wTwo).dev.host.linkUp = true ∧ (wTwo).dev.host.numVf ≠ 0
    ∧ ((wTwo fun p => { p with st := .resetting, reset := some { discard := false } }).dev.pat 1).reset = some { discard := false, follow := false }
    ∧ (wTwo).dev.adm.open_ 1 = [] := by decide +kernel

theorem wit_FunctionRows : wState.dev.host.numVf = 0 ∧ (wState.dev.pat 1).st = .disabled ∧ (wTwo).dev.active 1 = true
    ∧ 3 ∈ ((wTwo fun p => { p with msixMasked := [3], msixPend := [3] }).dev.pat 1).msixMasked
    ∧ 3 ∈ ((wTwo fun p => { p with msixMasked := [3], msixPend := [3] }).dev.pat 1).msixPend ∧ [3].Nodup
    ∧ State.reset.dev.host.linkUp = false ∧ (8 : Nat) ≠ wState.dev.host.width := by decide +kernel

theorem wit_ConfigRows : wState.dev.exists_ 0 = true ∧ wState.dev.boot.st = .serving ∧ State.reset.dev.exists_ 0 = true
    ∧ State.reset.dev.boot.st = .booting ∧ 2 ∉ State.reset.dev.boot.steps := by decide +kernel

theorem wit_ApertureMisses : wState.dev.served 0 = true ∧ wState.dev.aperture 0 = none ∧ wState.dev.aperture (2 ^ 36 - 8) = none := by decide +kernel

/-- The test device with one field of its fault block set. -/
def wFlt (v : Nat) (r : RegRow := regFltCtrl) (field : Nat := 0) : State := wSet r field v

theorem wit_LineRows : wState.dev.inTable 64 = false ∧ wState.dev.injectedRead 64 = none ∧ wState.dev.flt.reserve = []
    ∧ tfresh (tkeep wState.dev.flt.tables fun i _ => i / 8192 == 1) (8192 * 1) < 8192 * (1 + 1)
    ∧ (wFlt 1 regFltCtrl 1).dev.reg regFltCtrl 0 0 1 = 1 ∧ 1 ∉ wState.dev.flt.out
    ∧ (wFlt 1 regFltCtrl 1).dev.flt.scrubUnit ≠ some 3 ∧ (wFlt 1 regFltCtrl 1).dev.mayStart 5 = true
    ∧ (wWith fun d => { d with flt := { d.flt with scrubUnit := some 3 } }).dev.flt.scrubUnit = some (196672 / 65536)
    ∧ (wConfiguring.dev.pat 0).lock = false ∧ (wConfiguring.dev.setReg regFltInjectMask 0 0 0 3).reg regFltInjectMask ≠ 0
    ∧ wState.dev.reg regFltInjectMask = 0 := by decide +kernel

theorem wit_RepairRows : (wFlt 1 regFltCtrl 2).dev.reg regFltCtrl 0 0 2 = 1 ∧ 5 < clusterUnits ∧ 5 ∉ tgetD wState.dev.seqs.retired (17 / 16) []
    ∧ (wWith fun d => { d with flt := { d.flt with sweep := true } }).dev.flt.sweep = true ∧ wState.dev.flt.sweep = false ∧ wState.dev.sec.restarting = false
    ∧ (1, 2) ∈ (wWith fun d => { d with stk := { d.stk with waitSegs := [(1, 2)] } }).dev.stk.waitSegs
    ∧ wState.dev.active (64 % 64) = true ∧ wState.dev.flt.lanes.getD 2 0 < 2 ∧ 2 < wState.dev.flt.lanes.length := by decide +kernel

/-- A device that is no head and has heard none: nobody to tell. -/
def wAlone (f : Dev → Dev := id) : State := wWith fun d => f { d with boot := { d.boot with straps := { headN := true } } }

theorem wit_ClusterRows : (wAlone).dev.headOfWing = none ∧ (wAlone).dev.boot.st = .serving ∧ 3 ∉ (wAlone).dev.flt.out
    ∧ 3 ∈ (wAlone fun d => { d with flt := { d.flt with out := [3] } }).dev.flt.out ∧ (wAlone).dev.fab.held = []
    ∧ (wAlone).dev.firmwareRuns = true ∧ (wAlone).dev.wardenPasses 64 = false ∧ (wAlone).dev.sec.advance = none := by decide +kernel

theorem wit_DeviceFault : wState.dev.flt.deviceFault = false ∧ wState.dev.boot.st ≠ .off ∧ wState.dev.boot.st ≠ .tamperHold
    ∧ (wWith fun d => { d with flt := { d.flt with deviceFault := true } }).dev.flt.deviceFault = true := by decide +kernel

/-- The test device with SPDM on, in a session. -/
def wSpdm (f : SecSt → SecSt := id) : State := wSet regSecCtrl 0 1 fun d => { d with sec := f { d.sec with sessions := [{ id := 1, finished := true }, { id := 2 }] } }

theorem wit_SpdmRows : (wSpdm).dev.spdmOn = true ∧ (wSpdm).dev.inSession 1 = true ∧ (wSpdm).dev.inSession 2 = false
    ∧ (wSpdm).dev.sec.sessions.length < 4 ∧ ((wSpdm).dev.sec.sessions.any fun x => x.id == 2 && !x.finished) = true
    ∧ (wSpdm).dev.measurement 5 ≠ [] := by decide +kernel

/-- A KEY_SET payload of patron 0 with two different halves. -/
def wKeys : List Byte := List.replicate 36 0 ++ List.replicate 32 1

theorem wit_VendorRows : (0 : Nat) = leNat ((wKeys.drop 1).take 1) % 64 ∧ (wKeys.drop 4).length = 64 ∧ (wKeys.drop 4).take 32 ≠ (wKeys.drop 4).drop 32
    ∧ (wConfiguring.dev.pat 0).st = .configuring ∧ wConfiguring.dev.hasData 0 = false ∧ (wSpdm).dev.sec.debug = false
    ∧ (({ wConfiguring with dev := { wConfiguring.dev with sec := (wSpdm).dev.sec } }).dev.setReg regSecCtrl 0 0 0 1).spdmOn = true
    ∧ (wSpdm).dev.sec.entropyOk = true ∧ (wSpdm fun x => { x with nonce := some 0 }).dev.sec.nonce ≠ none := by decide +kernel

theorem wit_SecurityRows : wState.dev.boot.st ≠ .off ∧ wState.dev.boot.st ≠ .tamperHold ∧ wState.dev.sensorOn 3 = true ∧ wState.dev.doeOn = true
    ∧ wState.dev.sec.debug = false
    ∧ (wWith fun d => { d with boot := { d.boot with st := .recovery } }).dev.sec.rcvState ≠ 1 := by decide +kernel

/-- Debug unlocked: the one state in which an access to the device's inside stops. -/
theorem wit_JtagStops : (wSpdm fun x => { x with debug := true }).dev.sec.debug = true
    ∧ (exec (.jtagInstruction 2) (wSpdm fun x => { x with debug := true }) matches .refused .debugInternalAccess) = true := by decide +kernel

theorem wit_RingHolds : ((wState.dev.pat 0).sqAt 1).tail = ((wState.dev.pat 0).sqAt 1).head ∧ ringSpan 16 3 2 = 15 := by decide +kernel

/-- A COMPARE whose deadline tick has ended. -/
def wPast : DescIn := { patron := 0, deadline := 99, body := wBody 48 [(8, 8, 64), (16, 8, 64), (24, 8, 128)] }

theorem wit_PastDeadline : wState.dev.ringRuns 0 wPast.ring = true ∧ wState.dev.cqRoom 0 (wState.dev.boundCq 0 wPast.ring) = true
    ∧ (granted wState 0x32 wPast).2.fetchCheck 0x32 wPast = none ∧ wPast.deadline < wState.dev.tim.count := by decide +kernel

theorem wit_RotationBlock : wProf.closedClass < 32 ∧ wProf.openClass < 32 ∧ wProf.tailClass < 32 ∧ wProf.flashClass < 32 := by decide +kernel

end Sys2Proof.Tests
end

section
/-! ### Time: a tick of another length, and a deadline that has passed (R44, R46, R57, R61) -/

namespace Sys2Proof.Safety

open Sys2Proof.Machine

/-! #### Messages of the event rings, and the number of the tick -/

theorem sendMsix_frame (d : Dev) (p v : Nat) : Frame [.host, .rings, .out, .ctrs] d (d.sendMsix p v) := by
  unfold Dev.sendMsix; split
  · exact (modPat_frame ..).mono (by decide)
  · exact (count_frame ..).step (by decide) ((emit_frame ..).mono (by decide))

theorem eventMsix_frame (d : Dev) : Frame [.host, .rings, .out, .ctrs] d d.eventMsix := by
  refine (Frame.refl _ d).foldl fun e p => ?_
  have noted : ∀ (e : Dev) (f : EqSt → EqSt), Frame [.host, .rings, .out, .ctrs] e (e.modEq p f) :=
    fun e f => (modEq_frame e p f).mono (by decide)
  extract_lets sent e'
  split
  · exact Frame.refl _ e
  · split
    · exact ((noted e _).trans (noted e' _)).trans (sendMsix_frame ..)
    · exact noted e _

theorem Frame.count_eq {ps : List Part} {d e : Dev} (h : Frame ps d e) (n : .tim ∉ ps) : e.tim.count = d.tim.count :=
  (TimeSt.mk.inj (h.same .tim n)).2.1

theorem Changes.of_frame {ps : List Part} {s : State} {d : Dev} (h : Frame ps s.dev d) : Changes ps s { s with dev := d } := ⟨rfl, rfl, h⟩

/-! #### The length switch -/

/-- Time takes a length that waited. -/
def takeLength (d : Dev) (p : PendLen) : Dev :=
  { d with tim := { d.tim with len := p.len, plan := p.plan.getD d.tim.plan, pend := none } }

/-- The device with a length that waited in force: the registers show it unless the device follows (R42, R556). -/
def lengthInForce (d : Dev) (p : PendLen) : Dev :=
  if (takeLength d p).follower then takeLength d p
  else ((takeLength d p).setReg regTikLength 0 0 0 p.len).setReg regTikPlanLen 0 0 0 (p.plan.getD d.tim.plan)

/-- The device after the switch: the event belongs to the edge that the switch is a part of, and so does its message (R101). -/
def switchLength (d : Dev) (p : PendLen) : Dev :=
  ((lengthInForce d p).devEvent 0x0012 p.len (lengthInForce d p).tim.count).eventMsix

theorem tickLengthSwitch_at_edge {s : State} {p : PendLen} (waits : s.dev.tim.pend = some p) (edge : s.dev.tim.switches p = true) :
    exec .tickLengthSwitch s = .next { s with dev := switchLength s.dev p } := by
  change execTickLengthSwitch s = _
  simp only [execTickLengthSwitch, State.onDev, waits, edge, Bool.not_true, Bool.false_eq_true, if_false]
  rfl

theorem tickLengthSwitch_idle {s : State} (idle : ∀ p, s.dev.tim.pend = some p → s.dev.tim.switches p = false) :
    exec .tickLengthSwitch s = .next s := by
  change execTickLengthSwitch s = _
  unfold execTickLengthSwitch State.onDev
  beta_reduce
  split
  case h_1 => rfl
  case h_2 p waits => rw [idle p waits]; rfl

theorem takeLength_frame (d : Dev) (p : PendLen) : Frame [.tim] d (takeLength d p) := Frame.tim_only d _ rfl

theorem lengthInForce_regs (d : Dev) (p : PendLen) : Frame [.regs] (takeLength d p) (lengthInForce d p) := by
  unfold lengthInForce
  split
  · exact Frame.refl ..
  · exact (setReg_frame ..).trans (setReg_frame ..)

theorem switchLength_event (d : Dev) (p : PendLen) : Frame (.host :: evParts) (lengthInForce d p) (switchLength d p) :=
  (eventMsix_frame ..).step (by decide) ((devEvent_frame ..).mono (by decide))

theorem switchLength_frame (d : Dev) (p : PendLen) : Frame (.tim :: .regs :: .host :: evParts) d (switchLength d p) :=
  (switchLength_event d p).step (by decide) ((lengthInForce_regs d p).step (by decide) ((takeLength_frame d p).mono (by decide)))

theorem switchLength_count (d : Dev) (p : PendLen) : (switchLength d p).tim.count = d.tim.count :=
  calc (switchLength d p).tim.count
    _ = (lengthInForce d p).tim.count := (switchLength_event d p).count_eq (by decide)
    _ = (takeLength d p).tim.count := (lengthInForce_regs d p).count_eq (by decide)
    _ = d.tim.count := rfl

/-- R44, R46: whatever length waits, or none, the switch keeps the tick's number and reaches time, the registers and what an event
with its message writes. -/
theorem tickLengthSwitch_changes (s : State) : After .tickLengthSwitch s fun t =>
    t.dev.tim.count = s.dev.tim.count ∧ Changes (.tim :: .regs :: .host :: evParts) s t := by
  by_cases edge : ∃ p, s.dev.tim.pend = some p ∧ s.dev.tim.switches p = true
  · obtain ⟨p, waits, edge⟩ := edge
    refine ⟨_, tickLengthSwitch_at_edge waits edge, ?_, .of_frame (switchLength_frame s.dev p)⟩
    dsimp only
    exact switchLength_count s.dev p
  · exact ⟨s, tickLengthSwitch_idle (by simpa using edge), rfl, rfl, rfl, Frame.refl ..⟩

theorem overdue_eq_of_count {d e : Dev} (h : e.tim.count = d.tim.count) (q : Req) : e.overdue q = d.overdue q := by
  simp only [Dev.overdue, h]

theorem expired_eq_of_count {d e : Dev} (h : e.tim.count = d.tim.count) (q : Req) : e.expired q = d.expired q := by
  simp only [Dev.expired, h]

/-- Settles O59: the switch reaches neither requests nor jobs, and both tests of a deadline read the tick's number alone. -/
theorem lengthChangeKeepsDeadlines : Obligations.LengthChangeKeepsDeadlines := by
  intro s
  obtain ⟨t, run, hCount, -, -, frame⟩ := tickLengthSwitch_changes s
  exact ⟨t, run, frame.same .adm (by decide), frame.same .fab (by decide), hCount,
    fun q => ⟨overdue_eq_of_count hCount q, expired_eq_of_count hCount q⟩⟩

/-! #### A descriptor past its deadline -/

theorem completeNext_due (d : Dev) (q : Req) (a : Ans) :
    ∃ ps, (d.completeNext q a).adm.due = d.adm.due ++ [{ q.due a (d.tim.count + 1) with peers := ps }] := by
  unfold Dev.completeNext Dev.peersDone Dev.dueOf; simp only [countOp_adm, countOp_tim]; exact ⟨_, rfl⟩

theorem granted_expired {s : State} {op : Nat} {x : DescIn} (o : deadlined op = true) (given : x.deadline ≠ 0)
    (past : x.deadline < s.dev.tim.count) : (granted s op x).2.expired (granted s op x).1 = true := by
  obtain ⟨hd, hop, -⟩ := granted_req s op x
  simp [Dev.expired, hd, hop, granted_tim, o, given, past]

section
variable {s : State} {op : Nat} {x : DescIn} (runs : s.dev.ringRuns x.patron x.ring = true)
    (room : s.dev.cqRoom x.patron (s.dev.boundCq x.patron x.ring) = true) (form : (granted s op x).2.fetchCheck op x = none)
    (past : (granted s op x).2.expired (granted s op x).1 = true)
include runs room form past

/-- R61: a descriptor that passes its checks after its deadline tick completes LATE, and its operation does not run. -/
theorem descriptor_late :
    s.descriptor op x = { s with dev := (granted s op x).2.completeNext (granted s op x).1 { status := stLate } } := by
  unfold State.descriptor
  simp only [granted] at form past
  simp only [runs, room, form, past, Bool.not_true, Bool.false_eq_true, or_self, if_false, if_true]
  rfl

theorem descriptor_late_changes :
    (∃ ps, (s.descriptor op x).dev.adm.due
      = s.dev.adm.due ++ [{ (granted s op x).1.due { status := stLate } (s.dev.tim.count + 1) with peers := ps }])
    ∧ Changes [.adm, .rings, .ctrs] s (s.descriptor op x) := by
  rw [descriptor_late runs room form past]
  constructor
  · obtain ⟨ps, due⟩ := completeNext_due (granted s op x).2 (granted s op x).1 { status := stLate }
    rw [granted_due, granted_tim] at due
    exact ⟨ps, due⟩
  · exact .of_frame ((completeNext_frame ..).step (by decide) (granted_frame s op x))

end

/-- The descriptor rows whose operation has a deadline, with their opcodes (R57). -/
def deadlineRows (x : DescIn) : List (Nat × Instr) :=
  [(0x01, .attend x), (0x02, .merge x), (0x10, .probe x), (0x32, .compare x), (0x22, .deliver x)]

theorem deadlineRows_run {op : Nat} {x : DescIn} {c : Instr} (h : (op, c) ∈ deadlineRows x) :
    deadlined op = true ∧ ∀ s, exec c s = .next (s.descriptor op x) := by
  simp only [deadlineRows, List.mem_cons, Prod.mk.injEq, List.not_mem_nil, or_false] at h
  rcases h with ⟨rfl, rfl⟩ | ⟨rfl, rfl⟩ | ⟨rfl, rfl⟩ | ⟨rfl, rfl⟩ | ⟨rfl, rfl⟩
  all_goals exact ⟨rfl, fun _ => rfl⟩

/-- Settles O58: each of the five rows is its descriptor's course, which ends at the deadline. -/
theorem pastDeadlineIsLate : Obligations.PastDeadlineIsLate := by
  intro s op x c row runs room form given past
  obtain ⟨hasDeadline, run⟩ := deadlineRows_run row
  exact ⟨_, run s, descriptor_late_changes runs room form (granted_expired hasDeadline given past)⟩

end Sys2Proof.Safety
end

section
/-! ### Rings: the entries between two indices, and a fetch from an empty ring (R81) -/

namespace Sys2Proof.Safety

open Sys2Proof.Machine

/-! #### The entries between two indices of a ring -/

/-- A tail at or past the head: the entries between them do not wrap around the ring. -/
theorem ringSpan_of_le {depth head tail : Nat} (h : head ≤ tail) (inside : tail < depth) : ringSpan depth head tail = tail - head := by
  have wraps : tail + depth - head = tail - head + depth := by omega
  rw [ringSpan, wraps, Nat.add_mod_right, Nat.mod_eq_of_lt (by omega)]

/-- A tail before the head: the entries run over the end of the ring. -/
theorem ringSpan_of_lt {depth head tail : Nat} (h : tail < head) (inside : head < depth) :
    ringSpan depth head tail = tail + depth - head :=
  Nat.mod_eq_of_lt (by omega)

/-- Between equal indices lies no entry, whatever the depth, that of a ring that does not exist included. -/
@[simp] theorem ringSpan_self (depth i : Nat) : ringSpan depth i i = 0 := by
  simp [ringSpan]

theorem ringSpan_le_depth_sub_one {depth : Nat} (head tail : Nat) (depth_pos : 0 < depth) : ringSpan depth head tail ≤ depth - 1 :=
  Nat.le_sub_one_of_lt (Nat.mod_lt _ depth_pos)

theorem ringSpan_eq_zero_iff {depth head tail : Nat} (hh : head < depth) (ht : tail < depth) :
    ringSpan depth head tail = 0 ↔ tail = head := by
  rcases le_or_gt head tail with ahead | behind
  · rw [ringSpan_of_le ahead ht]; omega
  · rw [ringSpan_of_lt behind hh]; omega

/-! #### A fetch from an empty ring -/

/-- R90: with nothing announced past the ring's head, no descriptor is fetched, whatever host memory would return. -/
theorem fetch_of_nothing_ready (d : Dev) {p ring : Nat} (raw : Option (List Byte)) (h : HostView)
    (empty : ringSpan (d.sqDepth p ring) ((d.pat p).sqAt ring).head ((d.pat p).sqAt ring).tail = 0) : d.fetch p ring raw h = d :=
  if_pos (.inr (.inr (.inl empty)))

theorem exec_descriptorFetch (p ring : Nat) (raw : Option (List Byte)) (h : HostView) (s : State) :
    exec (.descriptorFetch p ring raw h) s = .next { s with dev := s.dev.fetch p ring raw h } := rfl

/-- Settles O57: the span is a remainder modulo the depth, and a fetch tests it for zero. -/
theorem ringHoldsDepthLessOne : Obligations.RingHoldsDepthLessOne := by
  constructor
  · intro depth head tail hh ht
    exact ⟨ringSpan_le_depth_sub_one head tail (Nat.zero_lt_of_lt hh), ringSpan_eq_zero_iff hh ht⟩
  · intro s p ring raw h empty
    rw [exec_descriptorFetch, fetch_of_nothing_ready s.dev raw h (by rw [empty, ringSpan_self])]

end Sys2Proof.Safety
end

section
/-! ### Rotation: the block size and its place in the capability word (R124, R151) -/

namespace Sys2Proof.Safety

open Sys2Proof.Machine

/-- The test that `rotBlock` makes of the row width is that of R124, for every width, 0 included. -/
theorem two_pow_log2_eq_self_iff {d : Nat} : 2 ^ Nat.log2 d = d ↔ ∃ k, d = 2 ^ k := by
  constructor
  · exact fun h => ⟨_, h.symm⟩
  · rintro ⟨k, rfl⟩
    rw [Nat.log2_two_pow]

/-! #### The block size, a lemma for each case of R124 -/

@[simp] theorem rotBlock_latent (d : Nat) : rotBlock true d = 64 := rfl

theorem rotBlock_two_pow (k : Nat) : rotBlock false (2 ^ k) = 2 ^ k :=
  if_pos (two_pow_log2_eq_self_iff.mpr ⟨k, rfl⟩)

theorem rotBlock_of_not_two_pow {d : Nat} (h : ∀ k, d ≠ 2 ^ k) : rotBlock false d = if d % 32 = 0 then 32 else 16 :=
  if_neg fun test => (two_pow_log2_eq_self_iff.mp test).elim h

/-! #### The capability word -/

theorem flag_le_one (b : Bool) : flag b ≤ 1 := by cases b <;> decide

/-- The fields of the capability word below ROT_BLOCK (R151). -/
def capLow (p : Profile) : Nat :=
  p.closedClass + 2 ^ 5 * p.openClass + 2 ^ 10 * p.tailClass + 2 ^ 15 * p.flashClass + 2 ^ 20 * flag p.twoPass

theorem capWord_eq (p : Profile) : p.capWord = capLow p + 2 ^ 21 * rotBlock p.latent p.dim := rfl

/-- Four class codes of 5 bits and TWO_PASS fill bits 20 to 0 and no more. -/
theorem capLow_lt {p : Profile} (closed : p.closedClass < 32) (opened : p.openClass < 32) (tail : p.tailClass < 32)
    (flash : p.flashClass < 32) : capLow p < 2 ^ 21 := by
  have twoPass := flag_le_one p.twoPass
  unfold capLow
  omega

/-- With class codes that fit their fields, the bits of the word from 21 up are the block size. -/
theorem capWord_rotBlock {p : Profile} (closed : p.closedClass < 32) (opened : p.openClass < 32) (tail : p.tailClass < 32)
    (flash : p.flashClass < 32) : p.capWord / 2 ^ 21 = rotBlock p.latent p.dim := by
  rw [capWord_eq, Nat.add_mul_div_left _ _ (by decide), Nat.div_eq_of_lt (capLow_lt closed opened tail flash), Nat.zero_add]

/-- Settles O60: R124's cases are the branches of `rotBlock`, and the fields below ROT_BLOCK do not carry into it. -/
theorem rotationBlockSize : Obligations.RotationBlockSize := by
  refine ⟨?powerOfTwo, ?multipleOf32, ?otherWidth, rotBlock_latent, fun p => capWord_rotBlock⟩
  case powerOfTwo =>
    rintro _ k rfl
    exact rotBlock_two_pow k
  case multipleOf32 =>
    intro d notPow divides
    rw [rotBlock_of_not_two_pow notPow, if_pos divides]
  case otherWidth =>
    intro d notPow not32
    rw [rotBlock_of_not_two_pow notPow, if_neg not32]

end Sys2Proof.Safety
end

section
/-! ### The queue and the memory's form: what every row keeps (R387) -/

namespace Sys2Proof.Machine


/-- An outcome that answers a next state answers one with the queue as it was and the memory's form kept. -/
def Keeps (s : State) : Host.Outcome State Fault Refusal → Prop
  | .next t => Kept s t
  | .fault _ | .refused _ => True

theorem Keeps.kept {s t : State} {o : Host.Outcome State Fault Refusal} (h : Keeps s o) (e : o = .next t) : Kept s t := by
  rw [e] at h
  exact h

theorem Keeps.next {s t : State} (h : Kept s t) : Keeps s (.next t) := h
theorem Keeps.onDev {s : State} {f : Dev → Dev} : Keeps s (.next (s.onDev f)) := (Kept.refl s).onDev
theorem Keeps.ite {s : State} {c : Prop} [Decidable c] {o p : Host.Outcome State Fault Refusal} (h : Keeps s o) (k : Keeps s p) :
    Keeps s (if c then o else p) := by split <;> assumption

theorem Kept.ite {r s t : State} {c : Prop} [Decidable c] (h : Kept r s) (k : Kept r t) : Kept r (if c then s else t) := by
  split <;> assumption

theorem State.restoreUnits_kept (s : State) : Kept s s.restoreUnits :=
  (Kept.refl s).foldl fun t _ => State.fillUnit_kept t ..

/-! #### The rows that do more than change the device -/

theorem execHeldAccessServe_keeps (i : Nat) (s : State) : Keeps s (execHeldAccessServe i s) := by
  refine .next ?_
  split
  · exact Kept.refl s
  · split
    · exact .ite (Kept.refl s) (((Kept.refl s).onDev.trans (State.serveHeld_kept ..)).trans (State.serveOrdered_kept _))
    · exact Kept.refl s

theorem execKeepalive_keeps (port : Nat) (m : Msg) (s : State) : Keeps s (execKeepalive port m s) := by
  refine .next (State.onMsg_kept (hf := fun t => ?_) ..)
  exact .ite (Kept.refl t) (State.heardFrom_kept t ..).onDev

theorem execIdent_keeps (port : Nat) (m : Msg) (s : State) : Keeps s (execIdent port m s) :=
  .next (.ite (Kept.refl s) (.ite (Kept.refl s).onDev ((Kept.refl s).onDev.trans (State.identIn_kept ..))))

theorem execInvAck_keeps (port : Nat) (m : Msg) (s : State) : Keeps s (execInvAck port m s) := by
  refine .next (State.onMsg_kept (hf := fun t => ?_) ..)
  refine .ite ?_ ((State.invAck_kept ..).trans (State.serveOrdered_kept _))
  exact (Kept.foldl (Kept.refl t) fun _ _ => State.invAck_kept ..).trans (State.serveOrdered_kept _)

theorem execData_keeps (port : Nat) (m : Msg) (s : State) : Keeps s (execData port m s) := by
  refine .next (State.onMsg_kept (hf := fun t => ?_) ..)
  dsimp only
  split
  · exact Kept.refl t
  case h_2 o d _ =>
    have h : Kept t { t with dev := d } := (Kept.refl t).withDev
    refine .ite ?mirrorsCopy ?answer
    · exact (Kept.ite (h.withMem (memWrite_wf _ _ _)) h).trans (State.serveWhere_kept ..)
    · exact Kept.foldl (Kept.ite h.onDev h).onDev fun _ _ => State.fetched_kept ..

theorem execResult_keeps (port : Nat) (m : Msg) (s : State) : Keeps s (execResult port m s) := by
  refine .next (State.onMsg_kept (hf := fun t => ?_) ..)
  dsimp only
  split
  · exact Kept.refl t
  · exact (Kept.refl t).onDev

theorem execMessageResendTimeout_keeps (dest cls : Nat) (s : State) : Keeps s (execMessageResendTimeout dest cls s) := by
  refine .next (.ite (Kept.refl s) (.ite (Kept.refl s).onDev (Kept.foldl (Kept.refl s).onDev fun t _ => ?_)))
  dsimp only
  split
  · exact .withDev (.withDev (Kept.refl t))
  · exact .trans (.withDev (Kept.refl t)) (State.endJob_kept ..)

theorem execMessage_keeps (port : Nat) (m : Msg) (s : State) : Keeps s (execMessage port m s) :=
  .next (State.onMessage_kept (hf := fun t =>
    .ite ((Kept.refl t).onDev.trans (State.payloadIn_kept ..)) (.ite (Kept.refl t).onDev (Kept.refl t))) ..)

theorem execClusterSelfTestDone_keeps (cluster : Nat) (passed : Bool) (outUs : Nat) (s : State) :
    Keeps s (execClusterSelfTestDone cluster passed outUs s) :=
  .next (.ite (Kept.refl s) (.ite ((Kept.refl s).onDev.trans (State.serveWhere_kept ..)) (Kept.refl s).onDev))

theorem execFirmwareReady_keeps (s : State) : Keeps s (execFirmwareReady s) :=
  .next (.ite (Kept.refl s) ((Kept.refl s).onDev.trans (State.serveWhere_kept ..)))

theorem execResetNAssert_keeps (lowNs : Nat) (s : State) : Keeps s (execResetNAssert lowNs s) :=
  .next (.ite (Kept.refl s) (.ite (State.requestReset_kept ..)
    (.ite ((Kept.refl s).withDev.trans (State.requestReset_kept ..)) (Kept.refl s).withDev)))

theorem execRecoveryLoadDone_keeps (failing : Nat) (s : State) : Keeps s (execRecoveryLoadDone failing s) :=
  .next (.ite (Kept.refl s) (.ite (Kept.refl s).onDev ((Kept.refl s).onDev.trans (State.deviceReset_kept ..))))

theorem execBootRom_keeps (straps : Straps) (ms : Nat) (s : State) : Keeps s (execBootRom straps ms s) :=
  .next (.ite (.ite ((Kept.refl s).onDev.withMem fun _ => rfl) (Kept.refl s).onDev) (Kept.refl s))

theorem execNeighbourExchange_keeps (idents : List (Nat × Nat)) (ms : Nat) (s : State) :
    Keeps s (execNeighbourExchange idents ms s) :=
  .next (.ite (Kept.refl s) (Kept.foldl (Kept.refl s) fun _ _ => State.identIn_kept ..).onDev)

theorem execPerstN_keeps (s : State) : Keeps s (execPerstN s) := by
  refine .next ?_
  split
  · exact Kept.refl s
  · exact Kept.refl s
  · exact State.requestReset_kept ..
  · exact State.requestReset_kept ..
  · exact (State.resetEvery_kept s).onDev

theorem execPwrFailSequenceEnd_keeps (railsOk : Bool) (s : State) : Keeps s (execPwrFailSequenceEnd railsOk s) :=
  .next (.ite (Kept.refl s) (.ite ((Kept.refl s).onDev.trans (State.deviceReset_kept ..)) (Kept.refl s).onDev))

theorem execJtagInstruction_keeps (kind : Nat) (s : State) : Keeps s (execJtagInstruction kind s) :=
  .ite (.next (Kept.refl s)) (.ite .onDev (.ite (.next (Kept.refl s)) trivial))

theorem execRegisterWrite_keeps (p off width value : Nat) (s : State) : Keeps s (execRegisterWrite p off width value s) := by
  refine .ite trivial (.ite (.next (Kept.refl s)) ?_)
  split
  · exact .next (Kept.refl s)
  · exact .ite (.next (Kept.refl s)) (.ite (.next (Kept.refl s)) (.next (State.storeAt_kept ..)))

/-- Every row leaves the queue alone and keeps the memory's form: the descriptor rows by the descriptor's course, the others by the
operations they are made of, and the rows left to the end because they change the device alone. -/
theorem exec_keeps (c : Instr) (s : State) : Keeps s (exec c s) := by
  cases c
  case nop | attend | merge | append | adopt | fork | trim | drop | probe | accession | withdraw | hint | stream | deliver | fill
      | copy | compare | reduce | publish | revoke | readback | audit | profileRegister | profileRetire | tickSet | patronReset |
      apertureMap | volumeFormat | stacksDiscard | governorSet | regionCreate | regionGrant | regionDestroy | shaperSet | gateSet
      | fwUpdate | deviceReset | powerSet =>
    exact .next (State.descriptor_kept ..)
  case archiveSleep => exact .next (.ite (State.descriptor_kept ..) (Kept.refl s))
  case load | readBlock | store | storePartial | writeBlock | atomic =>
    exact .next (State.onMsg_kept (hf := fun _ => State.request_kept ..) ..)
  case configRead | configWrite => exact .next (State.onMsg_kept (hf := fun _ => State.configIn_kept ..) ..)
  case ack | invalidate | time => exact .next (State.onMsg_kept (hf := fun t => (Kept.refl t).onDev) ..)
  case messageAck => exact .next (State.onMessage_kept (hf := fun t => (Kept.refl t).onDev) ..)
  case done => exact .next (State.onMsg_kept (hf := fun _ => State.doneIn_kept ..) ..)
  case regionRequest =>
    exact .next (State.onMsg_kept (hf := fun _ => State.regionRequestIn_kept (hh := State.homeExtra_kept) ..) ..)
  case regionDone => exact .next (State.onMsg_kept (hf := fun _ => State.regionDoneIn_kept ..) ..)
  case mapNotice => exact .next (State.onMsg_kept (hf := fun _ => State.mapNoticeIn_kept ..) ..)
  case mirrorWrite => exact .next (State.onMsg_kept (hf := fun _ => State.mirrorWriteIn_kept ..) ..)
  case mirrorBlock => exact .next (State.onMsg_kept (hf := fun _ => State.mirrorBlockIn_kept ..) ..)
  case message => exact execMessage_keeps ..
  case keepalive => exact execKeepalive_keeps ..
  case ident => exact execIdent_keeps ..
  case invAck => exact execInvAck_keeps ..
  case data => exact execData_keeps ..
  case result => exact execResult_keeps ..
  case messageResendTimeout => exact execMessageResendTimeout_keeps ..
  case heldAccessServe => exact execHeldAccessServe_keeps ..
  case deadDeclaration => exact .next (.ite (State.declareDead_kept ..) (Kept.refl s))
  case combineWindowClose => exact .next (State.closeHome_kept ..).onDev
  case revokeDrainEnd => exact .next (State.drainEnd_kept ..)
  case persistAccept => exact .next (State.acceptSectors_kept ..)
  case apertureRead | apertureWrite => exact .next (State.apertureAccess_kept ..)
  case apertureAtomic => exact .next (.ite (Kept.refl s) (State.apertureAccess_kept ..))
  case patKeepReset => exact .next (.ite (Kept.refl s) (State.resetPatron_kept ..))
  case functionLevelReset => exact .next (.ite (Kept.refl s) (.ite (State.resetEvery_kept s) (State.resetPatron_kept ..)))
  case hotReset => exact .next (State.resetEvery_kept s)
  case vfEnableClear => exact .next (.ite (Kept.refl s) ((Kept.refl s).onDev.trans (State.resetEvery_kept _)))
  case patronResetDone => exact .next (State.resetDone_kept ..)
  case tickEdge => exact .next (State.tickEdge_kept ..)
  case executePhase => exact .next (.ite (State.executePhase_kept ..) (Kept.refl s))
  case closePhase => exact .next (.ite (State.closePhase_kept ..) (Kept.refl s))
  case backgroundDemotion => exact .next (State.background_kept s)
  case streamSlotWrite => exact .next (State.slotWrite_kept ..)
  case clusterSelfTestDone => exact execClusterSelfTestDone_keeps ..
  case firmwareReady => exact execFirmwareReady_keeps ..
  case recoveryLoadDone => exact execRecoveryLoadDone_keeps ..
  case bootRom => exact execBootRom_keeps ..
  case neighbourExchange => exact execNeighbourExchange_keeps ..
  case perstN => exact execPerstN_keeps ..
  case pwrFailSequenceEnd => exact execPwrFailSequenceEnd_keeps ..
  case resetNAssert => exact execResetNAssert_keeps ..
  case jtagInstruction => exact execJtagInstruction_keeps ..
  case registerWrite => exact execRegisterWrite_keeps ..
  case readbackWindowLoad => exact .ite trivial .onDev
  case mapLoad => exact .next (.ite (Kept.refl s) (State.mapLoad_kept ..).onDev)
  case regionRestore => exact .next (.ite (Kept.refl s) (State.restoreUnits_kept s).onDev)
  case servingStep => exact .next (.ite (Kept.refl s) ((Kept.refl s).onDev.trans (State.openService_kept _)))
  case resetPrepareDone => exact .next (.ite ((Kept.refl s).onDev.trans (State.deviceReset_kept ..)) (Kept.refl s))
  case mctpResetRequest => exact .next (State.requestReset_kept ..)
  case suppliesRemoved => exact .next (State.loseRoom_kept s).onDev
  all_goals exact .onDev

/-- Settles O3: the queue's half of what every row keeps. -/
theorem queueUntouched : Obligations.QueueUntouched := by
  intro c s t run
  exact ((exec_keeps c s).kept run).1

/-- Settles O4: a step idles, or runs a row on the state with the queue's rest, whose memory is the same. -/
theorem memoryFormKept : Obligations.MemoryFormKept := by
  intro s t form run
  unfold step at run
  split at run
  case h_1 =>
    obtain rfl := Host.Outcome.next.inj run
    exact form
  case h_2 c rest _ => exact ((exec_keeps c { s with pending := rest }).kept run).2 form

end Sys2Proof.Machine
end

section
/-! ### The step and the rows as a whole -/

namespace Sys2Proof.Safety

open Sys2Proof.Machine

/-- Settles O1: the front of the queue is what `step` matches on. -/
theorem stepRunsFront : Obligations.StepRunsFront := fun _ _ => rfl

/-- Settles O2: the empty queue is the other case of that match. -/
theorem emptyQueueIdles : Obligations.EmptyQueueIdles := by
  intro s empty
  rw [step, empty]

/-- Settles O5: every part of the state after reset is written out. -/
theorem resetHoldsNothing : Obligations.ResetHoldsNothing := ⟨rfl, rfl, rfl⟩

/-- Settles O6: every arm of `exec` but the three excluded ends in a next state without a condition. -/
theorem everyOtherRowCompletes : Obligations.EveryOtherRowCompletes := by
  intro c s noWrite noLoad noJtag
  cases c
  case registerWrite a o v w => exact absurd rfl (noWrite a o v w)
  case readbackWindowLoad a o w => exact absurd rfl (noLoad a o w)
  case jtagInstruction k => exact absurd rfl (noJtag k)
  all_goals exact ⟨_, rfl⟩

end Sys2Proof.Safety
end

section
/-! ### Laws of registers, parts and patrons that the rows below share -/

namespace Sys2Proof.Safety

open Sys2Proof.Machine

/-! #### Fields of words (R7, R9) -/

/-- A word is what lies below a field, the field, and what lies above it. -/
theorem word_eq_fields (w lo n : Nat) : w = w % 2 ^ lo + 2 ^ lo * (bits w lo n + 2 ^ n * (w / 2 ^ lo / 2 ^ n)) := by
  rw [bits, Nat.mod_add_div, Nat.mod_add_div]

theorem putBits_eq (w lo n v : Nat) : putBits w lo n v = w % 2 ^ lo + 2 ^ lo * (v % 2 ^ n + 2 ^ n * (w / 2 ^ lo / 2 ^ n)) := by
  have fields := word_eq_fields w lo n
  rw [Nat.mul_add, Nat.mul_comm (2 ^ lo) (bits w lo n)] at fields
  rw [putBits, Nat.mul_add, Nat.mul_comm (2 ^ lo) (v % 2 ^ n)]
  omega

@[simp] theorem bits_putBits_same (w lo n v : Nat) : bits (putBits w lo n v) lo n = v % 2 ^ n := by
  rw [putBits_eq, bits, Nat.add_mul_div_left _ _ (by positivity), Nat.div_eq_of_lt (Nat.mod_lt _ (by positivity)), Nat.zero_add,
    Nat.add_mul_mod_self_left, Nat.mod_mod]

/-! #### Registers -/

theorem regWord_setRegWord_same (d : Dev) (r : RegRow) (i p w : Nat) :
    (d.setRegWord (r.addr i p) r.coldWord w).regWord r i p = w := by
  simp only [Dev.regWord, Dev.setRegWord]
  split
  case isTrue cold => simp [tgetD, cold]
  case isFalse => simp

theorem regWord_setRegWord_other (d : Dev) {r : RegRow} {i p a : Nat} (cold w : Nat) (h : a ≠ r.addr i p) :
    (d.setRegWord a cold w).regWord r i p = d.regWord r i p := by
  simp only [Dev.regWord, Dev.setRegWord]
  split
  · simp only [tgetD, tget_tdel_other _ h]
  · rw [tgetD_tset_other _ h]

/-- The width of a field, by its place in the row: 0 where the row has no such field. -/
def fieldWidth (r : RegRow) (f : Nat) : Nat := (r.fields[f]?.map (·.width)).getD 0

/-- A field reads as it was last set. -/
theorem reg_setReg_same (d : Dev) (r : RegRow) (i p f : Nat) {v : Nat} (fits : v < 2 ^ fieldWidth r f) :
    (d.setReg r i p f v).reg r i p f = v := by
  unfold fieldWidth at fits
  unfold Dev.reg Dev.setReg
  cases field : r.fields[f]? with
  | none =>
    rw [field] at fits
    exact (Nat.lt_one_iff.mp fits).symm
  | some g =>
    rw [field] at fits
    simp only [regWord_setRegWord_same, bits_putBits_same]
    exact Nat.mod_eq_of_lt fits

/-- Every other register reads as before. -/
theorem reg_setReg_other (d : Dev) {r q : RegRow} {i p j k : Nat} (f e v : Nat) (h : r.addr i p ≠ q.addr j k) :
    (d.setReg r i p f v).reg q j k e = d.reg q j k e := by
  unfold Dev.setReg
  split
  · simp only [Dev.reg, regWord_setRegWord_other d _ _ h]
  · rfl

theorem setReg_eq (d : Dev) (r : RegRow) (i p f v : Nat) : d.setReg r i p f v = { d with regs := (d.setReg r i p f v).regs } := by
  unfold Dev.setReg
  split <;> rfl

@[simp] theorem setReg_tim (d : Dev) (r : RegRow) (i p f v : Nat) : (d.setReg r i p f v).tim = d.tim := by rw [setReg_eq]
@[simp] theorem setReg_flt (d : Dev) (r : RegRow) (i p f v : Nat) : (d.setReg r i p f v).flt = d.flt := by rw [setReg_eq]
@[simp] theorem setReg_host (d : Dev) (r : RegRow) (i p f v : Nat) : (d.setReg r i p f v).host = d.host := by rw [setReg_eq]

theorem setReg_wingMode (d : Dev) {r : RegRow} {i p : Nat} (f v : Nat) (h : r.addr i p ≠ regTikCtrl.addr 0 0) :
    (d.setReg r i p f v).wingMode = d.wingMode := by
  simp only [Dev.wingMode, reg_setReg_other d f 1 v h]

theorem setReg_follower (d : Dev) {r : RegRow} {i p : Nat} (f v : Nat) (h : r.addr i p ≠ regTikCtrl.addr 0 0) :
    (d.setReg r i p f v).follower = d.follower := by
  simp only [Dev.follower, setReg_wingMode d f v h, setReg_tim]

theorem setReg_timeSource (d : Dev) {r : RegRow} {i p : Nat} (f v : Nat) (h : r.addr i p ≠ regTikCtrl.addr 0 0) :
    (d.setReg r i p f v).timeSource = d.timeSource := by
  rw [Dev.timeSource, Dev.timeSource, setReg_follower d f v h, setReg_wingMode d f v h, reg_setReg_other d f 0 v h, setReg_tim]

/-! #### Parts -/

theorem Frame.port (d : Dev) (regs lowHalf : Tab Nat) (pendRegs rejected rejectOffset audit lastFindings) (h : regs = d.regs) :
    Frame [.port] d { d with regs, lowHalf, pendRegs, rejected, rejectOffset, audit, lastFindings } := by
  subst h; constructor; intro p h; cases p <;> simp_all [Part.same, Dev.pat]

/-- A step that one condition decides changes what both its branches change. -/
theorem Frame.ite {ps : List Part} {d e f : Dev} {c : Prop} [Decidable c] (h : Frame ps d e) (k : Frame ps d f) :
    Frame ps d (if c then e else f) := by
  split
  · exact h
  · exact k

theorem Frame.tim_eq {ps : List Part} {d e : Dev} (h : Frame ps d e) (n : .tim ∉ ps) (m : .arbs ∉ ps) : e.tim = d.tim := by
  have tim := h.same .tim n
  have arbs := h.same .arbs m
  simp only [Part.same] at tim arbs
  calc e.tim
    _ = { { e.tim with arbs := [] } with arbs := e.tim.arbs } := rfl
    _ = d.tim := by rw [tim, arbs]

theorem Frame.flt_eq {ps : List Part} {d e : Dev} (h : Frame ps d e) (n : .flt ∉ ps) (m : .log ∉ ps) : e.flt = d.flt := by
  have flt := h.same .flt n
  obtain ⟨reserve, tables, log, logSeq, logHeld⟩ := h.same .log m
  simp only [Part.same] at flt
  calc e.flt
    _ = { { e.flt with reserve := [], tables := [], log := [], logSeq := 0, logHeld := [] } with
          reserve := e.flt.reserve, tables := e.flt.tables, log := e.flt.log, logSeq := e.flt.logSeq, logHeld := e.flt.logHeld } := rfl
    _ = d.flt := by rw [flt, reserve, tables, log, logSeq, logHeld]

/-- A reading of time that does not look at the arbiters is kept by a frame without time. -/
theorem Frame.timField {ps : List Part} {d e : Dev} (h : Frame ps d e) (n : .tim ∉ ps) {β : Type} (g : TimeSt → β)
    (blind : ∀ t, g { t with arbs := [] } = g t := by intro; rfl) : g e.tim = g d.tim := by
  rw [← blind e.tim, ← blind d.tim]
  exact congrArg g (h.same .tim n)

/-- A reading of a patron that does not look at its completion and event rings is kept by a frame without the host port. -/
theorem Frame.patField {ps : List Part} {d e : Dev} (h : Frame ps d e) (n : .host ∉ ps) (p : Nat) {β : Type} (g : PatronSt → β)
    (blind : ∀ x, g { x with cq := [], eq := {} } = g x := by intro; rfl) : g (e.pat p) = g (d.pat p) := by
  rw [← blind (e.pat p), ← blind (d.pat p)]
  exact congrArg g ((h.same .host n).2 p)

/-- A reading of the host port that does not look at the patrons is kept by a frame without it. -/
theorem Frame.hostField {ps : List Part} {d e : Dev} (h : Frame ps d e) (n : .host ∉ ps) {β : Type} (g : HostSt → β)
    (blind : ∀ x, g { x with patrons := [] } = g x := by intro; rfl) : g e.host = g d.host := by
  rw [← blind e.host, ← blind d.host]
  exact congrArg g (h.same .host n).1

/-- A reading of the faults that does not look at the log is kept by a frame without them. -/
theorem Frame.fltField {ps : List Part} {d e : Dev} (h : Frame ps d e) (n : .flt ∉ ps) {β : Type} (g : FltSt → β)
    (blind : ∀ x, g { x with reserve := [], tables := [], log := [], logSeq := 0, logHeld := [] } = g x := by intro; rfl) :
    g e.flt = g d.flt := by
  rw [← blind e.flt, ← blind d.flt]
  exact congrArg g (h.same .flt n)

/-- An event of a device that differs from another in neither time nor log is an event of the other. -/
theorem EventOn.from {code d0 d1 : Nat} {ps : List Part} {d e f : Dev} (h : EventOn code d0 d1 e f) (k : Frame ps d e) (tim : .tim ∉ ps)
    (flt : .flt ∉ ps) (log : .log ∉ ps) : EventOn code d0 d1 d f :=
  h.before (k.same .log log).2.2.2.1 (fun o => (k.fltField flt (·.out)).trans o) (k.timField tim (·.now)) (k.timField tim (·.count))

theorem Event.of_dev {code d0 d1 : Nat} {s : State} {d : Dev} (h : EventOn code d0 d1 s.dev d) : Event code d0 d1 s { s with dev := d } := by
  unfold Event
  dsimp only
  exact h

/-- The outcome of a row that changes the device alone. -/
abbrev devNext (s : State) (d : Dev) : Host.Outcome State Fault Refusal := .next { s with dev := d }

/-- A row whose outcome is known. -/
theorem After.of_exec {c : Instr} {s t : State} {P : State → Prop} (run : exec c s = .next t) (h : P t) : After c s P := ⟨t, run, h⟩

end Sys2Proof.Safety
end

section
/-! ### Time: lengths and times of day written, switches, corrections and the wing (R33 to R45, R509) -/

namespace Sys2Proof.Safety

open Sys2Proof.Machine

/-! #### Writes of the tick length and of the time of day -/

theorem exec_tikLengthWrite {s : State} (a v : Nat) (reached : s.dev.reached 0 = true) (opened : s.dev.blockOpen 1 = true) :
    exec (.tikLengthWrite a v) s = .next { s with dev := s.dev.writeLength a (v % 512) } := by
  change execTikLengthWrite a v s = _
  simp only [execTikLengthWrite, State.onDev, reached, opened, Bool.and_self, if_true]

theorem exec_tikTodNextWrite {s : State} (a v : Nat) (reached : s.dev.reached 0 = true) (opened : s.dev.blockOpen 1 = true) :
    exec (.tikTodNextWrite a v) s = .next { s with dev := s.dev.writeTod a (v % 2 ^ 64) } := by
  change execTikTodNextWrite a v s = _
  simp only [execTikTodNextWrite, State.onDev, reached, opened, Bool.and_self, if_true]

theorem pendLength_frame (d : Dev) (p : PendLen) : Frame [.tim] d (d.pendLength p) := Frame.tim_only d _ rfl

theorem writeLength_locked {d : Dev} (a v : Nat) (lock : (d.pat 0).lock = true) : d.writeLength a v = d := if_pos lock

theorem writeLength_refused {d : Dev} (a : Nat) {v : Nat} (lock : (d.pat 0).lock = false) (range : v < 5 ∨ 500 < v) :
    d.writeLength a v = d.rejectWrite 0x10008 := by
  have refused : decide (5 ≤ v ∧ v ≤ 500) = false := by simp only [decide_eq_false_iff_not]; omega
  unfold Dev.writeLength
  rw [lock, refused, if_neg (by decide), if_pos (.inl rfl)]
  rfl

theorem writeLength_stored {d : Dev} (a : Nat) {v : Nat} (lock : (d.pat 0).lock = false) (lo : 5 ≤ v) (hi : v ≤ 500)
    (plan : planFits (d.reg regTikPlanLen) v = true) (leads : d.follower = false) :
    d.writeLength a v = (d.setReg regTikLength 0 0 0 v).pendLength { len := v, switchAt := a } := by
  have inRange : decide (5 ≤ v ∧ v ≤ 500) = true := decide_eq_true ⟨lo, hi⟩
  unfold Dev.writeLength
  simp only [lock, inRange, plan, setReg_follower d 0 v (show regTikLength.addr 0 0 ≠ regTikCtrl.addr 0 0 by decide), leads,
    Bool.not_true, Bool.false_eq_true, or_self, if_false]

theorem rejectWrite_frame (d : Dev) (off : Nat) : Frame [.port, .ctrs] d (d.rejectWrite off) :=
  (count_frame ..).step (by decide) ((Frame.port d _ _ _ _ _ _ _ rfl).mono (by decide))

theorem rejectWrite_rejected (d : Dev) (off : Nat) : (d.rejectWrite off).rejected = true ∧ (d.rejectWrite off).rejectOffset = off := by
  have h := (count_frame { d with rejected := true, rejectOffset := off } .rejWrites 0 1).same .port (by decide)
  exact ⟨h.2.2.1, h.2.2.2.1⟩

theorem loadFree_of_source {d : Dev} (source : d.timeSource ≠ 3) : d.loadFree = { d with tim := { d.tim with freeLoaded := false } } :=
  if_pos source

/-- A time of day is kept for its edge under every source but FREE (R33, R34). -/
theorem writeTod_kept {d : Dev} (a v : Nat) (source : d.timeSource ≠ 3) :
    d.writeTod a v = { d.setReg regTikTodNext 0 0 0 v with tim := { d.tim with tod := d.tim.tod ++ [(a, v)], freeLoaded := false } } := by
  have same : (d.setReg regTikTodNext 0 0 0 v).timeSource = d.timeSource :=
    setReg_timeSource d 0 v (show regTikTodNext.addr 0 0 ≠ regTikCtrl.addr 0 0 by decide)
  refine (loadFree_of_source (same ▸ source)).trans ?_
  simp only [setReg_tim]

/-- What a time of day that is kept leaves in the state, whichever row brought it. -/
theorem writeTod_row {c : Instr} {s : State} {a v : Nat} (run : exec c s = .next { s with dev := s.dev.writeTod a v }) (fits : v < 2 ^ 64)
    (source : s.dev.timeSource ≠ 3) : After c s fun t =>
      t.dev.tim = { s.dev.tim with tod := s.dev.tim.tod ++ [(a, v)], freeLoaded := false } ∧ t.dev.reg regTikTodNext = v ∧ Changes [.tim, .regs] s t := by
  rw [writeTod_kept a v source] at run
  refine .of_exec run ⟨rfl, ?_, .of_frame ?_⟩
  · exact reg_setReg_same s.dev regTikTodNext 0 0 0 fits
  · exact (Frame.tim_only (s.dev.setReg ..) _ (by simp)).step (by decide) ((setReg_frame ..).mono (by decide))

/-- Settles O7: the write is stored and waits, is discarded, or is refused, as the cases of `writeLength`. -/
theorem timeRegisterRows : Obligations.TimeRegisterRows := by
  intro s a v reached opened
  have run := exec_tikLengthWrite a v reached opened
  refine ⟨fun lock lo hi plan leads => ?stored, fun lock => ?locked, fun lock small range => ?refused, fun fits source => ?timeOfDay⟩
  case stored =>
    rw [Nat.mod_eq_of_lt (by omega), writeLength_stored a lock lo hi plan leads] at run
    refine .of_exec run ⟨?_, ?_, ?_, .of_frame ?_⟩
    · simp only [Dev.pendLength, setReg_tim]
    · exact reg_setReg_same s.dev regTikLength 0 0 0 (show v < 2 ^ 9 by omega)
    · simp only [Dev.pendLength, setReg_tim]
    · exact (pendLength_frame ..).step (by decide) ((setReg_frame ..).mono (by decide))
  case locked => rw [run, writeLength_locked a _ lock]
  case refused =>
    rw [Nat.mod_eq_of_lt small, writeLength_refused a lock range] at run
    have frame := rejectWrite_frame s.dev 0x10008
    obtain ⟨rejected, shown⟩ := rejectWrite_rejected s.dev 0x10008
    exact .of_exec run ⟨rejected, shown, frame.tim_eq (by decide) (by decide), .of_frame frame⟩
  case timeOfDay =>
    have run := exec_tikTodNextWrite a v reached opened
    rw [Nat.mod_eq_of_lt fits] at run
    exact writeTod_row run fits source

/-- Settles O8: board management's write is that of the register, with power on. -/
theorem mctpTimeRow : Obligations.MctpTimeRow := by
  intro s a v fits source on calm
  refine writeTod_row ?_ fits source
  have powered : [DevState.off, .tamperHold].contains s.dev.boot.st = false := by simp [on, calm]
  change execMctpTodWrite a v s = _
  simp only [execMctpTodWrite, State.onDev, powered, Bool.false_eq_true, if_false, Nat.mod_eq_of_lt fits]

/-! #### The switch of the length -/

theorem reg_of_same_regs {d e : Dev} (h : e.regs = d.regs) (r : RegRow) (i p f : Nat) : e.reg r i p f = d.reg r i p f := by
  simp only [Dev.reg, Dev.regWord, h]

theorem lengthInForce_shown {d : Dev} {p : PendLen} (leads : d.follower = false) (fits : p.len < 512)
    (planFits : p.plan.getD d.tim.plan < 64) :
    (lengthInForce d p).reg regTikLength = p.len ∧ (lengthInForce d p).reg regTikPlanLen = p.plan.getD d.tim.plan := by
  have shown : lengthInForce d p
      = ((takeLength d p).setReg regTikLength 0 0 0 p.len).setReg regTikPlanLen 0 0 0 (p.plan.getD d.tim.plan) :=
    if_neg (by rw [show (takeLength d p).follower = d.follower from rfl, leads]; decide)
  rw [shown]
  constructor
  · rw [reg_setReg_other _ 0 0 _ (show regTikPlanLen.addr 0 0 ≠ regTikLength.addr 0 0 by decide)]
    exact reg_setReg_same _ regTikLength 0 0 0 fits
  · exact reg_setReg_same _ regTikPlanLen 0 0 0 planFits

theorem lengthInForce_tim (d : Dev) (p : PendLen) : (lengthInForce d p).tim = (takeLength d p).tim :=
  (lengthInForce_regs d p).tim_eq (by decide) (by decide)

/-- R44: the switch is reported with the length and the tick of its edge. -/
theorem switchLength_logs (d : Dev) (p : PendLen) : EventOn 0x0012 p.len d.tim.count d (switchLength d p) := by
  have logged : EventOn 0x0012 p.len d.tim.count (lengthInForce d p) (switchLength d p) := by
    refine EventOn.after ?_ ((eventMsix_frame _).flt_eq (by decide) (by decide))
    rw [show d.tim.count = (lengthInForce d p).tim.count by rw [lengthInForce_tim]; rfl]
    exact devEvent_event ..
  have time : (lengthInForce d p).tim.now = d.tim.now ∧ (lengthInForce d p).tim.count = d.tim.count := by
    rw [lengthInForce_tim]
    exact ⟨rfl, rfl⟩
  have flt : (lengthInForce d p).flt = d.flt := (lengthInForce_regs d p).flt_eq (by decide) (by decide)
  exact logged.before (by rw [flt]) (by rw [flt]; exact id) time.1 time.2

/-- Settles O9: at its edge the switch is `switchLength`, whose parts stand before; on another edge the row idles. -/
theorem tickLengthSwitches : Obligations.TickLengthSwitches := by
  intro s p waits
  refine ⟨fun edge leads small planSmall => ?atEdge, fun idle => tickLengthSwitch_idle fun q h => ?otherEdge⟩
  case otherEdge =>
    obtain rfl := Option.some.inj (waits.symm.trans h)
    exact idle
  case atEdge =>
    obtain ⟨len, plan⟩ := lengthInForce_shown leads small planSmall
    have frame := switchLength_event s.dev p
    have time := lengthInForce_tim s.dev p
    have shown : ∀ r, (switchLength s.dev p).reg r = (lengthInForce s.dev p).reg r :=
      fun r => reg_of_same_regs (frame.same .regs (by decide)) r 0 0 0
    refine .of_exec (tickLengthSwitch_at_edge waits edge) ?_
    dsimp only
    refine ⟨?_, ?_, ?_, ?_, ?_, ?_, ?_, ?_, ?_⟩
    · exact (frame.timField (by decide) (·.len)).trans (congrArg (·.len) time)
    · exact (frame.timField (by decide) (·.plan)).trans (congrArg (·.plan) time)
    · exact (frame.timField (by decide) (·.pend)).trans (congrArg (·.pend) time)
    · rw [shown, len]
    · rw [shown, plan]
    · exact switchLength_count s.dev p
    · exact (frame.timField (by decide) (·.now)).trans (congrArg (·.now) time)
    · exact .of_dev (switchLength_logs s.dev p)
    · exact .of_frame (switchLength_frame s.dev p)

/-! #### Corrections, holdover and time fault -/

/-- Time after a correction that is neither adopted nor waits: what it shows of its quality, then the offset to absorb (R38, R39). -/
def correctedTime (t : TimeSt) (follower : Bool) (off : Int) : TimeSt :=
  let good := if off.natAbs ≤ 50 then t.good + 1 else 0
  let lock := decide (3 ≤ good)
  let coarse := decide (2000 < off.natAbs)
  { t with missed := 0, holdover := false, good := if coarse then 0 else good, locked := lock && !coarse, faultBit := t.faultBit && !lock
           unled := t.unled && !(lock && !follower), slew := off, coarse := coarse }

theorem correct_eq {d : Dev} (off delta : Int) (ticking : d.tim.ticking = true) (known : d.tim.provisional = false) :
    d.correct off delta = { d with tim := correctedTime d.tim d.follower off } := by
  simp only [Dev.correct, ticking, known, Bool.not_true, Bool.false_eq_true, if_false, false_and, Dev.absorb, correctedTime]
  rfl

theorem measured_eq {d : Dev} {src : Nat} (off : Int) (ticking : d.tim.ticking = true) (known : d.tim.provisional = false)
    (source : d.timeSource = src) :
    d.measured src off = { d with tim := correctedTime { d.tim with offset := off } d.follower off } := by
  unfold Dev.measured
  rw [if_pos (show ({ d with tim := { d.tim with offset := off } } : Dev).timeSource = src from source)]
  exact correct_eq off 0 ticking known

theorem exec_ptmExchange_valid (off : Int) (s : State) : exec (.ptmExchange true off) s = .next { s with dev := s.dev.measured 0 off } := rfl

theorem exec_ptmExchange_missed {s : State} (off : Int) (source : s.dev.timeSource = 0) :
    exec (.ptmExchange false off) s = .next { s with dev := s.dev.missedCorrection } := by
  change execPtmExchange false off s = _
  simp only [execPtmExchange, State.onDev, Bool.false_eq_true, if_false, source, if_true]

/-- Time after an edge of the PPS source has used its time of day (R34). -/
def edgeTime (t : TimeSt) (a v : Nat) : TimeSt :=
  { t with tod := t.tod.filter fun x => !decide (x.1 + 10 ^ 8 ≤ a), todPrev := some v }

theorem exec_timePpsEdge {s : State} {a v : Nat} (ticking : s.dev.tim.ticking = true) (known : s.dev.tim.provisional = false)
    (source : s.dev.timeSource = 1) (tod : s.dev.tim.todAt a = some v) : exec (.timePpsEdge a) s = .next { s with dev := { s.dev with
      tim := correctedTime { edgeTime s.dev.tim a v with offset := (10 ^ 9 * v : Nat) - (a : Int) } s.dev.follower ((10 ^ 9 * v : Nat) - (a : Int)) } } := by
  have other : s.dev.timeSource ≠ 3 := by rw [source]; decide
  change execTimePpsEdge a s = _
  simp only [execTimePpsEdge, State.onDev, tod, if_neg other]
  exact congrArg (devNext s) (measured_eq (d := { s.dev with tim := edgeTime s.dev.tim a v }) _ ticking known source)

/-- The device as it enters holdover after some periods without a correction, before it is counted and reported. -/
def heldOver (d : Dev) (missed : Nat) : Dev :=
  { d with tim := { d.tim with missed, holdover := true, holdoverAt := d.tim.now, faultSent := false, locked := false, good := 0 } }

theorem holdover_eq {d : Dev} (ticking : d.tim.ticking = true) (first : d.tim.holdover = false) :
    d.holdover = ((heldOver d d.tim.missed).count .holdovers 0).devEvent 0x0010 (ofSigned 64 d.tim.offset) 0 :=
  if_neg (by simp [ticking, first])

theorem exec_timeHoldover {s : State} (source : s.dev.timeSource ≠ 3) (ticking : s.dev.tim.ticking = true) (first : s.dev.tim.holdover = false) :
    exec .timeHoldover s = .next { s with
      dev := ((heldOver s.dev (max 3 s.dev.tim.missed)).count .holdovers 0).devEvent 0x0010 (ofSigned 64 s.dev.tim.offset) 0 } := by
  change execTimeHoldover s = _
  simp only [execTimeHoldover, State.onDev, if_neg source]
  exact congrArg (devNext s) (holdover_eq (d := { s.dev with tim := { s.dev.tim with missed := max 3 s.dev.tim.missed } }) ticking first)

/-- The device with the time fault shown, before it is reported. -/
def timeFaulted (d : Dev) : Dev := { d with tim := { d.tim with faultBit := true, faultSent := true } }

theorem exec_timeFault {s : State} (held : s.dev.tim.holdover = true) (first : s.dev.tim.faultSent = false) : exec .timeFault s
    = .next { s with dev := (timeFaulted s.dev).devEvent 0x0011 (max (10 ^ 10) (s.dev.tim.now - s.dev.tim.holdoverAt)) 0 } := by
  change execTimeFault s = _
  simp only [execTimeFault, State.onDev]
  rw [if_neg (by simp [held, first])]
  rfl

theorem exec_timeFault_idle {s : State} (free : s.dev.tim.holdover = false) : exec .timeFault s = .next s := by
  change execTimeFault s = _
  simp only [execTimeFault, State.onDev, free, Bool.not_false, true_or, if_true]

theorem count_devEvent_frame (d : Dev) (c : Ctr) (i code d0 d1 : Nat) : Frame evParts d ((d.count c i).devEvent code d0 d1) :=
  (devEvent_frame ..).step (by decide) ((count_frame ..).mono (by decide))

/-- Settles O10: each row is one of the equations above, read off field by field. -/
theorem timeCorrections : Obligations.TimeCorrections := by
  intro s ticking known
  refine ⟨fun off source fine good => ?locks, fun off source large => ?absorbs, fun off source first => ?missed,
    fun a v source tod => ?edge, fun source free => ?holdover, fun held first => ?fault, fun free => exec_timeFault_idle free⟩
  case locks =>
    have run := exec_ptmExchange_valid off s
    rw [measured_eq off ticking known source] at run
    have small : ¬ 2000 < off.natAbs := by omega
    refine .of_exec run ?_
    simp only [correctedTime, fine, good, small, if_true, decide_false, decide_true, Nat.le_refl, Bool.not_false, Bool.not_true,
      Bool.and_true, Bool.and_false, Bool.false_eq_true, if_false, true_and]
    exact .of_frame (Frame.tim_only s.dev _ rfl)
  case absorbs =>
    have run := exec_ptmExchange_valid off s
    rw [measured_eq off ticking known source] at run
    refine .of_exec run ?_
    simp only [correctedTime, large, decide_true, Bool.not_true, Bool.and_false, if_true, true_and]
    exact .of_frame (Frame.tim_only s.dev _ rfl)
  case missed =>
    have run := exec_ptmExchange_missed off source
    refine .of_exec run ?_
    have one : s.dev.missedCorrection = { s.dev with tim := { s.dev.tim with missed := 1 } } := by
      simp only [Dev.missedCorrection, first, Nat.reduceAdd, Nat.reduceLeDiff, if_false]
    rw [one]
    exact ⟨rfl, .of_frame (Frame.tim_only s.dev _ rfl)⟩
  case edge =>
    exact .of_exec (exec_timePpsEdge ticking known source tod) ⟨rfl, rfl, rfl, .of_frame (Frame.tim_only s.dev _ rfl)⟩
  case holdover =>
    have enters : Frame [.tim] s.dev (heldOver s.dev (max 3 s.dev.tim.missed)) := Frame.tim_only s.dev _ rfl
    have counted := count_frame (heldOver s.dev (max 3 s.dev.tim.missed)) .holdovers 0 1
    have frame : Frame evParts _ _ :=
      (devEvent_frame _ 0x0010 (ofSigned 64 s.dev.tim.offset) 0 {}).step (by decide) (counted.mono (by decide))
    have event := (devEvent_event _ 0x0010 (ofSigned 64 s.dev.tim.offset) 0 {}).from counted (by decide) (by decide) (by decide)
    refine .of_exec (exec_timeHoldover source ticking free) ?_
    dsimp only
    exact ⟨frame.timField (by decide) (·.holdover), frame.timField (by decide) (·.holdoverAt), frame.timField (by decide) (·.locked),
      .of_dev (event.before rfl id rfl rfl), .of_frame (frame.step (by decide) (enters.mono (by decide)))⟩
  case fault =>
    have shows : Frame [.tim] s.dev (timeFaulted s.dev) := Frame.tim_only s.dev _ rfl
    have frame := devEvent_frame (timeFaulted s.dev) 0x0011 (max (10 ^ 10) (s.dev.tim.now - s.dev.tim.holdoverAt)) 0 {}
    refine .of_exec (exec_timeFault held first) ?_
    dsimp only
    exact ⟨frame.timField (by decide) (·.faultBit), (frame.timField (by decide) (·.holdover)).trans held,
      .of_dev ((devEvent_event ..).before rfl id rfl rfl), .of_frame (frame.step (by decide) (shows.mono (by decide)))⟩

end Sys2Proof.Safety
end

section
/-! ### Sending: what a message put on its way leaves (R344, R350, R376) -/

namespace Sys2Proof.Safety

open Sys2Proof.Machine

/-- The parts that sending reaches: output, links, counters and the patrons' fabric shapers. -/
def sendParts : List Part := [.out, .fab, .ctrs, .adm]

/-- A message has left toward a device, or waits at egress for it. -/
def OnItsWay (dest code : Nat) (m : Msg) (d : Dev) : Prop := Out.chaig dest code m ∈ d.out ∨ (dest, code, m) ∈ d.fab.egress

/-- A message as it was put, or as a relay carries it (R376). -/
def Carried (m x : Msg) : Prop := x = m ∨ x = { m with relayed := true }

theorem emit_chaig (d : Dev) (dest code : Nat) (m : Msg) : d.emit (.chaig dest code m) = { d with out := d.out ++ [.chaig dest code m] } :=
  if_neg (by simp [Dev.barred])

theorem chargeBkt_frame (d : Dev) (b n : Nat) : Frame [.adm] d (d.chargeBkt b n) := by
  unfold Dev.chargeBkt
  split
  · exact Frame.refl ..
  · exact Frame.adm ..

theorem tryEmit_some {d e : Dev} {dest code : Nat} {m : Msg} (h : d.tryEmit dest code m = some e) :
    Frame sendParts d e ∧ e.fab.egress = d.fab.egress ∧ ∃ x, Carried m x ∧ e.out = d.out ++ [.chaig dest code x] := by
  unfold Dev.tryEmit at h
  extract_lets own p n at h
  split at h
  · cases h
  split at h
  · cases h
  extract_lets k flits x left relayed charged fab at h
  split at h
  · cases h
  obtain rfl := Option.some.inj h
  have hFlits : Frame [.fab, .ctrs] d flits := (count2_frame ..).step (by decide) ((modPort_frame ..).mono (by decide))
  have egress : flits.fab.egress = d.fab.egress := by
    rw [(count2_frame _ .flitsSent k 0 n).same .fab (by decide)]
    rfl
  have hLeft : left = { flits with out := d.out ++ [.chaig dest code x] } := by
    rw [← hFlits.same .out (by decide)]
    exact emit_chaig ..
  have hRelayed : Frame [.ctrs] left relayed := by
    simp only [relayed]
    split
    · split
      · exact count_frame ..
      · exact Frame.refl ..
    · exact Frame.refl ..
  have hCharged : Frame [.ctrs, .adm] left charged := by
    simp only [charged]
    split
    · exact (chargeBkt_frame ..).step (by decide) (hRelayed.mono (by decide))
    · exact hRelayed.mono (by decide)
  have hFrame : Frame sendParts d charged :=
    hCharged.step (by decide) ((emit_frame ..).step (by decide) (hFlits.mono (by decide)))
  refine ⟨(Frame.fab ..).step (by decide) hFrame, ?_, x, ?_, ?_⟩
  · have same : charged.fab = left.fab := hCharged.same .fab (by decide)
    change charged.fab.egress = _
    rw [same, hLeft]
    exact egress
  · simp only [x]
    split
    · exact .inr rfl
    · exact .inl rfl
  · have same : charged.out = left.out := hCharged.same .out (by decide)
    change charged.out = _
    rw [same, hLeft]

/-- A message that is put leaves, or waits at the end of the egress queue. -/
theorem put_eq_or {d : Dev} (dest code : Nat) (m : Msg) (runs : d.flt.deviceFault = false) :
    d.put dest code m = { d with fab := { d.fab with egress := d.fab.egress ++ [(dest, code, m)] } }
    ∨ d.tryEmit dest code m = some (d.put dest code m) := by
  unfold Dev.put
  rw [runs, if_neg (by decide)]
  split
  · exact .inl rfl
  · cases d.tryEmit dest code m with
    | none => exact .inl rfl
    | some e => exact .inr rfl

theorem put_stopped {d : Dev} (dest code : Nat) (m : Msg) (stopped : d.flt.deviceFault = true) : d.put dest code m = d := if_pos stopped

theorem put_frame (d : Dev) (dest code : Nat) (m : Msg) : Frame sendParts d (d.put dest code m) := by
  cases stopped : d.flt.deviceFault with
  | true => rw [put_stopped _ _ _ stopped]; exact Frame.refl ..
  | false =>
    rcases put_eq_or dest code m stopped with waits | leaves
    · rw [waits]
      exact (Frame.fab ..).mono (by decide)
    · exact (tryEmit_some leaves).1

theorem put_onItsWay {d : Dev} (dest code : Nat) (m : Msg) (runs : d.flt.deviceFault = false) :
    ∃ x, Carried m x ∧ OnItsWay dest code x (d.put dest code m) := by
  rcases put_eq_or dest code m runs with waits | leaves
  · rw [waits]
    exact ⟨m, .inl rfl, .inr (by simp)⟩
  · obtain ⟨-, -, x, carried, out⟩ := tryEmit_some leaves
    exact ⟨x, carried, .inl (by simp [out])⟩

/-- What is on its way stays so when another message is put. -/
theorem OnItsWay.put {d : Dev} {dest code : Nat} {m : Msg} (h : OnItsWay dest code m d) (dest' code' : Nat) (m' : Msg) :
    OnItsWay dest code m (d.put dest' code' m') := by
  cases stopped : d.flt.deviceFault with
  | true => rw [put_stopped _ _ _ stopped]; exact h
  | false =>
    rcases put_eq_or dest' code' m' stopped with waits | leaves
    · rw [waits]
      exact h.imp id (List.mem_append_left _)
    · obtain ⟨-, egress, x, -, out⟩ := tryEmit_some leaves
      exact h.imp (fun left => by rw [out]; exact List.mem_append_left _ left) (fun waits => by rw [egress]; exact waits)

theorem OnItsWay.sends {dest code : Nat} {m : Msg} {t : State} {P : Msg → Prop} (h : OnItsWay dest code m t.dev) (p : P m) :
    Sends dest code P t := ⟨m, p, h⟩

/-- What is on its way stays so under an operation that touches neither output nor links. -/
theorem OnItsWay.frame {ps : List Part} {d e : Dev} {dest code : Nat} {m : Msg} (h : OnItsWay dest code m d) (k : Frame ps d e)
    (out : .out ∉ ps) (fab : .fab ∉ ps) : OnItsWay dest code m e := by
  unfold OnItsWay
  rw [k.same .out out, k.same .fab fab]
  exact h

/-! #### Messages that arrive -/

theorem onMsg_taken {s : State} {port code : Nat} {m : Msg} (h : Taken s port code m) (f : State → State) : s.onMsg port code m f = f s := by
  obtain ⟨on, ok, origin⟩ := h
  unfold State.onMsg
  rw [on, ok, origin]
  rfl

end Sys2Proof.Safety
end

section
/-! ### The wing's time (R35, R37, R42, R509) -/

namespace Sys2Proof.Safety

open Sys2Proof.Machine

/-- The payload of a time message reads time and pending change alone. -/
theorem timePayload_of_tim {d e : Dev} (h : e.tim = d.tim) : e.timePayload = d.timePayload := by
  simp only [Dev.timePayload, h]

/-- The master's time message over a mesh port (R378). -/
def sendTime (d : Dev) (k : Nat) : Dev :=
  d.put (16 * d.wing + meshPartner d.pos k) 0x39 { vc := 5, source := d.devNo, slots := d.timePayload }

theorem sendTime_frame (d : Dev) (k : Nat) : Frame sendParts d (sendTime d k) := put_frame ..

theorem sendTimes_keep {dest code : Nat} {m : Msg} (l : List Nat) {d : Dev} (h : OnItsWay dest code m d) :
    OnItsWay dest code m (l.foldl sendTime d) := by
  induction l generalizing d with
  | nil => exact h
  | cons k l ih => exact ih (h.put ..)

/-- Every port of the list gets the time message of the device it started from. -/
theorem sendTimes_onItsWay {d e : Dev} (runs : d.flt.deviceFault = false) (frame : Frame sendParts d e) {l : List Nat} {k : Nat} (mem : k ∈ l) :
    ∃ m : Msg, (m.slots = d.timePayload ∧ m.source = d.devNo)
      ∧ OnItsWay (16 * d.wing + meshPartner d.pos k) 0x39 m (l.foldl sendTime e) := by
  induction l generalizing e with
  | nil => cases mem
  | cons j l ih =>
    rcases List.mem_cons.mp mem with rfl | later
    · have boot : e.boot = d.boot := frame.same .boot (by decide)
      have here : e.wing = d.wing ∧ e.pos = d.pos ∧ e.devNo = d.devNo := by simp only [Dev.wing, Dev.pos, Dev.devNo, boot, and_self]
      have payload := timePayload_of_tim (frame.tim_eq (by decide) (by decide))
      have runs' : e.flt.deviceFault = false := by rw [frame.flt_eq (by decide) (by decide)]; exact runs
      obtain ⟨x, carried, sent⟩ := put_onItsWay (16 * e.wing + meshPartner e.pos k) 0x39
        { vc := 5, source := e.devNo, slots := e.timePayload } runs'
      refine ⟨x, ?_, ?_⟩
      · rcases carried with rfl | rfl
        · exact ⟨payload, here.2.2⟩
        · exact ⟨payload, here.2.2⟩
      · rw [← here.1, ← here.2.1]
        exact sendTimes_keep l sent
    · exact ih (frame.trans (sendTime_frame e j)) later

theorem fabOn_runs {d : Dev} (on : d.fabOn = true) : d.flt.deviceFault = false := by
  unfold Dev.fabOn at on
  simp only [Bool.and_eq_true, Bool.not_eq_true'] at on
  exact on.1.1.1.2

theorem exec_fabricTimeSend {s : State} (wing : s.dev.wingMode = true) (master : s.dev.tim.master = true) (ticking : s.dev.tim.ticking = true)
    (on : s.dev.fabOn = true) : exec .fabricTimeSend s = devNext s (((List.range 15).filter s.dev.portUp).foldl sendTime s.dev) := by
  change execFabricTimeSend s = _
  simp only [execFabricTimeSend, State.onDev]
  rw [if_neg (by simp [on, wing, master, ticking])]
  rfl

/-- The device after another position has become master, before the change is logged. -/
def masterAt (d : Dev) (x : Nat) (unled : Bool) : Dev :=
  { d with free := d.free + 1
           tim := { d.tim with masterPos := x, master := decide (x = d.pos), unled, own := 0, good := 0, missed := 0 } }

theorem timeTake_eq (d : Dev) (x : Nat) (unled : Bool) :
    d.timeTake x unled = (masterAt d x unled).logEvent (Config.freeBits 16 d.free) x 0 := rfl

theorem timeTake_frame (d : Dev) (x : Nat) (unled : Bool) : Frame [.tim, .free, .log, .ctrs] d (d.timeTake x unled) := by
  have drawn : Frame [.free] d { d with free := d.free + 1 } := Frame.free ..
  have taken : Frame [.tim] { d with free := d.free + 1 } (masterAt d x unled) := Frame.tim_only _ _ rfl
  exact (logEvent_frame ..).step (by decide) (taken.step (by decide) (drawn.mono (by decide)))

theorem timeTake_tim (d : Dev) (x : Nat) (unled : Bool) : (d.timeTake x unled).tim = (masterAt d x unled).tim :=
  (logEvent_frame (masterAt d x unled) (Config.freeBits 16 d.free) x 0 {}).tim_eq (by decide) (by decide)

theorem exec_timeMasterChange {s : State} {x : Nat} {l : List Nat} (m : List Nat) (wing : s.dev.wingMode = true)
    (next : nextPosition s.dev.tim.masterPos l = some x) : exec (.timeMasterChange l m) s = devNext s (s.dev.timeTake x false) := by
  change execTimeMasterChange l m s = _
  simp only [execTimeMasterChange, State.onDev, wing, next, Bool.not_true, Bool.false_eq_true, if_false]

/-- The first correction after provisional time, while no patron is ACTIVE, waits for the next edge (R509). -/
theorem correct_waits {d : Dev} (off delta : Int) (ticking : d.tim.ticking = true) (provisional : d.tim.provisional = true)
    (first : d.tim.adopted = false) (free : d.anyActive = false) (none : d.tim.adopt = none) :
    d.correct off delta = { d with tim := { d.tim with missed := 0, holdover := false, adopt := some (off, delta) } } := by
  unfold Dev.correct
  refine (if_neg (by simp [ticking])).trans ((if_pos ?_).trans (if_neg (by simp [none])))
  exact ⟨provisional, by simp [first], by simpa [Dev.anyActive] using free⟩

theorem exec_timeAdoption {s : State} (t : Nat) (master : s.dev.tim.master = true) (provisional : s.dev.tim.provisional = true)
    (first : s.dev.tim.adopted = false) (free : s.dev.anyActive = false) :
    exec (.timeAdoption t) s = devNext s (s.dev.correct ((t : Int) - s.dev.tim.now) 0) := by
  have leads : s.dev.follower = false := by simp [Dev.follower, master]
  change execTimeAdoption t s = _
  simp only [execTimeAdoption, State.onDev]
  rw [if_neg (by simp [leads, provisional, first, free])]

/-- A follower that does not tick yet takes the length alone from its master (R42). -/
theorem exec_time_idle {s : State} {port : Nat} {m : Msg} (off : Int) (wing : s.dev.wingMode = true) (taken : Taken s port 0x39 m)
    (inWing : srcDev m.source / 16 = s.dev.wing) (other : srcDev m.source ≠ s.dev.devNo)
    (fromMaster : srcDev m.source % 16 = s.dev.tim.masterPos) (idle : s.dev.tim.ticking = false) (len : fieldOf m.slots 16 2 ≠ 0) :
    exec (.time port m off) s = devNext s { s.dev with tim := { s.dev.tim with len := fieldOf m.slots 16 2 } } := by
  change execTime port m off s = _
  simp only [execTime, onMsg_taken taken, State.onDev]
  rw [if_neg (by simp [wing, inWing, other]), if_pos fromMaster]
  unfold Dev.fabricTime
  exact congrArg (devNext s) ((if_neg len).trans (if_pos (by simp [idle])))

/-- Settles O11: the four rows, each by its equation. -/
theorem wingTimeRows : Obligations.WingTimeRows := by
  intro s wing
  refine ⟨fun x l m next => ?change, fun t master ticking provisional first free none => ?adoption, fun master ticking on => ?send,
    fun port m off taken inWing other fromMaster idle len => ?follower⟩
  case change =>
    refine .of_exec (exec_timeMasterChange m wing next) ?_
    dsimp only
    rw [timeTake_tim]
    exact ⟨rfl, rfl, rfl, logEvent_logSeq .., .of_frame (timeTake_frame ..)⟩
  case adoption =>
    have run := exec_timeAdoption t master provisional first free
    rw [correct_waits _ 0 ticking provisional first free none] at run
    exact .of_exec run ⟨rfl, .of_frame (Frame.tim_only s.dev _ rfl)⟩
  case send =>
    refine .of_exec (exec_fabricTimeSend wing master ticking on) ⟨fun k small up => ?_, .of_frame ((Frame.refl ..).foldl sendTime_frame |>.mono ?_)⟩
    · obtain ⟨y, content, sent⟩ := sendTimes_onItsWay (fabOn_runs on) (Frame.refl ..)
        (List.mem_filter.mpr ⟨List.mem_range.mpr small, up⟩)
      exact sent.sends content
    · decide
  case follower =>
    exact .of_exec (exec_time_idle off wing taken inWing other fromMaster idle len) ⟨rfl, .of_frame (Frame.tim_only s.dev _ rfl)⟩

end Sys2Proof.Safety
end

section
/-! ### Gate cycles (R427, R428) -/

namespace Sys2Proof.Safety

open Sys2Proof.Machine

/-- The device at the start of a cycle of a list, counted. -/
def cycleBegins (d : Dev) (g : GateList) (t : Nat) : Dev := ({ d with adm := { d.adm with gates := g, cycleStart := t, gateEntry := 0 } }).count .gateCycles 0

theorem cycleBegins_frame (d : Dev) (g : GateList) (t : Nat) : Frame [.adm, .ctrs] d (cycleBegins d g t) :=
  (count_frame ..).step (by decide) ((Frame.adm ..).mono (by decide))

theorem cycleBegins_adm (d : Dev) (g : GateList) (t : Nat) :
    (cycleBegins d g t).adm = { d.adm with gates := g, cycleStart := t, gateEntry := 0 } := count_adm ..

theorem starts_true {g : GateList} {n : Nat} (period : g.period ≠ 0) (start : g.startAt n = n) : (g.period != 0 && g.startAt n == n) = true := by
  simp [period, start]

/-- A list that waits is taken at a start of its own cycle that is not past. -/
theorem gateCycleStart_taken {s : State} {g : GateList} {n : Nat} (waits : s.dev.adm.gatePend = some g) (period : g.period ≠ 0)
    (start : g.startAt n = n) (now : s.dev.tim.now ≤ n) : exec (.gateCycleStart n) s
      = devNext s { cycleBegins s.dev g n with adm := { (cycleBegins s.dev g n).adm with gatePend := none } } := by
  change execGateCycleStart n s = _
  simp only [execGateCycleStart, State.onDev, waits]
  rw [if_pos ⟨starts_true period start, now⟩]
  rfl

/-- With no list that waits, the list in force begins its next cycle. -/
theorem gateCycleStart_next {s : State} {n : Nat} (waits : s.dev.adm.gatePend = none) (period : s.dev.adm.gates.period ≠ 0)
    (start : s.dev.adm.gates.startAt n = n) (later : s.dev.adm.cycleStart < n) :
    exec (.gateCycleStart n) s = devNext s (cycleBegins s.dev s.dev.adm.gates n) := by
  change execGateCycleStart n s = _
  unfold execGateCycleStart State.onDev
  beta_reduce
  split
  case h_1 g held => cases waits.symm.trans held
  case h_2 => exact congrArg (devNext s) (if_pos ⟨starts_true period start, later⟩)

theorem gateEntryChange_next {s : State} (period : s.dev.adm.gates.period ≠ 0) (more : s.dev.adm.gateEntry + 1 < s.dev.adm.gates.entries.length) :
    exec .gateEntryChange s = devNext s { s.dev with adm := { s.dev.adm with gateEntry := s.dev.adm.gateEntry + 1 } } := by
  change execGateEntryChange s = _
  simp only [execGateEntryChange, State.onDev]
  rw [if_neg (by simp [period, more])]

theorem gateEntryChange_last {s : State} (last : s.dev.adm.gates.entries.length ≤ s.dev.adm.gateEntry + 1) :
    exec .gateEntryChange s = .next s := by
  change execGateEntryChange s = _
  simp only [execGateEntryChange, State.onDev]
  rw [if_pos (.inr last)]

/-- Settles O12: the four cases are those of the two rows. -/
theorem gateRows : Obligations.GateRows := by
  intro s
  refine ⟨fun g n waits period start now => ?taken, fun n waits period start later => ?next, fun period more => ?entry, gateEntryChange_last⟩
  case taken =>
    refine .of_exec (gateCycleStart_taken waits period start now) ⟨?_, .of_frame ?_⟩
    · dsimp only
      rw [cycleBegins_adm]
    · exact (Frame.adm ..).step (by decide) (cycleBegins_frame s.dev g n)
  case next =>
    refine .of_exec (gateCycleStart_next waits period start later) ⟨?_, .of_frame (cycleBegins_frame ..)⟩
    dsimp only
    rw [cycleBegins_adm]
  case entry => exact .of_exec (gateEntryChange_next period more) ⟨rfl, .of_frame (Frame.adm ..)⟩

end Sys2Proof.Safety
end

section
/-! ### Rows whose operation answers at once: from the descriptor to its completion (R92) -/

namespace Sys2Proof.Safety

open Sys2Proof.Machine

/-- The request as a descriptor's operation runs with it. -/
def ran (s : State) (op : Nat) (x : DescIn) : Req := named (granted s op x).2 (granted s op x).1

/-- An operation that neither edits a sequence nor begins a walk. -/
def plainOp (op : Nat) : Bool := !isEdit op && op != 0x01 && op != 0x22

theorem descriptor_plain {s : State} {op : Nat} {x : DescIn} (h : Grants s op x) (plain : plainOp op = true) :
    s.descriptor op x = settled ((grantedState s op x).runOp (ran s op x)) := by
  simp only [plainOp, Bool.and_eq_true, Bool.not_eq_true', bne_iff_ne] at plain
  exact descriptor_other h plain.1.1 ⟨plain.1.2, plain.2⟩

theorem Answered.of_ran {s : State} {op : Nat} {x : DescIn} {a : Ans} {t : State} (h : Answered (ran s op x) a t) :
    Answered (granted s op x).1 a t := h

theorem AnsweredFw.of_ran {s : State} {op : Nat} {x : DescIn} {a : Ans} {t : State} (h : AnsweredFw (ran s op x) a t) :
    AnsweredFw (granted s op x).1 a t := h

/-! #### What a completion leaves of the admission unit -/

section
variable {β : Type} (g : AdmSt → β) (d : Dev) (q : Req) (a : Ans)

/-- A reading of the admission unit that does not look at the completions that wait is kept by a completion. -/
theorem complete_admField (blind : ∀ m due outs, g { m with due := due, peerOuts := outs } = g m := by intros; rfl) :
    g (d.complete q a).adm = g d.adm := by
  simp only [Dev.complete, Dev.peersDone, countOp_adm]
  exact blind ..

theorem finish_admField (blind : ∀ m due outs, g { m with due := due, peerOuts := outs } = g m := by intros; rfl)
    (noEnds : ∀ m ended, g { m with ended := ended } = g m := by intros; rfl) : g (d.finish q a).adm = g d.adm := by
  unfold Dev.finish
  dsimp only
  split
  · exact complete_admField g d q a blind
  · exact (noEnds ..).trans (complete_admField g d q a blind)

end

section
variable {c : Instr} {s : State} {op : Nat} {x : DescIn} {e : Dev} {a : Ans} {ps : List Part} {P : State → Prop}
  (run : exec c s = .next (s.descriptor op x)) (h : Grants s op x) (plain : plainOp op = true)
include run h plain

/-- A row whose operation answers leaves its device and its answer, and changes what the operation and taking the request do. -/
theorem After.of_answers (opcode : (grantedState s op x).runOp (ran s op x) = (grantedState s op x).answers (ran s op x) (e, a))
    (frame : Frame ps (granted s op x).2 e) (mem : .adm ∈ ps ∧ .rings ∈ ps ∧ .ctrs ∈ ps)
    (post : ∀ t, t.dev = e.finish (ran s op x) a → Answered (granted s op x).1 a t → Changes ps s t → P t) : After c s P := by
  refine ⟨_, run, ?_⟩
  rw [descriptor_plain h plain, opcode]
  exact post _ rfl (answers_answered ..).of_ran (answers_changes frame mem.1 mem.2.1 mem.2.2 _)

/-- The same where firmware gives the answer. -/
theorem After.of_answersFw (opcode : (grantedState s op x).runOp (ran s op x) = (grantedState s op x).answersFw (ran s op x) (e, a))
    (frame : Frame ps (granted s op x).2 e) (mem : .adm ∈ ps ∧ .rings ∈ ps ∧ .ctrs ∈ ps)
    (post : ∀ t, t.dev = e.completeFw (ran s op x) a → AnsweredFw (granted s op x).1 a t → Changes ps s t → P t) : After c s P := by
  refine ⟨_, run, ?_⟩
  rw [descriptor_plain h plain, opcode]
  exact post _ rfl (answersFw_answered ..).of_ran (answersFw_changes frame mem.1 mem.2.1 mem.2.2 _)

end

end Sys2Proof.Safety
end

section
/-! ### Control descriptors that complete at once (R45, R79, R87, R431, R440, R503) -/

namespace Sys2Proof.Safety

open Sys2Proof.Machine

theorem pendWord_frame (d : Dev) (a w : Nat) : Frame [.port] d (d.pendWord a w) := Frame.port d _ _ _ _ _ _ _ rfl

theorem opGateSet_period {d : Dev} {q : Req} (period : q.d.fld 0 0 32 ≠ 0) :
    d.opGateSet q = ({ d with adm := { d.adm with gatePend := some { period := q.d.fld 0 0 32, phase := q.d.fld 4 0 32, entries := gateEntries (q.d.input 0 16) (q.d.fld 8 0 7) } } },
      { r0 := GateList.nextStart { period := q.d.fld 0 0 32, phase := q.d.fld 4 0 32, entries := gateEntries (q.d.input 0 16) (q.d.fld 8 0 7) } d.tim.now }) := by
  simp only [Dev.opGateSet, if_neg period]

theorem opShaperSet_quantum {d : Dev} {q : Req} (patron : q.d.fld 0 6 1 = 0) (quantum : q.d.fld 1 0 4 = 10) :
    d.opShaperSet q = (d.pendWord (regTrfQuantump.addr (q.d.fld 0 0 6)) (q.d.fld 4 0 32),
      { r0 := tgetD d.adm.deficit (q.d.fld 0 0 6) 0, r1 := (d.tim.count + 1) % 2 ^ 32 }) := by
  unfold Dev.opShaperSet
  rw [patron, quantum]
  rfl

theorem opDeviceReset_epoch {d : Dev} {q : Req} (epoch : q.d.fld 0 0 32 = d.fab.epoch) :
    d.opDeviceReset q = ({ d with boot := { d.boot with resetDue := true } }, {}) := if_neg (by simp [epoch])

/-- Settles O13: each row is `After.of_answers` with its operation's device and answer. -/
theorem controlRowsComplete : Obligations.ControlRowsComplete := by
  intro s x
  refine ⟨fun h => ?nop, fun h => ?tickSet, fun h => ?apertureMap, fun h period => ?gateSet, fun h patron quantum => ?shaperSet,
    fun h epoch => ?deviceReset⟩
  case nop =>
    exact .of_answers rfl h rfl (runOp_00 _ _ rfl) (Frame.refl ..) (by decide) fun t _ answered changes => ⟨answered, changes⟩
  case tickSet =>
    refine .of_answers rfl h rfl (ps := [.adm, .rings, .ctrs, .tim]) (runOp_80 _ _ rfl) ((pendLength_frame ..).mono (by decide)) (by decide)
      fun t dev answered changes => ⟨?_, answered, changes⟩
    rw [dev]
    exact (finish_frame ..).timField (by decide) (·.pend)
  case apertureMap =>
    refine .of_answers rfl h rfl (ps := [.adm, .rings, .ctrs, .regs]) (runOp_82 _ _ rfl) ((setRegWord_frame ..).mono (by decide)) (by decide)
      fun t dev answered changes => ⟨?_, answered, changes⟩
    rw [dev, Dev.regWord, (finish_frame ..).same .regs (by decide)]
    exact regWord_setRegWord_same _ regHpiAptSlots _ 0 _
  case gateSet =>
    refine .of_answers rfl h rfl (ps := [.adm, .rings, .ctrs])
      ((runOp_8A _ _ rfl).trans (congrArg _ (opGateSet_period period))) ((Frame.adm ..).mono (by decide)) (by decide) fun t dev answered changes => ⟨{ period := x.fld 0 0 32, phase := x.fld 4 0 32, entries := gateEntries (x.input 0 16) (x.fld 8 0 7) }, rfl, rfl, rfl, ?_, ?_, ?_, changes⟩
    · rw [dev]
      exact finish_admField (·.gatePend) ..
    · rw [dev]
      exact (finish_admField (·.gates) ..).trans (granted_gates s 0x8A x)
    · rw [← granted_tim s 0x8A x]
      exact answered
  case shaperSet =>
    refine .of_answers rfl h rfl (ps := [.adm, .rings, .ctrs, .port])
      ((runOp_89 _ _ rfl).trans (congrArg _ (opShaperSet_quantum patron quantum))) ((pendWord_frame ..).mono (by decide)) (by decide) fun t dev answered changes => ⟨?_, ?_, changes⟩
    · rw [dev, ((finish_frame ..).same .port (by decide)).1]
      simp [Dev.pendWord, ran, named, granted_req]
    · rw [← granted_deficit s 0x89 x, ← granted_tim s 0x89 x]
      exact answered
  case deviceReset =>
    have same : (granted s 0x8C x).2.fab.epoch = s.dev.fab.epoch := by rw [granted_fab]
    refine .of_answers rfl h rfl (ps := [.adm, .rings, .ctrs, .boot])
      ((runOp_8C _ _ rfl).trans (congrArg _ (opDeviceReset_epoch (epoch.trans same.symm)))) ((Frame.boot ..).mono (by decide)) (by decide) fun t dev answered changes => ⟨?_, answered, changes⟩
    rw [dev, (finish_frame ..).same .boot (by decide), ← granted_boot s 0x8C x]
    rfl

end Sys2Proof.Safety
end

section
/-! ### Steps that write no completion: what they leave of the completion rings and of the output -/

namespace Sys2Proof.Safety

open Sys2Proof.Machine

/-- A step changes some parts, leaves every completion ring as it was, and only adds to the output. -/
structure Tame (ps : List Part) (d e : Dev) : Prop where
  frame : Frame ps d e
  cq : ∀ p, (e.pat p).cq = (d.pat p).cq
  out : d.out <+: e.out

section
variable {ps qs : List Part} {d e f : Dev}

theorem Tame.refl (ps : List Part) (d : Dev) : Tame ps d d := ⟨Frame.refl .., fun _ => rfl, List.prefix_refl _⟩

theorem Tame.trans (h : Tame ps d e) (k : Tame ps e f) : Tame ps d f :=
  ⟨h.frame.trans k.frame, fun p => (k.cq p).trans (h.cq p), h.out.trans k.out⟩

theorem Tame.mono (h : Tame ps d e) (w : ∀ p ∈ ps, p ∈ qs) : Tame qs d e := ⟨h.frame.mono w, h.cq, h.out⟩

theorem Tame.step (k : Tame ps e f) (w : ∀ p ∈ ps, p ∈ qs) (h : Tame qs d e) : Tame qs d f := h.trans (k.mono w)

theorem Tame.ite {c : Prop} [Decidable c] (h : Tame ps d e) (k : Tame ps d f) : Tame ps d (if c then e else f) := by
  split
  · exact h
  · exact k

theorem Tame.foldl {α : Type} {f : Dev → α → Dev} {l : List α} (h : Tame ps d e) (k : ∀ x y, Tame ps x (f x y)) : Tame ps d (l.foldl f e) := by
  induction l generalizing e with
  | nil => exact h
  | cons y l ih => exact ih (h.trans (k e y))

/-- A step that reaches neither the patrons nor the output. -/
theorem Frame.tame (h : Frame ps d e) (rings : .rings ∉ ps := by decide) (out : .out ∉ ps := by decide) : Tame ps d e :=
  ⟨h, fun p => (h.same .rings rings p).1, (h.same .out out : e.out = d.out) ▸ List.prefix_refl _⟩

end

theorem emit_tame (d : Dev) (o : Out) : Tame [.out] d (d.emit o) := by
  refine ⟨emit_frame .., fun p => ?_, ?_⟩
  · exact ((emit_frame d o).same .rings (by decide) p).1
  · unfold Dev.emit
    split
    · exact List.prefix_refl _
    · exact List.prefix_append ..

theorem modEq_tame (d : Dev) (p : Nat) (f : EqSt → EqSt) : Tame [.rings] d (d.modEq p f) := by
  refine ⟨modEq_frame .., fun q => ?_, List.prefix_refl _⟩
  unfold Dev.modEq
  rw [pat_modPat]
  split
  · next same => rw [same]
  · rfl

theorem putEvent_tame (d : Dev) (p code src d0 d1 : Nat) : Tame [.out, .arbs, .rings] d (d.putEvent p code src d0 d1) := by
  unfold Dev.putEvent
  exact (modEq_tame ..).step (by decide) ((emit_tame ..).step (by decide) ((arbGrant_frame ..).tame.mono (by decide)))

theorem ringEvent_tame (d : Dev) (p code src d0 d1 : Nat) : Tame [.out, .arbs, .rings, .ctrs] d (d.ringEvent p code src d0 d1) := by
  unfold Dev.ringEvent
  extract_lets lost full half
  have ended : Tame [.out, .arbs, .rings, .ctrs] d ((d.putEvent p 0x0001 p lost 0).modEq p fun e => { e with lost := 0 }) :=
    (modEq_tame ..).step (by decide) ((putEvent_tame ..).mono (by decide))
  have hFull : Tame [.out, .arbs, .rings, .ctrs] d full := .ite ended (.refl ..)
  have hHalf : Tame [.out, .arbs, .rings, .ctrs] d half := .ite ended (.refl ..)
  refine .ite (.refl ..) (.ite ?_ ((putEvent_tame ..).step (by decide) hHalf))
  exact (count_frame ..).tame.step (by decide) ((modEq_tame ..).step (by decide) hFull)

theorem devEvent_tame (d : Dev) (code d0 d1 : Nat) (i : LogInfo) : Tame evParts d (d.devEvent code d0 d1 i) :=
  (ringEvent_tame ..).step (by decide) ((logEvent_frame ..).tame.mono (by decide))
theorem bothEvent_tame (d : Dev) (p code src d0 d1 : Nat) (i : LogInfo) : Tame evParts d (d.bothEvent p code src d0 d1 i) := by
  unfold Dev.bothEvent
  extract_lets logged
  have hLogged : Tame evParts d logged := (ringEvent_tame ..).step (by decide) ((logEvent_frame ..).tame.mono (by decide))
  exact .ite hLogged ((ringEvent_tame ..).step (by decide) hLogged)

end Sys2Proof.Safety
end

section
/-! ### Laws of the flash map: what discarding and unmapping leave of the volumes (R302, R316, R318, R323) -/

namespace Sys2Proof.Safety

open Sys2Proof.Machine

/-- The parts that the flash's records reach, with the events of its health. -/
def flashParts : List Part := .stk :: evParts

/-! #### Frames -/

theorem modBlock_frame (d : Dev) (k : Nat) (f : FBlock → FBlock) : Frame [.stk] d (d.modBlock k f) := Frame.stk d _

theorem event_modVol_tame (d : Dev) (code d0 d1 v : Nat) (f : Volume → Volume) : Tame flashParts d ((d.devEvent code d0 d1).modVol v f) :=
  (modVol_frame ..).tame.step (by decide) ((devEvent_tame ..).mono (by decide))

theorem spareCheck_tame (d : Dev) (v : Nat) : Tame flashParts d (d.spareCheck v) := by
  unfold Dev.spareCheck
  split
  · exact .refl ..
  extract_lets sp warned
  have hWarned : Tame flashParts d warned := by
    refine (Tame.refl ..).foldl fun e t => ?_
    split
    · exact .ite (event_modVol_tame ..) (.refl ..)
    · exact .refl ..
  exact .ite (hWarned.trans (event_modVol_tame ..)) hWarned

theorem settleBlock_tame (d : Dev) (k : Nat) : Tame flashParts d (d.settleBlock k) := by
  unfold Dev.settleBlock
  have marked : ∀ f, Tame flashParts d (d.modBlock k f) := fun f => (modBlock_frame ..).tame.mono (by decide)
  refine .ite (.refl ..) (.ite (marked _) (.ite ?_ (.refl ..)))
  exact (spareCheck_tame ..).step (by decide) ((count_frame ..).tame.step (by decide) (marked _))

theorem dropValid_tame (d : Dev) (b k : Nat) : Tame flashParts d (d.dropValid b k) :=
  (settleBlock_tame ..).step (by decide) ((modBlock_frame ..).tame.mono (by decide))

theorem unlocateSector_tame (d : Dev) (u j : Nat) (f : FSector) : Tame flashParts d (d.unlocateSector u j f) := by
  unfold Dev.unlocateSector
  split
  · exact dropValid_tame ..
  · exact .refl ..

theorem unlocate_tame (d : Dev) (u : Nat) (x : FUnit) : Tame flashParts d (d.unlocate u x) := by
  unfold Dev.unlocate
  split
  · exact (Tame.refl ..).foldl fun e f => unlocateSector_tame ..
  split
  · exact .refl ..
  · exact dropValid_tame ..

theorem mapChanged_frame (d : Dev) (v u : Nat) : Frame [.stk] d (d.mapChanged v u) := Frame.stk d _

theorem unmapUnit_tame (d : Dev) (v u : Nat) : Tame flashParts d (d.unmapUnit v u) := by
  unfold Dev.unmapUnit
  split
  · exact .refl ..
  · exact (mapChanged_frame ..).tame.step (by decide) ((modVol_frame ..).tame.step (by decide)
      ((Frame.stk ..).tame.step (by decide) (unlocate_tame ..)))

theorem dropCopy_tame (d : Dev) (span : Nat) : Tame flashParts d (d.dropCopy span) := by
  unfold Dev.dropCopy
  split
  · exact .refl ..
  · exact (Frame.stk ..).tame.step (by decide) ((Tame.refl ..).foldl fun e i => unmapUnit_tame ..)

theorem copyCeases_tame (d : Dev) (span tier : Nat) : Tame (.tier :: flashParts) d (d.copyCeases span tier) := by
  unfold Dev.copyCeases
  refine (Frame.tier ..).tame.step (by decide) (.ite ?_ ((Frame.tier ..).tame.mono (by decide)))
  exact (dropCopy_tame ..).mono (by decide)

theorem emptyVolume_tame (d : Dev) (v : Nat) : Tame (.tier :: flashParts) d (d.emptyVolume v) := by
  unfold Dev.emptyVolume
  split
  · exact .refl ..
  extract_lets spans ceased emptied tierSt stkSt cleared
  have hCeased : Tame (.tier :: flashParts) d ceased := (Tame.refl ..).foldl fun e s => copyCeases_tame ..
  have hEmptied : Tame (.tier :: flashParts) d emptied := by
    refine hCeased.foldl fun e k => ?_
    have marked : ∀ f, Tame (.tier :: flashParts) e (e.modBlock k f) := fun f => (modBlock_frame ..).tame.mono (by decide)
    exact .ite ((count_frame ..).tame.step (by decide) (marked _)) (marked _)
  have hCleared : Tame (.tier :: flashParts) d cleared := (Frame.tier { emptied with stk := cleared.stk } cleared.tier).tame.step (by decide)
    ((Frame.stk emptied cleared.stk).tame.step (by decide) hEmptied)
  exact (modVol_frame ..).tame.step (by decide) hCleared

theorem unmapUnit_frame (d : Dev) (v u : Nat) : Frame flashParts d (d.unmapUnit v u) := (unmapUnit_tame ..).frame
theorem dropCopy_frame (d : Dev) (span : Nat) : Frame flashParts d (d.dropCopy span) := (dropCopy_tame ..).frame
theorem copyCeases_frame (d : Dev) (span tier : Nat) : Frame (.tier :: flashParts) d (d.copyCeases span tier) := (copyCeases_tame ..).frame
theorem emptyVolume_frame (d : Dev) (v : Nat) : Frame (.tier :: flashParts) d (d.emptyVolume v) := (emptyVolume_tame ..).frame
theorem unlocateSector_frame (d : Dev) (u j : Nat) (f : FSector) : Frame flashParts d (d.unlocateSector u j f) := (unlocateSector_tame ..).frame

/-! #### Volumes up to what their health shows -/

/-- A volume without what the spare events leave in it (R323, R324). -/
def volumeCore (v : Volume) : Volume := { v with spareSeen := [], protected_ := false }

/-- The volumes of two devices agree but for what the spare events leave in them. -/
def SameVolumes (d e : Dev) : Prop := ∀ k, (e.vol? k).map volumeCore = (d.vol? k).map volumeCore

theorem SameVolumes.refl (d : Dev) : SameVolumes d d := fun _ => rfl
theorem SameVolumes.trans {d e f : Dev} (h : SameVolumes d e) (k : SameVolumes e f) : SameVolumes d f := fun i => (k i).trans (h i)

theorem SameVolumes.of_volumes {d e : Dev} (h : e.stk.volumes = d.stk.volumes) : SameVolumes d e := fun k => by
  rw [Dev.vol?, Dev.vol?, h]

theorem SameVolumes.of_frame {ps : List Part} {d e : Dev} (h : Frame ps d e) (n : .stk ∉ ps) : SameVolumes d e :=
  .of_volumes (by rw [h.same .stk n])

theorem SameVolumes.foldl {α : Type} {d e : Dev} {f : Dev → α → Dev} {l : List α} (h : SameVolumes d e)
    (k : ∀ x y, SameVolumes x (f x y)) : SameVolumes d (l.foldl f e) := by
  induction l generalizing e with
  | nil => exact h
  | cons y l ih => exact ih (h.trans (k e y))

theorem vol_modVol_same (d : Dev) (v : Nat) (f : Volume → Volume) : (d.modVol v f).vol? v = (d.vol? v).map f := tget_tmod_same ..

theorem vol_modVol_other (d : Dev) {v k : Nat} (h : v ≠ k) (f : Volume → Volume) : (d.modVol v f).vol? k = d.vol? k := tget_tmod_other _ h f

theorem modVol_same (d : Dev) (v : Nat) {f : Volume → Volume} (h : ∀ x, volumeCore (f x) = volumeCore x) : SameVolumes d (d.modVol v f) := by
  intro k
  by_cases e : v = k
  · subst e
    rw [vol_modVol_same, Option.map_map]
    exact congrArg (fun g => (d.vol? v).map g) (funext h)
  · rw [vol_modVol_other d e]

theorem event_modVol_same (d : Dev) (code d0 d1 v : Nat) {f : Volume → Volume} (h : ∀ x, volumeCore (f x) = volumeCore x) :
    SameVolumes d ((d.devEvent code d0 d1).modVol v f) :=
  (SameVolumes.of_frame (devEvent_frame ..) (by decide)).trans (modVol_same _ v h)

theorem spareCheck_same (d : Dev) (v : Nat) : SameVolumes d (d.spareCheck v) := by
  unfold Dev.spareCheck
  split
  · exact .refl d
  extract_lets sp warned
  have hWarned : SameVolumes d warned := by
    refine (SameVolumes.refl d).foldl fun e t => ?_
    split
    · split
      · exact event_modVol_same _ _ _ _ _ fun _ => rfl
      · exact .refl e
    · exact .refl e
  split
  · exact hWarned.trans (event_modVol_same _ _ _ _ _ fun _ => rfl)
  · exact hWarned

theorem settleBlock_same (d : Dev) (k : Nat) : SameVolumes d (d.settleBlock k) := by
  unfold Dev.settleBlock
  extract_lets b
  split
  · exact .refl d
  split
  · exact .of_volumes rfl
  split
  · have retired : SameVolumes d (d.modBlock k fun b => { b with st := 7 }) := .of_volumes rfl
    exact (retired.trans (.of_frame (count_frame _ .blkRetired b.volume 1) (by decide))).trans (spareCheck_same _ _)
  · exact .refl d

theorem dropValid_same (d : Dev) (b k : Nat) : SameVolumes d (d.dropValid b k) :=
  (SameVolumes.of_volumes (e := d.modBlock b _) rfl).trans (settleBlock_same _ _)

theorem unlocateSector_same (d : Dev) (u j : Nat) (f : FSector) : SameVolumes d (d.unlocateSector u j f) := by
  unfold Dev.unlocateSector
  split
  · exact dropValid_same _ _ _
  · exact .refl d

theorem unlocate_same (d : Dev) (u : Nat) (x : FUnit) : SameVolumes d (d.unlocate u x) := by
  unfold Dev.unlocate
  split
  · exact (SameVolumes.refl d).foldl fun e f => unlocateSector_same _ _ _ _
  split
  · exact .refl d
  · exact dropValid_same _ _ _

/-! #### Volumes up to what they hold -/

/-- What a format gives a volume for good. -/
def volumeForm (v : Volume) : Volume := { volumeCore v with units := [] }

/-- The volumes of two devices agree but for their units and what the spare events leave in them. -/
def SameForms (d e : Dev) : Prop := ∀ k, (e.vol? k).map volumeForm = (d.vol? k).map volumeForm

theorem SameForms.refl (d : Dev) : SameForms d d := fun _ => rfl
theorem SameForms.trans {d e f : Dev} (h : SameForms d e) (k : SameForms e f) : SameForms d f := fun i => (k i).trans (h i)

theorem SameVolumes.forms {d e : Dev} (h : SameVolumes d e) : SameForms d e := fun k => by
  have same := congrArg (Option.map fun v : Volume => { v with units := [] }) (h k)
  rwa [Option.map_map, Option.map_map] at same

theorem SameForms.foldl {α : Type} {d e : Dev} {f : Dev → α → Dev} {l : List α} (h : SameForms d e)
    (k : ∀ x y, SameForms x (f x y)) : SameForms d (l.foldl f e) := by
  induction l generalizing e with
  | nil => exact h
  | cons y l ih => exact ih (h.trans (k e y))

theorem modVol_form (d : Dev) (v : Nat) {f : Volume → Volume} (h : ∀ x, volumeForm (f x) = volumeForm x) : SameForms d (d.modVol v f) := by
  intro k
  by_cases e : v = k
  · subst e
    rw [vol_modVol_same, Option.map_map]
    exact congrArg (fun g => (d.vol? v).map g) (funext h)
  · rw [vol_modVol_other d e]

theorem unmapUnit_form (d : Dev) (v u : Nat) : SameForms d (d.unmapUnit v u) := by
  unfold Dev.unmapUnit
  split
  · exact .refl d
  case h_2 y _ =>
    extract_lets located stkSt staged
    have hStaged : SameVolumes d staged := (unlocate_same d u y).trans (.of_volumes rfl)
    exact (hStaged.forms.trans (modVol_form staged v (f := fun x => { x with units := tdel x.units u }) fun _ => rfl)).trans
      (SameVolumes.of_volumes rfl).forms

theorem dropCopy_form (d : Dev) (span : Nat) : SameForms d (d.dropCopy span) := by
  unfold Dev.dropCopy
  split
  · exact .refl d
  case h_2 c _ =>
    have unmapped : SameForms d ((List.range c.count).foldl (fun d i => d.unmapUnit c.volume (c.firstUnit + i)) d) :=
      (SameForms.refl d).foldl fun e i => unmapUnit_form _ _ _
    exact unmapped.trans (SameVolumes.of_volumes rfl).forms

theorem copyCeases_form (d : Dev) (span tier : Nat) : SameForms d (d.copyCeases span tier) := by
  unfold Dev.copyCeases
  split
  · exact (dropCopy_form d span).trans (SameVolumes.of_volumes rfl).forms
  · exact (SameVolumes.of_volumes rfl).forms

/-- An emptied volume keeps its form, and every other its own. -/
theorem emptyVolume_form (d : Dev) (v : Nat) : SameForms d (d.emptyVolume v) := by
  unfold Dev.emptyVolume
  split
  · exact .refl d
  extract_lets spans ceased emptied tierSt stkSt cleared
  have hCeased : SameForms d ceased := (SameForms.refl d).foldl fun e s => copyCeases_form _ _ _
  have hEmptied : SameForms d emptied := by
    refine hCeased.foldl fun e k => ?_
    dsimp only
    split
    · exact (SameVolumes.of_frame (count_frame _ .blkRetired v 1) (by decide)).forms
    · exact .refl e
  exact (hEmptied.trans (SameVolumes.of_volumes (e := cleared) rfl).forms).trans (modVol_form _ _ fun _ => rfl)

/-- An emptied volume holds no unit. -/
theorem emptyVolume_units {d : Dev} {v : Nat} {w : Volume} (h : (d.emptyVolume v).vol? v = some w) : w.units = [] := by
  unfold Dev.emptyVolume at h
  split at h
  case h_1 none => cases none.symm.trans h
  case h_2 =>
    rw [vol_modVol_same] at h
    obtain ⟨x, -, rfl⟩ := Option.map_eq_some_iff.mp h
    rfl

end Sys2Proof.Safety
end

section
/-! ### Archive, governor, volumes and firmware (R318, R333 to R335, R487, R531, R532) -/

namespace Sys2Proof.Safety

open Sys2Proof.Machine

/-! #### Tables -/

theorem mem_tset {α : Type} {t : Tab α} {i : Nat} {x : α} {e : Nat × α} (h : e ∈ tset t i x) : e = (i, x) ∨ e ∈ t := by
  induction t with
  | nil => exact .inl (List.mem_singleton.mp h)
  | cons y t ih =>
    obtain ⟨k, v⟩ := y
    simp only [tset] at h
    split_ifs at h <;> simp only [List.mem_cons] at h ⊢ <;> tauto

theorem mem_of_tget {α : Type} {t : Tab α} {i : Nat} {x : α} (h : tget t i = some x) : (i, x) ∈ t := by
  induction t with
  | nil => cases h
  | cons y t ih =>
    obtain ⟨k, v⟩ := y
    simp only [tget] at h
    split at h
    case isTrue e =>
      obtain rfl := Option.some.inj h
      subst e
      exact List.mem_cons_self
    case isFalse => exact List.mem_cons_of_mem _ (ih h)

/-! #### POWER_SET -/

theorem limitWatts_of {d e : Dev} (regs : e.regs = d.regs) (boot : e.boot = d.boot) : e.limitWatts = d.limitWatts := by
  simp only [Dev.limitWatts, reg_of_same_regs regs, boot]

/-- No patron but 0 is ACTIVE. -/
def aloneActive (d : Dev) : Prop := ∀ e ∈ d.host.patrons, e.1 = 0 ∨ e.2.st ≠ .active

theorem count2_host (d : Dev) (c : Ctr) (i j n : Nat) : (d.count2 c i j n).host = d.host := by
  unfold Dev.count2
  split <;> rfl

/-- Taking a request changes no patron's state, nor lists an ACTIVE one. -/
theorem granted_alone {s : State} (op : Nat) (x : DescIn) (h : aloneActive s.dev) : aloneActive (granted s op x).2 := by
  intro e mem
  have host : (granted s op x).2.host = (s.dev.modCq x.patron (s.dev.boundCq x.patron x.ring) fun c => { c with reserved := c.reserved + 1 }).host :=
    count2_host ..
  rw [host] at mem
  rcases mem_tset mem with rfl | listed
  · cases known : tget s.dev.host.patrons x.patron with
    | none => exact .inr (by simp [Dev.pat, tgetD, known])
    | some y => exact (h _ (mem_of_tget known)).imp id (by simp [Dev.pat, tgetD, known])
  · exact h e listed

theorem opPowerSet_limit {d : Dev} {q : Req} (action : q.d.fld 0 0 2 = 2) : d.opPowerSet q
    = (d.setReg regPwrLimit 0 0 0 (q.d.fld 2 0 16), { r0 := (d.setReg regPwrLimit 0 0 0 (q.d.fld 2 0 16)).limitWatts }) :=
  if_neg (by rw [action]; decide)

theorem opPowerSet_sleep {d : Dev} {q : Req} (action : q.d.fld 0 0 2 = 1) (regions : d.liveRegions = 0) (alone : aloneActive d) :
    d.opPowerSet q = ({ d with pwr := { d.pwr with sleep := 1, wakeAt := q.d.fld 8 0 64 } }, {}) := by
  have none : d.host.patrons.filter (fun e => e.1 != 0 && e.2.st == .active) = [] := by
    refine List.filter_eq_nil_iff.mpr fun e mem => ?_
    rcases alone e mem with zero | idle <;> simp [*]
  unfold Dev.opPowerSet
  rw [if_pos action, none]
  exact if_neg (by simp [regions])

theorem runPowerSet_sleep {s : State} {q : Req} (action : q.d.fld 0 0 2 = 1) : s.runPowerSet q = s.answers q (s.dev.opPowerSet q) := if_pos action

/-! #### GOVERNOR_SET -/

/-- A volume with the life and the cycles that GOVERNOR_SET gives it, before its budget is to be recomputed. -/
def governed (v : Volume) (days cycles : Nat) : Volume := { v with lifeDays := days, ratedCycles := cycles }

/-- The device after GOVERNOR_SET of both (R335). -/
def governorSet (d : Dev) (v days cycles : Nat) : Dev :=
  (((d.modVol v fun x => governed x days cycles).setReg regStkLifeDays 0 0 0 days).setReg regStkRatedCycles 0 0 0 cycles)

@[simp] theorem setReg_stk (d : Dev) (r : RegRow) (i p f v : Nat) : (d.setReg r i p f v).stk = d.stk := by rw [setReg_eq]

theorem vol_setReg (d : Dev) (r : RegRow) (i p f v k : Nat) : (d.setReg r i p f v).vol? k = d.vol? k := by simp only [Dev.vol?, setReg_stk]

theorem governorSet_vol {d : Dev} {v : Nat} {x : Volume} (days cycles : Nat) (known : d.vol? v = some x) :
    (governorSet d v days cycles).vol? v = some (governed x days cycles) := by
  rw [governorSet, vol_setReg, vol_setReg, vol_modVol_same, known]
  rfl

theorem governorSet_frame (d : Dev) (v days cycles : Nat) : Frame [.regs, .stk] d (governorSet d v days cycles) :=
  (setReg_frame ..).step (by decide) ((setReg_frame ..).step (by decide) ((modVol_frame ..).mono (by decide)))

theorem opGovernorSet_both {d : Dev} {q : Req} {x : Volume} (known : d.vol? q.d.object = some x) (days : q.d.fld 0 0 16 ≠ 0)
    (cycles : q.d.fld 4 0 32 ≠ 0) : d.opGovernorSet q
      = ((governorSet d q.d.object (q.d.fld 0 0 16) (q.d.fld 4 0 32)).modVol q.d.object fun x => { x with recalc := true },
        { r0 := (governorSet d q.d.object (q.d.fld 0 0 16) (q.d.fld 4 0 32)).budgetOf (governed x (q.d.fld 0 0 16) (q.d.fld 4 0 32)) }) := by
  have vol := governorSet_vol (q.d.fld 0 0 16) (q.d.fld 4 0 32) known
  simp only [governorSet, governed] at vol ⊢
  simp only [Dev.opGovernorSet, known, if_neg days, if_neg cycles, vol, Option.map_some, Option.getD_some]

/-- A budget reads the time and the media's rating. -/
theorem budgetOf_of {d e : Dev} (tim : e.tim = d.tim) (stk : e.stk.ratedCycles = d.stk.ratedCycles) (v : Volume) : e.budgetOf v = d.budgetOf v := by
  simp only [Dev.budgetOf, Dev.ratedOf, tim, stk]

/-! #### VOLUME_FORMAT -/

theorem backed_of {d e : Dev} (stk : e.stk = d.stk) (rgn : e.rgn = d.rgn) (v : Nat) : e.backed v = d.backed v := by
  simp only [Dev.backed, Dev.vol?, stk, rgn]

/-- The device after the volume has been emptied under a drawn FORMAT_ID. -/
def drawnEmpty (d : Dev) (v : Nat) : Dev := (d.drawBits 64).2.emptyVolume v

/-- The device after a volume is gone (R333). -/
def volumeDeleted (d : Dev) (v : Nat) : Dev :=
  { drawnEmpty d v with stk := { (drawnEmpty d v).stk with volumes := tdel (drawnEmpty d v).stk.volumes v } }

/-- The new FORMAT_ID: never 0. -/
def formatId (d : Dev) : Nat := max 1 (d.drawBits 64).1

/-- The volume as its format makes it. -/
def newVolume (d : Dev) (x : DescIn) : Volume := (drawnEmpty d x.object).newVolume x (formatId d)

/-- The device that holds the new volume, empty, before its blocks are taken. -/
def volumeMade (d : Dev) (x : DescIn) : Dev :=
  ({ drawnEmpty d x.object with
      stk := { (drawnEmpty d x.object).stk with volumes := tset (drawnEmpty d x.object).stk.volumes x.object (newVolume d x) } } : Dev).emptyVolume x.object

/-- The device after a format (R333). -/
def volumeFormatted (d : Dev) (x : DescIn) : Dev :=
  ((volumeMade d x).volBlocks (newVolume d x)).foldl (fun (d : Dev) k => d.modBlock k fun b => { b with volume := x.object }) (volumeMade d x)

theorem opVolumeFormat_delete {d : Dev} {q : Req} (delete : q.d.fld 0 2 1 = 1)
    (named : q.d.fld 8 0 64 = ((d.vol? q.d.object).map (·.formatId)).getD 0) (free : d.backed q.d.object = 0) :
    d.opVolumeFormat q = (volumeDeleted d q.d.object, {}) := by
  unfold Dev.opVolumeFormat
  simp only [delete, named, free, beq_self_eq_true, if_true, ne_eq, not_true_eq_false, if_false]
  rfl

theorem opVolumeFormat_new {d : Dev} {q : Req} (keep : q.d.fld 0 2 1 = 0)
    (named : q.d.fld 8 0 64 = ((d.vol? q.d.object).map (·.formatId)).getD 0) (free : d.backed q.d.object = 0)
    (open_ : ((d.vol? q.d.object).map (·.protected_)).getD false = false)
    (apart : ∀ e ∈ d.stk.volumes, e.1 = q.d.object ∨ e.2.dieFirst + e.2.dieCount ≤ q.d.fld 1 0 8 ∨ q.d.fld 1 0 8 + q.d.fld 2 0 8 ≤ e.2.dieFirst) :
    d.opVolumeFormat q = (volumeFormatted d q.d, { r0 := formatId d, r1 := (newVolume d q.d).capacity % 2 ^ 48 }) := by
  have noClash : d.stk.volumes.find? (fun e => e.1 != q.d.object && decide (q.d.fld 1 0 8 < e.2.dieFirst + e.2.dieCount)
      && decide (e.2.dieFirst < q.d.fld 1 0 8 + q.d.fld 2 0 8)) = none := by
    refine List.find?_eq_none.mpr fun e mem => ?_
    have := apart e mem
    simp only [Bool.and_eq_true, bne_iff_ne, decide_eq_true_eq]
    omega
  unfold Dev.opVolumeFormat
  simp only [keep, named, free, open_, noClash, Nat.reduceBEq, Bool.false_eq_true, if_false, ne_eq, not_true_eq_false, false_and]
  rfl

theorem drawnEmpty_frame (d : Dev) (v : Nat) : Frame (.free :: .tier :: flashParts) d (drawnEmpty d v) :=
  (emptyVolume_frame ..).step (by decide) ((drawBits_frame ..).mono (by decide))

theorem volumeDeleted_frame (d : Dev) (v : Nat) : Frame (.free :: .tier :: flashParts) d (volumeDeleted d v) :=
  (Frame.stk (drawnEmpty d v) _).step (by decide) (drawnEmpty_frame d v)

theorem volumeMade_frame (d : Dev) (x : DescIn) : Frame (.free :: .tier :: flashParts) d (volumeMade d x) :=
  (emptyVolume_frame ..).step (by decide) ((Frame.stk (drawnEmpty d x.object) _).step (by decide) (drawnEmpty_frame d x.object))

theorem volumeFormatted_frame (d : Dev) (x : DescIn) : Frame (.free :: .tier :: flashParts) d (volumeFormatted d x) :=
  (volumeMade_frame d x).foldl fun e k => (modBlock_frame e k _).mono (by decide)

/-- Taking blocks for a volume touches no volume. -/
theorem volumeFormatted_vol (d : Dev) (x : DescIn) (k : Nat) : (volumeFormatted d x).vol? k = (volumeMade d x).vol? k := by
  unfold volumeFormatted
  generalize (volumeMade d x).volBlocks (newVolume d x) = blocks
  generalize volumeMade d x = e
  induction blocks generalizing e with
  | nil => rfl
  | cons b blocks ih => exact (ih _).trans rfl

/-- The volume that the format leaves is the new one: empty, and in its form. -/
theorem volumeFormatted_new (d : Dev) (x : DescIn) :
    ∃ w, (volumeFormatted d x).vol? x.object = some w ∧ w.units = [] ∧ volumeForm w = volumeForm (newVolume d x) := by
  have form := emptyVolume_form ({ drawnEmpty d x.object with
      stk := { (drawnEmpty d x.object).stk with volumes := tset (drawnEmpty d x.object).stk.volumes x.object (newVolume d x) } } : Dev) x.object x.object
  simp only [Dev.vol?, tget_tset_same, Option.map_some] at form
  obtain ⟨w, made, same⟩ := Option.map_eq_some_iff.mp form
  exact ⟨w, (volumeFormatted_vol d x x.object).trans made, emptyVolume_units made, same⟩

/-! #### FW_UPDATE -/

/-- What FW_UPDATE stages of an image that passes (R487). -/
def staged (sec : SecSt) (x : DescIn) : SecSt :=
  { sec with
      fwBusy := true, norValid := false, norVersion := imgField (x.input 0 0) 12 4, norSvn := imgField (x.input 0 0) 6 1
      norAdvance := bit (imgField (x.input 0 0) 7 1) 0
      imageDigest := shake256 (x.input 0 0) 64 ++ meas5Of (imgField (x.input 0 0) 16 8) (imgField (x.input 0 0) 12 4)
      activate := x.fld 16 0 1 == 1 }

theorem opFwUpdate_passes {d : Dev} {q : Req} (idle : d.sec.fwBusy = false) (noRecovery : d.sec.rcvState ≠ 1)
    (passes : imageCheck (q.d.input 0 0) d.sec.svn q.d.host.sigOk q.d.host.revoked = 0) :
    d.opFwUpdate q = ({ d with sec := staged d.sec q.d }, { r0 := imgField (q.d.input 0 0) 12 4 }) := by
  unfold Dev.opFwUpdate
  rw [if_neg (by simp [idle, noRecovery])]
  exact if_neg (not_not_intro passes)

/-! #### STACKS_DISCARD -/

/-- A sector of a unit is mapped in a volume. -/
def mappedAt (d : Dev) (k u j : Nat) : Bool := ((d.vol? k).bind fun v => (tget v.units u).bind fun y => tget y.sectors j).isSome

/-- What discards leave: no volume changes its form, and no sector becomes mapped. -/
structure Shrinks (d e : Dev) : Prop where
  forms : SameForms d e
  mapped : ∀ k u j, mappedAt e k u j = true → mappedAt d k u j = true

theorem Shrinks.refl (d : Dev) : Shrinks d d := ⟨.refl d, fun _ _ _ => id⟩
theorem Shrinks.trans {d e f : Dev} (h : Shrinks d e) (k : Shrinks e f) : Shrinks d f :=
  ⟨h.forms.trans k.forms, fun i u j m => h.mapped i u j (k.mapped i u j m)⟩

theorem SameVolumes.mappedAt {d e : Dev} (h : SameVolumes d e) (k u j : Nat) : mappedAt e k u j = mappedAt d k u j := by
  have same := congrArg (fun v : Option Volume => (v.bind fun v => (tget v.units u).bind fun y => tget y.sectors j).isSome) (h k)
  simp only [Option.bind_map] at same
  exact same

theorem SameVolumes.shrinks {d e : Dev} (h : SameVolumes d e) : Shrinks d e := ⟨h.forms, fun k u j m => h.mappedAt k u j ▸ m⟩

/-- A change of a volume's units that maps nothing new. -/
theorem modVol_shrinks (d : Dev) (v : Nat) {f : Volume → Volume} (form : ∀ x, volumeForm (f x) = volumeForm x)
    (fewer : ∀ x u j, ((tget (f x).units u).bind fun y => tget y.sectors j).isSome = true →
      ((tget x.units u).bind fun y => tget y.sectors j).isSome = true) : Shrinks d (d.modVol v f) := by
  refine ⟨modVol_form d v form, fun k u j m => ?_⟩
  unfold Sys2Proof.Safety.mappedAt at m ⊢
  by_cases e : v = k
  · subst e
    rw [vol_modVol_same] at m
    cases known : d.vol? v with
    | none => simp [known] at m
    | some x => exact fewer x u j (by simpa [known] using m)
  · rwa [vol_modVol_other d e] at m

theorem tget_tdel {α : Type} (t : Tab α) (i j : Nat) : tget (tdel t i) j = if i = j then none else tget t j := by
  split
  case isTrue e => rw [e, tget_tdel_same]
  case isFalse e => exact tget_tdel_other t e

theorem tget_tmod {α : Type} (t : Tab α) (i j : Nat) (f : α → α) : tget (tmod t i f) j = if i = j then (tget t j).map f else tget t j := by
  split
  case isTrue e => rw [e, tget_tmod_same]
  case isFalse e => exact tget_tmod_other t e f

theorem unmapUnit_shrinks (d : Dev) (v u : Nat) : Shrinks d (d.unmapUnit v u) := by
  unfold Dev.unmapUnit
  split
  · exact .refl d
  case h_2 y _ =>
    extract_lets located stkSt staged
    have hStaged : SameVolumes d staged := (unlocate_same d u y).trans (.of_volumes rfl)
    have gone := modVol_shrinks staged v (f := fun x => { x with units := tdel x.units u }) (fun _ => rfl) fun x k j m => by
      rw [tget_tdel] at m
      split at m
      · cases m
      · exact m
    refine (hStaged.shrinks.trans gone).trans (SameVolumes.shrinks ?_)
    exact .of_volumes rfl

/-- A volume without one sector of a unit. -/
def withoutSector (u j : Nat) (x : Volume) : Volume :=
  { x with units := tmod x.units u fun y => { y with sectors := tdel y.sectors j } }

theorem withoutSector_tget (u j i k : Nat) (x : Volume) : ((tget (withoutSector u j x).units i).bind fun y => tget y.sectors k)
    = if i = u ∧ k = j then none else (tget x.units i).bind fun y => tget y.sectors k := by
  rw [withoutSector, tget_tmod]
  by_cases unit : i = u
  · subst unit
    by_cases sector : k = j
    · subst sector
      cases tget x.units i <;> simp
    · cases tget x.units i <;> simp [sector, tget_tdel_other _ (Ne.symm sector)]
  · simp [unit, Ne.symm unit]

theorem withoutSector_shrinks (d : Dev) (v u j : Nat) : Shrinks d (d.modVol v (withoutSector u j)) :=
  modVol_shrinks d v (fun _ => rfl) fun x i k m => by
    rw [withoutSector_tget] at m
    split at m
    · cases m
    · exact m

theorem withoutSector_gone (d : Dev) (v u j : Nat) : mappedAt (d.modVol v (withoutSector u j)) v u j = false := by
  rw [mappedAt, vol_modVol_same]
  cases d.vol? v with
  | none => rfl
  | some x =>
    have none := withoutSector_tget u j u j x
    rw [if_pos ⟨rfl, rfl⟩] at none
    simp only [Option.map_some, Option.bind_some, none, Option.isSome_none]

/-- The device with a sector's place given up, the sector unmapped, and its unit when it was the last one. -/
def sectorUnmapped (d : Dev) (v u j : Nat) : Dev :=
  let d := match (d.vol? v).bind fun x => (tget x.units u).bind fun y => tget y.sectors j with
    | some f => d.unlocateSector u j f
    | none => d
  let d := d.modVol v (withoutSector u j)
  match (d.vol? v).bind fun x => tget x.units u with
  | some y => if y.sectors.isEmpty then d.unmapUnit v u else d
  | none => d

/-- What a discarded sector leaves of the region's unit and of the prior contents (R318): parts that are neither volumes nor memory. -/
theorem discardSector_eq (s : State) (v u j off : Nat) : ∃ stk rgn, stk.volumes = (sectorUnmapped s.dev v u j).stk.volumes
    ∧ s.discardSector v u j off = { s with dev := { sectorUnmapped s.dev v u j with stk, rgn } } := by
  unfold State.discardSector
  extract_lets k located without unmapped
  have same : unmapped = sectorUnmapped s.dev v u j := rfl
  clear_value unmapped
  subst same
  split
  · exact ⟨_, _, rfl, rfl⟩
  split
  · exact ⟨(sectorUnmapped s.dev v u j).stk, (Dev.modUnit (sectorUnmapped s.dev v u j) k fun y => { y with onStacks := false }).rgn, rfl, rfl⟩
  · exact ⟨{ (sectorUnmapped s.dev v u j).stk with
      prior := tset (sectorUnmapped s.dev v u j).stk.prior (512 * k + off % unitBytes / 4096) (memRead s.mem off 4096) },
      (sectorUnmapped s.dev v u j).rgn, rfl, rfl⟩

theorem sectorUnmapped_frame (d : Dev) (v u j : Nat) : Frame flashParts d (sectorUnmapped d v u j) := by
  unfold sectorUnmapped
  extract_lets located without
  have hLocated : Frame flashParts d located := by
    simp only [located]
    split
    · exact unlocateSector_frame ..
    · exact Frame.refl ..
  have hWithout : Frame flashParts d without := (modVol_frame ..).step (by decide) hLocated
  split
  · split
    · exact (unmapUnit_frame ..).step (by decide) hWithout
    · exact hWithout
  · exact hWithout

theorem sectorUnmapped_shrinks (d : Dev) (v u j : Nat) :
    Shrinks d (sectorUnmapped d v u j) ∧ mappedAt (sectorUnmapped d v u j) v u j = false := by
  unfold sectorUnmapped
  extract_lets located without
  have hLocated : SameVolumes d located := by
    simp only [located]
    split
    · exact unlocateSector_same _ _ _ _
    · exact .refl d
  have hWithout : Shrinks d without := hLocated.shrinks.trans (withoutSector_shrinks ..)
  have gone : mappedAt without v u j = false := withoutSector_gone ..
  split
  · split
    · have unmapped := unmapUnit_shrinks without v u
      exact ⟨hWithout.trans unmapped, by by_contra m; exact absurd (unmapped.mapped v u j (by simpa using m)) (by simp [gone])⟩
    · exact ⟨hWithout, gone⟩
  · exact ⟨hWithout, gone⟩

/-- A discard of sectors, one after another (R334). -/
def discardAll (s : State) (hits : List (Nat × Nat × Nat × Nat)) : State := hits.foldl (fun s h => s.discardSector h.1 h.2.1 h.2.2.1 h.2.2.2) s

theorem discardSector_changes (s : State) (v u j off : Nat) : Changes (.rgn :: flashParts) s (s.discardSector v u j off)
    ∧ Shrinks s.dev (s.discardSector v u j off).dev ∧ mappedAt (s.discardSector v u j off).dev v u j = false := by
  obtain ⟨stk, rgn, volumes, run⟩ := discardSector_eq s v u j off
  obtain ⟨shrinks, gone⟩ := sectorUnmapped_shrinks s.dev v u j
  have same : SameVolumes (sectorUnmapped s.dev v u j) { sectorUnmapped s.dev v u j with stk, rgn } := .of_volumes volumes
  have frame : Frame (.rgn :: flashParts) s.dev { sectorUnmapped s.dev v u j with stk, rgn } :=
    (Frame.rgn { sectorUnmapped s.dev v u j with stk } rgn).step (by decide)
      ((Frame.stk (sectorUnmapped s.dev v u j) stk).step (by decide) ((sectorUnmapped_frame ..).mono (by decide)))
  rw [run]
  exact ⟨.of_frame frame, shrinks.trans same.shrinks, (same.mappedAt v u j).trans gone⟩

theorem discardAll_changes (s : State) (hits : List (Nat × Nat × Nat × Nat)) : Changes (.rgn :: flashParts) s (discardAll s hits)
    ∧ Shrinks s.dev (discardAll s hits).dev ∧ ∀ h ∈ hits, mappedAt (discardAll s hits).dev h.1 h.2.1 h.2.2.1 = false := by
  induction hits generalizing s with
  | nil => exact ⟨⟨rfl, rfl, Frame.refl ..⟩, .refl _, nofun⟩
  | cons h hits ih =>
    obtain ⟨⟨pending, mem, frame⟩, shrinks, gone⟩ := discardSector_changes s h.1 h.2.1 h.2.2.1 h.2.2.2
    obtain ⟨⟨pendings, mems, frames⟩, more, all⟩ := ih (s.discardSector h.1 h.2.1 h.2.2.1 h.2.2.2)
    refine ⟨⟨pendings.trans pending, mems.trans mem, frame.trans frames⟩, shrinks.trans more, fun k mem => ?_⟩
    rcases List.mem_cons.mp mem with rfl | later
    · by_contra m
      exact absurd (more.mapped _ _ _ (Bool.eq_true_of_not_eq_false m)) (by simp [gone])
    · exact all k later

/-- A mapped sector of a REGION volume in the range is among those that a discard of the range names. -/
theorem mem_mappedSectors {d : Dev} {x first count n k : Nat} {v : Volume} (lo : first ≤ n) (hi : n < first + count)
    (known : d.vol? k = some v) (region : v.region = true) (mapped : mappedAt d k (flashUnit x 0 + n / 16) (n % 16) = true) :
    (k, flashUnit x 0 + n / 16, n % 16, x * windowBytes + 4096 * n) ∈ d.mappedSectors x first count := by
  refine List.mem_flatMap.mpr ⟨n, List.mem_map.mpr ⟨n - first, List.mem_range.mpr (by omega), by omega⟩, ?_⟩
  refine List.mem_filterMap.mpr ⟨(k, v), mem_of_tget known, ?_⟩
  simp only [mappedAt, known, Option.bind_some] at mapped
  cases unit : tget v.units (flashUnit x 0 + n / 16) with
  | none => simp [unit] at mapped
  | some y => simp_all

theorem discardRegion_owned {s : State} {dev : Nat} {x : DescIn} {r : Region} (known : tget s.dev.rgn.slots (x.object / 64) = some r)
    (id : r.id = x.object) (persist : r.persist = true) (owner : r.isOwner dev x.patron = true) (notDestroyed : r.st ≠ 4)
    (notDestroying : r.st ≠ 5) (range : x.fld 0 0 64 + x.fld 8 0 64 ≤ r.size) :
    s.discardRegion dev x
      = (discardAll s (s.dev.mappedSectors (x.object / 64) (x.fld 0 0 64 / 4096) (x.fld 8 0 64 / 4096)),
        { r0 := (s.dev.mappedSectors (x.object / 64) (x.fld 0 0 64 / 4096) (x.fld 8 0 64 / 4096)).length }) := by
  have fits : ¬ r.size < x.fld 0 0 64 + x.fld 8 0 64 := by omega
  simp only [State.discardRegion, known, Option.filter_some, id, beq_self_eq_true, if_true, persist, owner, Bool.true_or, Bool.not_true,
    Bool.false_eq_true, notDestroyed, notDestroying, or_self, if_false, fits]
  rfl

theorem mappedSectors_of {d e : Dev} (h : e.stk = d.stk) (x first n : Nat) : e.mappedSectors x first n = d.mappedSectors x first n := by
  simp only [Dev.mappedSectors, h]

theorem servesRegion_of {d e : Dev} (rgn : e.rgn = d.rgn) (fab : e.fab = d.fab) (id : Nat) : e.servesRegion id = d.servesRegion id := by
  have maps : e.mapOf id = d.mapOf id := by simp only [Dev.mapOf, rgn]
  have dead : e.isDead (id % 64) = d.isDead (id % 64) := by simp only [Dev.isDead, Dev.peer, fab]
  rw [Dev.servesRegion, Dev.servesRegion, maps, dead]

theorem granted_devNo (s : State) (op : Nat) (x : DescIn) : (granted s op x).2.devNo = s.dev.devNo := by
  simp only [Dev.devNo, granted_boot]

theorem granted_vol (s : State) (op : Nat) (x : DescIn) (v : Nat) : (granted s op x).2.vol? v = s.dev.vol? v := by
  simp only [Dev.vol?, granted_stk]

theorem answersFw_of_same {s u : State} (pending : u.pending = s.pending) (mem : u.mem = s.mem) (q : Req) (r : Dev × Ans) :
    u.answersFw q r = s.answersFw q r := by
  simp only [State.answersFw, pending, mem]

/-- STACKS_DISCARD at the device that serves the region, by the owner: firmware's answer is the number of sectors that were mapped. -/
theorem runDiscard_owned {s : State} {q : Req} {r : Region} (serves : s.dev.servesRegion q.d.object = s.dev.devNo)
    (known : tget s.dev.rgn.slots (q.d.object / 64) = some r) (id : r.id = q.d.object) (persist : r.persist = true)
    (owner : r.isOwner s.dev.devNo q.d.patron = true) (notDestroyed : r.st ≠ 4) (notDestroying : r.st ≠ 5)
    (range : q.d.fld 0 0 64 + q.d.fld 8 0 64 ≤ r.size) :
    s.runDiscard q = s.answersFw q
      ((discardAll s (s.dev.mappedSectors (q.d.object / 64) (q.d.fld 0 0 64 / 4096) (q.d.fld 8 0 64 / 4096))).dev,
        { r0 := (s.dev.mappedSectors (q.d.object / 64) (q.d.fld 0 0 64 / 4096) (q.d.fld 8 0 64 / 4096)).length }) := by
  obtain ⟨⟨pending, mem, -⟩, -⟩ := discardAll_changes s (s.dev.mappedSectors (q.d.object / 64) (q.d.fld 0 0 64 / 4096) (q.d.fld 8 0 64 / 4096))
  unfold State.runDiscard State.opStacksDiscard
  rw [if_pos serves, discardRegion_owned known id persist owner notDestroyed notDestroying range]
  exact answersFw_of_same pending mem ..

/-- Settles O14: the rows that answer by `After.of_answers`, with the operation's equation above; a discard by what it leaves of the map. -/
theorem firmwareRowsComplete : Obligations.FirmwareRowsComplete := by
  intro s x
  refine ⟨fun h action fits => ?limit, fun h action regions alone => ?sleep, fun v h known days cycles => ?governor,
    fun h delete named free => ?delete, fun h keep named free open_ apart => ?format, fun h idle noRecovery passes => ?update,
    fun r h serves known id persist owner notDestroyed notDestroying range => ?discard⟩
  case limit =>
    have opcode : (grantedState s 0x8D x).runOp (ran s 0x8D x) = (grantedState s 0x8D x).answersFw (ran s 0x8D x) ((granted s 0x8D x).2.opPowerSet (ran s 0x8D x)) :=
      (runOp_8D _ _ rfl).trans (if_neg (show x.fld 0 0 2 ≠ 1 by rw [action]; decide))
    rw [opPowerSet_limit (q := ran s 0x8D x) action] at opcode
    refine .of_answersFw rfl h rfl (ps := [.adm, .rings, .ctrs, .regs]) opcode ((setReg_frame ..).mono (by decide)) (by decide)
      fun t dev answered changes => ⟨?_, ?_, changes⟩
    · rw [dev, reg_of_same_regs ((completeFw_frame ..).same .regs (by decide))]
      exact reg_setReg_same _ regPwrLimit 0 0 0 fits
    · rwa [dev, limitWatts_of ((completeFw_frame ..).same .regs (by decide)) ((completeFw_frame ..).same .boot (by decide))]
  case sleep =>
    have regions' : (granted s 0x8D x).2.liveRegions = 0 := by rw [Dev.liveRegions, granted_rgn]; exact regions
    have result := opPowerSet_sleep (q := ran s 0x8D x) action regions' (granted_alone 0x8D x alone)
    have run : exec (.archiveSleep x) s = .next (s.descriptor 0x8D x) := congrArg Host.Outcome.next (if_pos action)
    refine .of_answers run h rfl (ps := [.adm, .rings, .ctrs, .pwr]) (((runOp_8D _ _ rfl).trans (runPowerSet_sleep action)).trans (congrArg _ result))
      ((Frame.pwr ..).mono (by decide)) (by decide) fun t dev answered changes => ⟨?_, answered, changes⟩
    rw [dev, (finish_frame ..).same .pwr (by decide), ← granted_pwr s 0x8D x]
    rfl
  case governor =>
    have result := opGovernorSet_both (q := ran s 0x85 x) ((granted_vol s 0x85 x x.object).trans known) days cycles
    refine .of_answersFw rfl h rfl (ps := [.adm, .rings, .ctrs, .regs, .stk]) ((runOp_85 _ _ rfl).trans (congrArg _ result))
      ((modVol_frame ..).step (by decide) ((governorSet_frame ..).mono (by decide))) (by decide) fun t dev answered changes => ⟨?_, changes⟩
    have stk := (congrArg Dev.stk dev).trans ((completeFw_frame ..).same .stk (by decide))
    have tim := (congrArg Dev.tim dev).trans ((completeFw_frame ..).tim_eq (by decide) (by decide))
    refine ⟨{ governed v (x.fld 0 0 16) (x.fld 4 0 32) with recalc := true }, ?_, rfl, rfl, rfl, ?_⟩
    · rw [Dev.vol?, stk]
      exact (vol_modVol_same ..).trans (congrArg _ (governorSet_vol _ _ ((granted_vol s 0x85 x x.object).trans known)))
    · rw [budgetOf_of tim (by rw [stk])]
      exact answered
  case delete =>
    have result := opVolumeFormat_delete (d := (granted s 0x83 x).2) (q := ran s 0x83 x) delete (by rw [granted_vol]; exact named)
      (by rw [backed_of (granted_stk ..) (granted_rgn ..)]; exact free)
    refine .of_answersFw rfl h rfl (ps := .adm :: .stk :: .tier :: .free :: evParts) ((runOp_83 _ _ rfl).trans (congrArg _ result))
      ((volumeDeleted_frame ..).mono (by decide)) (by decide) fun t dev answered changes => ⟨?_, answered, changes⟩
    rw [dev, Dev.vol?, (completeFw_frame ..).same .stk (by decide)]
    exact tget_tdel_same ..
  case format =>
    have result := opVolumeFormat_new (d := (granted s 0x83 x).2) (q := ran s 0x83 x) keep (by rw [granted_vol]; exact named)
      (by rw [backed_of (granted_stk ..) (granted_rgn ..)]; exact free) (by rw [granted_vol]; exact open_) (by rw [granted_stk]; exact apart)
    refine .of_answersFw rfl h rfl (ps := .adm :: .stk :: .tier :: .free :: evParts) ((runOp_83 _ _ rfl).trans (congrArg _ result))
      ((volumeFormatted_frame ..).mono (by decide)) (by decide) fun t dev answered changes => ⟨?_, changes⟩
    obtain ⟨w, made, empty, form⟩ := volumeFormatted_new (granted s 0x83 x).2 x
    have formField : ∀ {β : Type} (g : Volume → β), (∀ v, g (volumeForm v) = g v) → g w = g (newVolume (granted s 0x83 x).2 x) :=
      fun g blind => by rw [← blind w, form, blind]
    refine ⟨w, ?_, formField (·.region) fun _ => rfl, formField (·.ct210) fun _ => rfl, formField (·.dieFirst) fun _ => rfl,
      formField (·.dieCount) fun _ => rfl, empty, ?_, ?_⟩
    · rw [dev, Dev.vol?, (completeFw_frame ..).same .stk (by decide)]
      exact made
    · rw [formField (·.formatId) fun _ => rfl]
      exact Nat.pos_iff_ne_zero.mp (Nat.le_max_left 1 _)
    · rw [formField (·.formatId) fun _ => rfl, formField (·.capacity) fun _ => rfl]
      exact answered
  case update =>
    have sec := granted_sec s 0x8B x
    have result := opFwUpdate_passes (d := (granted s 0x8B x).2) (q := ran s 0x8B x) (by rw [sec]; exact idle) (by rw [sec]; exact noRecovery)
      (by rw [sec]; exact passes)
    refine .of_answersFw rfl h rfl (ps := [.adm, .rings, .ctrs, .sec]) ((runOp_8B _ _ rfl).trans (congrArg _ result))
      ((Frame.sec ..).mono (by decide)) (by decide) fun t dev answered changes => ?_
    have staged := (congrArg Dev.sec dev).trans ((completeFw_frame ..).same .sec (by decide))
    rw [staged]
    exact ⟨rfl, rfl, rfl, answered, changes⟩
  case discard =>
    have hits := mappedSectors_of (granted_stk s 0x84 x) (x.object / 64) (x.fld 0 0 64 / 4096) (x.fld 8 0 64 / 4096)
    have result := runDiscard_owned (s := grantedState s 0x84 x) (q := ran s 0x84 x)
      (by rw [grantedState, granted_devNo, servesRegion_of (granted_rgn ..) (granted_fab ..)]; exact serves)
      (by rw [grantedState, granted_rgn]; exact known) id persist (by rw [grantedState, granted_devNo]; exact owner) notDestroyed notDestroying range
    obtain ⟨⟨-, -, frame⟩, shrinks, all⟩ := discardAll_changes (grantedState s 0x84 x)
      ((granted s 0x84 x).2.mappedSectors (x.object / 64) (x.fld 0 0 64 / 4096) (x.fld 8 0 64 / 4096))
    refine .of_answersFw rfl h rfl (ps := .adm :: .stk :: .rgn :: evParts) ((runOp_84 _ _ rfl).trans result) (frame.mono (by decide)) (by decide)
      fun t dev answered changes => ⟨by rw [← hits]; exact answered, fun n k v y lo hi vol region unit => ?_, changes⟩
    have stk := (congrArg Dev.stk dev).trans ((completeFw_frame ..).same .stk (by decide))
    rw [Dev.vol?, stk] at vol
    by_contra mapped
    change tget (discardAll (grantedState s 0x84 x)
      ((granted s 0x84 x).2.mappedSectors (x.object / 64) (x.fld 0 0 64 / 4096) (x.fld 8 0 64 / 4096))).dev.stk.volumes k = some v at vol
    have after : mappedAt (discardAll (grantedState s 0x84 x)
        ((granted s 0x84 x).2.mappedSectors (x.object / 64) (x.fld 0 0 64 / 4096) (x.fld 8 0 64 / 4096))).dev
        k (flashUnit (x.object / 64) 0 + n / 16) (n % 16) = true := by
      rw [mappedAt, Dev.vol?, vol, Option.bind_some, unit, Option.bind_some]
      exact Option.isSome_iff_ne_none.mpr mapped
    obtain ⟨w, before, form⟩ := Option.map_eq_some_iff.mp ((shrinks.1 k).symm.trans (congrArg (Option.map volumeForm) vol))
    have region' : w.region = true := (congrArg (·.region) form).trans region
    exact absurd (all _ (mem_mappedSectors lo hi before region' (shrinks.2 _ _ _ after))) (by simp [after])

end Sys2Proof.Safety
end

section
/-! ### SPDM requests and what the debug port stops at (R481, R483, R492) -/

namespace Sys2Proof.Safety

open Sys2Proof.Machine

/-! #### Answers of the mailbox -/

theorem emit_spdm (d : Dev) (session code : Nat) (p : Payload) : d.emit (.spdm session code p) = { d with out := d.out ++ [.spdm session code p] } :=
  if_neg (by simp [Dev.barred])

theorem emit_spdmError (d : Dev) (session code : Nat) : d.emit (.spdmError session code) = { d with out := d.out ++ [.spdmError session code] } :=
  if_neg (by simp [Dev.barred])

/-- A response is its fixed octets, where it has any, and a free payload. -/
theorem spdmSay_eq (d : Dev) (session code : Nat) (known : List Byte) : d.spdmSay session code known = { d with
    out := d.out ++ ((if known.isEmpty then [] else [.spdm session code (.bytes known)])
      ++ [.spdm session code (.free d.free (Config.spdmOctets d.free))])
    free := d.free + 1 } := by
  unfold Dev.spdmSay Dev.draw
  cases known <;> simp [emit_spdm]

theorem spdmSay_frame (d : Dev) (session code : Nat) (known : List Byte) : Frame [.out, .free] d (d.spdmSay session code known) := by
  rw [spdmSay_eq]
  exact (Frame.free ..).step (by decide) ((Frame.out d _).mono (by decide))

theorem spdmFail_out (d : Dev) (session code : Nat) : (d.spdmFail session code).out = d.out ++ [.spdmError session code] := by
  unfold Dev.spdmFail
  rw [(count_frame ..).same .out (by decide), emit_spdmError]

theorem spdmFail_frame (d : Dev) (session code : Nat) : Frame [.out, .ctrs] d (d.spdmFail session code) :=
  (count_frame ..).step (by decide) ((emit_frame ..).mono (by decide))

theorem vendorSay_frame (d : Dev) (session command status : Nat) (data : List Byte) : Frame [.out] d (d.vendorSay session command status data) :=
  emit_frame ..

theorem spdm_on {s : State} (on : s.dev.spdmOn = true) (f : Dev → Dev) : s.spdm f = devNext s (f s.dev) :=
  congrArg (devNext s) (if_pos on)

theorem inSession_in {s : State} {ses : Nat} (on : s.dev.spdmOn = true) (inside : s.dev.inSession ses = true) (f : Dev → Dev) :
    s.inSession ses f = devNext s (f s.dev) := (spdm_on on _).trans (congrArg (devNext s) (if_pos inside))

theorem inSession_out {s : State} {ses : Nat} (on : s.dev.spdmOn = true) (outside : s.dev.inSession ses = false) (f : Dev → Dev) :
    s.inSession ses f = devNext s (s.dev.spdmFail ses 0x0B) := (spdm_on on _).trans (congrArg (devNext s) (if_neg (by simp [outside])))

/-- A row that answers with fixed octets and a free payload, from a device that differs in other parts alone. -/
theorem After.of_spdmSay {c : Instr} {s : State} {d : Dev} {ses code : Nat} {known : List Byte} (ps : List Part)
    (run : exec c s = devNext s (d.spdmSay ses code known)) (frame : Frame ps s.dev d) (out : d.out = s.dev.out) (free : d.free = s.dev.free)
    (P : State → Prop) (post : ∀ t, t.dev.out = s.dev.out
      ++ ((if known.isEmpty then [] else [.spdm ses code (.bytes known)]) ++ [freeOctets s ses code]) → Changes (.out :: .free :: ps) s t →
      t.dev = { d with out := t.dev.out, free := t.dev.free } → P t) : After c s P := by
  refine .of_exec run (post _ ?_ (.of_frame ?_) ?_)
  · dsimp only
    rw [spdmSay_eq, out, free]
    rfl
  · exact (spdmSay_frame ..).step (by simp) (frame.mono (by simp; tauto))
  · dsimp only
    rw [spdmSay_eq]

/-- Settles O44: each row is one answer of the mailbox. -/
theorem spdmRowsAnswer : Obligations.SpdmRowsAnswer := by
  intro s ses b on
  have plain : ∀ {c : Instr} {code : Nat} {known : List Byte}, exec c s = s.spdm (fun d => d.spdmSay ses code known) → After c s fun t =>
      t.dev.out = s.dev.out ++ ((if known.isEmpty then [] else [.spdm ses code (.bytes known)]) ++ [freeOctets s ses code])
      ∧ Changes [.out, .free] s t := fun run =>
    .of_spdmSay [] (run.trans (spdm_on on _)) (Frame.refl ..) rfl rfl _ fun t out changes _ => ⟨out, changes⟩
  refine ⟨plain (known := [0x12, 0x13]) rfl, plain (known := []) rfl, plain (known := []) rfl, plain (known := []) rfl, ?challenge,
    fun i lo hi full => ?measurement, fun n => plain (known := leBytes 2 n) rfl, fun code => ?unsupported⟩
  case challenge =>
    have signs : Frame [.ctrs] s.dev s.dev.signs := count_frame ..
    have run : exec (.challenge ses b) s = devNext s (s.dev.signs.spdmSay ses 0x83 []) := spdm_on on _
    exact .of_spdmSay [.ctrs] run signs (signs.same .out (by decide)) (signs.same .free (by decide)) _
      fun t out changes _ => ⟨out, changes⟩
  case measurement =>
    have run : exec (.getMeasurements ses i false b) s = s.spdm (fun d => d.spdmSay ses 0xE0 (s.dev.measurement i)) := by
      refine (spdm_on on _).trans (Eq.trans ?_ (spdm_on on _).symm)
      dsimp only
      rw [if_neg (by omega), if_neg (by omega), if_pos hi]
      rfl
    have some_ : (s.dev.measurement i).isEmpty = false := by simpa using full
    have answer := plain run
    rw [some_] at answer
    exact answer
  case unsupported =>
    exact .of_exec (spdm_on on _) ⟨spdmFail_out .., .of_frame (spdmFail_frame ..)⟩

/-- Settles O47: each of these rows asks first for a finished session. -/
theorem sessionRowsNeedSession : Obligations.SessionRowsNeedSession := by
  intro s ses age b v on outside c row
  have refused : ∀ f : Dev → Dev, exec c s = s.inSession ses f → After c s fun t =>
      t.dev.out = s.dev.out ++ [.spdmError ses 0x0B] ∧ Changes [.out, .ctrs] s t := fun f run =>
    .of_exec (run.trans (inSession_out on outside f)) ⟨spdmFail_out .., .of_frame (spdmFail_frame ..)⟩
  simp only [List.mem_cons, List.not_mem_nil, or_false] at row
  rcases row with rfl | rfl | rfl | rfl | rfl | rfl | rfl <;> exact refused _ rfl

/-! #### Requests that keep state -/

/-- A row that answers and then writes a device event, from a device whose session state changed first. -/
theorem sessionEvent_frame (d : Dev) (ses code d0 d1 : Nat) : Frame (.free :: evParts) d ((d.spdmSay ses code []).devEvent 0x0609 d0 d1) :=
  (devEvent_frame ..).step (by decide) ((spdmSay_frame ..).mono (by decide))

theorem sessionEvent_logs (d : Dev) (ses code d0 d1 : Nat) : EventOn 0x0609 d0 d1 d ((d.spdmSay ses code []).devEvent 0x0609 d0 d1) :=
  (devEvent_event ..).from (spdmSay_frame ..) (by decide) (by decide) (by decide)

/-- Settles O45: each row changes the security state as its equation says and answers. -/
theorem spdmSessionRows : Obligations.SpdmSessionRows := by
  intro s ses b on
  refine ⟨?negotiate, fun l => ?chunk, fun room => ?exchange, fun opened => ?finish, fun inside => ?ends⟩
  case negotiate =>
    have run : exec (.negotiateAlgorithms ses true b) s
        = devNext s (({ s.dev with sec := { s.dev.sec with negotiated := true } } : Dev).spdmSay ses 0xE3 []) := spdm_on on _
    refine .of_spdmSay [.sec] run (Frame.sec s.dev _) rfl rfl _ fun t out changes dev => ?_
    exact ⟨congrArg Dev.sec dev, out, changes⟩
  case chunk =>
    have run : exec (.chunkSend ses l b) s
        = devNext s (({ s.dev with sec := { s.dev.sec with chunks := if l then [] else s.dev.sec.chunks ++ b } } : Dev).spdmSay ses 0x85 []) :=
      spdm_on on _
    refine .of_spdmSay [.sec] run (Frame.sec s.dev _) rfl rfl _ fun t out changes dev => ?_
    exact ⟨congrArg Dev.sec dev, out, changes⟩
  case exchange =>
    let id := Config.freeBits 32 s.dev.free
    let sec : SecSt := { s.dev.sec with sessions := s.dev.sec.sessions ++ [{ id := id }] }
    have signs : Frame [.ctrs] ({ s.dev with free := s.dev.free + 1, sec := sec } : Dev) (Dev.signs { s.dev with free := s.dev.free + 1, sec := sec }) :=
      count_frame ..
    have run : exec (.keyExchange ses b) s
        = devNext s ((Dev.signs { s.dev with free := s.dev.free + 1, sec := sec }).spdmSay ses 0xE4 (leBytes 4 id)) :=
      (spdm_on on _).trans (congrArg (devNext s) (if_neg (by omega)))
    refine .of_exec run ⟨id, ?_, ?_, .of_frame ?_⟩
    · dsimp only
      rw [spdmSay_eq]
      exact signs.same .sec (by decide)
    · dsimp only
      rw [spdmSay_eq]
      simp [leBytes]
    · have drawn : Frame [.free, .sec] s.dev { s.dev with free := s.dev.free + 1, sec := sec } :=
        (Frame.sec { s.dev with free := s.dev.free + 1 } sec).step (by decide) ((Frame.free s.dev _).mono (by decide))
      exact (spdmSay_frame ..).step (by decide) (signs.step (by decide) (drawn.mono (by decide)))
  case finish =>
    refine .of_exec ((spdm_on on _).trans (congrArg (devNext s) ((if_neg (by simp [opened])).trans (if_neg (by decide))))) ⟨?_, ?_, .of_frame ?_⟩
    · exact (sessionEvent_frame ..).same .sec (by decide)
    · exact .of_dev ((sessionEvent_logs ..).from (Frame.sec s.dev _) (by decide) (by decide) (by decide))
    · exact (sessionEvent_frame ..).step (by decide) ((Frame.sec s.dev _).mono (by decide))
  case ends =>
    refine .of_exec (inSession_in on inside _) ⟨?_, ?_, ?_, .of_frame ?_⟩
    · dsimp only
      rw [(sessionEvent_frame s.dev ses 0xEC ses 0).same .sec (by decide)]
    · simp +contextual [Dev.inSession, List.any_filter]
    · have logged := sessionEvent_logs s.dev ses 0xEC ses 0
      exact .of_dev (logged.after rfl)
    · exact (Frame.sec ..).step (by decide) ((sessionEvent_frame ..).mono (by decide))

/-! #### The debug port and a further device fault -/

/-- Settles O49: the refusal stands in the last branch alone. -/
theorem jtagStops : Obligations.JtagStops := by
  intro s k
  change execJtagInstruction k s = _ ↔ _
  unfold execJtagInstruction
  split_ifs with off outer locked
  · simp [off]
  · simp [off]; omega
  · simpa [off] using fun _ => by simpa using locked
  · simpa [off, Nat.lt_of_not_le outer] using locked

/-- Settles O43: the first branch of `Dev.deviceStops`. -/
theorem deviceFaultOnce : Obligations.DeviceFaultOnce := by
  intro s k h f stopped
  exact congrArg (devNext s) (if_pos (.inl stopped))

end Sys2Proof.Safety
end

section
/-! ### Doorbells and PAT_LOCK (R80, R82, R83) -/

namespace Sys2Proof.Safety

open Sys2Proof.Machine

/-! #### One patron changed -/

@[simp] theorem pat_modPat_same (d : Dev) (p : Nat) (f : PatronSt → PatronSt) : (d.modPat p f).pat p = f (d.pat p) := by
  rw [pat_modPat, if_pos rfl]

theorem pat_modPat_other (d : Dev) {p q : Nat} (h : q ≠ p) (f : PatronSt → PatronSt) : (d.modPat p f).pat q = d.pat q := by
  rw [pat_modPat, if_neg h]

/-- A change of a patron that leaves its completion and event rings. -/
theorem modPat_hostOnly (d : Dev) (p : Nat) (f : PatronSt → PatronSt) (cq : (f (d.pat p)).cq = (d.pat p).cq) (eq : (f (d.pat p)).eq = (d.pat p).eq) :
    Frame [.host] d (d.modPat p f) := by
  constructor
  intro part outside
  cases part
  case host => simp at outside
  case rings =>
    intro q
    rw [pat_modPat]
    split
    · next same => subst same; exact ⟨cq, eq⟩
    · exact ⟨rfl, rfl⟩
  all_goals simp [Part.same, Dev.modPat]

theorem modSq_frame (d : Dev) (p r : Nat) (f : SqSt → SqSt) : Frame [.host] d (d.modSq p r f) := modPat_hostOnly _ _ _ rfl rfl

theorem OthersKept.of_modPat (s : State) (p : Nat) (f : PatronSt → PatronSt) : OthersKept p s { s with dev := s.dev.modPat p f } :=
  ⟨fun _ other => pat_modPat_other _ other _, rfl⟩

theorem cqAt_modCq_other (d : Dev) (p : Nat) {r k : Nat} (h : k ≠ r) (f : CqSt → CqSt) : ((d.modCq p r f).pat p).cqAt k = (d.pat p).cqAt k := by
  simp only [Dev.modCq, pat_modPat_same, PatronSt.cqAt, tgetD_tset_other _ h.symm]

@[simp] theorem cqAt_modCq_same (d : Dev) (p r : Nat) (f : CqSt → CqSt) : ((d.modCq p r f).pat p).cqAt r = f ((d.pat p).cqAt r) := by
  simp only [Dev.modCq, pat_modPat_same, PatronSt.cqAt, tgetD_tset_same]

theorem sqAt_modSq_other (d : Dev) (p : Nat) {r k : Nat} (h : k ≠ r) (f : SqSt → SqSt) : ((d.modSq p r f).pat p).sqAt k = (d.pat p).sqAt k := by
  simp only [Dev.modSq, pat_modPat_same, PatronSt.sqAt, tgetD_tset_other _ h.symm]

@[simp] theorem sqAt_modSq_same (d : Dev) (p r : Nat) (f : SqSt → SqSt) : ((d.modSq p r f).pat p).sqAt r = f ((d.pat p).sqAt r) := by
  simp only [Dev.modSq, pat_modPat_same, PatronSt.sqAt, tgetD_tset_same]

/-! #### Accepted doorbells -/

/-- No case of R83 applies to a doorbell of a known index of an active ring. -/
theorem doorbellCase_accepted {off v depth : Nat} (aligned : off % 4 = 0) (small : v < 65536) (known : v < depth) :
    doorbellCase off 32 v depth false true = none := by
  have high : v / 65536 = 0 := Nat.div_eq_of_lt small
  simp only [doorbellCase, aligned, high, show depth ≠ 0 by omega, show ¬depth ≤ v by omega, ne_eq, not_true_eq_false, or_self, if_false,
    Bool.false_eq_true, Bool.not_true]

theorem sqDoorbell_accepted {d : Dev} {p off v : Nat} (served : d.served p = true) (active : d.active p = true) (aligned : off % 4 = 0)
    (small : v < 65536) (known : v < d.sqDepth p (off / 4)) (free : d.bktRate (bktPol p) = 0) :
    d.sqDoorbell p off 32 v = d.modSq p (off / 4) fun q => { q with tail := v } := by
  simp only [Dev.sqDoorbell, served, active, doorbellCase_accepted aligned small known, Dev.police, free, Bool.not_true, Bool.false_eq_true,
    if_false, if_true]

theorem cqDoorbell_accepted {d : Dev} {p off v : Nat} (served : d.served p = true) (active : d.active p = true) (aligned : off % 4 = 0)
    (small : v < 65536) (known : v < d.cqDepth p (off / 4 - 16))
    (written : ((d.pat p).cqAt (off / 4 - 16)).consumed + ringSpan (d.cqDepth p (off / 4 - 16)) ((d.pat p).cqAt (off / 4 - 16)).headIdx v
      ≤ ((d.pat p).cqAt (off / 4 - 16)).written) :
    d.cqDoorbell p off 32 v = d.modCq p (off / 4 - 16) fun q => { q with
      headIdx := v
      consumed := q.consumed + ringSpan (d.cqDepth p (off / 4 - 16)) ((d.pat p).cqAt (off / 4 - 16)).headIdx v } := by
  simp only [Dev.cqDoorbell, served, active, decide_eq_false (Nat.not_lt_of_le written), doorbellCase_accepted aligned small known,
    Bool.not_true, Bool.false_eq_true, if_false]

theorem eqDoorbell_accepted {d : Dev} {p v : Nat} (served : d.served p = true) (active : d.active p = true)
    (small : v < 65536) (known : v < d.eqDepth p) (noneLost : (d.pat p).eq.lost = 0)
    (written : (d.pat p).eq.consumed + ringSpan (d.eqDepth p) (d.pat p).eq.headIdx v ≤ (d.pat p).eq.written) :
    d.eqDoorbell p 0x80 32 v = d.modEq p fun q => { q with
      headIdx := v
      consumed := q.consumed + ringSpan (d.eqDepth p) (d.pat p).eq.headIdx v } := by
  unfold Dev.eqDoorbell
  rw [if_neg (by simp [served]), if_neg (by decide)]
  simp only [active, decide_eq_false (Nat.not_lt_of_le written), doorbellCase_accepted (show 0x80 % 4 = 0 by decide) small known]
  exact if_pos (.inl (by simp only [Dev.modEq, pat_modPat_same, noneLost]))

/-- Settles O18: an accepted doorbell is one change of one ring. -/
theorem doorbellRowsComplete : Obligations.DoorbellRowsComplete := by
  intro s p off v served active aligned small
  refine ⟨fun _ known free => ?tail, fun _ _ known written => ?completion, fun offset known noneLost written => ?event⟩
  case tail =>
    refine .of_exec (congrArg (devNext s) (sqDoorbell_accepted served active aligned small known free)) ⟨?_, ?_, ?_, .of_modPat .., .of_frame (modSq_frame ..)⟩
    · exact sqAt_modSq_same ..
    · exact fun r other => sqAt_modSq_other _ _ other _
    · simp only [Dev.modSq, pat_modPat_same]
  case completion =>
    refine .of_exec (congrArg (devNext s) (cqDoorbell_accepted served active aligned small known written)) ?_
    dsimp only
    rw [cqAt_modCq_same]
    exact ⟨rfl, rfl, rfl, fun r other => cqAt_modCq_other _ _ other _, .of_modPat .., .of_frame (modCq_frame ..)⟩
  case event =>
    subst offset
    refine .of_exec (congrArg (devNext s) (eqDoorbell_accepted served active small known noneLost written)) ⟨?_, .of_modPat .., .of_frame (modEq_frame ..)⟩
    simp only [Dev.modEq, pat_modPat_same]

/-! #### PAT_LOCK -/

theorem withdrawEnt_frame (d : Dev) (i : Nat) : Frame [.cat, .seqs] d (d.withdrawEnt i) := by
  unfold Dev.withdrawEnt
  split
  · exact (modSpan_frame ..).step (by decide) ((Frame.cat d _).mono (by decide))
  · exact Frame.refl ..

theorem withdrawAll_frame (d : Dev) (f : Nat → CatEnt → Bool) : Frame [.cat, .seqs] d (d.withdrawAll f) :=
  (Frame.refl ..).foldl fun _ _ => withdrawEnt_frame ..

theorem lockScope_frame (d : Dev) (k : Nat) : Frame [.cat, .seqs, .free] d (d.lockScope k) := by
  unfold Dev.lockScope
  extract_lets was now catSt enabled withdrawn
  have hEnabled : Frame [.cat, .seqs, .free] d enabled := (Frame.cat d _).mono (by decide)
  split
  · exact (Frame.cat withdrawn _).step (by decide) ((withdrawAll_frame ..).step (by decide) hEnabled)
  split
  · exact Frame.step (Frame.cat (enabled.drawBytes 16).2 _) (by decide) ((drawBytes_frame ..).step (by decide) hEnabled)
  · exact hEnabled

/-- The parts that a SETUP_LOCK of patron 0 reaches besides the host port. -/
def lockParts : List Part := .cat :: .seqs :: .free :: .tier :: .sec :: evParts

theorem lockDevice_frame (d : Dev) : Frame lockParts d d.lockDevice := by
  unfold Dev.lockDevice
  extract_lets ks scopes tierSt secSt measured assembled
  have hMeasured : Frame lockParts d measured := by
    have hScopes : Frame lockParts d scopes := (Frame.refl ..).foldl fun _ _ => (lockScope_frame ..).mono (by decide)
    exact (Frame.sec { scopes with tier := measured.tier } measured.sec).step (by decide) ((Frame.tier scopes measured.tier).step (by decide) hScopes)
  split
  · have hAssembled : Frame lockParts d assembled := by
      simp only [assembled]
      split
      · exact (devEvent_frame ..).step (by decide) hMeasured
      · exact hMeasured
    split
    · exact (devEvent_frame ..).step (by decide) hAssembled
    · exact hAssembled
  · exact hMeasured

theorem lockFloors_frame (d : Dev) (p : Nat) : Frame (.tier :: evParts) d (d.lockFloors p) := by
  unfold Dev.lockFloors
  extract_lets tierSt floors
  have hFloors : Frame (.tier :: evParts) d floors := (Frame.tier d _).mono (by decide)
  split
  · exact (devEvent_frame ..).step (by decide) hFloors
  · exact hFloors

theorem lockFloors_floors (d : Dev) (p : Nat) : (d.lockFloors p).tier.floors = grantFloors d.floorWanted (List.range 64) d.poolGiB := by
  unfold Dev.lockFloors
  extract_lets tierSt floors
  split
  · rw [(devEvent_frame ..).same .tier (by decide)]
  · rfl

/-- The patron as a PAT_LOCK that passes leaves it (R80). -/
def activated (x : PatronSt) : PatronSt := { x with st := .active, lock := true, refused := 0, sq := [], cq := [], eq := {} }

theorem patLock_passes {d : Dev} {p v : Nat} (reached : d.reached p = true) (one : v % 2 = 1) (configuring : (d.pat p).st = .configuring)
    (passes : d.lockCheck p = none) :
    d.patLock p v = (if p = 0 then (d.modPat p activated).lockDevice else d.modPat p activated).lockFloors p := by
  unfold Dev.patLock
  rw [if_neg (by simp [reached, one, configuring]), passes]
  rfl

/-- What a device's PAT_LOCK does after the patron is ACTIVE leaves the patrons' states. -/
theorem locked_frame (d : Dev) (p : Nat) : Frame lockParts d ((if p = 0 then d.lockDevice else d).lockFloors p) := by
  refine (lockFloors_frame ..).step (by decide) ?_
  split
  · exact lockDevice_frame d
  · exact Frame.refl ..

/-- Settles O20: the branches of `Dev.patLock`. -/
theorem patLockActivates : Obligations.PatLockActivates := by
  intro s p v reached one
  refine ⟨fun configuring passes => ?passes, fun c configuring fails => ?fails, fun other => ?other⟩
  case passes =>
    have after := locked_frame (s.dev.modPat p activated) p
    have shown : ∀ {β : Type} (g : PatronSt → β), (∀ x, g { x with cq := [], eq := {} } = g x) →
        g (((if p = 0 then (s.dev.modPat p activated).lockDevice else s.dev.modPat p activated).lockFloors p).pat p) = g (activated (s.dev.pat p)) :=
      fun g blind => (after.patField (by decide) p g blind).trans (congrArg g (pat_modPat_same ..))
    refine .of_exec (congrArg (devNext s) (patLock_passes reached one configuring passes))
      ⟨shown (·.st) fun _ => rfl, shown (·.lock) fun _ => rfl, shown (·.refused) fun _ => rfl, shown (·.sq) fun _ => rfl, rfl, rfl,
        fun virtual => ?_⟩
    dsimp only
    rw [if_neg virtual]
    exact ⟨lockFloors_floors .., .of_frame ((lockFloors_frame ..).step (by decide) ((modPat_frame ..).mono (by decide)))⟩
  case fails =>
    have refused : s.dev.patLock p v = s.dev.modPat p fun x => { x with refused := c } := by
      unfold Dev.patLock
      rw [if_neg (by simp [reached, one, configuring]), fails]
    exact .of_exec (congrArg (devNext s) refused) ⟨pat_modPat_same .., .of_modPat .., .of_frame (modPat_hostOnly _ _ _ rfl rfl)⟩
  case other =>
    exact congrArg (devNext s) (if_pos (.inr (.inr other)))

end Sys2Proof.Safety
end

section
/-! ### Patron resets: how they begin and end (R103 to R106, R478) -/

namespace Sys2Proof.Safety

open Sys2Proof.Machine

/-! #### Frames of what a reset gives up -/

theorem modBlk_frame (d : Dev) (n : Nat) (f : Blk → Blk) : Frame [.seqs] d (d.modBlk n f) := Frame.seqs d _
theorem dropMeta_frame (d : Dev) (p n : Nat) : Frame [.seqs] d (d.dropMeta p n) := Frame.seqs d _
theorem refDown_frame (d : Dev) (i : Nat) : Frame [.seqs] d (d.refDown i) := modSpan_frame ..
theorem dropResv_frame (d : Dev) (id : Nat) : Frame [.seqs] d (d.dropResv id) := Frame.seqs d _
theorem dropFetch_frame (d : Dev) (key : Nat) : Frame [.fab] d (d.dropFetch key) := Frame.fab d _
theorem clearCtrs_frame (d : Dev) (p : Nat) : Frame [.ctrs] d (d.clearCtrs p) := Frame.ctrs d _
theorem setBal_frame (d : Dev) (b : Nat) (v : Int) : Frame [.adm] d (d.setBal b v) := Frame.adm d _

theorem dropLeaf_frame (d : Dev) (n : Nat) : Frame [.seqs] d (d.dropLeaf n) := by
  unfold Dev.dropLeaf
  split
  · exact Frame.refl ..
  split
  · exact modBlk_frame ..
  extract_lets d'
  have entries : Frame [.seqs] d d' := (Frame.refl ..).foldl fun _ _ => refDown_frame ..
  exact (Frame.seqs ..).step (by decide) ((dropMeta_frame ..).step (by decide) entries)

theorem dropRoot_frame (d : Dev) (n : Nat) : Frame [.seqs] d (d.dropRoot n) := by
  unfold Dev.dropRoot
  split
  · exact Frame.refl ..
  split
  · exact modBlk_frame ..
  extract_lets d'
  have leaves : Frame [.seqs] d d' := (Frame.refl ..).foldl fun _ _ => dropLeaf_frame ..
  exact (Frame.seqs ..).step (by decide) ((dropMeta_frame ..).step (by decide) leaves)

theorem endWalk_frame (d : Dev) (w : Walk) : Frame [.seqs] d (d.endWalk w) :=
  (dropRoot_frame ..).step (by decide) ((Frame.refl ..).foldl fun _ _ => refDown_frame ..)

theorem endStream_frame (d : Dev) (p id reason : Nat) : Frame (.seqs :: .tier :: evParts) d (d.endStream p id reason) := by
  unfold Dev.endStream
  split
  · exact Frame.refl ..
  extract_lets walks tierSt removed
  have hWalks : Frame (.seqs :: .tier :: evParts) d walks := (Frame.refl ..).foldl fun _ _ => (endWalk_frame ..).mono (by decide)
  have hRemoved : Frame (.seqs :: .tier :: evParts) d removed := (Frame.tier ..).step (by decide) hWalks
  split
  · exact hRemoved
  · exact (patEvent_frame ..).step (by decide) hRemoved

theorem endStreams_frame (d : Dev) (p reason : Nat) (f : StreamSt → Bool) : Frame (.seqs :: .tier :: evParts) d (d.endStreams p reason f) :=
  (Frame.refl ..).foldl fun _ _ => endStream_frame ..

theorem removeMap_frame (d : Dev) (id p : Nat) : Frame [.rgn, .fab] d (d.removeMap id p) := by
  unfold Dev.removeMap
  extract_lets maps rgnSt removed
  have hRemoved : Frame [.rgn, .fab] d removed := (Frame.rgn d _).mono (by decide)
  split
  · exact hRemoved
  · exact (Frame.fab removed _).step (by decide) hRemoved

theorem dropSlots_frame (d : Dev) (p : Nat) : Frame [.regs] d (d.dropSlots p) :=
  (Frame.refl ..).foldl fun _ _ => by
    split
    · exact setRegWord_frame ..
    · exact Frame.refl ..

/-! #### A reset begins -/

/-- The patron at the start of its reset (R104). -/
def resetting (x : PatronSt) (discard : Bool) : PatronSt :=
  { x with st := .resetting, reset := some { discard := discard }, lock := false, refused := 0, fault := 0, sq := [], cq := [], eq := {}
           pageErrTick := none, msixPend := [] }

/-- The device at the start of a reset, before streams and what is discarded go. -/
def resetOpens (d : Dev) (p : Nat) (discard : Bool) : Dev :=
  (d.modPat p fun x => { x with st := .resetting, reset := some { discard := discard } }).dropRings p

theorem resetOpens_pat (d : Dev) (p q : Nat) (discard : Bool) :
    (resetOpens d p discard).pat q = if q = p then resetting (d.pat p) discard else d.pat q := by
  rw [resetOpens, Dev.dropRings, pat_modPat]
  split
  · next same => subst same; simp [Dev.pat, Dev.modPat, resetting]
  · next other => simp [Dev.pat, Dev.modPat, tgetD_tset_other _ (Ne.symm other)]

/-- The parts that a reset reaches besides its patron. -/
def resetParts : List Part := .seqs :: .tier :: .rgn :: .fab :: .regs :: .cat :: evParts

theorem withdrawn_frame (d : Dev) (p : Nat) : Frame resetParts d
    ((((d.withdrawAll fun i e => decide (i < onChipSlots) && e.scope == p).rgn.maps.filter fun (x : Mapping) => x.patron == p).foldl
      (fun (d : Dev) (x : Mapping) => d.removeMap x.region p)
      (d.withdrawAll fun i e => decide (i < onChipSlots) && e.scope == p)).dropSlots p) :=
  (dropSlots_frame ..).step (by decide) (((withdrawAll_frame d _).mono (by decide)).foldl fun _ _ => (removeMap_frame ..).mono (by decide))

theorem beginReset_keep (d : Dev) (p : Nat) : Frame resetParts (resetOpens d p false) (d.beginReset p false) :=
  (endStreams_frame (resetOpens d p false) p 0 fun _ => true).mono (by decide)

/-- A discarding reset begins with streams ended and the keys dropped; of what follows, nothing is of host port or keys. -/
theorem beginReset_discard (d : Dev) (p : Nat) : Frame resetParts (((resetOpens d p true).endStreams p 0 fun _ => true).dropKeys p)
    (d.beginReset p true) :=
  (Frame.cat ..).step (by decide) (withdrawn_frame ..)

theorem dropKeys_frame (d : Dev) (p : Nat) : Frame [.sec] d (d.dropKeys p) := Frame.sec d _

theorem beginReset_frame (d : Dev) (p : Nat) (discard : Bool) : Frame (.sec :: resetParts) (resetOpens d p discard) (d.beginReset p discard) := by
  cases discard with
  | false => exact (beginReset_keep d p).mono (by decide)
  | true => exact (beginReset_discard d p).step (by decide) ((dropKeys_frame ..).step (by decide) ((endStreams_frame ..).mono (by decide)))

/-- A reading of a patron that does not look at its completion and event rings, after a reset has begun. -/
theorem beginReset_pat (d : Dev) (p q : Nat) (discard : Bool) {β : Type} (g : PatronSt → β)
    (blind : ∀ x, g { x with cq := [], eq := {} } = g x := by intro; rfl) :
    g ((d.beginReset p discard).pat q) = if q = p then g (resetting (d.pat p) discard) else g (d.pat q) := by
  rw [(beginReset_frame d p discard).patField (by decide) q g blind, resetOpens_pat]
  split <;> rfl

theorem dropRegionLines_dev (s : State) (p : Nat) : (s.dropRegionLines p).dev = s.dev := by
  unfold State.dropRegionLines
  refine List.foldlRecOn (motive := fun t : State => t.dev = s.dev) _ _ rfl fun t same e _ => ?_
  split
  · exact same
  · exact same

theorem dropRegionLines_pending (s : State) (p : Nat) : (s.dropRegionLines p).pending = s.pending := (State.dropRegionLines_kept s p).1

/-- A reset of a patron that is neither DISABLED nor RESETTING. -/
theorem resetPatron_begins {s : State} {p : Nat} (discard : Bool) (enabled : (s.dev.pat p).st ≠ .disabled)
    (idle : (s.dev.pat p).st ≠ .resetting) : (s.resetPatron p discard).dev = s.dev.beginReset p discard
      ∧ (s.resetPatron p discard).pending = s.pending ∧ (discard = false → (s.resetPatron p discard).mem = s.mem) := by
  unfold State.resetPatron
  split
  · contradiction
  · contradiction
  · cases discard with
    | false => exact ⟨rfl, rfl, fun _ => rfl⟩
    | true => exact ⟨dropRegionLines_dev .., dropRegionLines_pending .., nofun⟩

/-- After a request for a reset a patron that is not DISABLED is RESETTING, and every other patron's state is as it was. -/
theorem resetPatron_st (s : State) (p q : Nat) (discard : Bool) : ((s.resetPatron p discard).dev.pat q).st
    = if q = p ∧ (s.dev.pat p).st ≠ .disabled then .resetting else (s.dev.pat q).st := by
  by_cases disabled : (s.dev.pat p).st = .disabled
  · have nothing : s.resetPatron p discard = s := by unfold State.resetPatron; rw [disabled]
    rw [nothing, if_neg (by simp [disabled])]
  by_cases already : (s.dev.pat p).st = .resetting
  · have noted : ∃ f : PatronSt → PatronSt, (∀ x, (f x).st = x.st) ∧ s.resetPatron p discard = { s with dev := s.dev.modPat p f } := by
      unfold State.resetPatron
      rw [already]
      exact ⟨fun x => { x with reset := x.reset.map fun r => { r with follow := r.follow || (discard && !r.discard) } }, fun _ => rfl, rfl⟩
    obtain ⟨f, kept, eq⟩ := noted
    rw [eq]
    dsimp only
    rw [pat_modPat]
    split_ifs with same both both
    · rw [kept, already]
    · exact absurd ⟨same, disabled⟩ both
    · exact absurd both.1 same
    · rfl
  · rw [(resetPatron_begins discard disabled already).1, beginReset_pat s.dev p q discard (·.st)]
    simp only [ne_eq, disabled, not_false_eq_true, and_true]
    rfl

/-- The number of virtual functions is as it was. -/
theorem resetPatron_numVf (s : State) (p : Nat) (discard : Bool) : (s.resetPatron p discard).dev.host.numVf = s.dev.host.numVf := by
  by_cases begins : (s.dev.pat p).st ≠ .disabled ∧ (s.dev.pat p).st ≠ .resetting
  · rw [(resetPatron_begins discard begins.1 begins.2).1]
    exact (beginReset_frame s.dev p discard).hostField (by decide) (·.numVf)
  · unfold State.resetPatron
    split
    · rfl
    · rfl
    · next notDisabled notResetting => exact absurd ⟨notDisabled, notResetting⟩ begins

/-- Resets of a list of patrons leave each of them RESETTING that was not DISABLED. -/
theorem resetAll_st (l : List Nat) (s : State) (q : Nat) : ((l.foldl (fun s p => s.resetPatron p true) s).dev.pat q).st
    = if q ∈ l ∧ (s.dev.pat q).st ≠ .disabled then .resetting else (s.dev.pat q).st := by
  induction l generalizing s with
  | nil => simp
  | cons p l ih =>
    rw [List.foldl_cons, ih, resetPatron_st]
    by_cases same : q = p
    · subst same
      by_cases disabled : (s.dev.pat q).st = .disabled <;> simp [disabled]
    · simp [same]

theorem resetEvery_st (s : State) {q : Nat} (small : q < 64) (enabled : (s.dev.pat q).st ≠ .disabled) :
    (s.resetEvery.dev.pat q).st = .resetting := by
  rw [State.resetEvery, resetAll_st, if_pos ⟨List.mem_range.mpr small, enabled⟩]

theorem resetAll_numVf (l : List Nat) (s : State) : (l.foldl (fun s p => s.resetPatron p true) s).dev.host.numVf = s.dev.host.numVf := by
  induction l generalizing s with
  | nil => rfl
  | cons p l ih => exact (ih _).trans (resetPatron_numVf ..)

theorem resetEvery_numVf (s : State) : s.resetEvery.dev.host.numVf = s.dev.host.numVf := by
  unfold State.resetEvery
  exact resetAll_numVf (List.range 64) s

/-- Settles O21: each row is a reset of one patron or of every patron. -/
theorem patronResetRows : Obligations.PatronResetRows := by
  intro s
  refine ⟨fun p v reached one active => ?keep, fun p reached virtual active => ?flr, fun reached => ?flr0, ?hot, fun up some_ => ?clear⟩
  case keep =>
    have run : exec (.patKeepReset p v) s = .next (s.resetPatron p false) := congrArg Host.Outcome.next (if_neg (by simp [reached, one, active]))
    obtain ⟨dev, pending, mem⟩ := resetPatron_begins (s := s) (p := p) false (by simp [active]) (by simp [active])
    refine .of_exec run ⟨?_, ?_, ?_, ?_, ?_, mem rfl, pending⟩
    · rw [dev, beginReset_pat s.dev p p false (·.st), if_pos rfl]; rfl
    · rw [dev, beginReset_pat s.dev p p false (·.lock), if_pos rfl]; rfl
    · rw [dev, beginReset_pat s.dev p p false (·.sq), if_pos rfl]; rfl
    · rw [dev, beginReset_pat s.dev p p false (·.reset), if_pos rfl]; rfl
    · rw [dev, (beginReset_keep s.dev p).same .sec (by decide)]; rfl
  case flr =>
    have run : exec (.functionLevelReset p) s = .next (s.resetPatron p true) :=
      congrArg Host.Outcome.next ((if_neg (by simp [reached])).trans (if_neg virtual))
    obtain ⟨dev, pending, -⟩ := resetPatron_begins (s := s) (p := p) true (by simp [active]) (by simp [active])
    refine .of_exec run ⟨?_, ?_, ?_, ?_, pending⟩
    · rw [dev, beginReset_pat s.dev p p true (·.st), if_pos rfl]; rfl
    · rw [dev, beginReset_pat s.dev p p true (·.lock), if_pos rfl]; rfl
    · rw [dev, beginReset_pat s.dev p p true (·.reset), if_pos rfl]; rfl
    · have streams : ((resetOpens s.dev p true).endStreams p 0 fun _ => true).sec = s.dev.sec := (endStreams_frame ..).same .sec (by decide)
      rw [dev, (beginReset_discard s.dev p).same .sec (by decide), Dev.dropKeys]
      dsimp only
      rw [tgetD_tset_same, streams]
  case flr0 =>
    exact .of_exec (congrArg Host.Outcome.next ((if_neg (by simp [reached])).trans (if_pos rfl))) fun p small enabled => resetEvery_st s small enabled
  case hot => exact .of_exec rfl fun p small enabled => resetEvery_st s small enabled
  case clear =>
    refine .of_exec (congrArg Host.Outcome.next (if_neg (by simp [up, some_]))) ⟨resetEvery_numVf _, fun p small enabled => resetEvery_st _ small enabled⟩

/-! #### A reset ends -/

theorem setBals_frame (d : Dev) (f : Dev → Nat → Int) (l : List Nat) : Frame [.adm] d (l.foldl (fun d b => d.setBal b (f d b)) d) :=
  (Frame.refl ..).foldl fun _ _ => setBal_frame ..

theorem resetTraffic_frame (d : Dev) (p : Nat) : Frame [.adm] d (d.resetTraffic p) :=
  (Frame.adm ..).step (by decide) (setBals_frame ..)

/-- With no request open, giving up a patron's requests reaches admission and jobs alone. -/
theorem abandon_none {d : Dev} {p : Nat} (idle : d.adm.open_ p = []) : Frame [.adm, .fab] d (d.abandon p false) := by
  unfold Dev.abandon
  rw [idle]
  dsimp only [List.foldl_nil]
  refine ((Frame.adm d _).mono (by decide)).foldl fun e j => ?_
  split
  · split
    · exact Frame.refl ..
    · exact (modJob_frame ..).mono (by decide)
  · exact Frame.refl ..

/-- The end of a keeping reset before its answers: requests given up, counters and balances cleared, the event. -/
def keptEnds (d : Dev) (p : Nat) : Dev := (((d.abandon p false).clearCtrs p).resetTraffic p).patEvent0 p 0x0004 0 0

theorem keptEnds_frame {d : Dev} {p : Nat} (idle : d.adm.open_ p = []) : Frame (.adm :: .fab :: evParts) d (keptEnds d p) :=
  (patEvent0_frame ..).step (by decide) ((resetTraffic_frame ..).step (by decide)
    ((clearCtrs_frame ..).step (by decide) ((abandon_none idle).mono (by decide))))

/-- The patron as a keeping reset leaves it (R106). -/
def afterReset (here : Bool) (x : PatronSt) : PatronSt := { x with st := if here then .configuring else .disabled, reset := none }

/-- What the end of a keeping reset does before the patron leaves RESETTING. -/
theorem keptReset_ends {s : State} {p : Nat} (st : (s.dev.pat p).st = .resetting)
    (keeps : (s.dev.pat p).reset = some { discard := false, follow := false }) (idle : s.dev.adm.open_ p = []) :
    ∃ d : Dev, Frame (.adm :: .fab :: evParts) s.dev d ∧ s.resetDone p = { s with dev := d.modPat p (afterReset (d.exists_ p)) } := by
  unfold State.resetDone
  rw [st, keeps]
  dsimp -zeta only
  extract_lets abandoned discarded cleared reported now answered rest admSt ended
  have hReported : reported = keptEnds s.dev p := rfl
  have hAnswered : Frame (.adm :: .fab :: evParts) s.dev answered :=
    Frame.foldl (hReported ▸ keptEnds_frame idle) fun _ _ => (complete_frame ..).mono (by decide)
  rw [if_neg Bool.false_ne_true]
  exact ⟨ended, (Frame.adm answered _).step (by decide) hAnswered, rfl⟩

theorem exists_of_frame {ps : List Part} {d e : Dev} (frame : Frame ps d e) (n : .host ∉ ps) (p : Nat) : e.exists_ p = d.exists_ p := by
  unfold Dev.exists_
  rw [frame.hostField n (·.numVf)]

/-- Settles O22: a keeping reset ends with an event and its answers, and the patron leaves RESETTING. -/
theorem patronResetEnds : Obligations.PatronResetEnds := by
  intro s p st keeps idle
  obtain ⟨d, frame, run⟩ := keptReset_ends st keeps idle
  have kept : Frame (.host :: .rings :: .adm :: .fab :: evParts) s.dev (s.resetDone p).dev := by
    rw [run]
    exact (modPat_frame d p (afterReset (d.exists_ p))).step (by decide) (frame.mono (by decide))
  have pat : (s.resetDone p).dev.pat p = afterReset (d.exists_ p) (d.pat p) := by
    rw [run]
    exact pat_modPat_same ..
  refine .of_exec (t := s.resetDone p) rfl ⟨?_, ?_, ?_, ?_, ?_, kept.same .sec (by decide), ?_, ?_⟩
  · rw [pat, exists_of_frame frame (by decide), afterReset]
  · rw [pat, afterReset]
  · rw [kept.same .seqs (by decide)]
  · rw [kept.same .seqs (by decide)]
  · rw [kept.same .cat (by decide)]
  · rw [run]
  · rw [run]

/-! #### PATRON_RESET -/

/-- A serving device in a tick: patron 0 ACTIVE with rings of 16 entries, and patron 1, a virtual function's, ACTIVE. -/
def twoPatrons : State :=
  { pending := [], mem := [], dev := {
      regs := [(regPatSqnCtrl.addr 0 0, 4), (regPatCqnCtrl.addr 0 0, 4), (regPatEqCtrl.addr 0 0, 4)]
      host := { linkUp := true, flit := true, numVf := 1
                patrons := [(0, { st := .active, lock := true, sq := [(0, { tail := 4 })] }), (1, { st := .active, lock := true })] }
      tim := { ticking := true, count := 100, now := 2000000 }
      boot := { st := .serving, steps := List.range 12 } } }

/-- A PATRON_RESET of patron 1 that keeps what is stored. -/
def keepOfOne : DescIn := { patron := 0, tclass := 6, body := 65 :: List.replicate 47 0 }

theorem keepOfOne_grants : Grants twoPatrons 0x81 keepOfOne where
  runs := by decide +kernel
  room := by decide +kernel
  form := by decide +kernel
  timely := by decide +kernel
  first := by decide +kernel

/-- Refutes O17: the reset begins, and the request that waits for its end has the merge cluster that its execution was given (R21),
so that it is not the request as it was granted. -/
theorem not_patronResetRowStarts : ¬ Obligations.PatronResetRowStarts := by
  intro h
  obtain ⟨t, run, -, -, waits, -⟩ := h twoPatrons keepOfOne keepOfOne_grants (by decide +kernel) (by decide +kernel) (by decide +kernel)
  obtain rfl : twoPatrons.descriptor 0x81 keepOfOne = t := Host.Outcome.next.inj run
  have clustered : (twoPatrons.descriptor 0x81 keepOfOne).dev.adm.resetAns.all (fun y => y.2.2.merge.isSome) = true := by decide +kernel
  exact absurd (List.all_eq_true.mp clustered _ waits) (by decide +kernel)

end Sys2Proof.Safety
end

section
/-! ### PROFILE_REGISTER and PROFILE_RETIRE (R149 to R152, R282) -/

namespace Sys2Proof.Safety

open Sys2Proof.Machine

theorem share_of {d e : Dev} (regs : e.regs = d.regs) (tier : e.tier = d.tier) (stk : e.stk = d.stk) (p : Nat) : e.share p = d.share p := by
  have reg : ∀ r i q f, e.reg r i q f = d.reg r i q f := fun r i q f => reg_of_same_regs regs r i q f
  have pool : e.poolGiB = d.poolGiB := by unfold Dev.poolGiB Dev.poolBytes Dev.reserveMiB; rw [stk]
  have floor : e.floor p = d.floor p := by unfold Dev.floor; rw [tier]
  unfold Dev.share
  rw [reg, pool, floor, tier]

theorem granted_fitShortfall (s : State) (op : Nat) (x : DescIn) (p : Nat) (f : Profile) :
    (granted s op x).2.fitShortfall p f = s.dev.fitShortfall p f := by
  unfold Dev.fitShortfall
  rw [granted_seqs, share_of (granted_regs ..) (granted_tier ..) (granted_stk ..)]

/-- The profile that a registration without shortfall binds (R150, R151). -/
def boundProfile (body : List Byte) (owner : Nat) : Profile :=
  let p : Profile := { body := body, owner := owner }
  { p with cap := p.capWord }

theorem opProfileRegister_fits {d : Dev} {q : Req} (free : tget d.seqs.profiles q.d.object = none)
    (fits : d.fitShortfall q.d.patron { body := q.d.body, owner := q.d.patron } = 0) :
    d.opProfileRegister q = ({ d with seqs := { d.seqs with
      profiles := tset d.seqs.profiles q.d.object (boundProfile q.d.body q.d.patron) } }, { r1 := (boundProfile q.d.body q.d.patron).cap }) := by
  simp only [Dev.opProfileRegister, free, fits, Nat.not_lt_zero, if_false, if_true, boundProfile]
  rfl

theorem withdrawAll_none {d : Dev} (empty : d.cat.ents = []) (f : Nat → CatEnt → Bool) : d.withdrawAll f = d := by
  unfold Dev.withdrawAll
  rw [empty]
  rfl

/-- No span is of a profile that is not used. -/
theorem profSpans_unused {d : Dev} {n : Nat} (unused : d.profUsed n = false) : d.profSpans n = 0 := by
  simp only [Dev.profUsed, Bool.or_eq_false_iff] at unused
  rw [Dev.profSpans, List.length_eq_zero_iff, List.filter_eq_nil_iff]
  exact List.any_eq_false.mp unused.1

theorem opProfileRetire_unused {d : Dev} {q : Req} {p : Profile} (known : tget d.seqs.profiles q.d.object = some p) (own : p.owner = q.d.patron)
    (active : p.st ≠ 2) (unused : d.profUsed q.d.object = false) (empty : d.cat.ents = []) :
    d.opProfileRetire q = ({ d with seqs := { d.seqs with profiles := tdel d.seqs.profiles q.d.object } }, { r0 := 0 }) := by
  simp only [Dev.opProfileRetire, known, own, ne_eq, not_true_eq_false, false_and, if_false, active, Dev.retireProfile, withdrawAll_none empty,
    unused, Bool.false_eq_true, profSpans_unused unused]

/-- Settles O15: the two equations above. -/
theorem profileRowsComplete : Obligations.ProfileRowsComplete := by
  intro s x
  refine ⟨fun h free fits => ?register, fun p h known own active unused empty => ?retire⟩
  case register =>
    have result := opProfileRegister_fits (d := (granted s 0x50 x).2) (q := ran s 0x50 x) (by rw [granted_seqs]; exact free)
      ((granted_fitShortfall ..).trans fits)
    refine .of_answersFw rfl h rfl (ps := [.adm, .rings, .ctrs, .seqs]) ((runOp_50 _ _ rfl).trans (congrArg _ result))
      ((Frame.seqs ..).mono (by decide)) (by decide) fun t dev answered changes => ⟨⟨_, ?_, rfl, rfl, rfl, answered⟩, changes⟩
    rw [dev, (completeFw_frame ..).same .seqs (by decide)]
    exact tget_tset_same ..
  case retire =>
    have result := opProfileRetire_unused (d := (granted s 0x51 x).2) (q := ran s 0x51 x) (by rw [granted_seqs]; exact known) own active
      (by rw [Dev.profUsed, granted_seqs]; exact unused) (by rw [granted_cat]; exact empty)
    refine .of_answers rfl h rfl (ps := [.adm, .rings, .ctrs, .seqs]) ((runOp_51 _ _ rfl).trans (congrArg _ result))
      ((Frame.seqs ..).mono (by decide)) (by decide) fun t dev answered changes => ⟨?_, answered, changes⟩
    rw [dev, (finish_frame ..).same .seqs (by decide)]
    exact tget_tdel_same ..

end Sys2Proof.Safety
end

section
/-! ### AUDIT (R549) -/

namespace Sys2Proof.Safety

open Sys2Proof.Machine

/-- An AUDIT by patron 0 of class 1. -/
def auditOfOne : DescIn := { patron := 0, tclass := 6, body := 1 :: List.replicate 47 0 }

theorem auditOfOne_grants : Grants twoPatrons 0x41 auditOfOne where
  runs := by decide +kernel
  room := by decide +kernel
  form := by decide +kernel
  timely := by decide +kernel
  first := by decide +kernel

/-- Refutes O16: the AUDIT in progress keeps the request with the merge cluster that its execution was given (R21), which the request
as it was granted does not have. -/
theorem not_readbackRowsComplete : ¬ Obligations.ReadbackRowsComplete := by
  intro h
  obtain ⟨t, run, ⟨a, begun, request, -⟩, -⟩ := (h twoPatrons auditOfOne).2 auditOfOne_grants rfl
  obtain rfl : twoPatrons.descriptor 0x41 auditOfOne = t := Host.Outcome.next.inj run
  have clustered : ((twoPatrons.descriptor 0x41 auditOfOne).dev.audit.map fun y => y.q.merge) = some (some 0) := by decide +kernel
  rw [begun, Option.map_some, request] at clustered
  exact absurd clustered (by decide +kernel)

end Sys2Proof.Safety
end

section
/-! ### Heads and roster of the pool: frames (R513 to R516) -/

namespace Sys2Proof.Safety

open Sys2Proof.Machine

/-- The parts that the announcements and the roster reach: what sending reaches, the boot state, and events. -/
def rosterParts : List Part := .boot :: .fab :: .adm :: evParts

theorem setHead_frame (d : Dev) (dev : Nat) (on : Bool) : Frame rosterParts d (d.setHead dev on) := by
  unfold Dev.setHead
  extract_lets prev rest bootSt heads
  have hHeads : Frame rosterParts d heads := (Frame.boot d _).mono (by decide)
  split
  · split
    · exact (count_frame ..).step (by decide) ((devEvent_frame ..).step (by decide) hHeads)
    · exact hHeads
  · exact hHeads

theorem setRoster_frame (d : Dev) (dev : Nat) (e : RosterEnt) : Frame [.boot] d (d.setRoster dev e) := Frame.boot d _

theorem refreshRoster_frame (d : Dev) : Frame [.boot] d d.refreshRoster :=
  (Frame.refl ..).foldl fun e v => by
    dsimp only
    split
    · exact setRoster_frame ..
    split
    · exact setRoster_frame ..
    · exact Frame.refl ..

theorem sendMessage_frame (d : Dev) (dest cls : Nat) (b : List Byte) : Frame sendParts d (d.sendMessage dest cls b) := by
  unfold Dev.sendMessage
  extract_lets k c body m kept
  have hKept : Frame sendParts d kept := (modChan_frame ..).mono (by decide)
  split
  · exact (put_frame ..).step (by decide) ((count_frame ..).step (by decide) hKept)
  · exact hKept

theorem announce_frame (d : Dev) (ms : Nat) : Frame sendParts d (d.announce ms) :=
  (Frame.refl ..).foldl fun _ _ => sendMessage_frame ..

theorem poolAssembled_frame (d : Dev) (ms : Nat) : Frame (.boot :: evParts) d (d.poolAssembled ms) := by
  unfold Dev.poolAssembled
  extract_lets reported bootSt assembled
  have hAssembled : Frame (.boot :: evParts) d assembled := (Frame.boot reported _).step (by decide) ((devEvent_frame ..).mono (by decide))
  exact hAssembled.foldl fun _ _ => (devEvent_frame ..).mono (by decide)

theorem rosterCheck_frame (d : Dev) (ms : Nat) : Frame (.boot :: evParts) d (d.rosterCheck ms) := by
  unfold Dev.rosterCheck
  extract_lets assembled bootSt
  have hAssembled : Frame (.boot :: evParts) d assembled := .ite (poolAssembled_frame ..) (Frame.refl ..)
  exact .ite (Frame.refl ..) (.ite ((Frame.boot ..).step (by decide) ((devEvent_frame ..).step (by decide) hAssembled)) hAssembled)

theorem rosterReport_frame (d : Dev) (topic : Nat) (b : List Byte) (ms : Nat) : Frame (.boot :: evParts) d (d.rosterReport topic b ms) := by
  unfold Dev.rosterReport
  extract_lets f x w bootSt sized old size el st e set_ miscounted joined
  have hSized : Frame (.boot :: evParts) d sized :=
    .ite ((refreshRoster_frame ..).step (by decide) ((Frame.boot d _).mono (by decide))) (Frame.refl ..)
  have hSet : Frame (.boot :: evParts) d set_ := (setRoster_frame ..).step (by decide) hSized
  have hMiscounted : Frame (.boot :: evParts) d miscounted := .ite ((devEvent_frame ..).step (by decide) hSet) hSet
  have hJoined : Frame (.boot :: evParts) d joined := .ite ((devEvent_frame ..).step (by decide) hMiscounted) hMiscounted
  exact .ite (Frame.refl ..) (hJoined.trans (rosterCheck_frame ..))

theorem headLink_frame (d : Dev) (ms : Nat) : Frame rosterParts d (d.headLink ms) := by
  unfold Dev.headLink
  extract_lets on headed bootSt rostered announced reported
  have hRostered : Frame rosterParts d rostered :=
    .ite ((refreshRoster_frame ..).step (by decide) ((Frame.boot ..).step (by decide) (setHead_frame ..))) (setHead_frame ..)
  have hAnnounced : Frame rosterParts d announced := (announce_frame ..).step (by decide) hRostered
  have hReported : Frame rosterParts d reported := (rosterReport_frame ..).step (by decide) hAnnounced
  exact .ite (Frame.refl ..) (.ite (.ite ((rosterReport_frame ..).step (by decide) hReported) hReported) hAnnounced)

end Sys2Proof.Safety
end

section
/-! ### Virtual functions, bus mastering, vectors and the host link (R72, R101 to R103) -/

namespace Sys2Proof.Safety

open Sys2Proof.Machine

/-- The whole record of a patron is kept by a frame without host port and rings. -/
theorem Frame.pat_eq {ps : List Part} {d e : Dev} (h : Frame ps d e) (host : .host ∉ ps) (rings : .rings ∉ ps) (p : Nat) : e.pat p = d.pat p := by
  obtain ⟨cq, eq⟩ := h.same .rings rings p
  have rest := (h.same .host host).2 p
  calc e.pat p
    _ = { { e.pat p with cq := [], eq := {} } with cq := (e.pat p).cq, eq := (e.pat p).eq } := rfl
    _ = d.pat p := by rw [rest, cq, eq]

theorem OthersKept.of_frame {ps : List Part} {s : State} {d e : Dev} {p : Nat} (h : OthersKept p s { s with dev := d }) (k : Frame ps d e)
    (host : .host ∉ ps) (rings : .rings ∉ ps) : OthersKept p s { s with dev := e } :=
  ⟨fun q other => (k.pat_eq host rings q).trans (h.1 q other), (k.same .host host).1.trans h.2⟩

/-! #### VF Enable -/

/-- A patron that comes up, where it is DISABLED (R106). -/
def bringUp (d : Dev) (p : Nat) : Dev := if (d.pat p).st = .disabled then d.modPat p fun _ => { st := .configuring } else d

theorem bringUp_frame (d : Dev) (p : Nat) : Frame [.host, .rings] d (bringUp d p) := .ite (modPat_frame ..) (Frame.refl ..)

theorem bringUp_numVf (d : Dev) (p : Nat) : (bringUp d p).host.numVf = d.host.numVf := by
  unfold bringUp
  split <;> rfl

theorem bringUp_st (d : Dev) (p q : Nat) : ((bringUp d p).pat q).st
    = if q = p ∧ (d.pat q).st = .disabled then .configuring else (d.pat q).st := by
  unfold bringUp
  by_cases same : q = p
  · subst same
    split
    · next disabled => simp [disabled]
    · next enabled => simp [enabled]
  · split
    · rw [pat_modPat_other _ same, if_neg (by simp [same])]
    · rw [if_neg (by simp [same])]

/-- The virtual functions of a list are brought up: the patrons of those that were DISABLED are CONFIGURING. -/
structure BringsUp (l : List Nat) (d e : Dev) : Prop where
  numVf : e.host.numVf = d.host.numVf
  configuring : ∀ p, (d.pat (p + 1)).st = .disabled → p ∈ l → (e.pat (p + 1)).st = .configuring

theorem bringUpAll (l : List Nat) (d : Dev) : BringsUp l d (l.foldl (fun d i => bringUp d (i + 1)) d) := by
  have stays : ∀ (l : List Nat) (d : Dev) p, (d.pat p).st = .configuring → ((l.foldl (fun d i => bringUp d (i + 1)) d).pat p).st = .configuring :=
    fun l d p up => List.foldlRecOn (motive := fun e : Dev => (e.pat p).st = .configuring) l _ up fun e h i _ => by rw [bringUp_st, h]; simp
  induction l generalizing d with
  | nil => exact ⟨rfl, fun p _ mem => nomatch mem⟩
  | cons i l ih =>
    obtain ⟨numVf, up⟩ := ih (bringUp d (i + 1))
    refine ⟨numVf.trans (bringUp_numVf ..), fun p disabled mem => ?_⟩
    rcases List.mem_cons.mp mem with rfl | later
    · exact stays l _ _ (by rw [bringUp_st, if_pos ⟨rfl, disabled⟩])
    · by_cases same : p = i
      · subst same
        exact stays l _ _ (by rw [bringUp_st, if_pos ⟨rfl, disabled⟩])
      · exact up p (by rw [bringUp_st, if_neg (by simp [same]), disabled]) later

/-! #### Patron faults -/

theorem patronFaults_active {d : Dev} {p : Nat} (active : d.active p = true) (cause : Nat) : d.patronFaults p cause
    = (d.modPat p fun x => { x with st := .faulted, fault := cause }).bothEvent p 0x0003 p cause (d.outstanding p) :=
  if_neg (by simp [active])

theorem patronFaults_idle {d : Dev} {p : Nat} (idle : d.active p = false) (cause : Nat) : d.patronFaults p cause = d := if_pos (by simp [idle])

theorem patronFaults_frame (d : Dev) (p cause : Nat) : Frame (.host :: evParts) d (d.patronFaults p cause) :=
  .ite (Frame.refl ..) ((bothEvent_frame ..).step (by decide) ((modPat_hostOnly _ _ _ rfl rfl).mono (by decide)))

/-- A patron's record after a fault, but for its rings' entries: an ACTIVE patron is FAULTED, another is as it was. -/
theorem patronFaults_pat (d : Dev) (p q cause : Nat) {β : Type} (g : PatronSt → β)
    (blind : ∀ x, g { x with cq := [], eq := {} } = g x := by intro; rfl) : g ((d.patronFaults p cause).pat q)
    = g (if q = p ∧ d.active q = true then { d.pat q with st := .faulted, fault := cause } else d.pat q) := by
  cases active : d.active p with
  | false =>
    rw [patronFaults_idle active, if_neg]
    rintro ⟨rfl, up⟩
    simp [active] at up
  | true =>
    rw [patronFaults_active active, (bothEvent_frame ..).patField (by decide) q g blind]
    by_cases same : q = p
    · subst same
      simp [active]
    · rw [pat_modPat_other _ same, if_neg (by simp [same])]

theorem patronFaults_event {d : Dev} {p : Nat} (active : d.active p = true) (cause : Nat) :
    EventOn 0x0003 cause (d.outstanding p) d (d.patronFaults p cause) := by
  rw [patronFaults_active active]
  exact (bothEvent_event ..).from (modPat_frame ..) (by decide) (by decide) (by decide)

/-- Faults of a list of patrons reach each of them that is ACTIVE, and no other patron's state. -/
theorem patronsFault (l : List Nat) (d : Dev) (cause q : Nat) :
    ((q ∈ l ∧ d.active q = true) → ((l.foldl (fun d p => d.patronFaults p cause) d).pat q).st = .faulted
      ∧ ((l.foldl (fun d p => d.patronFaults p cause) d).pat q).fault = cause)
    ∧ (d.active q = false → ((l.foldl (fun d p => d.patronFaults p cause) d).pat q).st = (d.pat q).st
      ∧ ((l.foldl (fun d p => d.patronFaults p cause) d).pat q).fault = (d.pat q).fault) := by
  induction l generalizing d with
  | nil => exact ⟨fun h => absurd h.1 List.not_mem_nil, fun _ => ⟨rfl, rfl⟩⟩
  | cons p l ih =>
    obtain ⟨hits, misses⟩ := ih (d.patronFaults p cause)
    have st := patronFaults_pat d p q cause (·.st)
    have fault := patronFaults_pat d p q cause (·.fault)
    constructor
    · rintro ⟨mem, active⟩
      by_cases same : q = p
      · rw [if_pos ⟨same, active⟩] at st fault
        obtain ⟨laterSt, laterFault⟩ := misses (by rw [Dev.active, st]; rfl)
        exact ⟨laterSt.trans st, laterFault.trans fault⟩
      · rw [if_neg (by simp [same])] at st
        exact hits ⟨(List.mem_cons.mp mem).resolve_left same, by rw [Dev.active, st]; exact active⟩
    · intro idle
      rw [if_neg (by simp [idle])] at st fault
      obtain ⟨laterSt, laterFault⟩ := misses (by rw [Dev.active, st]; exact idle)
      exact ⟨laterSt.trans st, laterFault.trans fault⟩

/-! #### The host link -/

theorem linkLost_frame (d : Dev) : Frame (.free :: rosterParts) { d with host := { d.host with linkUp := false, width := 0, rate := 0 } } d.linkLost :=
  (headLink_frame ..).step (by decide) ((drawBits_frame _ 32).mono (by decide))

/-- The device with a link that has come up or changed. -/
def linkedAs (d : Dev) (width rate : Nat) (flit : Bool) : Dev :=
  { d with host := { d.host with linkUp := true, width := width, rate := rate, flit := flit } }

theorem exec_hostLinkUp {s : State} (down : s.dev.host.linkUp = false) (w r : Nat) (f : Bool) : exec (.hostLinkUp w r f) s
    = devNext s (((linkedAs s.dev w r f).drawBits 32).2.headLink ((linkedAs s.dev w r f).drawBits 32).1) :=
  congrArg (devNext s) (if_neg (by simp [down]))

theorem linkedAs_up {d : Dev} (up : d.host.linkUp = true) (width rate : Nat) (flit : Bool) :
    linkedAs d width rate flit = { d with host := { d.host with width := width, rate := rate, flit := flit } } := by
  rw [linkedAs, ← up]

/-- Settles O23: each row is one of the equations above. -/
theorem functionRowsComplete : Obligations.FunctionRowsComplete := by
  intro s
  refine ⟨fun n p up off small first last disabled => ?vf, fun p reached active => ?master, fun p k reached small masked pending nodup => ?vector,
    fun up => ?down, fun w r f down => ?up, fun w r f up differs => ?changed⟩
  case vf =>
    have run : exec (.vfEnableSet n) s
        = devNext s ((List.range n).foldl (fun d i => bringUp d (i + 1)) { s.dev with host := { s.dev.host with numVf := n } }) :=
      congrArg (devNext s) (if_neg (by simp [up, off]; omega))
    obtain ⟨numVf, configuring⟩ := bringUpAll (List.range n) { s.dev with host := { s.dev.host with numVf := n } }
    obtain ⟨k, rfl⟩ : ∃ k, p = k + 1 := ⟨p - 1, by omega⟩
    exact .of_exec run ⟨numVf, configuring k disabled (List.mem_range.mpr last),
      .of_frame ((Frame.host s.dev _).foldl fun _ _ => bringUp_frame ..)⟩
  case master =>
    refine .of_exec (congrArg (devNext s) (if_pos reached)) ⟨?_, ?_, .of_dev (patronFaults_event active 3), .of_frame (patronFaults_frame ..)⟩
    · exact (patronFaults_pat s.dev p p 3 (·.st)).trans (by rw [if_pos ⟨rfl, active⟩])
    · exact (patronFaults_pat s.dev p p 3 (·.fault)).trans (by rw [if_pos ⟨rfl, active⟩])
  case vector =>
    let unmasked := s.dev.modPat p fun x => { x with msixMasked := x.msixMasked.erase k, msixPend := x.msixPend.erase k }
    have open_ : ¬(unmasked.pat p).msixMasked.contains k = true := by
      simpa [unmasked] using nodup.not_mem_erase
    have run : exec (.msixVectorUnmask p k) s = devNext s ((unmasked.emit (.msix p k)).count .msix p) := by
      refine congrArg (devNext s) ((if_neg (by simp [reached, small])).trans ?_)
      exact (if_pos (by simpa using pending)).trans (if_neg open_)
    have sent : Frame [.out, .ctrs] unmasked ((unmasked.emit (.msix p k)).count .msix p) :=
      (count_frame ..).step (by decide) ((emit_frame ..).mono (by decide))
    have pat := (sent.pat_eq (by decide) (by decide) p).trans (pat_modPat_same ..)
    refine .of_exec run ⟨?_, ?_, ?_, (OthersKept.of_modPat s p _).of_frame sent (by decide) (by decide),
      .of_frame (sent.step (by decide) ((modPat_hostOnly _ _ _ rfl rfl).mono (by decide)))⟩
    · dsimp only; rw [pat]
    · dsimp only; rw [pat]
    · dsimp only
      rw [(count_frame ..).same .out (by decide)]
      exact congrArg Dev.out (if_neg (by simp [Dev.barred]))
  case down =>
    obtain ⟨faulted, hFaulted⟩ : ∃ e, e = (List.range 64).foldl (fun (d : Dev) p => d.patronFaults p 4) s.dev := ⟨_, rfl⟩
    have run : exec .hostLinkDown s = devNext s faulted.linkLost := by
      change execHostLinkDown s = _
      simp only [execHostLinkDown, State.onDev, up, Bool.not_true, Bool.false_eq_true, if_false, hFaulted]
    have lost := linkLost_frame faulted
    refine .of_exec run ⟨lost.hostField (by decide) (·.linkUp), fun p small active => ?_, fun p small idle => ?_⟩
    · obtain ⟨st, fault⟩ := (patronsFault (List.range 64) s.dev 4 p).1 ⟨List.mem_range.mpr small, active⟩
      rw [← hFaulted] at st fault
      exact ⟨(lost.patField (by decide) p (·.st)).trans st, (lost.patField (by decide) p (·.fault)).trans fault⟩
    · have st := ((patronsFault (List.range 64) s.dev 4 p).2 idle).1
      rw [← hFaulted] at st
      exact (lost.patField (by decide) p (·.st)).trans st
  case up =>
    have linked : Frame (.free :: rosterParts) (linkedAs s.dev w r f) (((linkedAs s.dev w r f).drawBits 32).2.headLink ((linkedAs s.dev w r f).drawBits 32).1) :=
      (headLink_frame ..).step (by decide) ((drawBits_frame ..).mono (by decide))
    exact .of_exec (exec_hostLinkUp down w r f) ⟨linked.hostField (by decide) (·.linkUp), linked.hostField (by decide) (·.width),
      linked.hostField (by decide) (·.rate), linked.hostField (by decide) (·.flit), linked.same .seqs (by decide), rfl⟩
  case changed =>
    have run : exec (.linkChanged w r f) s
        = devNext s (((linkedAs s.dev w r f).count .retrain 0).devEvent 0x0005 (w % 256 + 256 * (r % 256)) 0) := by
      rw [linkedAs_up up]
      exact congrArg (devNext s) ((if_neg (by simp [up])).trans (if_neg (by simp; tauto)))
    have logged : Frame evParts (linkedAs s.dev w r f) _ := count_devEvent_frame (linkedAs s.dev w r f) .retrain 0 0x0005 (w % 256 + 256 * (r % 256)) 0
    have linked : Frame [.host] s.dev (linkedAs s.dev w r f) := Frame.link s.dev _ rfl
    refine .of_exec run ⟨logged.hostField (by decide) (·.width), logged.hostField (by decide) (·.rate), logged.hostField (by decide) (·.flit),
      logged.hostField (by decide) (·.linkUp), .of_dev ?_, .of_frame (logged.step (by decide) (linked.mono (by decide)))⟩
    exact ((devEvent_event ..).from (count_frame ..) (by decide) (by decide) (by decide)).from linked (by decide) (by decide) (by decide)

end Sys2Proof.Safety
end

section
/-! ### Aperture accesses through a slot that maps nothing (R77, R78) -/

namespace Sys2Proof.Safety

open Sys2Proof.Machine

theorem apertureMiss_frame (d : Dev) (owner : Nat) (enabled : Bool) (off : Nat) :
    Frame (.host :: evParts) d (d.apertureMiss owner enabled off) := by
  unfold Dev.apertureMiss
  extract_lets slot counted hostSt noted p
  have hCounted : Frame (.host :: evParts) d counted := (count_frame ..).mono (by decide)
  have hNoted : Frame (.host :: evParts) d noted := (Frame.link counted noted.host rfl).step (by decide) hCounted
  exact .ite hCounted ((patEvent_frame ..).step (by decide) hNoted)

section
variable {s : State} {off len : Nat} (served : s.dev.served 0 = true) (some_ : 0 < len) (inside : off + len ≤ 2 ^ 36)
  (unmapped : s.dev.aperture off = none)
include served some_ inside unmapped

/-- An access that misses is counted and reported, and a read answers with all ones. -/
theorem apertureAccess_misses (op right : Nat) (parts : Nat → Nat → List (Nat × Msg × Nat × Nat × List Byte)) :
    s.apertureAccess op off len right parts = { s with
      dev := if op = 0x100 then (s.dev.apertureMiss 0 false off).emit (.aperture (List.replicate len 0xFF) false)
        else s.dev.apertureMiss 0 false off } := by
  unfold State.apertureAccess
  rw [if_neg (by simp [served]; omega)]
  dsimp only
  rw [unmapped]

/-- What an access that misses leaves as it was. -/
theorem apertureAccess_keeps (op right : Nat) (parts : Nat → Nat → List (Nat × Msg × Nat × Nat × List Byte)) :
    (s.apertureAccess op off len right parts).mem = s.mem ∧ (s.apertureAccess op off len right parts).pending = s.pending
    ∧ (s.apertureAccess op off len right parts).dev.rgn = s.dev.rgn := by
  rw [apertureAccess_misses served some_ inside unmapped]
  have missed := apertureMiss_frame s.dev 0 false off
  exact ⟨rfl, rfl, (Frame.ite ((emit_frame ..).step (by decide) missed) missed).same .rgn (by decide)⟩

end

/-- Settles O25: each access is one that misses. -/
theorem apertureMisses : Obligations.ApertureMisses := by
  intro s off len b served some_ inside unmapped
  have keeps := apertureAccess_keeps served some_ inside unmapped
  refine ⟨.of_exec rfl ⟨?_, keeps ..⟩, fun whole => ?_, fun x y eight aligned => ?_⟩
  · rw [apertureAccess_misses served some_ inside unmapped, if_pos rfl]
    dsimp only
    unfold Dev.emit
    rw [if_neg (by simp [Dev.barred])]
    exact List.mem_append_right _ (List.mem_singleton.mpr rfl)
  · subst whole
    exact .of_exec rfl (keeps ..)
  · subst eight
    exact .of_exec (congrArg Host.Outcome.next (if_neg (by simp [aligned]))) (keeps ..)

end Sys2Proof.Safety
end

section
/-! ### Vendor requests of a session, entropy, tamper, recovery, JTAG and DOE discovery (R68, R474, R483, R486, R492, R493) -/

namespace Sys2Proof.Safety

open Sys2Proof.Machine

/-! #### Answers -/

theorem vendorSay_eq (d : Dev) (session command status : Nat) (data : List Byte) : d.vendorSay session command status data = { d with
    out := d.out ++ [.spdm session 0xFE (.bytes (leBytes 1 command ++ leBytes 1 status ++ [0, 0] ++ data))] } := emit_spdm ..

theorem emit_doe (d : Dev) (b : List Byte) : d.emit (.doe b) = { d with out := d.out ++ [.doe b] } := if_neg (by simp [Dev.barred])

theorem emit_jtag (d : Dev) (k : Nat) : d.emit (.jtag k) = { d with out := d.out ++ [.jtag k] } := if_neg (by simp [Dev.barred])

/-- A device event and then the vendor response. -/
theorem eventAnswer_frame (d : Dev) (code d0 d1 session command status : Nat) (data : List Byte) :
    Frame evParts d ((d.devEvent code d0 d1).vendorSay session command status data) :=
  (vendorSay_frame ..).step (by decide) (devEvent_frame ..)

theorem eventAnswer_logs (d : Dev) (code d0 d1 session command status : Nat) (data : List Byte) :
    EventOn code d0 d1 d ((d.devEvent code d0 d1).vendorSay session command status data) :=
  (devEvent_event ..).after ((vendorSay_frame ..).flt_eq (by decide) (by decide))

/-! #### Keys -/

/-- The device with a key imported for a patron (R483). -/
def imported (d : Dev) (p : Nat) (key : List Byte) : Dev :=
  { d with sec := { d.sec with
    keyed := if d.sec.keyed.contains p then d.sec.keyed else d.sec.keyed ++ [p]
    imported := tset d.sec.imported p key } }

theorem mem_imported_keyed (d : Dev) (p : Nat) (key : List Byte) : p ∈ (imported d p key).sec.keyed := by
  unfold imported
  dsimp only
  split
  · next held => simpa using held
  · simp

theorem exec_keySet {s : State} {ses : Nat} {b : List Byte} (on : s.dev.spdmOn = true) (inside : s.dev.inSession ses = true)
    (whole : (b.drop 4).length = 64) (halves : (b.drop 4).take 32 ≠ (b.drop 4).drop 32)
    (configuring : (s.dev.pat (leNat ((b.drop 1).take 1) % 64)).st = .configuring)
    (empty : s.dev.hasData (leNat ((b.drop 1).take 1) % 64) = false) (locked : s.dev.sec.debug = false) :
    exec (.keySet ses b) s = devNext s (((imported s.dev (leNat ((b.drop 1).take 1) % 64) (b.drop 4)).devEvent 0x0603
      (leNat ((b.drop 1).take 1) % 64) (tgetD s.dev.sec.gens (leNat ((b.drop 1).take 1) % 64) 0)).vendorSay ses 1 stOk []) := by
  refine (inSession_in on inside _).trans (congrArg (devNext s) ?_)
  dsimp only
  rw [if_neg (by simp only [whole, ne_eq, not_true_eq_false, false_or]; exact halves), if_neg (by simp only [configuring, empty, locked, ne_eq, not_true_eq_false, Bool.false_eq_true, or_self, not_false_eq_true])]
  rfl

theorem dropLinkKeys_frame (d : Dev) : Frame [.fab] d d.dropLinkKeys := Frame.fab d _

theorem dropLinkKeys_port (d : Dev) (k : Nat) : d.dropLinkKeys.port k = { d.port k with keyOut := [], keyIn := [] } := by
  unfold Dev.port Dev.dropLinkKeys
  simp only [tgetD, tget_tmap]
  cases tget d.fab.ports k <;> rfl

/-- The device with debug open and the keys of patrons and links gone (R492). -/
def debugOpened (d : Dev) : Dev :=
  ({ d with sec := { d.sec with keysClear := true, retained := [], nonce := none, debug := true } } : Dev).dropLinkKeys

theorem debugOpened_frame (d : Dev) : Frame [.sec, .fab] d (debugOpened d) :=
  (dropLinkKeys_frame ..).step (by decide) ((Frame.sec d _).mono (by decide))

/-- Every ACTIVE patron faults with cause 5. -/
def allKeysLost (d : Dev) : Dev := (List.range 64).foldl (fun (d : Dev) p => d.patronFaults p 5) d

theorem allKeysLost_frame (d : Dev) : Frame (.host :: evParts) d (allKeysLost d) := (Frame.refl ..).foldl fun _ _ => patronFaults_frame ..

theorem allKeysLost_none {d : Dev} (none : ∀ p, p < 64 → d.active p = false) : allKeysLost d = d :=
  List.foldlRecOn (motive := fun e : Dev => e = d) _ _ rfl fun e same p mem => by
    rw [same]
    exact patronFaults_idle (none p (List.mem_range.mp mem)) 5

theorem exec_debugUnlock {s : State} {ses age : Nat} {b : List Byte} (on : s.dev.spdmOn = true) (inside : s.dev.inSession ses = true)
    (nonce : s.dev.sec.nonce ≠ none) (fresh : age ≤ 60) (whole : (b.drop 4).length = 3309) : exec (.debugUnlock ses b true age) s
      = devNext s (((allKeysLost (debugOpened s.dev)).devEvent 0x0607 0 0).vendorSay ses 4 stOk []) := by
  refine (inSession_in on inside _).trans (congrArg (devNext s) (if_neg ?_))
  simp only [whole, Bool.not_true, Option.isNone_iff_eq_none, nonce, false_or, ne_eq, not_true_eq_false, or_false, Bool.false_eq_true]
  omega

/-- Settles O46: each row is its equation, read off field by field. -/
theorem vendorRowsComplete : Obligations.VendorRowsComplete := by
  intro s ses b on inside
  have plain : ∀ {c : Instr} {code : Nat}, exec c s = s.inSession ses (fun d => d.spdmSay ses code []) → After c s fun t =>
      t.dev.out = s.dev.out ++ [freeOctets s ses code] ∧ Changes [.out, .free] s t := fun run =>
    .of_spdmSay [] (run.trans (inSession_in on inside _)) (Frame.refl ..) rfl rfl _ fun t out changes _ => ⟨out, changes⟩
  refine ⟨plain rfl, plain rfl, fun p patron whole halves configuring empty locked => ?key, fun whole => ?secret, fun entropy => ?challenge,
    fun age nonce fresh whole => ?unlock⟩
  case key =>
    subst patron
    have frame := eventAnswer_frame (imported s.dev (leNat ((b.drop 1).take 1) % 64) (b.drop 4)) 0x0603
      (leNat ((b.drop 1).take 1) % 64) (tgetD s.dev.sec.gens (leNat ((b.drop 1).take 1) % 64) 0) ses 1 stOk []
    have begins : Frame [.sec] s.dev (imported s.dev (leNat ((b.drop 1).take 1) % 64) (b.drop 4)) := Frame.sec s.dev _
    have sec := frame.same .sec (by decide)
    refine .of_exec (exec_keySet on inside whole halves configuring empty locked) ⟨?_, ?_, ?_, ?_, ?_, .of_frame (frame.step (by decide) (begins.mono (by decide)))⟩
    · dsimp only; rw [sec]; exact mem_imported_keyed ..
    · dsimp only; rw [sec]; exact tget_tset_same ..
    · dsimp only; rw [sec]; rfl
    · exact .of_dev ((eventAnswer_logs ..).from begins (by decide) (by decide) (by decide))
    · dsimp only; rw [vendorSay_eq]; exact List.mem_append_right _ (List.mem_singleton.mpr rfl)
  case secret =>
    have begins : Frame [.sec] s.dev { s.dev with sec := { s.dev.sec with poolSecret := some (b.drop 4) } } := Frame.sec s.dev _
    refine .of_exec ((inSession_in on inside _).trans (congrArg (devNext s) (if_neg (by simp [whole])))) ⟨?_, ?_, .of_frame ?_⟩
    · exact (eventAnswer_frame ..).same .sec (by decide)
    · exact .of_dev ((eventAnswer_logs ..).from begins (by decide) (by decide) (by decide))
    · exact (eventAnswer_frame ..).step (by decide) (begins.mono (by decide))
  case challenge =>
    refine .of_exec ((inSession_in on inside _).trans (congrArg (devNext s) (if_neg (by simp [entropy])))) ⟨?_, ?_, .of_frame ?_⟩
    · exact (vendorSay_frame ..).same .sec (by decide)
    · refine ⟨(List.range 32).map (Config.freeByte s.dev.free), by simp, ?_⟩
      dsimp only
      rw [vendorSay_eq]
      rfl
    · exact (vendorSay_frame ..).step (by decide) ((Frame.sec _ _).step (by decide) ((drawBytes_frame s.dev 32).mono (by decide)))
  case unlock =>
    have begins := debugOpened_frame s.dev
    have faults := allKeysLost_frame (debugOpened s.dev)
    have answered := eventAnswer_frame (allKeysLost (debugOpened s.dev)) 0x0607 0 0 ses 4 stOk []
    have after : Frame (.host :: evParts) (debugOpened s.dev) _ := answered.step (by decide) faults
    refine .of_exec (exec_debugUnlock on inside nonce fresh whole) ⟨after.same .sec (by decide), fun p small active => ?_, fun none => ?_, fun k => ?_,
      .of_frame (after.step (by decide) (begins.mono (by decide)))⟩
    · obtain ⟨st, fault⟩ := (patronsFault (List.range 64) (debugOpened s.dev) 5 p).1 ⟨List.mem_range.mpr small, active⟩
      exact ⟨(answered.patField (by decide) p (·.st)).trans st, (answered.patField (by decide) p (·.fault)).trans fault⟩
    · rw [allKeysLost_none (d := debugOpened s.dev) fun p small => none p small]
      exact .of_dev ((eventAnswer_logs ..).from begins (by decide) (by decide) (by decide))
    · dsimp only
      unfold Dev.port
      rw [after.same .fab (by decide)]
      have keyless := dropLinkKeys_port { s.dev with sec := { s.dev.sec with keysClear := true, retained := [], nonce := none, debug := true } } k
      exact ⟨congrArg (·.keyOut) keyless, congrArg (·.keyIn) keyless, congrArg (·.st) keyless⟩

/-! #### The device's own security rows -/

/-- The device held after tampering (R493). -/
def tampered (d : Dev) : Dev :=
  { d.dropLinkKeys with
    sec := { d.sec with keyed := [], imported := [], retained := [], poolSecret := none, nonce := none, sessions := []
                        keysClear := true, wrapGen := min 32 (d.sec.wrapGen + 1), tamperLatched := true, tamperNew := true }
    boot := { d.boot with st := .tamperHold }, adm := { d.adm with paused := true }, host := { d.host with linkUp := false } }

theorem tampered_frame (d : Dev) : Frame [.sec, .boot, .adm, .host, .fab] d (tampered d) := by
  let keyless : Dev := { d.dropLinkKeys with sec := (tampered d).sec }
  let held : Dev := { keyless with boot := (tampered d).boot }
  let paused : Dev := { held with adm := (tampered d).adm }
  have hKeyless : Frame [.sec, .boot, .adm, .host, .fab] d keyless :=
    (Frame.sec d.dropLinkKeys _).step (by decide) ((dropLinkKeys_frame d).mono (by decide))
  have hHeld : Frame [.sec, .boot, .adm, .host, .fab] d held := (Frame.boot keyless _).step (by decide) hKeyless
  have hPaused : Frame [.sec, .boot, .adm, .host, .fab] d paused := (Frame.adm held _).step (by decide) hHeld
  exact (Frame.link paused (tampered d).host rfl).step (by decide) hPaused

/-- Settles O48: each row is the branch that its hypotheses choose. -/
theorem securityRowsComplete : Obligations.SecurityRowsComplete := by
  intro s powered held
  refine ⟨fun test => ?entropy, fun x watches => ?tamper, fun v one reached recovery idle => ?recovery, fun k outer => ?jtag,
    fun k inner locked => ?inside, fun i on known => ?entry, fun i on beyond => ?beyond⟩
  case entropy =>
    have begins : Frame [.sec] s.dev { s.dev with sec := { s.dev.sec with entropyOk := false } } := Frame.sec s.dev _
    refine .of_exec (congrArg (devNext s) (if_neg (by simp [powered, held]))) ⟨?_, ?_, .of_frame ((devEvent_frame ..).step (by decide) (begins.mono (by decide)))⟩
    · exact (devEvent_frame ..).same .sec (by decide)
    · exact .of_dev ((devEvent_event ..).from begins (by decide) (by decide) (by decide))
  case tamper =>
    have run : exec (.tamperDetect x) s = devNext s (tampered s.dev) := congrArg (devNext s) (if_neg (by simp [watches, powered, held]))
    refine .of_exec run ⟨rfl, rfl, rfl, rfl, rfl, rfl, rfl, rfl, rfl, rfl, rfl, fun k => ?_, .of_frame (tampered_frame s.dev)⟩
    have keyless := dropLinkKeys_port s.dev k
    exact ⟨congrArg (·.keyOut) keyless, congrArg (·.keyIn) keyless⟩
  case recovery =>
    have open_ : s.dev.blockOpen 12 = true := by simp [Dev.blockOpen, recovery]
    refine .of_exec (congrArg (devNext s) ((if_pos (by rw [reached, open_]; rfl)).trans (if_neg (by simp [one, recovery, idle])))) ⟨rfl, .of_frame (Frame.sec s.dev _)⟩
  case jtag =>
    exact .of_exec ((if_neg powered).trans (if_pos outer)) ⟨congrArg Dev.out (emit_jtag s.dev k), .of_frame (emit_frame ..)⟩
  case inside =>
    exact (if_neg powered).trans ((if_neg (by omega)).trans (if_pos (by simp [locked])))
  case entry =>
    exact .of_exec (congrArg (devNext s) ((if_neg (by simp [on])).trans (if_pos known))) ⟨congrArg Dev.out (emit_doe s.dev _), .of_frame (emit_frame ..)⟩
  case beyond =>
    refine .of_exec (congrArg (devNext s) ((if_neg (by simp [on])).trans (if_neg (by omega)))) ⟨⟨(List.range 12).map (Config.freeByte s.dev.free), by simp, ?_⟩, .of_frame ?_⟩
    · exact congrArg Dev.out (emit_doe (s.dev.drawBytes 12).2 _)
    · exact (emit_frame ..).step (by decide) ((drawBytes_frame s.dev 12).mono (by decide))

end Sys2Proof.Safety
end

section
/-! ### Clusters, firmware cores and repairs (R31, R453 to R463, R490, R491) -/

namespace Sys2Proof.Safety

open Sys2Proof.Machine

/-! #### Notices -/

theorem emit_mctp (d : Dev) (cls code : Nat) : d.emit (.mctp cls code) = { d with out := d.out ++ [.mctp cls code] } :=
  if_neg (by simp [Dev.barred])

theorem headOfWing_of {d e : Dev} (boot : e.boot = d.boot) : e.headOfWing = d.headOfWing := by
  unfold Dev.headOfWing Dev.devNo Dev.wing
  rw [boot]

/-- A device without a head of its wing sends no notice. -/
theorem faultNotice_alone {d : Dev} (alone : d.headOfWing = none) (cls : Nat) : d.faultNotice cls = d := by
  unfold Dev.faultNotice
  rw [alone]

theorem reportFault_out (d : Dev) (cls code : Nat) : Out.mctp cls code ∈ (d.reportFault cls code).out := by
  rw [Dev.reportFault, emit_mctp]
  exact List.mem_append_right _ (List.mem_singleton.mpr rfl)

theorem reportFault_frame (d : Dev) (cls code : Nat) : Frame [.out] d (d.reportFault cls code) := emit_frame ..

/-! #### A cluster leaves service and returns -/

/-- The device with a cluster out of service, before it is counted and reported (R462). -/
def clusterFenced (d : Dev) (c : Nat) : Dev :=
  { d with
    flt := { d.flt with
      out := d.flt.out ++ [c]
      abandoned := d.flt.abandoned ++ ((d.adm.planned ++ d.adm.waiting).filter fun q => d.usesCluster q c).map (·.id) }
    pwr := { d.pwr with chans := (List.range 16).foldl (fun t i => tset t (16 * c + i) 2) d.pwr.chans } }

theorem clusterOut_alone {d : Dev} {c : Nat} (small : c < 16) (served : c ∉ d.flt.out) (serving : d.boot.st = .serving) (alone : d.headOfWing = none)
    (checker : Nat) : d.clusterOut c checker
      = (((clusterFenced d c).count .clusterFlt c).devEvent 0x0504 c checker { cls := 3, cluster := c }).reportFault 3 0x0504 := by
  have boot : (((clusterFenced d c).count .clusterFlt c).devEvent 0x0504 c checker { cls := 3, cluster := c }).boot = d.boot :=
    ((devEvent_frame ..).same .boot (by decide)).trans ((count_frame (clusterFenced d c) _ _ _).same .boot (by decide))
  unfold Dev.clusterOut
  rw [if_neg (by simp [served, small, serving])]
  exact congrArg (fun e : Dev => e.reportFault 3 0x0504) (faultNotice_alone ((headOfWing_of boot).trans alone) 3)

theorem serveWhere_none {s : State} (none : s.dev.fab.held = []) (f : HeldReq → Bool) (tried : Bool) :
    s.serveWhere f tried = { s with dev := { s.dev with fab := { s.dev.fab with held := [] } } } := by
  simp only [State.serveWhere, State.onDev, none, List.filter_nil, List.foldl_nil, State.serveOrdered, List.length_nil, State.serveBehind]

/-- The device with a cluster back in service, before its log entries are written. -/
def clusterBack (d : Dev) (c : Nat) : Dev :=
  { d with flt := { d.flt with out := d.flt.out.filter (· != c) }
           pwr := { d.pwr with chans := if d.pwr.sleep = 2 then d.pwr.chans else tkeep d.pwr.chans fun k _ => k / 16 != c } }

theorem writeHeldLog_frame (d : Dev) (c : Nat) : Frame [.log] d (d.writeHeldLog c) := Frame.log d _ rfl

theorem clusterSelfTestDone_passes {s : State} {c : Nat} (out : c ∈ s.dev.flt.out) (us : Nat) : exec (.clusterSelfTestDone c true us) s
    = .next (({ s with dev := ((clusterBack s.dev c).writeHeldLog c).devEvent 0x0505 c us { cluster := c } } : State).serveWhere
      (fun h => h.why == 3) false) :=
  congrArg Host.Outcome.next ((if_neg (by simp [out])).trans (if_pos rfl))

/-! #### The application cores -/

/-- The device with its cores restarting (R31). -/
def coresDown (d : Dev) : Dev := { d with sec := { d.sec with restarting := true }, adm := { d.adm with paused := true } }

theorem coresDown_frame (d : Dev) : Frame [.sec, .adm] d (coresDown d) :=
  (Frame.adm { d with sec := { d.sec with restarting := true } } _).step (by decide) ((Frame.sec d _).mono (by decide))

theorem firmwareFault_alone {d : Dev} (runs : d.firmwareRuns = true) (alone : d.headOfWing = none) (why core addr : Nat) :
    d.firmwareFault why core addr
      = (coresDown ((d.devEvent 0x0509 why core { cls := 6, addr := addr }).reportFault 6 0x0509)).count .fwRestarts 0 := by
  have boot : (d.devEvent 0x0509 why core { cls := 6, addr := addr }).boot = d.boot := (devEvent_frame ..).same .boot (by decide)
  unfold Dev.firmwareFault
  rw [if_neg (by simp [runs])]
  dsimp only
  rw [faultNotice_alone ((headOfWing_of boot).trans alone)]
  rfl

/-- What a firmware fault of a device without a head leaves: cores that restart, admission paused, the event and the report. -/
theorem firmwareFault_row {c : Instr} {s : State} {e : Dev} {why core addr : Nat} (before : Frame [.ctrs] s.dev e)
    (run : exec c s = devNext s (e.firmwareFault why core addr)) (runs : e.firmwareRuns = true) (alone : e.headOfWing = none) :
    After c s fun t => t.dev.sec = { s.dev.sec with restarting := true } ∧ t.dev.adm = { s.dev.adm with paused := true } ∧ Event 0x0509 why core s t
      ∧ Out.mctp 6 0x0509 ∈ t.dev.out ∧ Changes (.sec :: .adm :: evParts) s t := by
  rw [firmwareFault_alone runs alone] at run
  let reported := (e.devEvent 0x0509 why core { cls := 6, addr := addr }).reportFault 6 0x0509
  have hReported : Frame evParts s.dev reported :=
    (reportFault_frame ..).step (by decide) ((devEvent_frame ..).step (by decide) (before.mono (by decide)))
  have down := coresDown_frame reported
  have counted := count_frame (coresDown reported) .fwRestarts 0 1
  refine .of_exec run ⟨?_, ?_, .of_dev ?_, ?_, .of_frame ?_⟩
  · refine (counted.same .sec (by decide)).trans ?_
    rw [← hReported.same .sec (by decide)]
    rfl
  · refine (counted.same .adm (by decide)).trans ?_
    rw [← hReported.same .adm (by decide)]
    rfl
  · refine (EventOn.after ?_ (counted.flt_eq (by decide) (by decide))).from before (by decide) (by decide) (by decide)
    exact ((devEvent_event ..).after ((reportFault_frame ..).flt_eq (by decide) (by decide))).after (down.flt_eq (by decide) (by decide))
  · dsimp only
    rw [counted.same .out (by decide)]
    exact reportFault_out ..
  · exact counted.step (by decide) (down.step (by decide) (hReported.mono (by decide)))

theorem advanceSvn_none {d : Dev} (none : d.sec.advance = none) : d.advanceSvn = d := by
  unfold Dev.advanceSvn
  rw [none]

/-- Settles O41: each row is its equation, read off field by field. -/
theorem clusterRowsComplete : Obligations.ClusterRowsComplete := by
  intro s
  refine ⟨fun c k small served serving alone => ?fault, ?plan, fun c us out none => ?test, fun core runs alone => ?watchdog,
    fun k core a known warden runs alone => ?violation, fun runs none held => ?ready⟩
  case fault =>
    have begins : Frame [.flt, .log, .pwr] s.dev (clusterFenced s.dev c) :=
      (Frame.pwr { s.dev with flt := (clusterFenced s.dev c).flt } _).step (by decide) ((Frame.flt s.dev (clusterFenced s.dev c).flt).mono (by decide))
    have logged : Frame evParts (clusterFenced s.dev c) (((clusterFenced s.dev c).count .clusterFlt c).devEvent 0x0504 c k { cls := 3, cluster := c }) :=
      (devEvent_frame ..).step (by decide) ((count_frame ..).mono (by decide))
    have after : Frame evParts (clusterFenced s.dev c) ((((clusterFenced s.dev c).count .clusterFlt c).devEvent 0x0504 c k { cls := 3, cluster := c }).reportFault 3 0x0504) :=
      (reportFault_frame ..).step (by decide) logged
    refine .of_exec (congrArg (devNext s) (clusterOut_alone small served serving alone k)) ⟨after.fltField (by decide) (·.out), ?_, reportFault_out ..,
      after.fltField (by decide) (·.failed), .of_frame (after.step (by decide) (begins.mono (by decide)))⟩
    dsimp only
    rw [(reportFault_frame ..).flt_eq (by decide) (by decide), devEvent_logSeq, count_flt]
    rfl
  case plan =>
    exact .of_exec rfl ⟨rfl, .of_frame (Frame.flt s.dev _)⟩
  case test =>
    have after : Frame evParts (clusterBack s.dev c) (((clusterBack s.dev c).writeHeldLog c).devEvent 0x0505 c us { cluster := c }) :=
      (devEvent_frame ..).step (by decide) ((writeHeldLog_frame ..).mono (by decide))
    have idle : (((clusterBack s.dev c).writeHeldLog c).devEvent 0x0505 c us { cluster := c }).fab.held = [] := by
      rw [after.same .fab (by decide)]
      exact none
    have outs : (((clusterBack s.dev c).writeHeldLog c).devEvent 0x0505 c us { cluster := c }).flt.out = s.dev.flt.out.filter (· != c) :=
      after.fltField (by decide) (·.out)
    refine .of_exec (clusterSelfTestDone_passes out us) ?_
    rw [serveWhere_none idle]
    dsimp only
    rw [outs]
    refine ⟨by simp, rfl, devEvent_logSeq .., after.same .rgn (by decide), rfl⟩
  case watchdog => exact firmwareFault_row (Frame.refl ..) rfl runs alone
  case violation =>
    have counted : Frame [.ctrs] s.dev (s.dev.count2 .wardenDisc 0 k 1) := count2_frame ..
    have boot := counted.same .boot (by decide)
    refine firmwareFault_row (addr := a) counted (congrArg (devNext s) (if_neg ?_)) ?_ ((headOfWing_of boot).trans alone)
    · simp only [runs, Bool.not_true, Bool.false_eq_true, false_or, not_or, not_and, Bool.not_eq_true]
      exact ⟨by omega, warden⟩
    · rw [Dev.firmwareRuns, boot]
      exact runs
  case ready =>
    let resumed : Dev := { s.dev with sec := { s.dev.sec with restarting := false }, adm := { s.dev.adm with paused := false } }
    have run : exec .firmwareReady s = .next (({ s with dev := resumed } : State).serveWhere (fun h => h.why == 5) false) := by
      refine congrArg Host.Outcome.next ((if_neg (by simp [runs])).trans ?_)
      exact congrArg (fun e : Dev => ({ s with dev := e } : State).serveWhere (fun h => h.why == 5) false) (advanceSvn_none (d := resumed) none)
    rw [serveWhere_none (s := { s with dev := resumed }) held] at run
    refine .of_exec run ⟨rfl, rfl, .of_frame ?_⟩
    exact (Frame.fab resumed _).step (by decide) ((Frame.adm { s.dev with sec := resumed.sec } _).step (by decide) ((Frame.sec s.dev _).mono (by decide)))

end Sys2Proof.Safety
end

section
/-! ### Rows, tables, SRAM words and lanes (R453 to R460) -/

namespace Sys2Proof.Safety

open Sys2Proof.Machine

theorem Frame.flt_only (d : Dev) (v : FltSt) (reserve : v.reserve = d.flt.reserve) (tables : v.tables = d.flt.tables) (log : v.log = d.flt.log)
    (logSeq : v.logSeq = d.flt.logSeq) (logHeld : v.logHeld = d.flt.logHeld) : Frame [.flt] d { d with flt := v } := by
  constructor
  intro p outside
  cases p <;> simp_all [Part.same, Dev.pat]

theorem countedEvent_frame (d : Dev) (c : Ctr) (k n code d0 d1 : Nat) (i : LogInfo) : Frame evParts d ((d.count c k n).devEvent code d0 d1 i) :=
  (devEvent_frame ..).step (by decide) ((count_frame ..).mono (by decide))

theorem rowRepair_spare {d : Dev} {ch row : Nat} (on : d.reg regFltCtrl 0 0 2 = 1) (small : ch < 256) (s : State) (dev : s.dev = d) :
    exec (.rowRepair ch row true []) s
      = devNext s ((d.count .rowsRep ch).devEvent 0x0507 ch row { cluster := ch / 16, channel := ch }) := by
  subst dev
  exact congrArg (devNext s) ((if_neg (by simp [on, small])).trans (if_pos rfl))

/-- The device with a frame of a cluster retired, before it is counted and reported (R453). -/
def frameRetired (d : Dev) (g u : Nat) : Dev :=
  { d with seqs := { d.seqs with retired := tset d.seqs.retired g (tgetD d.seqs.retired g [] ++ [u]) } }

theorem rowRepair_retires {s : State} {ch row u : Nat} (on : s.dev.reg regFltCtrl 0 0 2 = 1) (small : ch < 256) (unit : u < clusterUnits)
    (fresh : u ∉ tgetD s.dev.seqs.retired (ch / 16) []) : exec (.rowRepair ch row false [u]) s
      = devNext s (((frameRetired s.dev (ch / 16) u).count .framesRet (ch / 16) 1).devEvent 0x0508 (ch / 16) 1 { cluster := ch / 16, channel := ch }) := by
  have one : ([u].filter fun u => !(tgetD s.dev.seqs.retired (ch / 16) []).contains u && decide (u < clusterUnits)).eraseDups = [u] := by
    rw [List.filter_cons_of_pos (by simp [fresh, unit])]
    simp [List.eraseDups, List.eraseDupsBy, List.eraseDupsBy.loop]
  refine congrArg (devNext s) ((if_neg (by simp [on, small])).trans ((if_neg (by decide)).trans ?_))
  dsimp only
  rw [one]
  rfl

theorem sweepEnd_ends {d : Dev} (running : d.flt.sweep = true) : d.sweepEnd.flt.sweep = false := by
  unfold Dev.sweepEnd
  rw [if_neg (by simp [running])]
  exact (count_devEvent_frame ..).fltField (by decide) (·.sweep)

theorem logCorrected_frame (d : Dev) (block : Nat) (i : LogInfo) : Frame (.flt :: .free :: evParts) d (d.logCorrected block i) := by
  unfold Dev.logCorrected
  dsimp only
  refine .ite (Frame.refl ..) ((logEvent_frame ..).step (by decide) ?_)
  exact (Frame.flt (d.drawBits 16).2 _).step (by decide) ((drawBits_frame d 16).mono (by decide))

theorem logCorrected_frames (d : Dev) (block : Nat) (i : LogInfo) : (d.logCorrected block i).flt.frames = d.flt.frames := by
  unfold Dev.logCorrected
  dsimp only
  split
  · rfl
  · exact (logEvent_frame ..).fltField (by decide) (·.frames)

/-- The device after a lost SRAM word has been counted and reported, before the rule of its row (R457). -/
def sramReported (d : Dev) (row g cls : Nat) : Dev := (d.count2 .sramUnc 0 0 1).devEvent 0x0503 row g { cls := cls, cluster := g }

theorem sramReported_frame (d : Dev) (row g cls : Nat) : Frame evParts d (sramReported d row g cls) :=
  (devEvent_frame ..).step (by decide) ((count2_frame ..).mono (by decide))

theorem sramReported_event (d : Dev) (row g cls : Nat) : EventOn 0x0503 row g d (sramReported d row g cls) :=
  (devEvent_event ..).from (count2_frame ..) (by decide) (by decide) (by decide)

/-- The device with a spare lane of a die link in use. -/
def laneSpared (d : Dev) (k : Nat) : Dev := { d with flt := { d.flt with lanes := d.flt.lanes.set k (d.flt.lanes.getD k 0 + 1) } }

/-- Settles O40: each row is its equation, read off field by field. -/
theorem repairRowsComplete : Obligations.RepairRowsComplete := by
  intro s
  refine ⟨fun ch row on small => ?spare, fun ch row u on small unit fresh => ?retires, fun running ready => ?sweep, fun idle => ?noSweep,
    fun k => ?replay, fun v g waits ready => ?segment, rfl, fun n some_ => ?scrub, fun u => ?message, fun u p patron active => ?patron,
    fun k small runs spare known => ?lane⟩
  case spare =>
    have frame : Frame evParts s.dev _ := countedEvent_frame s.dev .rowsRep ch 1 0x0507 ch row { cluster := ch / 16, channel := ch }
    refine .of_exec (rowRepair_spare on small s rfl) ⟨.of_dev ?_, frame.same .seqs (by decide), .of_frame frame⟩
    exact (devEvent_event ..).from (count_frame ..) (by decide) (by decide) (by decide)
  case retires =>
    have begins : Frame [.seqs] s.dev (frameRetired s.dev (ch / 16) u) := Frame.seqs s.dev _
    have frame : Frame evParts (frameRetired s.dev (ch / 16) u) _ :=
      countedEvent_frame _ .framesRet (ch / 16) 1 0x0508 (ch / 16) 1 { cluster := ch / 16, channel := ch }
    have seqs := frame.same .seqs (by decide)
    refine .of_exec (rowRepair_retires on small unit fresh) ⟨?_, fun g other => ?_, ?_, .of_dev ?_, .of_frame (frame.step (by decide) (begins.mono (by decide)))⟩
    · dsimp only; rw [seqs]; exact tgetD_tset_same ..
    · dsimp only; rw [seqs]; exact tgetD_tset_other _ other.symm _ _
    · dsimp only; rw [seqs]; rfl
    · exact ((devEvent_event ..).from (count_frame ..) (by decide) (by decide) (by decide)).from begins (by decide) (by decide) (by decide)
  case sweep =>
    exact .of_exec (congrArg (devNext s) (if_neg (by simp [ready]))) ⟨sweepEnd_ends running, rfl, rfl⟩
  case noSweep =>
    have nothing : s.dev.sweepEnd = s.dev := if_pos (by simp [idle])
    refine congrArg (devNext s) ?_
    dsimp only
    rw [nothing, ite_self]
  case replay =>
    let emptied : Dev := { s.dev with fab := { s.dev.fab with poisonReplay := s.dev.fab.poisonReplay.filter (· != k) } }
    have cleaned : Frame [.log] emptied (if k < 32768 then emptied.cleanReserve (.atomicReplay (2 * k)) else emptied.cleanReserve (.storeReplay (8 * (k - 32768)))) :=
      .ite (cleanReserve_frame ..) (cleanReserve_frame ..)
    have fab := cleaned.same .fab (by decide)
    exact .of_exec rfl ⟨congrArg (·.poisonReplay) fab, congrArg (·.replayA) fab, congrArg (·.replayS) fab,
      .of_frame (cleaned.step (by decide) ((Frame.fab s.dev _).mono (by decide)))⟩
  case segment =>
    let restored : Dev := { s.dev with stk := { s.dev.stk with waitSegs := s.dev.stk.waitSegs.filter (· != (v, g)) } }
    have cleaned := cleanReserve_frame restored (.flashMap v g)
    have stk := cleaned.same .stk (by decide)
    exact .of_exec (congrArg (devNext s) ((if_neg (by simp [waits, ready])).trans (if_pos rfl))) ⟨congrArg (·.waitSegs) stk, congrArg (·.volumes) stk,
      congrArg (·.copies) stk, .of_frame (cleaned.step (by decide) ((Frame.stk s.dev _).mono (by decide)))⟩
  case scrub =>
    refine .of_exec (congrArg (devNext s) (if_neg (by omega))) ⟨?_, .of_frame ?_⟩
    · dsimp only; rw [logCorrected_frames, count2_flt]
    · exact (logCorrected_frame ..).step (by decide) ((count2_frame ..).mono (by decide))
  case message =>
    have run : exec (.sramUncorrectable 4 u false []) s = devNext s (sramReported s.dev 4 0 1) := rfl
    exact .of_exec run ⟨.of_dev (sramReported_event ..), .of_frame (sramReported_frame ..)⟩
  case patron =>
    subst patron
    have run : exec (.sramUncorrectable 3 u false []) s = devNext s ((sramReported s.dev 3 0 2).patronFaults (u % 64) 6) := rfl
    have stays : (sramReported s.dev 3 0 2).active (u % 64) = true := by
      rw [Dev.active, (sramReported_frame ..).patField (by decide) (u % 64) (·.st)]
      exact active
    refine .of_exec run ⟨?_, ?_⟩
    · exact (patronFaults_pat _ _ _ _ (·.st)).trans (by rw [if_pos ⟨rfl, stays⟩])
    · exact (patronFaults_pat _ _ _ _ (·.fault)).trans (by rw [if_pos ⟨rfl, stays⟩])
  case lane =>
    have counted := count_frame (laneSpared s.dev k) .spareLanes k 1
    have run : exec (.dieLinkLaneFail k) s = devNext s ((laneSpared s.dev k).count .spareLanes k) :=
      congrArg (devNext s) ((if_neg (by simp [runs, small])).trans (if_pos spare))
    have spared : Frame [.flt] s.dev (laneSpared s.dev k) := Frame.flt_only s.dev _ rfl rfl rfl rfl rfl
    refine .of_exec run ⟨?_, counted.fltField (by decide) (·.degraded), .of_frame (counted.step (by decide) (spared.mono (by decide)))⟩
    dsimp only
    rw [counted.fltField (by decide) (·.lanes)]
    simp [laneSpared, known]

end Sys2Proof.Safety
end

section
/-! ### Fetching descriptors and granting heads (R90, R102, R422 to R426) -/

namespace Sys2Proof.Safety

open Sys2Proof.Machine

/-! #### DESCRIPTOR_FETCH -/

theorem takeReq_frame (d : Dev) (x : DescIn) (op first : Nat) : Frame [.adm, .rings, .ctrs] d (d.takeReq x op first).2 :=
  let numbered : Dev := { d with adm := { d.adm with nextId := d.adm.nextId + 1, fetchSeq := d.adm.fetchSeq + 1 } }
  have hNumbered : Frame [.adm, .rings, .ctrs] d numbered := (Frame.adm d _).mono (by decide)
  (count_frame (numbered.modCq x.patron (d.boundCq x.patron x.ring) fun c => { c with reserved := c.reserved + 1 }) .fetched x.patron 1).step
    (by decide) ((modCq_frame ..).step (by decide) hNumbered)

section
variable {s : State} {p ring : Nat} (runs : s.dev.ringRuns p ring = true) (free : tget s.dev.adm.heads (16 * p + ring) = none)
  (room : s.dev.cqRoom p (s.dev.boundCq p ring) = true)
include runs free room

theorem fetch_head {b : List Byte} {h : HostView} (whole : (descOf p ring b h).entries
      < ringSpan (s.dev.sqDepth p ring) ((s.dev.pat p).sqAt ring).head ((s.dev.pat p).sqAt ring).tail)
    (unfenced : (descOf p ring b h).fence = false) (unmarked : ((s.dev.pat p).sqAt ring).marks = [])
    (passes : (fetched s p ring b h).2.fetchCheck (fieldOf b 0 1) (descOf p ring b h) = none) :
    s.dev.fetch p ring (some b) h = { (fetched s p ring b h).2 with adm := { (fetched s p ring b h).2.adm with
      heads := tset (fetched s p ring b h).2.adm.heads (16 * p + ring) (fetched s p ring b h).1 } } := by
  unfold Dev.fetch
  dsimp only
  rw [if_neg (by simp [runs, free, room]; omega), if_neg (by simp [unfenced]; omega), if_neg (by simp [unmarked])]
  split
  · next fails => exact absurd ((Eq.symm passes).trans fails) (by simp)
  · rfl

theorem fetch_failed (some_ : ringSpan (s.dev.sqDepth p ring) ((s.dev.pat p).sqAt ring).head ((s.dev.pat p).sqAt ring).tail ≠ 0) (h : HostView) :
    s.dev.fetch p ring none h = s.dev.patronFaults p 1 := by
  unfold Dev.fetch
  dsimp only
  rw [if_neg (by simp [runs, free, room, some_])]

end

theorem ringRuns_active {d : Dev} {p r : Nat} (runs : d.ringRuns p r = true) : d.active p = true := by
  unfold Dev.ringRuns at runs
  simp only [Bool.and_eq_true] at runs
  exact runs.1.1.1.1.1.1.2

/-- A ring whose head has moved past the entries of its next descriptor. -/
def headMoved (s : State) (p ring : Nat) (b : List Byte) (h : HostView) : Dev :=
  let sq := (s.dev.pat p).sqAt ring
  let n := (descOf p ring b h).entries + 1
  let idx := (List.range n).map fun i => (sq.head + i) % s.dev.sqDepth p ring
  s.dev.modSq p ring fun r => { r with
    head := (sq.head + n) % s.dev.sqDepth p ring, marks := r.marks.filter fun i => !idx.contains i, lastTick := s.dev.tim.count }

theorem fetched_taken (s : State) (p ring : Nat) (b : List Byte) (h : HostView) : Frame [.adm, .rings, .ctrs] (headMoved s p ring b h) (fetched s p ring b h).2 :=
  takeReq_frame (headMoved s p ring b h) (descOf p ring b h) (fieldOf b 0 1) ((s.dev.pat p).sqAt ring).head

theorem fetched_frame (s : State) (p ring : Nat) (b : List Byte) (h : HostView) : Frame [.adm, .host, .rings, .ctrs] s.dev (fetched s p ring b h).2 :=
  have moved : Frame [.host] s.dev (headMoved s p ring b h) := by
    unfold headMoved
    exact modSq_frame ..
  (fetched_taken s p ring b h).step (by decide) (moved.mono (by decide))

/-- Settles O32: a whole descriptor becomes the head, and a failed read is a patron fault. -/
theorem descriptorFetchRows : Obligations.DescriptorFetchRows := by
  intro s p ring h runs free room
  refine ⟨fun b whole unfenced unmarked passes => ?head, fun some_ => ?failed⟩
  case head =>
    have dev := fetch_head runs free room whole unfenced unmarked passes
    refine .of_exec (congrArg (devNext s) dev) ⟨tget_tset_same .., rfl, rfl, ?_, .of_frame ?_⟩
    · refine ((fetched_taken s p ring b h).patField (by decide) p (fun x => (x.sqAt ring).head)).trans ?_
      rw [headMoved, sqAt_modSq_same]
    · exact (Frame.adm ..).step (by decide) (fetched_frame s p ring b h)
  case failed =>
    have active := ringRuns_active runs
    refine .of_exec (congrArg (devNext s) (fetch_failed runs free room some_ h)) ⟨?_, ?_, fun q other => ?_, .of_frame (patronFaults_frame ..)⟩
    · exact (patronFaults_pat s.dev p p 1 (·.st)).trans (by rw [if_pos ⟨rfl, active⟩])
    · exact (patronFaults_pat s.dev p p 1 (·.fault)).trans (by rw [if_pos ⟨rfl, active⟩])
    · exact (patronFaults_pat s.dev p q 1 (·.st)).trans (by rw [if_neg (by simp [other])])

/-! #### ADMISSION_GRANT -/

theorem tget_tkeep_key {α : Type} (t : Tab α) {f : Nat → Bool} {i : Nat} (kept : f i = true) : tget (tkeep t fun k _ => f k) i = tget t i := by
  induction t with
  | nil => rfl
  | cons e t ih =>
    obtain ⟨k, v⟩ := e
    unfold tkeep at ih ⊢
    rw [List.filter_cons]
    by_cases here : k = i
    · subst here
      simp [kept, tget]
    · split <;> simp [tget, here, ih]

/-- The candidate of a patron is a head of it. -/
theorem pick_head {d : Dev} {p r k : Nat} {q : Req} {ok : Req → Bool} (h : d.pick p r ok = some (k, q)) :
    k < 16 ∧ tget d.adm.heads (16 * p + k) = some q := by
  unfold Dev.pick at h
  obtain ⟨cls, -, found⟩ := List.exists_of_findSome?_eq_some h
  obtain ⟨i, -, here⟩ := List.exists_of_findSome?_eq_some found
  dsimp only at here
  split at here
  · next head =>
    split at here
    · obtain ⟨rfl, rfl⟩ := Prod.mk.inj (Option.some.inj here)
      exact ⟨Nat.mod_lt _ (by decide), head⟩
    · cases here
  · cases here

theorem candidate_head {d : Dev} {p k : Nat} {q : Req} (h : d.candidate p = some (k, q)) :
    k < 16 ∧ tget d.adm.heads (16 * p + k) = some q := by
  have refusedHead : ∀ n, n / 16 = p → ((tget d.adm.heads n).filter d.selectable).map (fun q => (n % 16, q)) = some (k, q) →
      k < 16 ∧ tget d.adm.heads (16 * p + k) = some q := by
    intro n own found
    obtain ⟨y, selected, same⟩ := Option.map_eq_some_iff.mp found
    obtain ⟨rfl, rfl⟩ := Prod.mk.inj same
    have place : 16 * p + n % 16 = n := by omega
    refine ⟨Nat.mod_lt _ (by decide), ?_⟩
    rw [place]
    exact (Option.filter_eq_some_iff.mp selected).1
  unfold Dev.candidate at h
  extract_lets r first at h
  cases refused : first with
  | some x =>
    rw [refused] at h
    obtain rfl := Option.some.inj h
    simp only [first] at refused
    split at refused
    · split at refused
      · next own => exact refusedHead _ own.1 refused
      · cases refused
    · cases refused
  | none =>
    rw [refused] at h
    dsimp only at h
    cases late : d.pick p r d.expired with
    | some x =>
      rw [late] at h
      exact pick_head (late.trans h)
    | none =>
      rw [late] at h
      exact pick_head h

theorem candidate_works {d : Dev} {p k : Nat} {q : Req} (h : d.candidate p = some (k, q)) : d.hasWork p = true := by
  obtain ⟨small, head⟩ := candidate_head h
  have listed : (k, q) ∈ d.headsOf p := List.mem_filterMap.mpr ⟨k, List.mem_range.mpr small, by rw [head]; rfl⟩
  unfold Dev.hasWork
  cases heads : d.headsOf p with
  | nil => rw [heads] at listed; cases listed
  | cons x l => rfl

theorem fee_uncharged {q : Req} (free : isCharged q.op = false) (d : Dev) : d.fee q = (1, 0, d) := by
  have others : q.op ≠ 0x01 ∧ q.op ≠ 0x02 ∧ q.op ≠ 0x22 := by simpa [isCharged] using free
  unfold Dev.fee
  rw [if_neg others.1, if_neg others.2.2, if_neg others.2.1]

theorem tryGrant_late {d : Dev} {p r : Nat} {q : Req} (candidate : d.candidate p = some (r, q)) (late : d.expired q = true) :
    d.tryGrant p = (.granted, d.grantLate p r q) := by
  unfold Dev.tryGrant
  rw [candidate]
  exact if_pos late

theorem tryGrant_head {d : Dev} {p r : Nat} {q : Req} (candidate : d.candidate p = some (r, q)) (timely : d.expired q = false)
    (free : isCharged q.op = false) (afford : 1 ≤ tgetD d.adm.deficit p 0) (room : d.adm.charge ≤ d.budget) :
    d.tryGrant p = (.granted, d.grantHead p r q (1, 0, d)) := by
  unfold Dev.tryGrant
  rw [candidate]
  dsimp only
  rw [if_neg (by simp [timely]), fee_uncharged free, if_neg (by dsimp only; omega), if_neg (by dsimp only; omega)]

/-- A turn in progress goes on with its patron. -/
theorem admitNext_turn {d e : Dev} (admits : d.admits = true) (turn : d.adm.turn = true)
    (grants : d.idleDeficits.tryGrant (tgetD d.tim.arbs 0 0 / 16) = (.granted, e)) : d.admitNext = e.idleDeficits := by
  unfold Dev.admitNext
  rw [if_neg (by simp [admits])]
  dsimp only
  rw [if_pos (show d.idleDeficits.adm.turn = true from turn)]
  change (match d.idleDeficits.tryGrant (tgetD d.tim.arbs 0 0 / 16) with
    | (.granted, d) => d
    | (_, d) => d.rounds d.roundLimit).idleDeficits = _
  rw [grants]

theorem idleDeficits_frame (d : Dev) : Frame [.adm] d d.idleDeficits := Frame.adm d _

/-- The admission unit after a head has left its slot. -/
theorem leaveSlot_adm (d : Dev) (p r : Nat) (q : Req) : ∃ turn refused, (d.leaveSlot p r q).2.adm = { d.adm with
    heads := tdel d.adm.heads (16 * p + r), lastRing := tset d.adm.lastRing p r, count := d.adm.count + 1, turn, refused } := by
  unfold Dev.leaveSlot
  dsimp only
  rw [count2_adm]
  exact ⟨_, _, rfl⟩

theorem pointAt_frame (d : Dev) (p : Nat) : Frame [.arbs] d (d.pointAt p) := Frame.arbs d _

theorem leaveSlot_frame (d : Dev) (p r : Nat) (q : Req) : Frame [.adm, .arbs, .ctrs] d (d.leaveSlot p r q).2 := by
  unfold Dev.leaveSlot
  extract_lets q' admSt left admSt' turned
  have hTurned : Frame [.adm, .arbs, .ctrs] d turned := (Frame.adm left _).step (by decide) ((Frame.adm d _).mono (by decide))
  exact (count2_frame (turned.pointAt p) .granted p (patronK q'.d.tclass) 1).step (by decide) ((pointAt_frame turned p).step (by decide) hTurned)

/-- A charge of a bucket changes a balance alone. -/
theorem chargeBkt_adm (d : Dev) (b n : Nat) : ∃ bal, (d.chargeBkt b n).adm = { d.adm with bal } := by
  unfold Dev.chargeBkt
  split
  · exact ⟨_, rfl⟩
  · exact ⟨_, rfl⟩

/-- The head of a ring is granted without charge: it leaves its slot and is admitted. -/
structure GrantsFree (p r : Nat) (q : Req) (d e : Dev) : Prop where
  frame : Frame [.adm, .arbs, .ctrs] d e
  admitted : e.adm.admitted = d.adm.admitted ++ [(d.leaveSlot p r { q with charge := 0 }).1]
  heads : e.adm.heads = tdel d.adm.heads (16 * p + r)
  count : e.adm.count = d.adm.count + 1
  charge : e.adm.charge = d.adm.charge

theorem grantHead_free {d : Dev} {p r : Nat} {q : Req} (free : isCharged q.op = false) :
    GrantsFree p r q d (d.grantHead p r q (1, 0, d)) := by
  let left := d.leaveSlot p r { q with charge := 0 }
  let taken : Dev := { left.2 with adm := { left.2.adm with
    admitted := left.2.adm.admitted ++ [left.1], charge := left.2.adm.charge + 0, deficit := tset left.2.adm.deficit p (tgetD left.2.adm.deficit p 0 - 1) } }
  have charged : d.grantHead p r q (1, 0, d) = (taken.chargeBkt (bktPat p left.1.d.tclass) 1).count2 .charged p (patronK left.1.d.tclass) 1 := by
    have others : q.op ≠ 0x01 ∧ q.op ≠ 0x02 ∧ q.op ≠ 0x22 := by simpa [isCharged] using free
    exact follow_other (q := left.1) others.1
  obtain ⟨turn, refused, adm⟩ := leaveSlot_adm d p r { q with charge := 0 }
  obtain ⟨bal, balance⟩ := chargeBkt_adm taken (bktPat p left.1.d.tclass) 1
  have after : (d.grantHead p r q (1, 0, d)).adm = { taken.adm with bal } := by rw [charged, count2_adm, balance]
  have hTaken : Frame [.adm, .arbs, .ctrs] d taken := (Frame.adm left.2 taken.adm).step (by decide) (leaveSlot_frame ..)
  refine ⟨?_, ?_, ?_, ?_, ?_⟩
  · rw [charged]
    exact (count2_frame ..).step (by decide) ((chargeBkt_frame ..).step (by decide) hTaken)
  all_goals
    rw [after]
    simp only [taken, left, adm]
  rfl

/-- Settles O33: the turn in progress tries its patron's candidate, which is granted or ends LATE. -/
theorem admissionGrantRow : Obligations.AdmissionGrantRow := by
  intro s p r q admits turn patron candidate
  let d := s.dev.idleDeficits
  have candidate' : d.candidate p = some (r, q) := candidate
  have begins : Frame [.adm] s.dev d := idleDeficits_frame ..
  refine ⟨fun timely free afford room => ?grants, fun late => ?late⟩
  case grants =>
    have afford' : 1 ≤ tgetD d.adm.deficit p 0 := by
      have kept : tgetD d.adm.deficit p 0 = tgetD s.dev.adm.deficit p 0 := congrArg (·.getD 0) (tget_tkeep_key _ (candidate_works candidate))
      rwa [kept]
    obtain ⟨frame, admitted, heads, count, charge⟩ := grantHead_free (d := d) (p := p) (r := r) free
    have run : s.dev.admitNext = (d.grantHead p r q (1, 0, d)).idleDeficits := by
      refine admitNext_turn admits turn ?_
      rw [← patron]
      exact tryGrant_head candidate' timely free afford' room
    refine .of_exec (congrArg (devNext s) run) ⟨⟨_, admitted, rfl, rfl, rfl, rfl, rfl, rfl⟩, ?_, count, charge,
      .of_frame ((idleDeficits_frame ..).step (by decide) (frame.step (by decide) (begins.mono (by decide))))⟩
    exact (congrArg (tget · (16 * p + r)) heads).trans (tget_tdel_same ..)
  case late =>
    have run : s.dev.admitNext = (d.grantLate p r q).idleDeficits := by
      refine admitNext_turn admits turn ?_
      rw [← patron]
      exact tryGrant_late candidate' late
    let left := d.leaveSlot p r q
    let counted := left.2.count .pastDl p
    have hCounted : Frame [.adm, .arbs, .ctrs] s.dev counted :=
      (count_frame ..).step (by decide) ((leaveSlot_frame ..).step (by decide) (begins.mono (by decide)))
    obtain ⟨turn', refused, adm⟩ := leaveSlot_adm d p r q
    have ended : d.grantLate p r q = counted.completeNext left.1 { status := stLate } := rfl
    obtain ⟨ps, due⟩ := completeNext_due counted left.1 { status := stLate }
    have kept : ∀ {β : Type} (g : AdmSt → β), (∀ m due outs, g { m with due := due, peerOuts := outs } = g m) →
        g (d.grantLate p r q).adm = g left.2.adm := fun g blind => by
      rw [ended]
      simp only [Dev.completeNext, Dev.peersDone, countOp_adm]
      rw [blind]
      simp only [counted, count_adm]
    refine .of_exec (congrArg (devNext s) run) ⟨?_, ?_, ?_, ⟨{ left.1.due { status := stLate } (counted.tim.count + 1) with peers := ps }, ?_, rfl, rfl, rfl, ?_⟩,
      .of_frame ((idleDeficits_frame ..).step (by decide) ((completeNext_frame ..).step (by decide) hCounted))⟩
    · exact (kept (·.admitted) fun _ _ _ => rfl).trans (congrArg (·.admitted) adm)
    · exact (kept (·.charge) fun _ _ _ => rfl).trans (congrArg (·.charge) adm)
    · exact (congrArg (tget · (16 * p + r)) ((kept (·.heads) fun _ _ _ => rfl).trans (congrArg (·.heads) adm))).trans (tget_tdel_same ..)
    · change _ ∈ (d.grantLate p r q).adm.due
      rw [ended, due]
      exact List.mem_append_right _ (List.mem_singleton.mpr rfl)
    · change counted.tim.count + 1 = _
      rw [hCounted.timField (by decide) (·.count)]

end Sys2Proof.Safety
end

section
/-! ### Frames of what spans, copies and units go through (R138, R196, R260 to R271) -/

namespace Sys2Proof.Safety

open Sys2Proof.Machine

/-- The parts that a span's release reaches: records, catalogue, tiers, poisoned frames, the stacks and their events. -/
def spanParts : List Part := .seqs :: .cat :: .tier :: .flt :: flashParts

/-- The parts that a victim's leaving reaches besides: regions, and the buckets of its transfer. -/
def victimParts : List Part := .rgn :: .adm :: spanParts

/-! #### Frames and poisoned lines of a span -/

theorem freeLater_frame (d : Dev) (h : Nat) : Frame [.seqs] d (d.freeLater h) := .ite (Frame.refl ..) (Frame.seqs d _)

theorem freeAllLater_frame (d : Dev) (hs : List Nat) : Frame [.seqs] d (d.freeAllLater hs) := (Frame.refl ..).foldl fun _ _ => freeLater_frame ..

theorem releaseFreed_frame (d : Dev) : Frame [.seqs] d d.releaseFreed := Frame.seqs d _

theorem returnResv_frame (d : Dev) : Frame [.seqs] d d.returnResv := Frame.seqs d _

theorem freeRetired_frame (d : Dev) : Frame [.seqs] d d.freeRetired := Frame.seqs d _

theorem clearLines_frame (d : Dev) (i : Nat) (sel : Nat → Nat → Bool) : Frame [.flt, .log] d (d.clearLines i sel) :=
  .ite (Frame.refl ..) (Frame.flt d _)

theorem clearPoison_frame (d : Dev) (i : Nat) (form : Nat → Bool) : Frame [.flt, .log] d (d.clearPoison i form) := clearLines_frame ..

theorem loseFrames_frame (d : Dev) (i : Nat) : Frame [.seqs, .flt, .log] d (d.loseFrames i) := by
  unfold Dev.loseFrames
  split
  · exact Frame.refl ..
  · exact (clearPoison_frame ..).step (by decide) ((modSpan_frame ..).step (by decide) ((freeAllLater_frame ..).mono (by decide)))

theorem loseTwin_frame (d : Dev) (i : Nat) : Frame [.seqs, .flt, .log] d (d.loseTwin i) := by
  unfold Dev.loseTwin
  split
  · exact Frame.refl ..
  · exact (clearPoison_frame ..).step (by decide) ((modSpan_frame ..).step (by decide) ((freeAllLater_frame ..).mono (by decide)))

theorem loseTail_frame (d : Dev) (i : Nat) : Frame [.seqs, .flt, .log] d (d.loseTail i) := by
  unfold Dev.loseTail
  split
  · exact Frame.refl ..
  · exact (clearPoison_frame ..).step (by decide) ((modSpan_frame ..).step (by decide) ((freeAllLater_frame ..).mono (by decide)))

theorem releaseFrom_frame (d : Dev) (i n : Nat) : Frame [.seqs, .flt, .log] d (d.releaseFrom i n) := by
  unfold Dev.releaseFrom
  split
  · exact Frame.refl ..
  · exact .ite (Frame.refl ..) ((clearLines_frame ..).step (by decide) ((modSpan_frame ..).step (by decide) ((freeAllLater_frame ..).mono (by decide))))

theorem releaseDeep_frame (d : Dev) : Frame [.seqs, .flt, .log] d d.releaseDeep := (Frame.refl ..).foldl fun _ _ => releaseFrom_frame ..

theorem releaseTails_frame (d : Dev) : Frame [.seqs, .flt, .log] d d.releaseTails := (Frame.refl ..).foldl fun _ _ => loseTail_frame ..

/-! #### Movements, copies and churn of a span -/

theorem dropDemo_tame (d : Dev) (i : Nat) : Tame (.tier :: flashParts) d (d.dropDemo i) := by
  unfold Dev.dropDemo
  split
  · exact .refl ..
  extract_lets tierSt dropped kept
  have hDropped : Tame (.tier :: flashParts) d dropped := (Frame.tier d _).tame.mono (by decide)
  exact .ite hDropped (hDropped.foldl fun _ _ => (unmapUnit_tame ..).mono (by decide))

theorem stopMoves_tame (d : Dev) (i : Nat) : Tame (.seqs :: .tier :: flashParts) d (d.stopMoves i) :=
  (modSpan_frame ..).tame.step (by decide) ((Frame.tier (d.dropDemo i) _).tame.step (by decide) ((dropDemo_tame ..).mono (by decide)))

theorem dropCopies_tame (d : Dev) (i : Nat) : Tame (.seqs :: .tier :: flashParts) d (d.dropCopies i) := by
  unfold Dev.dropCopies
  extract_lets n cleared tierSt dropped
  have hDropped : Tame (.seqs :: .tier :: flashParts) d dropped :=
    (Frame.tier (d.dropCopy i) _).tame.step (by decide) ((dropCopy_tame ..).mono (by decide))
  split
  · exact hDropped
  · exact (modSpan_frame ..).tame.step (by decide) ((dropMeta_frame ..).tame.step (by decide) hDropped)

theorem cancelChurn_frame (d : Dev) (i : Nat) : Frame [.seqs, .ctrs] d (d.cancelChurn i) := by
  unfold Dev.cancelChurn
  extract_lets rec_ freed seqSt dropped own
  have hDropped : Frame [.seqs, .ctrs] d dropped := (Frame.seqs freed _).step (by decide) ((freeAllLater_frame ..).mono (by decide))
  exact (count_frame ..).step (by decide) ((modSpan_frame ..).step (by decide) hDropped)

theorem stopChurn_frame (d : Dev) (i : Nat) : Frame [.seqs, .ctrs] d (d.stopChurn i) := .ite (cancelChurn_frame ..) (Frame.refl ..)

theorem vacate_tame (d : Dev) (i : Nat) : Tame spanParts d (d.vacate i) :=
  (modSpan_frame ..).tame.step (by decide) ((stopMoves_tame ..).step (by decide) ((dropCopies_tame ..).step (by decide)
    ((loseFrames_frame ..).tame.step (by decide) ((stopChurn_frame ..).tame.mono (by decide)))))

theorem releaseSpan_tame (d : Dev) (i : Nat) : Tame spanParts d (d.releaseSpan i) := by
  unfold Dev.releaseSpan
  split
  · exact .refl ..
  extract_lets stopped freed pins unpinned tierSt catSt gone seqSt
  have hStopped : Tame spanParts d stopped := (stopMoves_tame ..).step (by decide) ((dropCopies_tame ..).step (by decide)
    ((loseFrames_frame ..).tame.step (by decide) ((stopChurn_frame ..).tame.mono (by decide))))
  have hUnpinned : Tame spanParts d unpinned :=
    ((dropMeta_frame ..).tame.step (by decide) hStopped).foldl fun _ _ => (dropMeta_frame ..).tame.mono (by decide)
  clear_value unpinned
  have hGone : Tame spanParts d gone := (Frame.cat { unpinned with tier := gone.tier } _).tame.step (by decide)
    ((Frame.tier unpinned _).tame.step (by decide) hUnpinned)
  exact (cleanReserve_frame ..).tame.step (by decide) ((Frame.seqs ..).tame.step (by decide) hGone)

theorem releaseZero_tame (d : Dev) : Tame spanParts d d.releaseZero := (Tame.refl ..).foldl fun _ _ => releaseSpan_tame ..

theorem switchSpan_frame (d : Dev) (i : Nat) (cs : Tab ChurnRec) : Frame [.seqs, .flt, .log, .ctrs] d (d.switchSpan i cs) := by
  unfold Dev.switchSpan
  split
  · exact Frame.refl ..
  extract_lets p twin frames late
  refine .ite (Frame.refl ..) ?_
  split
  extract_lets counted freed closed seqSt left churned
  have hCounted : Frame [.seqs, .flt, .log, .ctrs] d counted := (count_frame ..).mono (by decide)
  have hFreed : Frame [.seqs, .flt, .log, .ctrs] d freed := .ite hCounted ((freeAllLater_frame ..).step (by decide) hCounted)
  have hClosed : Frame [.seqs, .flt, .log, .ctrs] d closed := (modSpan_frame ..).step (by decide) ((clearPoison_frame ..).step (by decide) hFreed)
  have hChurned : Frame [.seqs, .flt, .log, .ctrs] d churned := (count_frame ..).step (by decide) ((Frame.seqs closed left.seqs).step (by decide) hClosed)
  exact .ite ((count_frame ..).step (by decide) hChurned) hChurned

theorem switchSpans_frame (d : Dev) : Frame [.seqs, .flt, .log, .ctrs] d d.switchSpans := (Frame.refl ..).foldl fun _ _ => switchSpan_frame ..

theorem dropRetained_frame (d : Dev) : Frame [.sec] d d.dropRetained := Frame.sec d _

/-! #### Transfers to the stacks -/

theorem startUnit_frame (d : Dev) (cls bytes : Nat) : Frame [.adm, .ctrs] d (d.startUnit cls bytes) :=
  (count2_frame ..).step (by decide) ((chargeBkt_frame ..).mono (by decide))

theorem staged_frame (d : Dev) (v u bytes : Nat) : Frame [.stk, .ctrs] d (d.staged_ v u bytes) :=
  (mapChanged_frame ..).step (by decide) ((Frame.stk ..).step (by decide) ((count_frame d .bytesAcc v bytes).mono (by decide)))

theorem acceptUnit_tame (d : Dev) (v u bytes strm : Nat) (f : FUnit → FUnit) : Tame flashParts d (d.acceptUnit v u bytes strm f) := by
  unfold Dev.acceptUnit
  split
  · exact .refl ..
  extract_lets old cleared y n mapped
  have unlocated : ∀ o : Option FUnit, Tame flashParts d (match o with | some y => d.unlocate u y | none => d)
    | some y => unlocate_tame ..
    | none => .refl ..
  have hCleared : Tame flashParts d cleared := unlocated old
  exact (staged_frame ..).tame.step (by decide) ((modVol_frame ..).tame.step (by decide) hCleared)

theorem acceptCopy_tame (d : Dev) (v u cls i n : Nat) : Tame flashParts d (d.acceptCopy v u cls i n) :=
  (Tame.refl ..).foldl fun _ _ => acceptUnit_tame ..

theorem recordCopy_frame (d : Dev) (span : Nat) (c : FCopy) : Frame [.stk] d (d.recordCopy span c) := Frame.stk d _

theorem spanCopied_frame (d : Dev) (i v u : Nat) : Frame [.seqs, .stk, .ctrs] d (d.spanCopied i v u) := by
  unfold Dev.spanCopied
  split
  · exact Frame.refl ..
  · exact (count2_frame ..).step (by decide) ((modSpan_frame ..).step (by decide) ((recordCopy_frame ..).step (by decide)
      ((count_frame ..).step (by decide) ((count_frame ..).mono (by decide)))))

theorem demoteSpan_tame (d : Dev) (i v u : Nat) : Tame (.seqs :: flashParts) d (d.demoteSpan i v u) := by
  unfold Dev.demoteSpan
  split
  · exact .refl ..
  · exact (spanCopied_frame ..).tame.step (by decide) ((acceptCopy_tame ..).mono (by decide))

theorem startUnitDemo_frame (d : Dev) (k v : Nat) : Frame [.adm, .tier, .ctrs] d (d.startUnitDemo k v) :=
  (Frame.tier (d.startUnit 3 unitBytes) _).step (by decide) ((startUnit_frame ..).mono (by decide))

/-! #### Victims -/

theorem applyVictim_tame (d : Dev) (v : Nat × Nat) : Tame victimParts d (d.applyVictim v) := by
  unfold Dev.applyVictim
  extract_lets act
  split
  · split
    · next u r _ _ =>
      refine .ite (.refl ..) (.ite ?_ (.ite (.refl ..) ?_))
      · exact (count_frame ..).tame.step (by decide) ((modUnit_frame ..).tame.mono (by decide))
      · split
        · exact (startUnitDemo_frame ..).tame.mono (by decide)
        · exact .refl ..
    · exact .refl ..
  · split
    · exact .refl ..
    · next s _ =>
      have gone : Tame victimParts d ((d.loseFrames v.1).count .releases 0) :=
        (count_frame ..).tame.step (by decide) ((loseFrames_frame ..).tame.mono (by decide))
      have single : Tame victimParts d ((d.loseTwin v.1).count .twinsAlone 0) :=
        (count_frame ..).tame.step (by decide) ((loseTwin_frame ..).tame.mono (by decide))
      refine .ite (.refl ..) (.ite (.ite single (.refl ..)) (.ite gone ?_))
      split
      · next k u _ =>
        extract_lets n balanced demoted
        have hBalanced : Tame victimParts d balanced := (modVol_frame ..).tame.step (by decide) ((dropDemo_tame ..).mono (by decide))
        have hDemoted : Tame victimParts d demoted := (loseFrames_frame ..).tame.step (by decide) ((demoteSpan_tame ..).step (by decide)
          ((startUnit_frame ..).tame.step (by decide) hBalanced))
        exact .ite ((count_frame ..).tame.step (by decide) hDemoted) hDemoted
      · extract_lets vacated
        have hVacated : Tame victimParts d vacated := (count_frame ..).tame.step (by decide) ((vacate_tame ..).mono (by decide))
        exact .ite ((count_frame ..).tame.step (by decide) hVacated) hVacated

theorem applyVictims_tame (d : Dev) : Tame victimParts d d.applyVictims := by
  unfold Dev.applyVictims
  exact ((Frame.tier d _).tame.mono (by decide)).foldl fun _ _ => applyVictim_tame ..

/-! #### The end of a tick -/

theorem closePromos_frame (d : Dev) : Frame [.seqs, .tier] d d.closePromos := by
  refine (Frame.refl ..).foldl fun e x => ?_
  extract_lets m raised
  have hRaised : Frame [.seqs, .tier] e raised := (modSpan_frame ..).mono (by decide)
  refine .ite (Frame.refl ..) ?_
  split
  · exact hRaised
  · exact .ite ((modSpan_frame ..).step (by decide) ((Frame.tier ..).step (by decide) hRaised)) ((Frame.tier ..).step (by decide) hRaised)

theorem finishDemo_frame (d : Dev) (i : Nat) (m : Demo) : Frame [.tier, .rgn, .seqs, .flt, .log] d (d.finishDemo i m) := by
  unfold Dev.finishDemo
  extract_lets tierSt gone
  have hGone : Frame [.tier, .rgn, .seqs, .flt, .log] d gone := (Frame.tier d _).mono (by decide)
  refine .ite ((modUnit_frame ..).step (by decide) hGone) (.ite (Frame.refl ..) ?_)
  split
  · exact hGone
  · refine .ite hGone (.ite ?_ ((loseFrames_frame ..).step (by decide) hGone))
    exact (releaseFrom_frame ..).step (by decide) (.ite ((loseTwin_frame ..).step (by decide) hGone) hGone)

theorem closeDemos_frame (d : Dev) : Frame [.tier, .rgn, .seqs, .flt, .log] d d.closeDemos := (Frame.refl ..).foldl fun _ _ => finishDemo_frame ..

theorem clearCeased_tame (d : Dev) : Tame spanParts d d.clearCeased := by
  unfold Dev.clearCeased
  refine ((Frame.tier d _).tame.mono (by decide)).foldl fun e c => .ite (.refl ..) ?_
  extract_lets gone
  have hGone : Tame spanParts e gone := (modSpan_frame ..).tame.mono (by decide)
  split
  · exact .ite ((vacate_tame ..).step (by decide) hGone) hGone
  · exact hGone

theorem closeSpans_tame (d : Dev) : Tame (.rgn :: .sec :: spanParts) d d.closeSpans := by
  unfold Dev.closeSpans
  extract_lets released cleared
  have hReleased : Tame (.rgn :: .sec :: spanParts) d released := .ite (.refl ..) ((releaseZero_tame ..).mono (by decide))
  have hCleared : Tame (.rgn :: .sec :: spanParts) d cleared :=
    (releaseDeep_frame ..).tame.step (by decide) ((clearCeased_tame ..).step (by decide) ((closeDemos_frame ..).tame.step (by decide)
      ((releaseTails_frame ..).tame.step (by decide) ((closePromos_frame ..).tame.step (by decide) ((switchSpans_frame ..).tame.step (by decide)
        ((dropRetained_frame ..).tame.step (by decide) hReleased))))))
  exact (returnResv_frame ..).tame.step (by decide) ((freeRetired_frame ..).tame.step (by decide)
    ((releaseFreed_frame ..).tame.step (by decide) hCleared))

theorem endSlots_frame (d : Dev) : Frame [.seqs, .tier] d d.endSlots :=
  (Frame.refl ..).foldl fun e x => ((Frame.tier e _).mono (by decide)).foldl fun _ _ => (endWalk_frame ..).mono (by decide)

theorem endWalks_frame (d : Dev) : Frame [.adm, .seqs, .tier] d d.endWalks := by
  unfold Dev.endWalks
  extract_lets done qs admSt kept
  have hKept : Frame [.adm, .seqs, .tier] d kept := (Frame.adm d _).mono (by decide)
  exact (endSlots_frame ..).step (by decide)
    (hKept.foldl fun _ _ => (Frame.refl ..).foldl fun _ _ => (endWalk_frame ..).mono (by decide))

end Sys2Proof.Safety
end

section
/-! ### Units that land, and the close phase (R63, R92, R267, R306) -/

namespace Sys2Proof.Safety

open Sys2Proof.Machine

/-! #### Poisoned lines -/

theorem poisonEntry_frame {d e : Dev} {cluster off : Nat} (h : d.poisonEntry cluster off = some e) : Frame [.log] d e := by
  unfold Dev.poisonEntry at h
  dsimp only at h
  split at h
  · obtain rfl := Option.some.inj h
    exact Frame.log d _ rfl
  · cases h

theorem poisonEvent_tame (d : Dev) (p cluster off kind : Nat) (i : LogInfo) : Tame evParts d (d.poisonEvent p cluster off kind i) :=
  (bothEvent_tame ..).step (by decide) ((count_frame ..).tame.mono (by decide))

theorem poisonLine_tame (d : Dev) (line : Nat) (i : LogInfo) : Tame (.flt :: .rgn :: evParts) d (d.poisonLine line i) := by
  unfold Dev.poisonLine
  extract_lets k
  refine .ite (.refl ..) ?_
  split
  · exact .refl ..
  · next u _ =>
    extract_lets marked
    have hMarked : Tame (.flt :: .rgn :: evParts) d marked := by
      simp only [marked]
      split
      · next e taken => exact (Frame.flt e _).tame.step (by decide) ((poisonEntry_frame taken).tame.mono (by decide))
      · exact (count_frame ..).tame.step (by decide) ((modUnit_frame ..).tame.mono (by decide))
    clear_value marked
    exact (poisonEvent_tame ..).step (by decide) hMarked

theorem poisonSectors_tame (d : Dev) (base : Nat) (l : List (Nat × FSector)) : Tame (.flt :: .rgn :: evParts) d (d.poisonSectors base l) :=
  (Tame.refl ..).foldl fun _ _ => (Tame.refl ..).foldl fun _ _ => poisonLine_tame ..

/-! #### A unit is allocated and filled -/

theorem allocUnit_frame {d e : Dev} {x u : Nat} {r : Region} (h : d.allocUnit x u r = some e) : Frame [.rgn] d e := by
  unfold Dev.allocUnit at h
  split at h
  · cases h
  · obtain ⟨c, -, rfl⟩ := Option.map_eq_some_iff.mp h
    exact Frame.rgn d _

theorem evictPatron_frame (d : Dev) (p i : Nat) : Frame [.seqs, .tier, .ctrs] d (d.evictPatron p i) := by
  unfold Dev.evictPatron
  extract_lets tierSt left
  have hLeft : Frame [.seqs, .tier, .ctrs] d left := (Frame.tier d _).mono (by decide)
  split
  · exact .ite ((count_frame ..).step (by decide) ((modSpan_frame ..).step (by decide) hLeft)) hLeft
  · exact hLeft

theorem throttle_tame (d : Dev) (v p : Nat) : Tame (.stk :: evParts) d (d.throttle v p) := by
  unfold Dev.throttle
  extract_lets w counted
  have hCounted : Tame (.stk :: evParts) d counted := (count_frame ..).tame.mono (by decide)
  split
  · exact hCounted
  · extract_lets prev
    exact .ite ((modVol_frame ..).tame.step (by decide) hCounted)
      ((modVol_frame ..).tame.step (by decide) ((devEvent_tame ..).step (by decide) hCounted))

theorem noteRefused_tame (d : Dev) (e : Evict) : Tame (.stk :: evParts) d (d.noteRefused e) :=
  (count_frame ..).tame.step (by decide) ((Tame.refl ..).foldl fun _ _ => throttle_tame ..)

/-- The parts that the allocation of a unit reaches. -/
def allocParts : List Part := .rgn :: .seqs :: .tier :: flashParts

/-- The parts that the landing of a unit reaches. -/
def landParts : List Part := .free :: victimParts

/-- The device of an allocation that is made or waits, if there is one. -/
def Alloc.dev? : Alloc → Option Dev
  | .made e => some e
  | .waits e => some e
  | .refused => none

/- The two choices are made opaque before the definition is opened: the kernel would otherwise evaluate their byte counts. -/
theorem takeUnit_tame {d e : Dev} {x u : Nat} {r : Region} (h : Alloc.dev? (d.takeUnit x u r) = some e) : Tame allocParts d e := by
  have alloc : ∀ {d e : Dev} {x u : Nat} {r : Region}, d.allocUnit x u r = some e → Frame [.rgn] d e := allocUnit_frame
  have whole : Dev.takeUnit = Dev.takeUnit := rfl
  conv_rhs at whole => delta Dev.takeUnit
  rw [whole] at h
  clear whole
  obtain ⟨allocates, same⟩ : ∃ f, f = Dev.allocUnit := ⟨_, rfl⟩
  obtain ⟨evicts, same'⟩ : ∃ f, f = Dev.evictFor := ⟨_, rfl⟩
  rw [← same, ← same'] at h
  rw [← same] at alloc
  clear same same'
  beta_reduce at h
  split at h
  · next f made =>
    obtain rfl : f = e := Option.some.inj h
    exact (alloc made).tame.mono (by decide)
  · extract_lets p at h
    split at h
    · cases h
    · next v _ =>
      extract_lets evicted tierSt chosen at h
      have hEvicted : Tame allocParts d evicted :=
        ((noteRefused_tame ..).mono (by decide)).foldl fun _ _ => (evictPatron_frame ..).tame.mono (by decide)
      have hChosen : Tame allocParts d chosen := (Frame.tier evicted _).tame.step (by decide) hEvicted
      clear_value chosen
      split at h
      · next f made =>
        obtain rfl : f = e := Option.some.inj h
        exact (alloc made).tame.step (by decide) hChosen
      · obtain rfl : chosen = e := Option.some.inj h
        exact hChosen

theorem readPrior_tame (s : State) (k : Nat) : Tame [.free] s.dev (s.readPrior k).dev := by
  unfold State.readPrior
  refine List.foldlRecOn (motive := fun t : State => Tame [.free] s.dev t.dev) _ _ (.refl ..) fun t h e _ => ?_
  exact (drawBits_frame t.dev 1).tame.step (by decide) h

theorem fillUnit_tame (s : State) (k : Nat) (u : RUnit) (d : Dev) : Tame landParts d (s.fillUnit k u d).dev := by
  unfold State.fillUnit
  extract_lets from_ filled counted secs p v base gone bad spoiled
  have hCounted : Tame landParts d counted := .ite ((count2_frame ..).tame.step (by decide) ((modUnit_frame ..).tame.mono (by decide)))
    ((modUnit_frame ..).tame.mono (by decide))
  have hSpoiled : Tame landParts d spoiled :=
    ((poisonSectors_tame ..).step (by decide) hCounted).foldl fun _ _ => (count_frame ..).tame.mono (by decide)
  exact (readPrior_tame _ k).step (by decide) hSpoiled

theorem landUnit_tame (s : State) (k : Nat) : Tame landParts s.dev (s.landUnit k).dev := by
  unfold State.landUnit
  extract_lets x
  split
  · next u r _ _ =>
    split
    · exact .refl ..
    split
    · exact (modUnit_frame ..).tame.mono (by decide)
    split
    · exact .refl ..
    · next e waits => exact (takeUnit_tame (congrArg Alloc.dev? waits)).mono (by decide)
    · next e made => exact ((takeUnit_tame (congrArg Alloc.dev? made)).mono (by decide)).trans (fillUnit_tame ..)
  · exact .refl ..

theorem landUnits_tame (s : State) : Tame (.fab :: landParts) s.dev s.landUnits.dev := by
  unfold State.landUnits
  extract_lets landed held
  have hLanded : Tame (.fab :: landParts) s.dev landed.dev :=
    List.foldlRecOn (motive := fun t : State => Tame (.fab :: landParts) s.dev t.dev) _ _ (.refl ..)
      fun t h k _ => (landUnit_tame t k).step (by decide) h
  exact (Frame.fab landed.dev _).tame.step (by decide) hLanded

end Sys2Proof.Safety
end

section
/-! ### Completions: the close phase, the end of deadlines, the end of firmware's operations (R60, R92, R150) -/

namespace Sys2Proof.Safety

open Sys2Proof.Machine

/-! #### Interrupts -/

/-- A step that adds no completion entry: what it may change is who is told, and what it adds to the output. -/
structure Tells (d e : Dev) : Prop where
  frame : Frame [.host, .rings, .out, .ctrs] d e
  written : ∀ p k, ((e.pat p).cqAt k).written = ((d.pat p).cqAt k).written
  out : d.out <+: e.out

theorem Tells.refl (d : Dev) : Tells d d := ⟨Frame.refl .., fun _ _ => rfl, List.prefix_refl _⟩

theorem Tells.trans {d e f : Dev} (h : Tells d e) (k : Tells e f) : Tells d f :=
  ⟨h.frame.trans k.frame, fun p q => (k.written p q).trans (h.written p q), h.out.trans k.out⟩

theorem Tame.tells {ps : List Part} {d e : Dev} (h : Tame ps d e) (w : ∀ p ∈ ps, p ∈ [Part.host, .rings, .out, .ctrs]) : Tells d e :=
  ⟨h.frame.mono w, fun p k => by rw [PatronSt.cqAt, PatronSt.cqAt, h.cq], h.out⟩

theorem modCq_tells (d : Dev) (p k : Nat) {f : CqSt → CqSt} (kept : ∀ c, (f c).written = c.written) : Tells d (d.modCq p k f) := by
  refine ⟨(modCq_frame ..).mono (by decide), fun q j => ?_, List.prefix_refl _⟩
  by_cases patron : q = p
  · subst patron
    by_cases ring : j = k
    · subst ring
      rw [cqAt_modCq_same, kept]
    · rw [cqAt_modCq_other d q ring]
  · rw [Dev.modCq, pat_modPat_other d patron]

theorem sendMsix_tells (d : Dev) (p v : Nat) : Tells d (d.sendMsix p v) := by
  unfold Dev.sendMsix
  split
  · refine ⟨(modPat_hostOnly d p _ rfl rfl).mono (by decide), fun q k => ?_, List.prefix_refl _⟩
    rw [PatronSt.cqAt, PatronSt.cqAt, (((modPat_hostOnly d p _ rfl rfl).same .rings (by decide)) q).1]
  · exact ((count_frame ..).tame.step (by decide) ((emit_tame ..).mono (qs := [.out, .ctrs]) (by decide))).tells (by decide)

theorem completionMsix_tells (d : Dev) : Tells d d.completionMsix := by
  unfold Dev.completionMsix
  generalize List.range 1024 = rings
  refine List.foldlRecOn (motive := fun e => Tells d e) _ _ (.refl d) fun e h i _ => ?_
  dsimp only
  split
  · exact h
  · exact h.trans (.trans (modCq_tells e _ _ (by intros; rfl)) (sendMsix_tells ..))

/-! #### One completion entry is written -/

/-- The parts that the writing of completions reaches. -/
def writeParts : List Part := [.host, .rings, .out, .ctrs, .arbs, .adm]

theorem emits_tame (d : Dev) {α : Type} (l : List α) (f : α → Out) : Tame [.out] d (l.foldl (fun (d : Dev) x => d.emit (f x)) d) :=
  (Tame.refl ..).foldl fun _ _ => emit_tame ..

theorem emit_completion (d : Dev) (p k i : Nat) (b : List Byte) :
    d.emit (.completion p k i b) = { d with out := d.out ++ [.completion p k i b] } := if_neg (by simp [Dev.barred])

/-- A completion that is due is written as the next entry of the ring bound to its submission ring. -/
structure WritesOne (x : Due) (d e : Dev) : Prop where
  frame : Frame writeParts d e
  written : ((e.pat x.patron).cqAt (d.boundCq x.patron x.sq)).written = ((d.pat x.patron).cqAt (d.boundCq x.patron x.sq)).written + 1
  out : ∃ i b, Out.completion x.patron (d.boundCq x.patron x.sq) i b ∈ e.out

theorem WritesOne.tells {x : Due} {d e f : Dev} (h : WritesOne x d e) (k : Tells e f) : WritesOne x d f := by
  obtain ⟨i, b, sent⟩ := h.out
  exact ⟨k.frame.step (by decide) h.frame, (k.written ..).trans h.written, i, b, k.out.subset sent⟩

theorem WritesOne.of_entry {x : Due} {d e : Dev} {f g : CqSt → CqSt} {i a n m : Nat} {b : List Byte} (kept : ∀ c, (f c).written = c.written)
    (told : Tame [.out] ((d.dropDue x).modCq x.patron (d.boundCq x.patron x.sq) f) e) (next : ∀ c, (g c).written = c.written + 1) :
    WritesOne x d (((e.arbGrant a n m).emit (.completion x.patron (d.boundCq x.patron x.sq) i b)).modCq x.patron (d.boundCq x.patron x.sq) g) := by
  have sent : Tame [.out, .arbs] ((d.dropDue x).modCq x.patron (d.boundCq x.patron x.sq) f)
      ((e.arbGrant a n m).emit (.completion x.patron (d.boundCq x.patron x.sq) i b)) :=
    (emit_tame ..).step (by decide) ((arbGrant_frame ..).tame.step (by decide) (told.mono (by decide)))
  have dropped : Frame writeParts d (d.dropDue x) := (Frame.adm d _).mono (by decide)
  refine ⟨(modCq_frame ..).step (by decide) (sent.frame.step (by decide) ((modCq_frame ..).step (by decide) dropped)), ?_, i, b, ?_⟩
  · rw [cqAt_modCq_same, next, PatronSt.cqAt, sent.cq, ← PatronSt.cqAt, cqAt_modCq_same, kept]
    rfl
  · rw [emit_completion]
    exact List.mem_append_right _ (List.mem_singleton.mpr rfl)

theorem writeDue_writesOne {d : Dev} {x : Due} (on : d.ringsOn x.patron = true) : WritesOne x d (d.writeDue [] x) := by
  unfold Dev.writeDue
  rw [if_neg (by simp [on])]
  simp only [List.contains_nil, Bool.false_eq_true, if_false]
  exact .of_entry (by intros; rfl) (emits_tame ..) (by intros; rfl)

theorem writeDues_one {d : Dev} {x : Due} (due : d.adm.due = [x]) (now : x.tick ≤ d.tim.count) :
    Dev.writeDues [] d.adm.due.length d = d.writeDue [] x := by
  simp [due, Dev.writeDues, now, Dev.nextDue]

theorem writeCompletions_writesOne {d : Dev} {x : Due} (due : d.adm.due = [x]) (now : x.tick ≤ d.tim.count) (on : d.ringsOn x.patron = true) :
    WritesOne x d (d.writeCompletions []) := by
  have none_refused : ((List.range 64).filter fun p => [].contains (64 * p + 32) && ((Dev.writeDues [] d.adm.due.length d).completionMsix).ringsOn p) = [] :=
    List.filter_eq_nil_iff.mpr fun _ _ => by simp
  unfold Dev.writeCompletions
  dsimp only
  rw [none_refused, List.foldl_nil, writeDues_one due now]
  exact (writeDue_writesOne on).tells (completionMsix_tells _)

/-! #### The rest of the close phase -/

theorem rollOver_frame (d : Dev) : Frame [.ctrs] d d.rollOver := (Frame.refl ..).foldl fun _ _ => count2_frame ..

theorem closeSpans_activate (d : Dev) : d.closeSpans.sec.activate = d.sec.activate := by
  unfold Dev.closeSpans
  extract_lets released cleared
  have hReleased : Frame spanParts d released := .ite (Frame.refl ..) (releaseZero_tame d).frame
  have hCleared : Frame (.rgn :: spanParts) released.dropRetained cleared :=
    (releaseDeep_frame _).step (by decide) ((clearCeased_tame _).frame.step (by decide) ((closeDemos_frame _).step (by decide)
      ((releaseTails_frame _).step (by decide) ((closePromos_frame _).step (by decide) ((switchSpans_frame _).mono (by decide))))))
  have end_ : Frame [.seqs] cleared cleared.releaseFreed.freeRetired.returnResv :=
    (returnResv_frame _).step (by decide) ((freeRetired_frame _).step (by decide) (releaseFreed_frame _))
  have kept : cleared.releaseFreed.freeRetired.returnResv.sec = released.dropRetained.sec :=
    (end_.same .sec (by decide)).trans (hCleared.same .sec (by decide))
  have before : released.sec = d.sec := hReleased.same .sec (by decide)
  have active : released.sec.activate = d.sec.activate := congrArg SecSt.activate before
  exact (congrArg SecSt.activate kept).trans active

/-- What follows the completions in the close phase, up to the rules at its end, from the device that has written them. -/
def closeRest (s : State) (d : Dev) : State := ({ s with dev := d.endWalks.applyVictims.closeSpans } : State).landUnits

theorem closeRest_tame (s : State) (d : Dev) : Tame (.sec :: .fab :: landParts) d (closeRest s d).dev :=
  (landUnits_tame _).step (by decide) ((closeSpans_tame _).step (by decide) ((applyVictims_tame _).step (by decide)
    ((endWalks_frame _).tame.mono (by decide))))

theorem closeRest_activate (s : State) (d : Dev) : (closeRest s d).dev.sec.activate = d.sec.activate := by
  have landed : (closeRest s d).dev.sec = (d.endWalks.applyVictims.closeSpans).sec := (landUnits_tame _).frame.same .sec (by decide)
  have victims : (d.endWalks.applyVictims).sec = d.endWalks.sec := (applyVictims_tame _).frame.same .sec (by decide)
  have walks : d.endWalks.sec = d.sec := (endWalks_frame _).same .sec (by decide)
  rw [landed, closeSpans_activate, victims, walks]

theorem closePhase_eq (s : State) (x : CloseIn) : s.closePhase x
    = ((((closeRest s (s.dev.rollOver.writeCompletions x.refused)).onDev fun d => d.handSectors.activateImage.enterSleep).beginDeviceReset).onDev
        fun d => if d.tim.ticking then { d with tim := { d.tim with phase := .close }, adm := { d.adm with late := x.late } } else d) := by
  rw [State.closePhase, closeRest]
  rfl

/-- With no restart, no sleep and no reset asked for, the close phase ends with the sectors handed over. -/
theorem closePhase_plain {s c : State} (x : CloseIn) (rest : closeRest s (s.dev.rollOver.writeCompletions x.refused) = c)
    (ticking : c.dev.tim.ticking = true) (reset : c.dev.boot.resetDue = false) (activate : c.dev.sec.activate = false) (awake : c.dev.pwr.sleep = 0) :
    s.closePhase x = c.onDev fun d => { d.handSectors with tim := { d.tim with phase := .close }, adm := { d.adm with late := x.late } } := by
  have image : c.dev.handSectors.activateImage = c.dev.handSectors := if_pos (Or.inl (by simpa [Dev.handSectors] using activate))
  have sleep : c.dev.handSectors.enterSleep = c.dev.handSectors := if_pos (by simp [Dev.handSectors, awake])
  have calm : c.onDev (fun d => d.handSectors.activateImage.enterSleep) = c.onDev Dev.handSectors := by
    simp only [State.onDev, image, sleep]
  have noReset : (c.onDev Dev.handSectors).beginDeviceReset = c.onDev Dev.handSectors :=
    if_pos (by simpa [State.onDev, Dev.handSectors] using reset)
  rw [closePhase_eq, rest, calm, noReset]
  exact congrArg (fun d => ({ c with dev := d } : State)) (if_pos ticking)

theorem ringsOn_of_frame {ps : List Part} {d e : Dev} (h : Frame ps d e) (p : Nat) (host : .host ∉ ps := by decide) (flt : .flt ∉ ps := by decide) :
    e.ringsOn p = d.ringsOn p := by
  rw [Dev.ringsOn, Dev.ringsOn, h.fltField flt (·.deviceFault), h.patField host p (·.lock), h.patField host p (·.st)]

theorem boundCq_of_frame {ps : List Part} {d e : Dev} (h : Frame ps d e) (p k : Nat) (regs : .regs ∉ ps := by decide) :
    e.boundCq p k = d.boundCq p k := reg_of_same_regs (h.same .regs regs) regPatSqnCtrl k p 1

theorem After.of_closePhase {s : State} {x : Due} (phase : s.dev.inPhase .execute = true) (due : s.dev.adm.due = [x])
    (now : x.tick ≤ s.dev.tim.count) (on : s.dev.ringsOn x.patron = true) (reset : s.dev.boot.resetDue = false)
    (activate : s.dev.sec.activate = false) (awake : s.dev.pwr.sleep = 0) : After (.closePhase {}) s fun t =>
      ((t.dev.pat x.patron).cqAt (s.dev.boundCq x.patron x.sq)).written
          = ((s.dev.pat x.patron).cqAt (s.dev.boundCq x.patron x.sq)).written + 1
        ∧ (∃ i b, Out.completion x.patron (s.dev.boundCq x.patron x.sq) i b ∈ t.dev.out)
        ∧ t.dev.tim.phase = .close ∧ t.pending = s.pending := by
  have ticking : s.dev.tim.ticking = true := by
    simp only [Dev.inPhase, Bool.and_eq_true] at phase
    exact phase.1.1.1
  have rolled : Frame [.ctrs] s.dev s.dev.rollOver := rollOver_frame _
  have adm : s.dev.rollOver.adm = s.dev.adm := rolled.same .adm (by decide)
  have tim : s.dev.rollOver.tim = s.dev.tim := rolled.tim_eq (by decide) (by decide)
  have one : WritesOne x s.dev.rollOver (s.dev.rollOver.writeCompletions []) := writeCompletions_writesOne (adm ▸ due) (tim ▸ now)
    ((ringsOn_of_frame rolled _).trans on)
  obtain ⟨w, written⟩ : ∃ w, s.dev.rollOver.writeCompletions [] = w := ⟨_, rfl⟩
  obtain ⟨c, rest⟩ : ∃ c, closeRest s w = c := ⟨_, rfl⟩
  rw [written] at one
  have tame : Tame (.sec :: .fab :: landParts) w c.dev := rest ▸ closeRest_tame ..
  have whole : Frame (.sec :: .fab :: .host :: landParts) s.dev c.dev := tame.frame.step (by decide) (one.frame.step (by decide) (rolled.mono (by decide)))
  have cSec : c.dev.sec.activate = false := by
    have sec : w.sec = s.dev.sec := (one.frame.same .sec (by decide)).trans (rolled.same .sec (by decide))
    rw [← rest, closeRest_activate, sec, activate]
  have run := closePhase_plain {} ((congrArg (closeRest s) written).trans rest) ((whole.timField (by decide) (·.ticking)).trans ticking)
    ((congrArg BootSt.resetDue (whole.same .boot (by decide))).trans reset) cSec ((congrArg PwrSt.sleep (whole.same .pwr (by decide))).trans awake)
  have pending : (s.closePhase {}).pending = s.pending := (State.closePhase_kept s {}).1
  refine .of_exec (congrArg Host.Outcome.next (if_pos phase)) ?_
  rw [run] at pending ⊢
  clear run rest written
  have bound : s.dev.rollOver.boundCq x.patron x.sq = s.dev.boundCq x.patron x.sq := boundCq_of_frame rolled ..
  obtain ⟨-, written, i, b, sent⟩ := one
  rw [bound] at written sent
  have cq : (c.dev.pat x.patron).cqAt (s.dev.boundCq x.patron x.sq) = (w.pat x.patron).cqAt (s.dev.boundCq x.patron x.sq) := by
    rw [PatronSt.cqAt, PatronSt.cqAt, tame.cq]
  have before : (s.dev.rollOver.pat x.patron).cqAt (s.dev.boundCq x.patron x.sq) = (s.dev.pat x.patron).cqAt (s.dev.boundCq x.patron x.sq) := by
    rw [PatronSt.cqAt, PatronSt.cqAt, rolled.tame.cq]
  exact ⟨(congrArg CqSt.written cq).trans (before ▸ written), ⟨i, b, tame.out.subset sent⟩, rfl, pending⟩

/-! #### The end of deadlines -/

/-- An expired request leaves a completion LATE or STALL due in the next tick. -/
structure Expires (q : Req) (count : Nat) (y : Due) : Prop where
  tag : y.tag = q.d.tag
  patron : y.patron = q.d.patron
  tick : y.tick = count + 1
  status : y.status = stLate ∨ y.status = stStall

theorem completeNext_admField {β : Type} (g : AdmSt → β) (d : Dev) (q : Req) (a : Ans)
    (blind : ∀ m due outs, g { m with due := due, peerOuts := outs } = g m := by intros; rfl) : g (d.completeNext q a).adm = g d.adm := by
  simp only [Dev.completeNext, Dev.peersDone, countOp_adm]
  exact blind ..

theorem completeNext_expires (d : Dev) (q : Req) {a : Ans} (status : a.status = stLate ∨ a.status = stStall) :
    ∃ y, Expires q d.tim.count y ∧ (d.completeNext q a).adm.due = d.adm.due ++ [y] := by
  obtain ⟨ps, due⟩ := completeNext_due d q a
  exact ⟨_, ⟨rfl, rfl, rfl, status⟩, due⟩

theorem expire_expires (d : Dev) (q : Req) : ∃ y, Expires q d.tim.count y ∧ (d.expire q).adm.due = d.adm.due ++ [y] := by
  unfold Dev.expire
  extract_lets a ended
  have hEnded : Frame [.seqs, .fab] d (ended.dropFetch q.id) := (dropFetch_frame ..).step (by decide)
    (((dropResv_frame ..).mono (by decide)).foldl fun _ _ => (endWalk_frame ..).mono (by decide))
  have status : a.status = stLate ∨ a.status = stStall := by
    simp only [a]
    split_ifs <;> simp
  obtain ⟨y, expires, due⟩ := completeNext_expires (ended.dropFetch q.id) q status
  rw [hEnded.timField (by decide) (·.count)] at expires
  have adm : (ended.dropFetch q.id).adm = d.adm := hEnded.same .adm (by decide)
  rw [adm] at due
  exact ⟨y, expires, due⟩

/-- A step that ends requests: it adds completions, and leaves the sealed set and the tick. -/
structure Ends (d e : Dev) : Prop where
  sealed_ : e.adm.sealed_ = d.adm.sealed_
  due : d.adm.due <+: e.adm.due
  count : e.tim.count = d.tim.count

theorem Ends.refl (d : Dev) : Ends d d := ⟨rfl, List.prefix_refl _, rfl⟩

theorem Ends.trans {d e f : Dev} (h : Ends d e) (k : Ends e f) : Ends d f :=
  ⟨k.sealed_.trans h.sealed_, h.due.trans k.due, k.count.trans h.count⟩

theorem Frame.ends {ps : List Part} {d e : Dev} (h : Frame ps d e) (adm : .adm ∉ ps := by decide) (tim : .tim ∉ ps := by decide) : Ends d e := by
  have same : e.adm = d.adm := h.same .adm adm
  exact ⟨by rw [same], same ▸ List.prefix_refl _, h.timField tim (·.count)⟩

theorem completeNext_ends (d : Dev) (q : Req) (a : Ans) : Ends d (d.completeNext q a) := by
  obtain ⟨ps, due⟩ := completeNext_due d q a
  exact ⟨completeNext_admField (·.sealed_) d q a, due ▸ List.prefix_append .., (completeNext_frame d q a).timField (by decide) (·.count)⟩

theorem expire_ends (d : Dev) (q : Req) : Ends d (d.expire q) := by
  unfold Dev.expire
  extract_lets a ended
  have hEnded : Frame [.seqs, .fab] d (ended.dropFetch q.id) := (dropFetch_frame ..).step (by decide)
    (((dropResv_frame ..).mono (by decide)).foldl fun _ _ => (endWalk_frame ..).mono (by decide))
  exact hEnded.ends.trans (completeNext_ends ..)

theorem expireAll_ends (d : Dev) (l : List Req) : Ends d (l.foldl Dev.expire d) :=
  List.foldlRecOn (motive := fun e => Ends d e) _ _ (.refl d) fun e h q _ => h.trans (expire_ends e q)

theorem expireAll_expires (d : Dev) (l : List Req) : ∀ q ∈ l, ∃ y ∈ (l.foldl Dev.expire d).adm.due, Expires q d.tim.count y := by
  induction l generalizing d with
  | nil => nofun
  | cons p l ih =>
    intro q listed
    rcases List.mem_cons.mp listed with rfl | later
    · obtain ⟨y, expires, due⟩ := expire_expires d q
      refine ⟨y, (expireAll_ends (d.expire q) l).due.subset ?_, expires⟩
      rw [due]
      exact List.mem_append_right _ (List.mem_singleton.mpr rfl)
    · obtain ⟨y, mem, expires⟩ := ih (d.expire p) q later
      exact ⟨y, mem, (expire_ends d p).count ▸ expires⟩

theorem deadlines_sealed (d : Dev) (landed : List Nat) :
    (d.deadlines landed).adm.sealed_ = d.adm.sealed_.filter (fun q => !d.overdue q) ∧
    ∀ q ∈ d.adm.sealed_, d.overdue q = true → ∃ y ∈ (d.deadlines landed).adm.due, Expires q d.tim.count y := by
  unfold Dev.deadlines
  extract_lets mark admSt marked out keep markedSt kept expired
  have late : Ends kept expired := expireAll_ends ..
  refine (fun jobs : Ends expired _ => ⟨jobs.sealed_.trans late.sealed_, fun q mem overdue => ?due⟩) ?jobs
  case due =>
    have listed : q ∈ marked.adm.planned ++ marked.adm.waiting ++ marked.adm.sealed_ ++ marked.adm.admitted :=
      List.mem_append_left _ (List.mem_append_right _ mem)
    obtain ⟨y, due, expires⟩ := expireAll_expires kept out q (List.mem_filter.mpr ⟨listed, overdue⟩)
    exact ⟨y, jobs.due.subset due, expires⟩
  case jobs =>
    refine List.foldlRecOn (motive := fun e => Ends expired e) _ _ (.refl _) fun e h j _ => h.trans ?_
    dsimp only
    split
    · split
      · exact .refl _
      · split
        · exact (modJob_frame ..).ends
        · exact (modJob_frame ..).ends.trans (completeNext_ends ..)
    · exact .refl _

/-! #### Firmware's operations end -/

theorem sweepEnd_frame (d : Dev) : Frame (.flt :: .rgn :: spanParts) d d.sweepEnd := by
  unfold Dev.sweepEnd
  split
  · exact Frame.refl ..
  extract_lets pages blks lost spans seqSt recounted left gone frames released
  have hRecounted : Frame (.flt :: .rgn :: spanParts) d recounted := (Frame.seqs d _).mono (by decide)
  have hLeft : Frame (.flt :: .rgn :: spanParts) d left :=
    hRecounted.foldl fun _ _ => (cleanReserve_frame ..).step (by decide) ((dropMeta_frame ..).mono (by decide))
  have hReleased : Frame (.flt :: .rgn :: spanParts) d released := (releaseZero_tame _).frame.step (by decide) hLeft
  exact (devEvent_frame ..).step (by decide) ((count_frame ..).step (by decide) ((Frame.flt released _).step (by decide) hReleased))

theorem auditRepair_frame (d : Dev) (l : List Finding) : Frame (.flt :: .rgn :: spanParts) d (d.auditRepair l).2 := by
  unfold Dev.auditRepair
  extract_lets swept ents repaired
  have hRepaired : Frame (.flt :: .rgn :: spanParts) d repaired :=
    .ite (Frame.refl ..) ((sweepEnd_frame ..).step (by decide) ((Frame.flt d _).mono (by decide)))
  exact hRepaired.foldl fun _ _ => (withdrawEnt_frame ..).mono (by decide)

/-- A step that adds completions and leaves those that firmware owes. -/
structure Adds (d e : Dev) : Prop where
  fw : e.adm.fw = d.adm.fw
  due : d.adm.due <+: e.adm.due

theorem Adds.trans {d e f : Dev} (h : Adds d e) (k : Adds e f) : Adds d f := ⟨k.fw.trans h.fw, h.due.trans k.due⟩

theorem Frame.adds {ps : List Part} {d e : Dev} (h : Frame ps d e) (adm : .adm ∉ ps := by decide) : Adds d e := by
  have same : e.adm = d.adm := h.same .adm adm
  exact ⟨by rw [same], same ▸ List.prefix_refl _⟩

theorem complete_adds (d : Dev) (q : Req) (a : Ans) : Adds d (d.complete q a) := by
  obtain ⟨ps, due⟩ := complete_due d q a
  exact ⟨complete_admField (·.fw) d q a, due ▸ List.prefix_append ..⟩

theorem writeOut_adds (d : Dev) (x : DescIn) (field off : Nat) (b : List Byte) : Adds d (d.writeOut x field off b) := by
  unfold Dev.writeOut
  extract_lets own ps written
  have hWritten : Adds d written := (emit_frame ..).adds
  split
  · exact hWritten
  · exact hWritten.trans ⟨rfl, List.prefix_refl _⟩

theorem auditDone_adds (d : Dev) : Adds d d.auditDone := by
  unfold Dev.auditDone
  split
  · exact (Frame.refl [] d).adds
  extract_lets x now l recs
  split
  · exact (Frame.refl [] d).adds
  have repaired : Adds d (if x.fld 1 6 1 = 1 then d.auditRepair l else (0, d)).2 := by
    split
    · exact (auditRepair_frame ..).adds
    · exact (Frame.refl [] d).adds
  generalize (if x.fld 1 6 1 = 1 then d.auditRepair l else (0, d)) = r at repaired
  split
  next n e =>
  extract_lets cleared counted written
  have hCounted : Adds d counted :=
    repaired.trans (Adds.trans (e := cleared) ⟨rfl, List.prefix_refl _⟩ ((count2_frame ..).trans (count2_frame ..)).adds)
  split
  · exact hCounted.trans (complete_adds ..)
  · refine Adds.trans ?_ (complete_adds ..)
    simp only [written]
    split
    · exact hCounted
    · exact hCounted.trans (writeOut_adds ..)

theorem firmwareDone_ends {d : Dev} (running : d.sec.restarting = false) :
    d.firmwareDone.adm.fw = [] ∧ ∀ x ∈ d.adm.fw, { x with tick := d.tim.count } ∈ d.firmwareDone.adm.due := by
  unfold Dev.firmwareDone
  rw [if_neg (by simp [running])]
  extract_lets ends admSt finished
  have updated : finished.updateDone.adm = finished.adm := by
    unfold Dev.updateDone
    split
    · rfl
    · extract_lets secSt ended
      exact ((devEvent_frame ..).step (by decide) ((count_frame ..).step (qs := [.sec, .out, .ctrs, .arbs, .rings, .log]) (by decide)
        ((Frame.sec finished _).mono (by decide)))).same .adm (by decide)
  obtain ⟨fw, due⟩ := auditDone_adds finished.updateDone
  rw [updated] at fw due
  exact ⟨fw, fun x mem => due.subset (List.mem_append_right _ (List.mem_map_of_mem mem))⟩

/-- Settles O36: of the steps of the close phase only the writer adds an entry to a completion ring; an expired request goes with its completion. -/
theorem completionRows : Obligations.CompletionRows := by
  refine fun s => ⟨fun x phase due now on reset activate awake => .of_closePhase phase due now on reset activate awake, ?_, ?_, ?_, ?_⟩
  · exact fun x out => congrArg Host.Outcome.next (if_neg (by simp [out]))
  · intro landed ticking powered running
    refine .of_exec (congrArg (devNext s) (if_pos (by simp [ticking, powered, running]))) ?_
    obtain ⟨rest, expires⟩ := deadlines_sealed s.dev landed
    dsimp only
    refine ⟨fun q mem overdue => ⟨?_, ?_⟩, fun q mem timely => ?_, rfl⟩
    · rw [rest]
      simp [overdue]
    · obtain ⟨y, due, ⟨tag, patron, tick, status⟩⟩ := expires q mem overdue
      exact ⟨y, due, tag, patron, tick, status⟩
    · rw [rest]
      simp [mem, timely]
  · intro running
    obtain ⟨fw, due⟩ := firmwareDone_ends running
    exact .of_exec rfl ⟨fw, due, rfl⟩
  · exact fun restarting => congrArg (devNext s) (if_pos restarting)

end Sys2Proof.Safety
end

section
/-! ### What planning and sending leave of the admission unit (R47, R53) -/

namespace Sys2Proof.Safety

open Sys2Proof.Machine

/-! #### Steps that only charge budgets -/

/-- A step changes nothing of the admission unit but the balances of its budgets. -/
def Charges (d e : Dev) : Prop := ∃ b, e.adm = { d.adm with bal := b }

section
variable {d e f : Dev}

theorem Charges.refl (d : Dev) : Charges d d := ⟨_, rfl⟩

theorem Charges.trans (h : Charges d e) (k : Charges e f) : Charges d f := by
  obtain ⟨b, hb⟩ := h
  obtain ⟨c, hc⟩ := k
  exact ⟨c, by rw [hc, hb]⟩

/-- The later step first, as the steps of an operation are written. -/
theorem Charges.after (k : Charges e f) (h : Charges d e) : Charges d f := h.trans k

theorem Charges.ite {c : Prop} [Decidable c] (h : Charges d e) (k : Charges d f) : Charges d (if c then e else f) := by
  split
  · exact h
  · exact k

theorem Charges.foldl {α : Type} {g : Dev → α → Dev} {l : List α} (h : Charges d e) (k : ∀ x y, Charges x (g x y)) : Charges d (l.foldl g e) :=
  List.foldlRecOn (motive := fun x => Charges d x) _ _ h fun x hx y _ => hx.trans (k x y)

theorem Charges.field (h : Charges d e) {β : Type} (g : AdmSt → β) (blind : ∀ m b, g { m with bal := b } = g m := by intros; rfl) :
    g e.adm = g d.adm := by
  obtain ⟨b, hb⟩ := h
  rw [hb, blind]

theorem Frame.charges {ps : List Part} (h : Frame ps d e) (adm : .adm ∉ ps := by decide) : Charges d e := ⟨d.adm.bal, h.same .adm adm⟩

theorem Tame.charges {ps : List Part} (h : Tame ps d e) (adm : .adm ∉ ps := by decide) : Charges d e := h.frame.charges adm

end

theorem chargeBkt_charges (d : Dev) (b n : Nat) : Charges d (d.chargeBkt b n) := by
  unfold Dev.chargeBkt
  split
  · exact .refl d
  · exact ⟨_, rfl⟩

theorem tryEmit_charges {d e : Dev} {dest code : Nat} {m : Msg} (h : d.tryEmit dest code m = some e) : Charges d e := by
  unfold Dev.tryEmit at h
  extract_lets own p n at h
  split at h
  · cases h
  split at h
  · cases h
  extract_lets k flits x left relayed charged fab at h
  split at h
  · cases h
  obtain rfl := Option.some.inj h
  have hLeft : Charges d left := (emit_frame ..).charges.after ((count2_frame ..).charges.after (modPort_frame ..).charges)
  have hRelayed : Charges d relayed := by
    simp only [relayed]
    split
    · exact .ite ((count_frame ..).charges.after hLeft) hLeft
    · exact hLeft
  exact (Frame.fab charged _).charges.after (.ite ((chargeBkt_charges ..).after hRelayed) hRelayed)

theorem put_charges (d : Dev) (dest code : Nat) (m : Msg) : Charges d (d.put dest code m) := by
  cases stopped : d.flt.deviceFault with
  | true => rw [put_stopped _ _ _ stopped]; exact .refl d
  | false =>
    rcases put_eq_or dest code m stopped with waits | leaves
    · rw [waits]
      exact (Frame.fab d _).charges
    · exact tryEmit_charges leaves

theorem startUnit_charges (d : Dev) (cls bytes : Nat) : Charges d (d.startUnit cls bytes) :=
  (count2_frame ..).charges.after (chargeBkt_charges ..)

theorem applyVictim_charges (d : Dev) (v : Nat × Nat) : Charges d (d.applyVictim v) := by
  unfold Dev.applyVictim
  extract_lets act
  split
  · split
    · next u r _ _ =>
      refine .ite (.refl d) (.ite ((count_frame ..).charges.after (modUnit_frame ..).charges) (.ite (.refl d) ?_))
      split
      · next v _ => exact (Frame.tier (d.startUnit 3 unitBytes) _).charges.after (startUnit_charges ..)
      · exact .refl d
    · exact .refl d
  · split
    · exact .refl d
    · next s _ =>
      refine .ite (.refl d) (.ite (.ite ((count_frame ..).charges.after (loseTwin_frame ..).charges) (.refl d))
        (.ite ((count_frame ..).charges.after (loseFrames_frame ..).charges) ?_))
      split
      · next k u _ =>
        extract_lets n balanced demoted
        have hBalanced : Charges d balanced := (modVol_frame ..).charges.after (dropDemo_tame ..).charges
        have hDemoted : Charges d demoted :=
          (loseFrames_frame ..).charges.after ((demoteSpan_tame ..).charges.after ((startUnit_charges ..).after hBalanced))
        exact .ite ((count_frame ..).charges.after hDemoted) hDemoted
      · extract_lets vacated
        have hVacated : Charges d vacated := (count_frame ..).charges.after (vacate_tame ..).charges
        exact .ite ((count_frame ..).charges.after hVacated) hVacated

theorem applyVictims_charges (d : Dev) : Charges d d.applyVictims :=
  Charges.foldl (Frame.tier d _).charges fun x y => applyVictim_charges x y

/-! #### Steps that leave the sets of requests -/

/-- The admission unit without what completions and charges change. -/
def admCore (m : AdmSt) : AdmSt := { m with due := [], fw := [], peerOuts := [], ended := [], bal := [] }

/-- A step changes some parts, and nothing of the admission unit but completions and balances. -/
structure Spares (ps : List Part) (d e : Dev) : Prop where
  frame : Frame ps d e
  adm : admCore e.adm = admCore d.adm

section
variable {ps qs : List Part} {d e f : Dev}

theorem Spares.refl (ps : List Part) (d : Dev) : Spares ps d d := ⟨Frame.refl .., rfl⟩

theorem Spares.trans (h : Spares ps d e) (k : Spares ps e f) : Spares ps d f := ⟨h.frame.trans k.frame, k.adm.trans h.adm⟩

theorem Spares.mono (h : Spares ps d e) (w : ∀ p ∈ ps, p ∈ qs) : Spares qs d e := ⟨h.frame.mono w, h.adm⟩

theorem Spares.step (k : Spares ps e f) (w : ∀ p ∈ ps, p ∈ qs) (h : Spares qs d e) : Spares qs d f := h.trans (k.mono w)

theorem Spares.ite {c : Prop} [Decidable c] (h : Spares ps d e) (k : Spares ps d f) : Spares ps d (if c then e else f) := by
  split
  · exact h
  · exact k

theorem Spares.foldl {α : Type} {g : Dev → α → Dev} {l : List α} (h : Spares ps d e) (k : ∀ x y, Spares ps x (g x y)) : Spares ps d (l.foldl g e) :=
  List.foldlRecOn (motive := fun x => Spares ps d x) _ _ h fun x hx y _ => hx.trans (k x y)

theorem Frame.spares (h : Frame ps d e) (adm : .adm ∉ ps := by decide) : Spares ps d e := ⟨h, congrArg admCore (h.same .adm adm)⟩

theorem Spares.field (h : Spares ps d e) {β : Type} (g : AdmSt → β) (blind : ∀ m, g (admCore m) = g m := by intro; rfl) : g e.adm = g d.adm := by
  rw [← blind e.adm, ← blind d.adm, h.adm]

theorem Charges.spares (h : Charges d e) (frame : Frame ps d e) : Spares ps d e := by
  obtain ⟨b, hb⟩ := h
  exact ⟨frame, by rw [hb]; rfl⟩

end

theorem complete_spares (d : Dev) (q : Req) (a : Ans) : Spares [.adm, .ctrs] d (d.complete q a) := ⟨complete_frame .., complete_admField admCore d q a⟩
theorem completeNext_spares (d : Dev) (q : Req) (a : Ans) : Spares [.adm, .ctrs] d (d.completeNext q a) :=
  ⟨completeNext_frame .., completeNext_admField admCore d q a⟩
theorem finish_spares (d : Dev) (q : Req) (a : Ans) : Spares [.adm, .ctrs] d (d.finish q a) := ⟨finish_frame .., finish_admField admCore d q a⟩
theorem chargeBkt_spares (d : Dev) (b n : Nat) : Spares [.adm] d (d.chargeBkt b n) := (chargeBkt_charges ..).spares (chargeBkt_frame ..)
theorem put_spares (d : Dev) (dest code : Nat) (m : Msg) : Spares sendParts d (d.put dest code m) := (put_charges ..).spares (put_frame ..)
theorem startUnit_spares (d : Dev) (cls bytes : Nat) : Spares [.adm, .ctrs] d (d.startUnit cls bytes) := (startUnit_charges ..).spares (startUnit_frame ..)

theorem writeOut_frame (d : Dev) (x : DescIn) (field off : Nat) (b : List Byte) : Frame [.out, .adm] d (d.writeOut x field off b) := by
  unfold Dev.writeOut
  extract_lets own ps written
  have hWritten : Frame [.out, .adm] d written := (emit_frame ..).mono (by decide)
  exact .ite hWritten ((Frame.adm written _).step (by decide) hWritten)

theorem writeOut_spares (d : Dev) (x : DescIn) (field off : Nat) (b : List Byte) : Spares [.out, .adm] d (d.writeOut x field off b) := by
  refine ⟨writeOut_frame .., ?_⟩
  unfold Dev.writeOut
  extract_lets own ps written
  have hWritten : admCore written.adm = admCore d.adm := ((emit_frame ..).spares).adm
  split
  · exact hWritten
  · exact hWritten

/-! #### Walks begin -/

theorem refUp_frame (d : Dev) (i : Nat) : Frame [.seqs] d (d.refUp i) := modSpan_frame ..
theorem shareRoot_frame (d : Dev) (n : Nat) : Frame [.seqs] d (d.shareRoot n) := modBlk_frame ..
theorem beginWalk_frame (d : Dev) (w : Walk) : Frame [.seqs] d (d.beginWalk w) := (shareRoot_frame d w.root).foldl fun _ _ => refUp_frame ..

theorem writeRecords_spares (d : Dev) (q : Req) (rs : List (List Byte)) : Spares [.out, .adm] d (d.writeRecords q rs).1 := by
  unfold Dev.writeRecords
  split
  · exact .refl ..
  · split
    · exact .refl ..
    · exact writeOut_spares ..

theorem attendRecompute_spares {d e : Dev} {q : Req} {vs : List AtnView} {a : Ans} (h : d.attendRecompute q vs = some (e, a)) :
    Spares [.out, .adm] d e := by
  unfold Dev.attendRecompute at h
  split at h
  · cases h
  · obtain ⟨rfl, -⟩ := Prod.mk.inj (Option.some.inj h)
    exact writeRecords_spares ..

theorem attendPlan_spares (d : Dev) (q : Req) : Spares [.out, .adm, .seqs] d (d.attendPlan q).1 ∧ (d.attendPlan q).2.1.id = q.id := by
  unfold Dev.attendPlan
  split
  · exact ⟨.refl .., rfl⟩
  · next rs _ =>
    extract_lets prof p ws walked r
    have hWalked : Spares [.out, .adm, .seqs] d walked := Spares.foldl (.refl ..) fun _ _ => (beginWalk_frame ..).spares.mono (by decide)
    split
    · next e a answered => exact ⟨(attendRecompute_spares answered).step (by decide) hWalked, rfl⟩
    · exact ⟨hWalked, rfl⟩

theorem deliverPlan_spares (d : Dev) (q : Req) : Spares [.seqs] d (d.deliverPlan q).1 ∧ (d.deliverPlan q).2.1.id = q.id := by
  unfold Dev.deliverPlan
  extract_lets x
  split
  · exact ⟨.refl .., rfl⟩
  split
  · exact ⟨.refl .., rfl⟩
  · next i r _ =>
    extract_lets layers w ss w'
    split
    · exact ⟨.refl .., rfl⟩
    split
    · exact ⟨.refl .., rfl⟩
    split
    · exact ⟨.refl .., rfl⟩
    · exact ⟨(beginWalk_frame ..).spares, rfl⟩

theorem beginRead_spares (d : Dev) (q : Req) : Spares [.out, .adm, .seqs] d (d.beginRead q).1 ∧ (d.beginRead q).2.1.id = q.id := by
  unfold Dev.beginRead
  extract_lets r
  split
  · exact attendPlan_spares d r
  · exact ⟨(deliverPlan_spares d r).1.mono (by decide), (deliverPlan_spares d r).2⟩

/-! #### Frames are found for what grows, promotions are started -/

/-- The parts that the search for frames reaches. -/
def growParts : List Part := .seqs :: .tier :: flashParts

theorem startPromo_frame (d : Dev) (i l p kind cls : Nat) (adm : Option (Nat × Nat)) (tight : Bool) :
    Frame growParts d (d.startPromo i l p kind cls adm tight) := by
  unfold Dev.startPromo
  split
  · exact Frame.refl ..
  · refine .ite (Frame.refl ..) ?_
    extract_lets place counted m dropped tierSt promoted
    split
    · extract_lets raised joined told
      have hTold : Frame growParts d told := .ite ((count_frame ..).mono (by decide)) (Frame.refl ..)
      exact (Frame.tier told _).step (by decide) hTold
    · have hCounted : Frame growParts d counted := .ite ((count_frame ..).mono (by decide)) (Frame.refl ..)
      have hDropped : Frame growParts d dropped := (dropDemo_tame ..).frame.step (by decide) hCounted
      exact (modSpan_frame ..).step (by decide) ((Frame.tier dropped _).step (by decide) hDropped)

theorem awaitSpans_frame (d : Dev) (q : Req) (l : Nat) (spans : List Nat) : Frame growParts d (d.awaitSpans q l spans).1 :=
  (Frame.refl ..).foldl fun _ _ => startPromo_frame ..

theorem evicted_frame (d : Dev) (p : Nat) (e : Evict) : Frame growParts d (e.evicts.foldl (fun d i => d.evictPatron p i) (d.noteRefused e)) :=
  Frame.foldl ((noteRefused_tame ..).frame.mono (by decide)) fun _ _ => (evictPatron_frame ..).mono (by decide)

/- The shares are made opaque before the definition is opened: the kernel would otherwise evaluate their byte counts. -/
theorem grow_frame (d : Dev) (id p cls n pages : Nat) : Frame growParts d (d.grow id p cls n pages).2 := by
  have whole : Dev.grow = Dev.grow := rfl
  conv_rhs at whole => delta Dev.grow
  rw [whole]
  clear whole
  obtain ⟨within, same⟩ : ∃ f, f = Dev.within := ⟨_, rfl⟩
  obtain ⟨evicts, same'⟩ : ∃ f, f = Dev.evictFor := ⟨_, rfl⟩
  rw [← same, ← same']
  clear same same'
  beta_reduce
  split
  · exact Frame.refl ..
  extract_lets span bytes isOver place
  split
  · exact (Frame.seqs d _).mono (by decide)
  · split
    · next e _ _ =>
      extract_lets evicted tierSt chosen hs
      have hEvicted : Frame growParts d evicted := evicted_frame ..
      exact (Frame.seqs chosen _).step (by decide) ((Frame.tier evicted _).step (by decide) hEvicted)
    · exact (noteRefused_tame ..).frame.mono (by decide)

theorem planEdit_frame (d : Dev) (earlier : List Req) (q : Req) : Frame growParts d (d.planEdit earlier q).2 := by
  unfold Dev.planEdit
  split
  · exact startPromo_frame ..
  · split
    · exact Frame.refl ..
    · extract_lets p k m
      split
      · exact Frame.refl ..
      · exact grow_frame ..

/-- The parts that planning reaches. -/
def planParts : List Part := .adm :: .fab :: .pwr :: growParts

theorem editNoFolio_spares (d : Dev) (q : Req) (p : Profile) : Spares planParts d (d.editNoFolio q p).1 := by
  unfold Dev.editNoFolio
  split
  · unfold Dev.appendNoFolio
    extract_lets f a sp bytes
    split
    · exact .refl ..
    · split
      · exact .refl ..
      · exact (count_frame ..).spares.step (by decide) ((writeOut_spares ..).mono (by decide))
  · exact .refl ..

theorem countEdit_frame (p : Nat) (r : EdRes) : Frame [.ctrs] r.1 (countEdit p r).1 := by
  unfold countEdit
  split
  · exact Frame.refl ..
  · exact .ite (count_frame ..) (.ite (count_frame ..) (.ite (count_frame ..) (Frame.refl ..)))

/-- The device of a planned edit. -/
def EditPlan.dev : EditPlan → Dev
  | .ready d => d
  | .waits d => d
  | .answered d => d

theorem planOne_spares (d : Dev) (earlier : List Req) (q : Req) : Spares planParts d (EditPlan.dev (d.planOne earlier q)) := by
  unfold Dev.planOne
  extract_lets mine dropped
  split
  · exact .refl ..
  have planned : Spares planParts d (dropped.planEdit earlier q).2 :=
    (planEdit_frame ..).spares.step (by decide) ((dropResv_frame ..).spares.mono (by decide))
  split
  · next e plan =>
    rw [plan] at planned
    exact planned
  · next e plan =>
    rw [plan] at planned
    exact .ite ((count_frame ..).spares.step (by decide) planned) planned
  · next e plan =>
    rw [plan] at planned
    extract_lets r c
    have refused : Spares planParts d r.1 := (editNoFolio_spares ..).step (by decide) planned
    exact (complete_spares ..).step (by decide) ((countEdit_frame _ (r.1, some r.2)).spares.step (by decide) refused)

/-! #### Sources are read, streams are planned -/

theorem freshTag_frame (d : Dev) : Frame [.fab] d d.freshTag.2 := Frame.fab d _

theorem staleLoads_frame (d : Dev) (f : Nat → Bool) : Frame [.fab] d (d.staleLoads f) := Frame.fab d _

theorem sendReq_spares (d : Dev) (dest code : Nat) (m : Msg) (region : Nat) (job : Option Nat) (members : List (Nat × Nat)) :
    Spares sendParts d (d.sendReq dest code m region job members).2 := by
  unfold Dev.sendReq
  have fresh := freshTag_frame d
  split
  next t e tagged =>
  rw [tagged] at fresh
  extract_lets m' last stale o fabSt
  have hFresh : Spares sendParts d e := fresh.spares.mono (by decide)
  have hStale : Spares sendParts d stale := .ite ((staleLoads_frame ..).spares.step (by decide) hFresh) hFresh
  exact (put_spares ..).step (by decide) ((Frame.fab stale _).spares.step (by decide) hStale)

theorem sourceRead_spares (d : Dev) (i l source : Nat) : Spares planParts d (d.sourceRead i l source) := by
  unfold Dev.sourceRead
  refine .ite ?_ (.ite ?_ (.refl ..))
  · unfold Dev.remoteRead
    split
    · extract_lets cls off
      refine (Spares.refl ..).foldl fun x k => ?_
      exact .ite ((sendReq_spares ..).mono (by decide)) (.refl ..)
    · exact .refl ..
  · unfold Dev.shelfRead
    split
    · exact (emit_frame ..).spares.mono (by decide)
    · exact .refl ..

theorem putPromoFrame_spares (d : Dev) (i l h : Nat) (u : Used) (m : Promo) : Spares planParts d (d.putPromoFrame i l h u m) := by
  unfold Dev.putPromoFrame
  extract_lets lead
  exact (sourceRead_spares ..).step (by decide) ((chargeBkt_spares ..).step (by decide) ((modSpan_frame ..).spares.step (by decide)
    ((Frame.seqs d _).spares.mono (by decide))))

/- The shares and places are made opaque before the definition is opened: the kernel would otherwise evaluate their byte counts. -/
theorem obtain_spares (d : Dev) (i : Nat) : Spares planParts d (d.obtain i) := by
  have whole : Dev.obtain = Dev.obtain := rfl
  conv_rhs at whole => delta Dev.obtain
  rw [whole]
  clear whole
  obtain ⟨within, same⟩ : ∃ f, f = Dev.within := ⟨_, rfl⟩
  obtain ⟨evicts, same'⟩ : ∃ f, f = Dev.evictFor := ⟨_, rfl⟩
  obtain ⟨free, same''⟩ : ∃ f, f = Dev.freeBytes := ⟨_, rfl⟩
  rw [← same, ← same', ← same'']
  clear same same' same''
  beta_reduce
  split
  · next m s _ _ =>
    extract_lets l pr cls n isOver place
    split
    · exact .refl ..
    split
    · exact putPromoFrame_spares ..
    · split
      · next e _ _ =>
        extract_lets evicted tierSt chosen
        have hEvicted : Spares planParts d evicted := (evicted_frame ..).spares.mono (by decide)
        have hChosen : Spares planParts d chosen := (Frame.tier evicted _).spares.step (by decide) hEvicted
        split
        · split
          · exact (putPromoFrame_spares ..).step (by decide) hChosen
          · exact hChosen
        · exact hChosen
      · exact (noteRefused_tame ..).frame.spares.mono (by decide)
  · exact .refl ..

theorem obtainAll_spares (d : Dev) : Spares planParts d d.obtainAll := (Spares.refl ..).foldl fun _ _ => obtain_spares ..

theorem planSlot_frame (d : Dev) (k : Nat) (x : StreamSt) : Frame growParts d (d.planSlot k x) := by
  unfold Dev.planSlot
  refine .ite (Frame.refl ..) ?_
  split
  · exact Frame.refl ..
  · extract_lets w w' walked
    exact (Frame.tier walked _).step (by decide) ((beginWalk_frame ..).mono (by decide))

theorem leadStreams_frame (d : Dev) : Frame growParts d d.leadStreams := by
  unfold Dev.leadStreams
  refine (Frame.refl ..).foldl fun x e => ?_
  split
  · exact Frame.refl ..
  · exact (Frame.refl ..).foldl fun _ _ => startPromo_frame ..

theorem planStreams_frame (d : Dev) : Frame growParts d d.planStreams :=
  Frame.trans ((Frame.refl ..).foldl fun _ _ => planSlot_frame ..) (leadStreams_frame _)

/-! #### One request is planned -/

/-- What planning a request does to the sets of requests: it leaves the set it was sealed in, and nothing planned is lost. -/
structure PlansOne (q : Req) (d e : Dev) : Prop where
  tim : Part.tim.same d e
  sealed_ : e.adm.sealed_ = d.adm.sealed_.filter fun y => y.id != q.id
  planned : d.adm.planned <+: e.adm.planned

theorem Spares.then_plans {ps : List Part} {d e f : Dev} {q : Req} (h : Spares ps d e) (k : PlansOne q e f) (tim : .tim ∉ ps := by decide) :
    PlansOne q d f :=
  ⟨k.tim.trans (h.frame.same .tim tim), k.sealed_.trans (by rw [h.field (·.sealed_)]), by rw [← h.field (·.planned)]; exact k.planned⟩

theorem PlansOne.then_spares {ps : List Part} {d e f : Dev} {q : Req} (h : PlansOne q d e) (k : Spares ps e f) (tim : .tim ∉ ps := by decide) :
    PlansOne q d f :=
  ⟨(k.frame.same .tim tim).trans h.tim, (k.field (·.sealed_)).trans h.sealed_, by rw [k.field (·.planned)]; exact h.planned⟩

theorem unplan_plans (d : Dev) (q : Req) : PlansOne q d (d.unplan q) := ⟨rfl, rfl, List.prefix_refl _⟩
theorem putPlanned_plans (d : Dev) (q : Req) : PlansOne q d (d.putPlanned q) := ⟨rfl, rfl, List.prefix_append ..⟩
theorem putWaiting_plans (d : Dev) (q : Req) : PlansOne q d (d.putWaiting q) := ⟨rfl, rfl, List.prefix_refl _⟩

theorem PlansOne.of_id {d e : Dev} {q r : Req} (h : PlansOne r d e) (same : r.id = q.id) : PlansOne q d e :=
  ⟨h.tim, same ▸ h.sealed_, h.planned⟩

theorem planWalked_plans (d : Dev) (q : Req) : PlansOne q d (d.planWalked q) := by
  unfold Dev.planWalked
  extract_lets l
  split
  · exact putPlanned_plans ..
  · extract_lets new r
    split
    · exact putWaiting_plans ..
    · exact (awaitSpans_frame d q l new).spares.then_plans ((putWaiting_plans ..).of_id rfl)

theorem planning_edit_plans (a : Planning) (q : Req) : PlansOne q a.dev (a.edit q).dev := by
  unfold Planning.edit
  extract_lets seen
  have planned := planOne_spares a.dev a.edits q
  split
  · exact putWaiting_plans ..
  split
  · next e plan =>
    rw [plan] at planned
    exact planned.then_plans (putPlanned_plans e q)
  · next e plan =>
    rw [plan] at planned
    exact planned.then_plans (putWaiting_plans e q)
  · next e plan =>
    rw [plan] at planned
    exact planned.then_plans (unplan_plans e q)

theorem planning_read_plans (a : Planning) (q : Req) : PlansOne q a.dev (a.read q).dev := by
  unfold Planning.read
  obtain ⟨began, id⟩ := beginRead_spares a.dev q
  split
  · exact planWalked_plans ..
  split
  · exact (putWaiting_plans ..).of_id rfl
  split
  · exact (putPlanned_plans ..).of_id rfl
  split
  · next e r x result =>
    rw [result] at began id
    exact began.then_plans (((unplan_plans e r).of_id id).then_spares (finish_spares ..))
  · next e r result =>
    rw [result] at began id
    exact began.then_plans ((planWalked_plans e r).of_id id)

theorem planning_one_plans (a : Planning) (q : Req) : PlansOne q a.dev (a.one q).dev := by
  unfold Planning.one
  split
  · exact planning_edit_plans ..
  split
  · exact planning_read_plans ..
  · exact putPlanned_plans ..

/-- A request that is neither an edit nor a read is planned. -/
theorem planning_one_other (a : Planning) {q : Req} (edit : isEdit q.op = false) (read : isRead q.op = false) :
    { q with stage := 3, waits := false, stall := 0 } ∈ (a.one q).dev.adm.planned := by
  simp [Planning.one, edit, read, Dev.putPlanned, Dev.unplan]

end Sys2Proof.Safety
end

section
/-! ### The plan and execute phases (R47, R53, R54, R58) -/

namespace Sys2Proof.Safety

open Sys2Proof.Machine

/-! #### Sorting keeps what is sorted -/

theorem mem_insertBy {α : Type} (lt : α → α → Bool) (x : α) (l : List α) (y : α) : y ∈ insertBy lt x l ↔ y = x ∨ y ∈ l := by
  induction l with
  | nil => simp [insertBy]
  | cons z l ih =>
    unfold insertBy
    split
    · simp
    · rw [List.mem_cons, ih, List.mem_cons, or_left_comm]

theorem mem_sortBy {α : Type} (lt : α → α → Bool) (l : List α) (y : α) : y ∈ sortBy lt l ↔ y ∈ l := by
  have all : ∀ (l acc : List α), y ∈ l.foldl (fun r x => insertBy lt x r) acc ↔ y ∈ l ∨ y ∈ acc := by
    intro l
    induction l with
    | nil => simp
    | cons x l ih =>
      intro acc
      rw [List.foldl_cons, ih, mem_insertBy, List.mem_cons, or_left_comm, or_assoc]
  rw [sortBy, all, List.mem_reverse]
  simp

theorem mem_admissionOrder (l : List Req) (q : Req) : q ∈ admissionOrder l ↔ q ∈ l := mem_sortBy ..

/-! #### The plan phase -/

/-- What planning a list of requests does to the sets of requests. -/
structure PlansAll (qs : List Req) (d e : Dev) : Prop where
  tim : Part.tim.same d e
  sealed_ : e.adm.sealed_ = d.adm.sealed_.filter fun y => qs.all fun q => y.id != q.id
  planned : d.adm.planned <+: e.adm.planned

theorem planAll_plans (a : Planning) (qs : List Req) : PlansAll qs a.dev (qs.foldl Planning.one a).dev := by
  induction qs generalizing a with
  | nil => exact ⟨rfl, by simp, List.prefix_refl _⟩
  | cons q qs ih =>
    obtain ⟨tim, sealed_, planned⟩ := planning_one_plans a q
    obtain ⟨tim', sealed', planned'⟩ := ih (a.one q)
    refine ⟨tim'.trans tim, sealed'.trans ?_, planned.trans planned'⟩
    rw [sealed_, List.filter_filter]
    exact List.filter_congr fun y _ => by simp [Bool.and_comm]

theorem planAll_planned (a : Planning) {qs : List Req} {q : Req} (mem : q ∈ qs) (edit : isEdit q.op = false) (read : isRead q.op = false) :
    { q with stage := 3, waits := false, stall := 0 } ∈ (qs.foldl Planning.one a).dev.adm.planned := by
  induction qs generalizing a with
  | nil => cases mem
  | cons r qs ih =>
    rcases List.mem_cons.mp mem with rfl | later
    · exact (planAll_plans (a.one q) qs).planned.subset (planning_one_other a edit read)
    · exact ih (a.one r) later

theorem ungate_frame (d : Dev) : Frame [.pwr] d d.ungate := Frame.pwr d _

theorem planPhase_planned (d : Dev) (reach : Nat) :
    (d.planPhase reach).tim.phase = .plan ∧ (d.planPhase reach).tim.count = d.tim.count
    ∧ (d.planPhase reach).adm.sealed_
        = d.adm.sealed_.filter (fun y => (admissionOrder d.adm.waiting ++ d.adm.sealed_.take reach).all fun q => y.id != q.id)
    ∧ ∀ q ∈ d.adm.sealed_.take reach, isEdit q.op = false → isRead q.op = false →
        ∃ y ∈ (d.planPhase reach).adm.planned, y.id = q.id ∧ y.d = q.d ∧ y.op = q.op ∧ y.stage = 3 := by
  unfold Dev.planPhase
  extract_lets todo counted old a devSt admSt ordered awake rest timSt
  have hCounted : Spares [.ctrs] d counted := (count2_frame ..).spares
  have hPlans : PlansAll todo counted a.dev := planAll_plans { dev := counted, edits := old } todo
  obtain ⟨tim, sealed_, -⟩ := hPlans
  have hAwake : Spares [.pwr] ordered awake := .ite (.refl ..) (ungate_frame ..).spares
  have hRest : Spares planParts awake.nameMerges rest :=
    (obtainAll_spares _).step (by decide) ((planStreams_frame _).spares.mono (by decide))
  have begun : ∀ q ∈ d.adm.sealed_.take reach, isEdit q.op = false → isRead q.op = false →
      { q with stage := 3, waits := false, stall := 0 } ∈ ordered.adm.planned := fun q mem edit read =>
    (mem_admissionOrder ..).mpr (planAll_planned _ (List.mem_append_right _ mem) edit read)
  have hOrdered : ordered.tim.count = a.dev.tim.count ∧ ordered.adm.sealed_ = a.dev.adm.sealed_ := ⟨rfl, rfl⟩
  clear_value rest awake ordered a
  obtain ⟨orderedCount, orderedSealed⟩ := hOrdered
  have ticks : ({ a.dev.tim with arbs := [] } : TimeSt).count = ({ counted.tim with arbs := [] } : TimeSt).count := congrArg TimeSt.count tim
  refine ⟨rfl, ?_, ?_, ?_⟩
  · change awake.tim.count = d.tim.count
    calc awake.tim.count
      _ = ordered.tim.count := hAwake.frame.timField (by decide) (·.count)
      _ = counted.tim.count := orderedCount.trans ticks
      _ = d.tim.count := hCounted.frame.timField (by decide) (·.count)
  · change rest.adm.sealed_ = _
    calc rest.adm.sealed_
      _ = awake.adm.sealed_ := hRest.field (·.sealed_)
      _ = a.dev.adm.sealed_ := (hAwake.field (·.sealed_)).trans orderedSealed
      _ = _ := sealed_.trans (by rw [hCounted.field (·.sealed_)])
  · intro q mem edit read
    have inAwake := (hAwake.field (·.planned)) ▸ begun q mem edit read
    have inMerged := List.mem_map_of_mem (f := fun q : Req => { q with merge := some (awake.mergeCluster q) }) inAwake
    have listed : ∃ y ∈ awake.nameMerges.adm.planned, y.id = q.id ∧ y.d = q.d ∧ y.op = q.op ∧ y.stage = 3 := ⟨_, inMerged, rfl, rfl, rfl, rfl⟩
    rw [← hRest.field (·.planned)] at listed
    exact listed

/-! #### The execute phase -/

theorem gateTick_frame (d : Dev) (worked : Bool) : Frame [.pwr] d (d.gateTick worked) := Frame.pwr d _

theorem stampDue_onTime {d : Dev} {q : Req} (onTime : q.lateEdge = false) : d.stampDue q false = d := by
  unfold Dev.stampDue
  exact if_pos (.inl (by simp [onTime]))

theorem beginReads_none {d : Dev} {f : Req → Bool} (noReads : ∀ q ∈ d.adm.planned, isRead q.op = false) : d.beginReads f = d := by
  have none : d.adm.planned.filter (fun q => isRead q.op && q.walks.isEmpty && f q) = [] :=
    List.filter_eq_nil_iff.mpr fun q mem => by simp [noReads q mem]
  unfold Dev.beginReads
  rw [none, List.foldl_nil]

/-- The end of the execute phase. -/
def endExecute (d : Dev) (worked ran : Bool) : Dev :=
  let d := if ran then d.count .closeRun 0 else d
  let d := d.applyVictims.gateTick worked
  { d with adm := { d.adm with waiting := admissionOrder d.adm.waiting }, tim := { d.tim with phase := .execute } }

theorem endExecute_kept (d : Dev) (worked ran : Bool) : (endExecute d worked ran).adm.planned = d.adm.planned
    ∧ (endExecute d worked ran).adm.due = d.adm.due ∧ (endExecute d worked ran).tim.count = d.tim.count := by
  unfold endExecute
  extract_lets counted gated
  have hCounted : Frame [.ctrs] d counted := .ite (count_frame ..) (Frame.refl ..)
  have charges : Charges d gated := (gateTick_frame ..).charges.after ((applyVictims_charges _).after hCounted.charges)
  have frame : Frame (.pwr :: victimParts) d gated :=
    (gateTick_frame ..).step (by decide) ((applyVictims_tame _).frame.step (by decide) (hCounted.mono (by decide)))
  exact ⟨charges.field (·.planned), charges.field (·.due), frame.timField (by decide) (·.count)⟩

/-- The phase in which one NOP is all that is planned: it is run once, after the steps for other kinds of request. -/
theorem executePhase_oneNop {s : State} {q : Req} (x : ExecIn) (planned : s.dev.adm.planned = [q]) (nop : q.op = 0)
    (inTime : x.overrun = false) :
    s.executePhase x = ((s.onDev Dev.wakeChannels).runPlanned x q).onDev fun d => endExecute d true false := by
  have noReads : ∀ r ∈ s.dev.wakeChannels.adm.planned, isRead r.op = false := by
    intro r mem
    obtain rfl : r = q := List.mem_singleton.mp (planned ▸ mem)
    rw [nop]
    rfl
  have still : s.dev.wakeChannels.beginReads (fun _ => true) = s.dev.wakeChannels := beginReads_none noReads
  have start : [q].filter (fun q => atStart q.op) = [] := by simp [nop, atStart]
  have first : [q].filter (fun q => firstStep q.op) = [] := by simp [nop, firstStep, isEdit]
  have second : [q].filter (fun q => secondStep q.op) = [] := by simp [nop, secondStep, isRead]
  have others : [q].filter (fun q => !atStart q.op && !firstStep q.op && !secondStep q.op) = [q] := by
    simp [nop, atStart, firstStep, isEdit, secondStep, isRead]
  have ran : ([q].any fun q => isRead q.op && x.unfinished.contains q.id) = false := by simp [nop, isRead]
  simp only [State.executePhase, planned, start, first, second, others, List.foldl_nil, List.foldl_cons, List.isEmpty_cons, Bool.false_eq_true,
    if_false, State.onDev, still, ran, inTime]
  rfl

theorem executePhase_ends (s : State) (x : ExecIn) : (s.executePhase x).dev.tim.phase = .execute := rfl

/-- A planned NOP that may run completes with zero results. -/
theorem runPlanned_nop {s : State} {q : Req} {x : ExecIn} (planned : s.dev.adm.planned = [q]) (nop : q.op = 0) (may : s.dev.mayRun q = true)
    (finishes : q.id ∉ x.unfinished) (noRefused : x.refused = []) (early : q.id ∉ x.late) (onTime : q.lateEdge = false) :
    s.runPlanned x q = s.onDev fun d => ({ d with adm := { d.adm with planned := [] } }).finish q {} := by
  have found : s.dev.adm.planned.find? (fun y => y.id == q.id) = some q := by simp [planned]
  have emptied : s.dev.adm.planned.filter (fun y => y.id != q.id) = [] := by simp [planned]
  have runs : ∀ t : State, t.runOp q = t.answers q (t.dev, {}) := fun t => by simp [State.runOp, nop]
  have free : s.dev.behindRing q = false := by simp [Dev.behindRing, isCatalogue, nop]
  have goes : ¬(x.unfinished.contains q.id ∨ !s.dev.mayRun q ∨ ((isEdit q.op || isRead q.op) ∧ q.walks.isEmpty ∧ s.dev.behindEdit q)
      ∨ s.dev.behindRing q) := by simp [finishes, may, free, nop, isEdit, isRead]
  have now : x.late.contains q.id = false := by simpa using early
  unfold State.runPlanned
  rw [found]
  refine (if_neg goes).trans ?_
  simp only [noRefused, List.filter_nil, List.map_nil, List.isEmpty_nil, if_true, runs, State.answers, State.onDev, emptied, now,
    stampDue_onTime onTime]

theorem runPlanned_unfinished {s : State} {q : Req} {x : ExecIn} (planned : s.dev.adm.planned = [q]) (later : q.id ∈ x.unfinished) :
    s.runPlanned x q = s := by
  unfold State.runPlanned
  simp [planned, later]

/-- Settles O35: planning a request takes it alone out of the sealed set, and of the execute phase's steps only the last reaches a planned NOP. -/
theorem planAndExecutePhases : Obligations.PlanAndExecutePhases := by
  intro s
  refine ⟨fun reach phase => ?plan, fun reach out => congrArg (devNext s) (if_neg (by simp [out])), fun q phase planned nop may onTime => ?nop,
    fun q phase planned nop => ?unfinished, fun x phase => ?any, fun x out => congrArg Host.Outcome.next (if_neg (by simp [out]))⟩
  case plan =>
    obtain ⟨inPlan, count, sealed_, begun⟩ := planPhase_planned s.dev reach
    refine .of_exec (congrArg (devNext s) (if_pos phase)) ⟨fun apart => sealed_.trans ?_, inPlan, count, fun q mem edit attend deliver => ?_, rfl⟩
    · have order : s.dev.adm.sealed_ = s.dev.adm.sealed_.take reach ++ s.dev.adm.sealed_.drop reach := (List.take_append_drop ..).symm
      have gone : (s.dev.adm.sealed_.take reach).filter (fun y => (admissionOrder s.dev.adm.waiting ++ s.dev.adm.sealed_.take reach).all fun q => y.id != q.id)
          = [] := List.filter_eq_nil_iff.mpr fun y mem all => by
        have own := List.all_eq_true.mp all y (List.mem_append_right _ mem)
        simp at own
      have stays : (s.dev.adm.sealed_.drop reach).filter (fun y => (admissionOrder s.dev.adm.waiting ++ s.dev.adm.sealed_.take reach).all fun q => y.id != q.id)
          = s.dev.adm.sealed_.drop reach := List.filter_eq_self.mpr fun y mem => List.all_eq_true.mpr fun z reached => by
        have listed : z ∈ s.dev.adm.waiting ++ s.dev.adm.sealed_.take reach := by
          simpa only [List.mem_append, mem_admissionOrder] using reached
        exact bne_iff_ne.mpr (apart y mem z listed).symm
      calc _ = _ := congrArg _ order
        _ = _ := List.filter_append ..
        _ = _ := by rw [gone, stays, List.nil_append]
    · exact begun q mem edit (by simp [isRead, attend, deliver])
  case nop =>
    refine .of_exec (congrArg Host.Outcome.next (if_pos phase)) ?_
    rw [executePhase_oneNop {} planned nop rfl, runPlanned_nop (s := s.onDev Dev.wakeChannels) planned nop may (by simp) rfl (by simp) onTime]
    obtain ⟨d, ran⟩ : ∃ d : Dev, d = { s.dev.wakeChannels with adm := { s.dev.wakeChannels.adm with planned := [] } } := ⟨_, rfl⟩
    have tim : d.tim = s.dev.tim := by rw [ran]; rfl
    have empty : d.adm.planned = [] := by rw [ran]
    obtain ⟨none, due, count⟩ := endExecute_kept (d.finish q {}) true false
    obtain ⟨ps, added⟩ := finish_due d q {}
    simp only [State.onDev, ← ran]
    refine ⟨none.trans ((finish_admField (·.planned) d q {}).trans empty), ⟨ps, ?_⟩, rfl, count.trans (by rw [finish_tim, tim]), trivial⟩
    rw [due, added, count, finish_tim]
    exact List.mem_append_right _ (List.mem_singleton.mpr rfl)
  case unfinished =>
    refine .of_exec (congrArg Host.Outcome.next (if_pos phase)) ?_
    rw [executePhase_oneNop _ planned nop rfl, runPlanned_unfinished (s := s.onDev Dev.wakeChannels) planned (List.mem_singleton.mpr rfl)]
    obtain ⟨none, due, count⟩ := endExecute_kept s.dev.wakeChannels true false
    exact ⟨none.trans planned, due, rfl, rfl⟩
  case any => exact .of_exec (congrArg Host.Outcome.next (if_pos phase)) ⟨executePhase_ends s x, (State.executePhase_kept s x).1⟩

end Sys2Proof.Safety
end

section
/-! ### Links, copies and refresh: what the steps beside the rows leave (R307, R347, R370, R413) -/

namespace Sys2Proof.Safety

open Sys2Proof.Machine

/-! #### Links -/

/-- The parts that a change of a link reaches. -/
def linkParts : List Part := .free :: .fab :: .adm :: evParts

theorem startTraining_frame (d : Dev) (k : Nat) (st : PortState) : Frame [.free, .fab] d (d.startTraining k st) := by
  unfold Dev.startTraining
  have drawn := drawBytes_frame d 16
  split
  next b e draw =>
  rw [draw] at drawn
  exact (modPort_frame ..).step (by decide) (drawn.mono (by decide))

theorem resendTo_spares (d : Dev) (j : Nat) : Spares sendParts d (d.resendTo j) := by
  unfold Dev.resendTo
  extract_lets dev os resent inv
  have hResent : Spares sendParts d resent := (Spares.refl ..).foldl fun _ _ => put_spares ..
  exact hResent.foldl fun _ _ => put_spares ..

theorem linkDown_spares (d : Dev) (k : Nat) (st : PortState) : Spares linkParts d (d.linkDown k st) := by
  unfold Dev.linkDown
  extract_lets wasUp part emptied left told j fabSt relayed
  have hEmptied : Spares linkParts d emptied := (modPort_frame ..).spares.mono (by decide)
  have hLeft : Spares linkParts d left :=
    .ite ((startTraining_frame ..).spares.step (by decide) hEmptied) ((modPort_frame ..).spares.step (by decide) hEmptied)
  have hTold : Spares linkParts d told := (devEvent_frame ..).spares.step (by decide) hLeft
  have hRelayed : Spares linkParts d relayed := .ite ((Frame.fab told _).spares.step (by decide) hTold) hTold
  exact .ite hLeft (.ite ((resendTo_spares ..).step (by decide) hRelayed) hTold)

theorem enablePort_spares (d : Dev) (k : Nat) : Spares linkParts d (d.enablePort k) := by
  unfold Dev.enablePort
  extract_lets st
  exact .ite (.ite (.refl ..) (linkDown_spares ..)) (.ite ((startTraining_frame ..).spares.mono (by decide)) (.refl ..))

/-! #### Copies of regions -/

theorem newJob_frame (d : Dev) (j : Job) : Frame [.fab] d (d.newJob j).2 := Frame.fab d _

theorem askRebuild_spares (d : Dev) (x : Nat) (target : Option Nat) : Spares linkParts d (d.askRebuild x target) := by
  unfold Dev.askRebuild
  split
  · exact .refl ..
  · next r _ =>
    refine .ite (.refl ..) ?_
    split
    · exact (devEvent_frame ..).spares.mono (by decide)
    · next _ t =>
      refine .ite ((devEvent_frame ..).spares.mono (by decide)) ?_
      have started := newJob_frame d { op := 0x200, x := { patron := 0, object := r.id }, dev := t, fetching := true }
      split
      next k e job =>
      rw [job] at started
      exact (sendReq_spares ..).step (by decide) (started.spares.mono (by decide))

/-- The parts that the copying of a region reaches. -/
def copyParts : List Part := [.adm, .fab, .rgn, .out, .ctrs]

theorem copyChunk_spares (s : State) (r : Region) (t off : Nat) : Spares copyParts s.dev (s.copyChunk r t off).dev := by
  unfold State.copyChunk
  extract_lets d bad pieces
  refine List.foldlRecOn (motive := fun u : State => Spares copyParts s.dev u.dev) _ _ (.refl ..) fun u h p _ => ?_
  exact (modRegion_frame ..).spares.step (by decide) ((sendReq_spares ..).step (by decide) h)

theorem copyChunks_spares {s u : State} (h : Spares copyParts s.dev u.dev) (r : Region) (t base : Nat) (l : List Nat) :
    Spares copyParts s.dev (l.foldl (fun s i => s.copyChunk r t (base + 4096 * i)) u).dev :=
  List.foldlRecOn (motive := fun u : State => Spares copyParts s.dev u.dev) _ _ h fun u h i _ => (copyChunk_spares u r t _).step (by decide) h

theorem rebuildUnit_cases (s : State) (x : Nat) : s.rebuildUnit x = s ∨ ∃ r t base l,
    s.rebuildUnit x = List.foldl (fun s i => s.copyChunk r t (base + 4096 * i)) (s.onDev fun d => d.startUnit 7 unitBytes) l := by
  unfold State.rebuildUnit
  split
  · exact .inl rfl
  · split
    · exact .inl rfl
    · split
      · exact .inl rfl
      · exact .inr ⟨_, _, _, _, rfl⟩

theorem rebuildUnit_spares (s : State) (x : Nat) : Spares copyParts s.dev (s.rebuildUnit x).dev := by
  rcases rebuildUnit_cases s x with still | ⟨r, t, base, l, goes⟩
  · rw [still]
    exact .refl ..
  · rw [goes]
    exact copyChunks_spares ((startUnit_spares s.dev 7 unitBytes).mono (by decide)) ..

theorem rebuildStep_spares (s : State) : Spares copyParts s.dev s.rebuildStep.dev :=
  List.foldlRecOn (motive := fun u : State => Spares copyParts s.dev u.dev) _ _ (.refl ..) fun u h x _ => (rebuildUnit_spares u x).step (by decide) h

/-! #### Refresh and budgets -/

theorem startRefresh_tame (d : Dev) (k : Nat) : Tame flashParts d (d.startRefresh k) := by
  unfold Dev.startRefresh
  exact .ite ((settleBlock_tame ..).step (by decide) ((modBlock_frame ..).tame.mono (by decide))) (.refl ..)

theorem refreshWaiting_tame (d : Dev) : Tame flashParts d d.refreshWaiting := (Tame.refl ..).foldl fun _ _ => startRefresh_tame ..

theorem refillBkt_charges (d : Dev) (b : Nat) : Charges d (d.refillBkt b) := .ite (.refl d) ⟨_, rfl⟩

theorem refillBkt_frame (d : Dev) (b : Nat) : Frame [.adm] d (d.refillBkt b) := .ite (Frame.refl ..) (Frame.adm d _)

theorem refillAll_spares (d : Dev) : Spares [.adm, .ctrs] d d.refillAll := by
  unfold Dev.refillAll
  extract_lets refilled
  have hRefilled : Spares [.adm, .ctrs] d refilled :=
    (Spares.refl ..).foldl fun _ _ => ((refillBkt_charges ..).spares (refillBkt_frame ..)).mono (by decide)
  exact hRefilled.foldl fun _ _ => .ite ((count2_frame ..).spares.mono (by decide)) (.refl ..)

theorem recalcBudgets_frame (d : Dev) : Frame [.stk] d d.recalcBudgets := Frame.stk d _
theorem refillGovernor_frame (d : Dev) : Frame [.stk] d d.refillGovernor := Frame.stk d _

theorem flushEgress_spares (d : Dev) : Spares sendParts d d.flushEgress := by
  unfold Dev.flushEgress
  extract_lets e
  exact Spares.foldl ((Frame.fab d _).spares.mono (by decide)) fun _ _ => put_spares ..

end Sys2Proof.Safety
end

section
/-! ### Homes: what serving requests and operations on regions leaves of admission and time (R352 to R365, R386 to R416) -/

namespace Sys2Proof.Safety

open Sys2Proof.Machine

/-- The parts that a home's service reaches. -/
def homeParts : List Part := .host :: .fab :: landParts

/-! #### The directory -/

theorem holdReq_frame (d : Dev) (h : HeldReq) : Frame [.fab] d (d.holdReq h) := Frame.fab d _
theorem setDir_frame (d : Dev) (set : Nat) (es : List DirEnt) : Frame [.fab] d (d.setDir set es) := Frame.fab d _
theorem modDir_frame (d : Dev) (set line : Nat) (f : DirEnt → DirEnt) : Frame [.fab] d (d.modDir set line f) := setDir_frame ..
theorem holdLoad_frame (d : Dev) (line : Nat) (h : HeldReq) : Frame [.fab] d (d.holdLoad line h) := modDir_frame ..
theorem dirTick_frame (d : Dev) : Frame [.fab] d d.dirTick.2 := Frame.fab d _

theorem sendInv_spares (d : Dev) (addr : Nat) (devs : List Nat) : Spares sendParts d (d.sendInv addr devs) :=
  (Spares.refl ..).foldl fun _ _ => (put_spares ..).step (by decide) ((count_frame ..).spares.mono (by decide))

theorem dirUpdate_spares (d : Dev) (line writer : Nat) (reference : Bool) : Spares sendParts d (d.dirUpdate line writer reference).2 := by
  unfold Dev.dirUpdate
  extract_lets set es cur devs told marked
  clear_value devs cur
  split
  · exact .refl ..
  split
  · split
    · exact .refl ..
    · exact (sendInv_spares ..).step (by decide) ((setDir_frame ..).spares.mono (by decide))
  · split
    · exact .refl ..
    · exact (sendInv_spares ..).step (by decide) ((modDir_frame ..).spares.mono (by decide))

theorem dirLoad_spares (d : Dev) (line : Nat) (h : HeldReq) (track : Bool) : Spares sendParts d (d.dirLoad line h track).2 := by
  unfold Dev.dirLoad
  extract_lets set dev
  have ticked := dirTick_frame d
  split
  next t e tick =>
  rw [tick] at ticked
  have hTicked : Spares sendParts d e := ticked.spares.mono (by decide)
  extract_lets es old oth
  clear_value old
  split
  · split
    · exact hTicked
    · exact (modDir_frame ..).spares.step (by decide) hTicked
  · split
    · exact hTicked
    · split
      · exact (setDir_frame ..).spares.step (by decide) hTicked
      · split
        · exact hTicked
        · split
          · exact (holdLoad_frame ..).spares.step (by decide) hTicked
          · split
            · dsimp only
              exact (count_frame ..).spares.step (by decide) ((setDir_frame ..).spares.step (by decide) hTicked)
            · exact (sendInv_spares ..).step (by decide) ((modDir_frame ..).spares.step (by decide) ((count_frame ..).spares.step (by decide) hTicked))

/-! #### Answers and jobs -/

/-- The parts that the end of a job reaches. -/
def jobParts : List Part := .host :: .fab :: .adm :: evParts

theorem sendMessage_charges (d : Dev) (dest cls : Nat) (b : List Byte) : Charges d (d.sendMessage dest cls b) := by
  unfold Dev.sendMessage
  extract_lets k c body m kept
  have hKept : Charges d kept := (modChan_frame ..).charges
  exact .ite ((put_charges ..).after ((count_frame ..).charges.after hKept)) hKept

theorem sendMessage_spares (d : Dev) (dest cls : Nat) (b : List Byte) : Spares sendParts d (d.sendMessage dest cls b) :=
  (sendMessage_charges ..).spares (sendMessage_frame ..)

theorem putRegion_spares (d : Dev) (dest code : Nat) (m : Msg) : Spares sendParts d (d.putRegion dest code m) :=
  .ite (put_spares ..) (sendMessage_spares ..)

theorem answerRegion_spares (d : Dev) (dev tag : Nat) (a : Ans) : Spares sendParts d (d.answerRegion dev tag a) := putRegion_spares ..

theorem emitted_frame {ps : List Part} {d e : Dev} (h : Frame ps d e) (o : Out) (out : .out ∈ ps := by decide) : Frame ps d (e.emit o) :=
  (emit_frame ..).step (by simpa using out) h

theorem apertureDone_frame (d : Dev) (j : Job) : Frame (.host :: evParts) d (d.apertureDone j) := by
  unfold Dev.apertureDone
  have missed : Frame (.host :: evParts) d (d.apertureMiss j.x.patron true j.x.object) := apertureMiss_frame ..
  exact .ite (.ite (emitted_frame missed _) missed)
    (.ite (emitted_frame (Frame.refl ..) _) (.ite (emitted_frame (Frame.refl ..) _) (Frame.refl ..)))

theorem finishReq_spares (d : Dev) (q : Req) (a : Ans) : Spares [.adm, .ctrs] d (d.finishReq q a) := by
  unfold Dev.finishReq
  extract_lets p worked published next edge stamped told
  have kept : ∀ {e f : Dev}, Spares [.adm, .ctrs] d e → Frame [.ctrs] e f → Spares [.adm, .ctrs] d f := fun h k => k.spares.step (by decide) h
  have hWorked : Spares [.adm, .ctrs] d worked :=
    .ite (.refl ..) (.ite (kept (.refl ..) (count_frame ..)) (.ite (kept (.refl ..) (count_frame ..)) (.ite (kept (.refl ..) (count2_frame ..))
      (.ite (kept (.refl ..) (count_frame ..)) (.refl ..)))))
  have hPublished : Spares [.adm, .ctrs] d published := .ite (kept hWorked (count2_frame ..)) hWorked
  have hTold : Spares [.adm, .ctrs] d told := .ite (kept hPublished (count_frame ..)) hPublished
  exact .ite ((completeNext_spares ..).step (by decide) hTold) ((complete_spares ..).step (by decide) hTold)

theorem stampLoad_spares (d : Dev) (l : Option (Nat × Nat)) : Spares [.adm] d (d.stampLoad l) := ⟨Frame.adm d _, rfl⟩

theorem finishJob_spares (d : Dev) (k : Nat) : Spares jobParts d (d.finishJob k) := by
  unfold Dev.finishJob
  split
  · exact .refl ..
  · next j _ =>
    extract_lets fabSt taken finished answered
    have hTaken : Spares jobParts d taken := (Frame.fab d _).spares.mono (by decide)
    have hFinished : Spares jobParts d finished := by
      simp only [finished]
      split
      · exact (stampLoad_spares ..).step (by decide) ((finishReq_spares ..).step (by decide) hTaken)
      · exact hTaken
    have hAnswered : Spares jobParts d answered := by
      simp only [answered]
      split
      · exact (answerRegion_spares ..).step (by decide) hFinished
      · exact hFinished
    exact .ite ((apertureDone_frame ..).spares.step (by decide) hAnswered) hAnswered

theorem settleJob_spares (d : Dev) (k : Nat) : Spares jobParts d (d.settleJob k) := by
  unfold Dev.settleJob
  split
  · exact .ite (finishJob_spares ..) (.refl ..)
  · exact .refl ..

theorem jobPart_spares (d : Dev) (k code addr : Nat) (m : Msg) : Spares jobParts d (d.jobPart k code addr m) :=
  (settleJob_spares ..).step (by decide) ((modJob_frame ..).spares.mono (by decide))

theorem deliver_spares (d : Dev) (dest code addr : Nat) (m : Msg) (job : Option Nat) : Spares jobParts d (d.deliver dest code addr m job) := by
  unfold Dev.deliver
  split
  · split
    · exact jobPart_spares ..
    · exact .refl ..
  · exact (put_spares ..).mono (by decide)

theorem flushHeld_spares (d : Dev) : Spares jobParts d d.flushHeld := by
  unfold Dev.flushHeld
  extract_lets ready r fabSt left
  have hLeft : Spares jobParts d left := (Frame.fab d _).spares.mono (by decide)
  exact hLeft.foldl fun _ _ => deliver_spares ..

theorem answer_spares (d : Dev) (code : Nat) (m : Msg) (job : Option Nat) (status : Nat) : Spares jobParts d (d.answer code m job status) :=
  deliver_spares ..

theorem endJob_spares (s : State) (k : Nat) (a : Ans) : Spares jobParts s.dev (s.endJob k a).dev :=
  (finishJob_spares ..).step (by decide) ((modJob_frame ..).spares.mono (by decide))

/-! #### Updates -/

theorem countRefusal_frame (d : Dev) (m : Msg) (status : Nat) : Frame [.rgn, .ctrs] d (d.countRefusal m status) := by
  unfold Dev.countRefusal
  exact .ite ((count_frame ..).mono (by decide)) (.ite ((count_frame ..).step (by decide) ((modRegion_frame ..).mono (by decide))) (Frame.refl ..))

theorem notAdmitted_frame (d : Dev) (addr : Nat) (pass : Bool) : Frame [.rgn] d (d.notAdmitted addr pass) := .ite (modRegion_frame ..) (Frame.refl ..)

theorem touchUnits_frame (d : Dev) (addr lines : Nat) : Frame [.rgn] d (d.touchUnits addr lines) := by
  unfold Dev.touchUnits
  split
  exact (Frame.refl ..).foldl fun _ _ => modUnit_frame ..

theorem cleanLine_frame (d : Dev) (line : Nat) : Frame [.flt, .log, .rgn] d (d.cleanLine line) := by
  unfold Dev.cleanLine
  extract_lets fltSt cleaned
  have hCleaned : Frame [.flt, .log, .rgn] d cleaned :=
    .ite ((Frame.flt ({ d with flt := { d.flt with lines := d.flt.lines.filter (· != 64 * line) } } : Dev) _).step (by decide)
      ((Frame.flt d _).mono (by decide))) (Frame.refl ..)
  exact (modUnit_frame ..).step (by decide) hCleaned

theorem staleUnit_tame (d : Dev) (k : Nat) : Tame (.rgn :: .tier :: flashParts) d (d.staleUnit k) := by
  unfold Dev.staleUnit
  extract_lets dropped vs unmapped tierSt cleared
  have hDropped : Tame (.rgn :: .tier :: flashParts) d dropped := (dropDemo_tame ..).mono (by decide)
  have hUnmapped : Tame (.rgn :: .tier :: flashParts) d unmapped :=
    hDropped.foldl fun _ _ => (Tame.refl ..).foldl fun _ _ => (unmapUnit_tame ..).mono (by decide)
  exact (modUnit_frame ..).tame.step (by decide) ((Frame.tier unmapped _).tame.step (by decide) hUnmapped)

theorem mirrorWrite_spares (d : Dev) (x code off : Nat) (m : Msg) (b : List Byte) : Spares (.rgn :: sendParts) d (d.mirrorWrite x code off m b).2 := by
  unfold Dev.mirrorWrite
  split
  · exact .refl ..
  · next r _ =>
    split
    · exact .refl ..
    · next t _ =>
      extract_lets advanced head w
      have hAdvanced : Spares (.rgn :: sendParts) d (advanced.count .mirrorSent 0) :=
        (count_frame ..).spares.step (by decide) ((modRegion_frame ..).spares.mono (by decide))
      have sent := sendReq_spares (advanced.count .mirrorSent 0) t 0x58 w r.id none []
      split
      next tag e put =>
      rw [put] at sent
      exact sent.step (by decide) hAdvanced

theorem record_frame (d : Dev) (code : Nat) (m : Msg) (result : Nat) : Frame [.fab] d (d.record code m result) := by
  unfold Dev.record
  split
  · exact Frame.refl ..
  · dsimp only
    split
    · exact Frame.fab d _
    · exact Frame.fab d _

theorem endReads_frame (d : Dev) (line lines : Nat) : Frame [.fab] d (d.endReads line lines) := Frame.fab d _

/-- The parts that an update reaches. -/
def updateParts : List Part := .fab :: .adm :: .rgn :: .tier :: .flt :: flashParts

theorem putLine_spares (s : State) (r : Region) (off mask : Nat) (b : List Byte) (writer : Nat) (poison : Bool) :
    Spares updateParts s.dev (s.putLine r off mask b writer poison).2.dev := by
  unfold State.putLine
  extract_lets line k full mem cleaned poisoned sec marked h
  have hCleaned : Spares updateParts s.dev cleaned := .ite ((cleanLine_frame ..).spares.mono (by decide)) (.refl ..)
  have hPoisoned : Spares updateParts s.dev poisoned := .ite ((poisonLine_tame ..).frame.spares.step (by decide) hCleaned) hCleaned
  have hMarked : Spares updateParts s.dev marked := by
    simp only [marked]
    split
    · exact (modUnit_frame ..).spares.step (by decide) hPoisoned
    · split
      · exact .ite ((staleUnit_tame ..).frame.spares.step (by decide) hPoisoned) hPoisoned
      · exact hPoisoned
  clear_value marked
  have told := dirUpdate_spares marked line writer (r.kind == 2)
  split
  next held e update =>
  rw [update] at told
  exact told.step (by decide) hMarked

theorem applyUpdate_spares (s : State) (code : Nat) (m : Msg) (job : Option Nat) (r : Region) :
    Spares (.host :: updateParts) s.dev (s.applyUpdate code m job r).dev := by
  unfold State.applyUpdate
  extract_lets x off dev
  split
  next lines mirror acc old t written =>
  have hWritten : Spares (.host :: updateParts) s.dev t.dev := by
    have mirrored : ∀ (u : State) (o : Nat) (n : Msg) (b : List Byte), Spares (.host :: updateParts) s.dev u.dev →
        Spares (.host :: updateParts) s.dev (u.dev.mirrorWrite x code o n b).2 := fun u o n b h => (mirrorWrite_spares ..).step (by decide) h
    split at written
    · revert written
      split
      next a b args =>
      dsimp only
      intro written
      obtain rfl : _ = t := congrArg (·.2.2.2.2) written
      exact mirrored _ _ _ _ ((putLine_spares ..).mono (by decide))
    · revert written
      split
      next mask data parts =>
      intro written
      obtain rfl : _ = t := congrArg (·.2.2.2.2) written
      refine List.foldlRecOn (motive := fun p : List Nat × List Nat × List (Nat × Nat × Nat) × Nat × State =>
        Spares (.host :: updateParts) s.dev p.2.2.2.2.dev) _ _ (.refl ..) fun p h i _ => ?_
      exact mirrored _ _ _ _ ((putLine_spares ..).step (by decide) h)
  extract_lets recorded rm h fabSt
  have hRecorded : Spares (.host :: updateParts) s.dev recorded :=
    (touchUnits_frame ..).spares.step (by decide) ((record_frame ..).spares.step (by decide) hWritten)
  exact (flushHeld_spares _).step (by decide) ((Frame.fab recorded _).spares.step (by decide) hRecorded)

end Sys2Proof.Safety
end

section
/-! ### Descriptors that travel to a region's home (R367, R404, R416) -/

namespace Sys2Proof.Safety

open Sys2Proof.Machine

/-! #### What waits for a response -/

/-- A record of the same request: where it has left, it is marked so and holds the message as it was carried. -/
structure SameRequest (o p : Outst) : Prop where
  dest : p.dest = o.dest
  code : p.code = o.code
  region : p.region = o.region
  job : p.job = o.job
  msg : Carried o.m p.m

theorem SameRequest.refl (o : Outst) : SameRequest o o := ⟨rfl, rfl, rfl, rfl, .inl rfl⟩

/-- The device waits for the response to a request. -/
def AwaitsAnswer (o : Outst) (d : Dev) : Prop := ∃ p ∈ d.fab.outst, SameRequest o p

/-- Sending a message marks the request that it carries, and no other. -/
theorem tryEmit_outst {d e : Dev} {dest code : Nat} {m : Msg} (h : d.tryEmit dest code m = some e) : ∃ x now own, Carried m x
    ∧ e.fab.outst = d.fab.outst.map fun o =>
      if o.dest = dest ∧ o.m.tag = m.tag ∧ o.code = code ∧ own = true then { o with m := x, sent := true, sentAt := now } else o := by
  unfold Dev.tryEmit at h
  extract_lets own p n at h
  split at h
  · cases h
  split at h
  · cases h
  extract_lets k flits x left relayed charged fab at h
  split at h
  · cases h
  obtain rfl := Option.some.inj h
  have hFlits : flits.fab.outst = d.fab.outst := by
    rw [(count2_frame _ .flitsSent k 0 n).same .fab (by decide)]
    rfl
  have hLeft : left.fab = flits.fab := (emit_frame ..).same .fab (by decide)
  have hRelayed : relayed.fab = left.fab := by
    simp only [relayed]
    split
    · split
      · exact (count_frame ..).same .fab (by decide)
      · rfl
    · rfl
  have hCharged : charged.fab = relayed.fab := by
    simp only [charged]
    split
    · exact (chargeBkt_frame ..).same .fab (by decide)
    · rfl
  have same : charged.fab.outst = d.fab.outst := by rw [hCharged, hRelayed, hLeft, hFlits]
  have carried : Carried m x ∧ x.tag = m.tag := by
    simp only [x]
    split
    · exact ⟨.inr rfl, rfl⟩
    · exact ⟨.inl rfl, rfl⟩
  refine ⟨x, charged.tim.now, own, carried.1, ?_⟩
  change charged.fab.outst.map _ = _
  rw [same, carried.2]

/-- A request stays remembered when a message is put that is its own, or has another code. -/
theorem AwaitsAnswer.put {o : Outst} {d : Dev} {code : Nat} {m : Msg} (waits : o ∈ d.fab.outst) (own : o.code = code → o.m = m) (dest : Nat) :
    AwaitsAnswer o (d.put dest code m) := by
  cases stopped : d.flt.deviceFault with
  | true => rw [put_stopped _ _ _ stopped]; exact ⟨o, waits, .refl o⟩
  | false =>
    rcases put_eq_or dest code m stopped with queued | leaves
    · rw [queued]
      exact ⟨o, waits, .refl o⟩
    · obtain ⟨x, now, own', carried, outst⟩ := tryEmit_outst leaves
      rw [AwaitsAnswer, outst]
      refine ⟨_, List.mem_map_of_mem waits, ?_⟩
      split
      · next same => exact ⟨rfl, rfl, rfl, rfl, own same.2.2.1 ▸ carried⟩
      · exact .refl o

theorem sendReq_awaits (d : Dev) (dest code : Nat) (m : Msg) (region : Nat) (job : Option Nat) (members : List (Nat × Nat)) :
    ∃ t, AwaitsAnswer { dest := dest, code := code, m := { m with tag := t }, region := region, job := job }
      (d.sendReq dest code m region job members).2 := by
  unfold Dev.sendReq
  split
  next t e tagged =>
  extract_lets m' last f o fabSt
  have waits : o ∈ (f.fab.outst ++ [o]) := List.mem_append_right _ (List.mem_singleton.mpr rfl)
  obtain ⟨p, mem, same⟩ := AwaitsAnswer.put (d := { f with fab := { f.fab with outst := f.fab.outst ++ [o] } }) waits (fun _ => rfl) dest
  exact ⟨t, p, mem, same.dest, same.code, same.region, same.job, same.msg⟩

theorem sendMessage_awaits {o : Outst} {d : Dev} (waits : o ∈ d.fab.outst) (other : o.code ≠ 0x30) (dest cls : Nat) (b : List Byte) :
    AwaitsAnswer o (d.sendMessage dest cls b) := by
  unfold Dev.sendMessage
  extract_lets k c body m kept
  have hKept : o ∈ kept.fab.outst := waits
  split
  · refine AwaitsAnswer.put (d := kept.count .msgSent 0) ?_ (fun same => absurd same other) dest
    rw [(count_frame kept .msgSent 0 1).same .fab (by decide)]
    exact hKept
  · exact ⟨o, hKept, .refl o⟩

/-! #### A region descriptor leaves -/

theorem sendRegion_spares (d : Dev) (q : Req) (dest id : Nat) : Spares sendParts d (d.sendRegion q dest id) := by
  unfold Dev.sendRegion
  extract_lets p body
  have started := newJob_frame d { q := some q, op := q.op, x := q.d, dev := d.devNo }
  split
  next k e start =>
  rw [start] at started
  extract_lets m
  have hStarted : Spares sendParts d e := started.spares.mono (by decide)
  split
  · exact (sendReq_spares ..).step (by decide) hStarted
  · have tagged := freshTag_frame e
    split
    next t f fresh =>
    rw [fresh] at tagged
    exact (sendMessage_spares ..).step (by decide) ((Frame.fab f _).spares.step (by decide) (tagged.spares.step (by decide) hStarted))

/-- What a device remembers of a region descriptor that it sent. -/
def SentRegion (x : DescIn) (dest id : Nat) (d : Dev) : Prop :=
  ∃ o ∈ d.fab.outst, o.dest = dest ∧ o.code = 0x50 ∧ o.m.addr = regionAddr id ∧ o.m.slots.drop 16 = padSlots x.body

theorem SentRegion.of_awaits {x : DescIn} {o : Outst} {d : Dev} (h : AwaitsAnswer o d) {id : Nat} (code : o.code = 0x50)
    (addr : o.m.addr = regionAddr id) (slots : o.m.slots.drop 16 = padSlots x.body) : SentRegion x o.dest id d := by
  obtain ⟨p, mem, same⟩ := h
  refine ⟨p, mem, same.dest, same.code.trans code, ?_⟩
  rcases same.msg with whole | relayed
  · rw [whole]; exact ⟨addr, slots⟩
  · rw [relayed]; exact ⟨addr, slots⟩

theorem sendRegion_sent (d : Dev) (q : Req) (dest id : Nat) : SentRegion q.d dest id (d.sendRegion q dest id) := by
  unfold Dev.sendRegion
  extract_lets p body
  have slots : body.drop 16 = padSlots q.d.body := by
    have header : (leBytes 2 (d.devNo + 64 * p) ++ leBytes 1 q.op ++ List.replicate 5 0 ++ leBytes 8 (d.deadlineNs q)).length = 16 := by simp [leBytes]
    exact (List.drop_left' header)
  split
  next k e start =>
  extract_lets m
  split
  · obtain ⟨t, awaits⟩ := sendReq_awaits e dest 0x50 m id (some k) []
    exact .of_awaits awaits rfl rfl slots
  · split
    next t f fresh =>
    extract_lets m' o fabSt
    have waits : o ∈ f.fab.outst ++ [o] := List.mem_append_right _ (List.mem_singleton.mpr rfl)
    exact .of_awaits (sendMessage_awaits (d := { f with fab := { f.fab with outst := f.fab.outst ++ [o] } }) waits (by decide : 0x50 ≠ 0x30) ..) rfl rfl slots

/-- A descriptor of a region that another live device serves is sent there. -/
theorem opRegion_travels {s : State} {v id : Nat} (hint : State → Nat → Job → State) (q : Req) (serves : s.dev.servesRegion id = v)
    (away : v ≠ s.dev.devNo) (alive : s.dev.isDead v = false) (known : s.dev.inPool v = true) :
    s.opRegion hint q id = { s with dev := s.dev.sendRegion q v id } := by
  subst serves
  simp only [State.opRegion, away, alive, known, Bool.not_true, Bool.false_eq_true, or_self, if_false]
  rfl

theorem opNear_travels {s : State} {v : Nat} {q : Req} (mapped : s.dev.extentRefused q.d.patron (nearLen q.d)
      ((nearWrites q.op q.d).map (fun e => (e.1, e.2, 1)) ++ (nearReads q.op q.d).map fun e => (e.1, e.2, 0)) = none)
    (pool : ¬(q.op = 0x31 ∧ (hostSrc q.d || hostDst q.d) = true)) (serves : s.dev.servesRegion (addrRegion (nearDst q.d)) = v)
    (away : v ≠ s.dev.devNo) (alive : s.dev.isDead v = false) :
    s.opNear q = { s with dev := s.dev.sendRegion q v (addrRegion (nearDst q.d)) } := by
  have notHost : (q.op == 0x31 && (hostSrc q.d || hostDst q.d)) = false := by simpa using pool
  have notOut : ¬(hostDst q.d = true ∧ q.op = 0x31) := fun h => pool ⟨h.2, by simp [h.1]⟩
  subst serves
  simp only [State.opNear, mapped, notHost, notOut, away, alive, Bool.false_eq_true, and_false, or_self, if_false]
  rfl

/-- A request that its operation sends away, and does nothing else. -/
theorem After.of_travel {c : Instr} {s : State} {op v id : Nat} {x : DescIn} (run : exec c s = .next (s.descriptor op x)) (h : Grants s op x)
    (plain : plainOp op = true) (sends : (grantedState s op x).runOp (ran s op x)
      = ({ grantedState s op x with dev := (granted s op x).2.sendRegion (ran s op x) v id } : State).byItself) :
    After c s fun t => SentRegion x v id t.dev ∧ Changes [.adm, .rings, .ctrs, .fab, .out] s t := by
  refine ⟨_, run, ?_⟩
  rw [descriptor_plain h plain, sends]
  exact ⟨sendRegion_sent (granted s op x).2 (ran s op x) v id,
    .of_frame ((sendRegion_spares (granted s op x).2 (ran s op x) v id).frame.step (by decide) ((granted_frame s op x).mono (by decide)))⟩

/-! #### The rows -/

theorem extentRefused_of {d e : Dev} (rgn : e.rgn = d.rgn) (boot : e.boot = d.boot) (p len : Nat) (es : List (Nat × Nat × Nat)) :
    e.extentRefused p len es = d.extentRefused p len es := by
  have mapped : e.mapped = d.mapped := by funext; simp only [Dev.mapped, rgn]
  have allows : e.mapAllows = d.mapAllows := by funext; simp only [Dev.mapAllows, mapped]
  have wing : e.wing = d.wing := by simp only [Dev.wing, boot]
  simp only [Dev.extentRefused, rgn, wing, allows]

theorem writesOpen_of {d e : Dev} (fab : e.fab = d.fab) (boot : e.boot = d.boot) (p id : Nat) : e.writesOpen p id = d.writesOpen p id := by
  simp only [Dev.writesOpen, Dev.devNo, fab, boot]

theorem isDead_of {d e : Dev} (fab : e.fab = d.fab) (v : Nat) : e.isDead v = d.isDead v := by simp only [Dev.isDead, Dev.peer, fab]

section
variable {s : State} {op v : Nat} {x : DescIn} (away : v ≠ s.dev.devNo) (alive : s.dev.isDead v = false) (h : Grants s op x)
include away alive h

theorem near_travels {c : Instr} (run : exec c s = .next (s.descriptor op x)) (plain : plainOp op = true)
    (code : (grantedState s op x).runOp (ran s op x) = ((grantedState s op x).opNear (ran s op x)).byItself)
    (mapped : s.dev.extentRefused x.patron (nearLen x)
      ((nearWrites op x).map (fun e => (e.1, e.2, 1)) ++ (nearReads op x).map fun e => (e.1, e.2, 0)) = none)
    (pool : ¬(op = 0x31 ∧ (hostSrc x || hostDst x) = true)) (serves : s.dev.servesRegion (addrRegion (nearDst x)) = v) :
    After c s fun t => SentRegion x v (addrRegion (nearDst x)) t.dev ∧ Changes [.adm, .rings, .ctrs, .fab, .out] s t := by
  refine .of_travel run h plain (code.trans (congrArg State.byItself (opNear_travels (s := grantedState s op x) (q := ran s op x) ?_ pool ?_ ?_ ?_)))
  · exact (extentRefused_of (granted_rgn s op x) (granted_boot ..) ..).trans mapped
  · exact (servesRegion_of (granted_rgn s op x) (granted_fab ..) _).trans serves
  · exact fun same => away (same.trans (granted_devNo s op x))
  · exact (isDead_of (granted_fab s op x) v).trans alive

variable (known : s.dev.inPool v = true)
include known

theorem region_travels {c : Instr} {id : Nat} (hint : State → Nat → Job → State) (run : exec c s = .next (s.descriptor op x))
    (plain : plainOp op = true) (serves : s.dev.servesRegion id = v)
    (code : (grantedState s op x).runOp (ran s op x) = ((grantedState s op x).opRegion hint (ran s op x) id).byItself) :
    After c s fun t => SentRegion x v id t.dev ∧ Changes [.adm, .rings, .ctrs, .fab, .out] s t := by
  refine .of_travel run h plain (code.trans (congrArg State.byItself (opRegion_travels hint _ ?_ ?_ ?_ ?_)))
  · exact (servesRegion_of (granted_rgn s op x) (granted_fab ..) id).trans serves
  · exact fun same => away (same.trans (granted_devNo s op x))
  · exact (isDead_of (granted_fab s op x) v).trans alive
  · have same : (granted s op x).2.inPool v = s.dev.inPool v := by simp only [Dev.inPool, granted_boot]
    exact same.trans known

end

/-- Settles O31: the operation finds the region served by another live device, starts a job for the REGION_DONE and sends the descriptor's
body, by the link or by a management message. -/
theorem regionRowsTravel : Obligations.RegionRowsTravel := by
  unfold Obligations.RegionRowsTravel
  intro s x op c v away alive known h
  refine ⟨fun id row serves writes => ?_, fun row mapped pool serves => ?_⟩
  · simp only [List.mem_cons, Prod.mk.injEq, List.not_mem_nil, or_false] at row
    rcases row with ⟨rfl, rfl, rfl⟩ | ⟨rfl, rfl, rfl⟩ | ⟨rfl, rfl, rfl⟩ | ⟨rfl, rfl, rfl⟩ | ⟨rfl, rfl, rfl⟩
    · have closed := (writesOpen_of (granted_fab s 0x34 x) (granted_boot ..) x.patron x.object).trans (writes rfl)
      exact region_travels away alive h known State.homeHint rfl rfl serves (if_neg (by rw [Bool.not_eq_true]; exact closed))
    · exact region_travels away alive h known State.homeHint rfl rfl serves rfl
    · exact region_travels away alive h known State.homeHint rfl rfl serves rfl
    · exact region_travels away alive h known State.homeHint rfl rfl serves rfl
    · exact region_travels away alive h known State.homeHint rfl rfl serves rfl
  · simp only [List.mem_cons, Prod.mk.injEq, List.not_mem_nil, or_false] at row
    rcases row with ⟨rfl, rfl⟩ | ⟨rfl, rfl⟩ | ⟨rfl, rfl⟩ | ⟨rfl, rfl⟩
    · exact near_travels away alive h rfl rfl rfl mapped pool serves
    · exact near_travels away alive h rfl rfl rfl mapped pool serves
    · exact near_travels away alive h rfl rfl rfl mapped pool serves
    · exact near_travels away alive h rfl rfl rfl mapped pool serves

end Sys2Proof.Safety
end

section
/-! ### Homes: requests, operations on regions, region service -/

namespace Sys2Proof.Safety

open Sys2Proof.Machine

/-! #### Units for an update -/

theorem takeUnits_tame {d e : Dev} {x first : Nat} {r : Region} {n : Nat} (h : Alloc.dev? (d.takeUnits x first r n) = some e) :
    Tame allocParts d e := by
  induction n generalizing e with
  | zero =>
    obtain rfl : d = e := Option.some.inj h
    exact .refl ..
  | succ n ih =>
    unfold Dev.takeUnits at h
    split at h
    · next f made =>
      have before : Tame allocParts d f := ih (congrArg Alloc.dev? made)
      split at h
      · obtain rfl : f = e := Option.some.inj h
        exact before
      · exact before.trans (takeUnit_tame h)
    · exact ih h

theorem unitRead_frame (d : Dev) (k : Nat) : Frame [.out] d (d.unitRead k) := by
  unfold Dev.unitRead
  split
  · exact emit_frame ..
  · exact Frame.refl ..

theorem promoteUnits_frame (d : Dev) (ks : List Nat) (demand : Bool) : Frame [.rgn, .out, .ctrs] d (d.promoteUnits ks demand) := by
  unfold Dev.promoteUnits
  refine (Frame.refl ..).foldl fun e k => ?_
  split
  · split
    · exact Frame.refl ..
    · extract_lets read p
      have hRead : Frame [.rgn, .out, .ctrs] e read := (unitRead_frame ..).step (by decide) ((modUnit_frame ..).mono (by decide))
      split
      · cases p with
        | none => exact hRead
        | some p => exact (count_frame ..).step (by decide) hRead
      · exact hRead
  · exact Frame.refl ..

theorem applyOne_spares (s : State) (code : Nat) (m : Msg) (job : Option Nat) (r : Region) : Spares homeParts s.dev (s.applyOne code m job r).dev := by
  unfold State.applyOne
  extract_lets lines
  split
  next a n run =>
  split
  · exact (answer_spares ..).mono (by decide)
  · next e waits => exact (holdReq_frame ..).spares.step (by decide) ((takeUnits_tame (congrArg Alloc.dev? waits)).frame.spares.mono (by decide))
  · next e made =>
    have made' : Spares homeParts s.dev e := (takeUnits_tame (congrArg Alloc.dev? made)).frame.spares.mono (by decide)
    exact (applyUpdate_spares _ code m job r).step (by decide) ((endReads_frame ..).spares.step (by decide) made')

/-! #### Serialisation at home ingress -/

/-- A run of states keeps what a relation of their devices says. -/
theorem Spares.foldState {α : Type} {ps : List Part} {d : Dev} {f : State → α → State} {l : List α} {s : State} (h : Spares ps d s.dev)
    (k : ∀ t x, Spares ps t.dev (f t x).dev) : Spares ps d (l.foldl f s).dev :=
  List.foldlRecOn (motive := fun t : State => Spares ps d t.dev) _ _ h fun t ht x _ => ht.trans (k t x)

theorem Spares.iteState {ps : List Part} {d : Dev} {s t : State} {c : Prop} [Decidable c] (h : Spares ps d s.dev) (k : Spares ps d t.dev) :
    Spares ps d (if c then s else t).dev := by
  split
  · exact h
  · exact k

theorem closeHome_spares (s : State) (f : HomeComb → Bool) : Spares homeParts s.dev (s.closeHome f).dev := by
  unfold State.closeHome
  extract_lets cs closed
  have hClosed : Spares homeParts s.dev closed.dev := (Frame.fab s.dev _).spares.mono (by decide)
  refine hClosed.foldState fun t x => ?_
  split
  · exact applyOne_spares ..
  · exact (answer_spares ..).mono (by decide)

theorem joinHome_frame (d : Dev) (port code : Nat) (m : Msg) (job : Option Nat) : Frame [.fab, .ctrs] d (d.joinHome port code m job) := by
  unfold Dev.joinHome
  extract_lets line mine fabSt put
  have placed : ∀ l, Frame [.fab, .ctrs] d (put l) := fun l => (Frame.fab d _).mono (by decide)
  clear_value mine
  split
  · exact .ite ((count_frame ..).step (by decide) (placed _)) (placed _)
  · exact placed _

theorem serialise_spares (s : State) (port code : Nat) (m : Msg) (job : Option Nat) (r : Region) :
    Spares homeParts s.dev (s.serialise port code m job r).dev := by
  unfold State.serialise
  extract_lets line closed
  split
  · exact (joinHome_frame ..).spares.mono (by decide)
  · have hClosed : Spares homeParts s.dev closed.dev := closeHome_spares ..
    split
    · exact (applyOne_spares ..).step (by decide) hClosed
    · exact hClosed

/-! #### Loads -/

theorem shareRead_frame (d : Dev) (line : Nat) (reference : Bool) : Frame [.fab, .ctrs] d (d.shareRead line reference) := by
  unfold Dev.shareRead
  split
  · exact Frame.refl ..
  split
  · exact .ite ((count_frame ..).mono (by decide)) ((Frame.fab d _).mono (by decide))
  · exact (Frame.fab d _).mono (by decide)

theorem homeLoad_spares (s : State) (port code : Nat) (m : Msg) (job : Option Nat) (track pass : Bool) :
    Spares homeParts s.dev (s.homeLoad port code m job track pass).dev := by
  unfold State.homeLoad
  extract_lets lines line dev h
  split
  next served d reached =>
  have hReached : Spares homeParts s.dev d := by
    split at reached
    · obtain ⟨-, rfl⟩ := Prod.mk.inj reached
      exact (holdLoad_frame ..).spares.mono (by decide)
    · split at reached
      · have loaded := dirLoad_spares s.dev line h (track && dev != s.dev.devNo)
        rw [reached] at loaded
        exact loaded.mono (by decide)
      · obtain ⟨-, rfl⟩ := Prod.mk.inj reached
        exact .refl ..
  split
  · exact hReached
  extract_lets touched bad
  have hTouched : Spares homeParts s.dev touched := (touchUnits_frame ..).spares.step (by decide) hReached
  split
  · have drawn := drawBytes_frame touched (64 * lines)
    split
    next b e draw =>
    rw [draw] at drawn
    exact (deliver_spares ..).step (by decide) (drawn.spares.step (by decide) hTouched)
  · exact (deliver_spares ..).step (by decide) hTouched

theorem askMirror_spares (d : Dev) (r : Region) (h : HeldReq) (line : Nat) : Spares sendParts d (d.askMirror r h line) := by
  unfold Dev.askMirror
  extract_lets a held
  have hHeld : Spares sendParts d held := (holdReq_frame ..).spares.mono (by decide)
  exact .ite hHeld ((sendReq_spares ..).step (by decide) hHeld)

theorem homeServe_spares (s : State) (port code : Nat) (m : Msg) (job : Option Nat) (tried pass : Bool) :
    Spares homeParts s.dev (s.homeServe port code m job tried pass).dev := by
  unfold State.homeServe
  extract_lets d lines out promoted
  have refused : ∀ (e : Dev) (status : Nat), Frame [.rgn, .ctrs] s.dev e → Spares homeParts s.dev (e.answer code m job status) := fun e status h =>
    (answer_spares ..).step (by decide) (h.spares.mono (by decide))
  have held : ∀ h : HeldReq, Spares homeParts s.dev (d.holdReq h) := fun h => (holdReq_frame ..).spares.mono (by decide)
  split
  · exact refused _ _ (countRefusal_frame ..)
  next r _ =>
  split
  · exact homeLoad_spares ..
  split
  · exact held _
  split
  · exact held _
  split
  · exact refused _ _ (countRefusal_frame ..)
  split
  · exact refused _ _ ((notAdmitted_frame ..).step (by decide) (countRefusal_frame ..))
  split
  · exact (holdReq_frame ..).spares.step (by decide) ((count_frame ..).spares.step (by decide) ((promoteUnits_frame ..).spares.mono (by decide)))
  split
  · split
    · exact (askMirror_spares ..).mono (by decide)
    · split
      · exact homeLoad_spares ..
      · exact refused _ _ (Frame.refl ..)
  · split
    · refine (homeLoad_spares _ port code m job (r.kind != 2) pass).step (by decide) ?_
      exact .ite ((shareRead_frame ..).spares.mono (by decide)) (.refl ..)
    · have served : Spares homeParts s.dev (s.serialise port code m job r).dev := serialise_spares ..
      split
      · exact .iteState (refused _ _ (Frame.refl ..)) served
      · exact .iteState (refused _ _ (Frame.refl ..)) served

theorem homeArrive_spares (s : State) (port code : Nat) (m : Msg) (job : Option Nat) : Spares homeParts s.dev (s.homeArrive port code m job).dev := by
  unfold State.homeArrive
  split
  · exact (holdReq_frame ..).spares.mono (by decide)
  · exact homeServe_spares ..

theorem request_spares (s : State) (port code : Nat) (m : Msg) : Spares homeParts s.dev (s.request port code m).dev := by
  unfold State.request
  extract_lets d src key
  have held : ∀ h : HeldReq, Spares homeParts s.dev (d.holdReq h) := fun h => (holdReq_frame ..).spares.mono (by decide)
  split
  · exact (put_spares ..).step (by decide) ((count2_frame ..).spares.mono (by decide))
  split
  · exact held _
  split
  · exact .refl ..
  split
  · exact .iteState (held _) ((put_spares ..).step (by decide) ((count_frame ..).spares.mono (by decide)))
  · exact .iteState ((answer_spares d code m none stPoison).mono (by decide)) (homeArrive_spares ..)

end Sys2Proof.Safety
end

section
/-! ### Region records and the forms of descriptors: what operations at a home leave of them (R386, R401) -/

namespace Sys2Proof.Safety

open Sys2Proof.Machine

/-! #### The form of a descriptor -/

/-- What a descriptor that passes its form says. -/
structure PassesForm (f : Form) (x : DescIn) : Prop where
  entries : f.entries x.entries = true
  class_ : f.classes.contains x.tclass = true
  admin : f.admin = true → x.patron = 0
  object : f.object x.object = true
  body : f.bodyFail x = none

theorem check_passes {f : Form} {x : DescIn} (h : f.check x = none) : PassesForm f x := by
  unfold Form.check at h
  split at h
  · cases h
  split at h
  · cases h
  split at h
  · cases h
  split at h
  · cases h
  split at h
  · cases h
  next entries _ class_ admin object =>
  split at h
  · cases h
  next body => exact ⟨by simpa using entries, by simpa using class_, by simpa using admin, by simpa using object, body⟩

/-! #### Records that an operation keeps -/

/-- Two devices whose region records agree in what `g` reads of them. -/
structure SameRecords {β : Type} (g : Region → β) (d e : Dev) : Prop where
  slot : ∀ x, (tget e.rgn.slots x).map g = (tget d.rgn.slots x).map g

section
variable {β : Type} {g : Region → β} {d e f : Dev}

theorem SameRecords.refl (g : Region → β) (d : Dev) : SameRecords g d d := ⟨fun _ => rfl⟩

theorem SameRecords.trans (h : SameRecords g d e) (k : SameRecords g e f) : SameRecords g d f := ⟨fun x => (k.slot x).trans (h.slot x)⟩

theorem SameRecords.foldl {α : Type} {op : Dev → α → Dev} {l : List α} (h : SameRecords g d e) (k : ∀ x y, SameRecords g x (op x y)) :
    SameRecords g d (l.foldl op e) :=
  List.foldlRecOn (motive := SameRecords g d) _ _ h fun e h x _ => h.trans (k e x)

theorem SameRecords.of_slots (h : e.rgn.slots = d.rgn.slots) : SameRecords g d e := ⟨fun x => by rw [h]⟩

theorem Frame.sameRecords {ps : List Part} (h : Frame ps d e) (n : .rgn ∉ ps := by decide) : SameRecords g d e :=
  .of_slots (congrArg RgnSt.slots (h.same .rgn n))

theorem Spares.sameRecords {ps : List Part} (h : Spares ps d e) (n : .rgn ∉ ps := by decide) : SameRecords g d e := h.frame.sameRecords n

theorem modRegion_sameRecords (d : Dev) (x : Nat) {f : Region → Region} (blind : ∀ r, g (f r) = g r) : SameRecords g d (d.modRegion x f) := by
  refine ⟨fun y => ?_⟩
  rw [Dev.modRegion, tget_tmod]
  split
  · rw [Option.map_map]
    exact congrArg (Option.map · _) (funext blind)
  · rfl

theorem SameRecords.record {x : Nat} {r : Region} (h : SameRecords g d e) (known : tget d.rgn.slots x = some r) :
    ∃ r', tget e.rgn.slots x = some r' ∧ g r' = g r := by
  have same := h.slot x
  rw [known] at same
  exact Option.map_eq_some_iff.mp same

end

theorem record_modRegion {d : Dev} {x : Nat} {r : Region} (known : tget d.rgn.slots x = some r) (f : Region → Region) :
    tget (d.modRegion x f).rgn.slots x = some (f r) := by
  rw [Dev.modRegion, tget_tmod, if_pos rfl, known]
  rfl

theorem mirrorWrite_records {β : Type} {g : Region → β} (blind : ∀ r n, g { r with mirrorSeq := n } = g r) (d : Dev) (x code off : Nat)
    (m : Msg) (b : List Byte) : SameRecords g d (d.mirrorWrite x code off m b).2 := by
  unfold Dev.mirrorWrite
  split
  · exact .refl ..
  next r _ =>
  split
  · exact .refl ..
  next t _ =>
  extract_lets advanced head w
  have hAdvanced : SameRecords g d (advanced.count .mirrorSent 0) :=
    (modRegion_sameRecords d x fun _ => blind ..).trans (count_frame ..).sameRecords
  have sent := sendReq_spares (advanced.count .mirrorSent 0) t 0x58 w r.id none []
  split
  next tag e put =>
  rw [put] at sent
  exact hAdvanced.trans sent.sameRecords

theorem mapNotice_records {β : Type} (g : Region → β) (d : Dev) (r : Region) (dev p rights first count : Nat) (job : Option Nat) :
    SameRecords g d (d.mapNotice r dev p rights first count job).2 := by
  unfold Dev.mapNotice
  split
  · dsimp only
    split
    · unfold Dev.removeMap
      extract_lets maps rgnSt kept
      split
      · exact .of_slots rfl
      · exact .of_slots rfl
    · exact .of_slots rfl
  split
  · exact .refl ..
  extract_lets b m
  split
  · exact (sendReq_spares ..).sameRecords
  · have tagged := freshTag_frame d
    split
    next n e fresh =>
    rw [fresh] at tagged
    exact (tagged.sameRecords).trans ((Frame.fab e _).sameRecords.trans (sendMessage_spares ..).sameRecords)

theorem countRefusal_records {β : Type} {g : Region → β} (blind : ∀ r n, g { r with refused := n } = g r) (d : Dev) (m : Msg) (status : Nat) :
    SameRecords g d (d.countRefusal m status) := by
  unfold Dev.countRefusal
  split
  · exact (count_frame ..).sameRecords
  split
  · refine (modRegion_sameRecords d _ fun r => ?_).trans (count_frame ..).sameRecords
    split
    · exact blind ..
    · rfl
  · exact .refl ..

theorem settleJob_records {β : Type} (g : Region → β) (d : Dev) (k : Nat) : SameRecords g d (d.settleJob k) := (settleJob_spares ..).sameRecords

/-- A run of the home that keeps queue and memory, and of the records what `g` reads. -/
structure SameRun {β : Type} (g : Region → β) (s t : State) : Prop where
  mem : t.mem = s.mem
  pending : t.pending = s.pending
  records : SameRecords g s.dev t.dev

theorem SameRun.foldl {β α : Type} {g : Region → β} {op : State → α → State} {l : List α} {s : State} (k : ∀ t x, SameRun g t (op t x)) :
    SameRun g s (l.foldl op s) :=
  List.foldlRecOn (motive := SameRun g s) _ _ ⟨rfl, rfl, .refl ..⟩ fun t h x _ =>
    ⟨(k t x).mem.trans h.mem, (k t x).pending.trans h.pending, h.records.trans (k t x).records⟩

/-! #### The job of a region descriptor at its home -/

/-- The job that a region descriptor starts where its region is served. -/
def regionJob (d : Dev) (q : Req) (id : Nat) : Job := { q := some q, op := q.op, x := { q.d with object := id }, dev := d.devNo }

/-- The state in which the home executes it. -/
def jobState (s : State) (q : Req) (id : Nat) : State := { s with dev := (s.dev.newJob (regionJob s.dev q id)).2 }

theorem jobState_job (s : State) (q : Req) (id : Nat) :
    tget (jobState s q id).dev.fab.jobs (s.dev.newJob (regionJob s.dev q id)).1 = some (regionJob s.dev q id) := tget_tset_same ..

theorem opRegion_home {s : State} {id : Nat} (hint : State → Nat → Job → State) (q : Req) (serves : s.dev.servesRegion id = s.dev.devNo) :
    s.opRegion hint q id = (jobState s q id).homeRegionOp hint (s.dev.newJob (regionJob s.dev q id)).1 := if_pos serves


/-! #### Where a region lies -/

theorem slotOf_regionAddr {id : Nat} (small : id < 2 ^ 18) : slotOf (regionAddr id) = id / 64 := by
  simp only [slotOf, regionAddr, windowBytes]
  omega

theorem slotOf_version {id : Nat} (small : id < 2 ^ 18) : slotOf (regionAddr id + versionOff) = id / 64 := by
  simp only [slotOf, regionAddr, windowBytes, versionOff]
  omega

theorem addrRegion_version {id : Nat} (small : id < 2 ^ 18) : addrRegion (regionAddr id + versionOff) = addrRegion (regionAddr id) := by
  have device : addrDev (regionAddr id + versionOff) = addrDev (regionAddr id) := by
    simp only [addrDev, regionAddr, windowBytes, versionOff]
    omega
  rw [addrRegion, addrRegion, device, slotOf_version small, slotOf_regionAddr small]

section
variable {d : Dev} {id : Nat} {r : Region} (small : id < 2 ^ 18) (known : d.regionOf (regionAddr id) = some r)
include small known

theorem record_of_regionOf : tget d.rgn.slots (id / 64) = some r := by
  unfold Dev.regionOf at known
  rw [slotOf_regionAddr small] at known
  split at known
  · next r' here =>
    split at known
    · rw [here, known]
    · cases known
  · cases known

theorem regionOf_version : d.regionOf (regionAddr id + versionOff) = some r := by
  rw [← known, Dev.regionOf, Dev.regionOf, slotOf_version small, slotOf_regionAddr small, addrRegion_version small]

end

theorem regionOf_of {d e : Dev} (rgn : e.rgn = d.rgn) (addr : Nat) : e.regionOf addr = d.regionOf addr := by
  simp only [Dev.regionOf, rgn]

end Sys2Proof.Safety
end

section
/-! ### Operations on regions at their home, and the service of what waited (R267, R386 to R416) -/

namespace Sys2Proof.Safety

open Sys2Proof.Machine

/-! #### Near-memory jobs -/

theorem fromBorrow_frame (d : Dev) (k : Nat) (addrs : List Nat) : Frame [.fab] d (d.fromBorrow k addrs) := by
  unfold Dev.fromBorrow
  refine (Frame.refl ..).foldl fun e a => ?_
  split
  · exact Frame.refl ..
  · split
    · exact modJob_frame ..
    · exact Frame.refl ..

/-- A job's end, from a state that its operation has reached. -/
theorem endJob_after {s t : State} (h : Spares homeParts s.dev t.dev) (k : Nat) (a : Ans) : Spares homeParts s.dev (t.endJob k a).dev :=
  (endJob_spares t k a).step (by decide) h

theorem runNear_spares (s : State) (k : Nat) : Spares homeParts s.dev (s.runNear k).dev := by
  unfold State.runNear
  split
  · exact .refl ..
  next j _ =>
  extract_lets x len lines d rd wr own hold out a poisoned marked
  clear_value poisoned
  have held : ∀ (why : Nat) (e : Dev), Spares homeParts s.dev e → Spares homeParts s.dev (hold why e).dev := fun why e h =>
    (holdReq_frame ..).spares.step (by decide) h
  have counted : ∀ m st, Spares homeParts s.dev (s.dev.countRefusal m st) := fun m st => (countRefusal_frame ..).spares.mono (by decide)
  split
  · exact endJob_after (counted ..) ..
  split
  · exact held _ _ (.refl ..)
  split
  · have refusal : Spares homeParts s.dev ((s.dev.countRefusal { source := j.dev + 64 * x.patron, addr := a } stRevoked).notAdmitted a true) :=
      (notAdmitted_frame ..).spares.step (by decide) (counted ..)
    exact endJob_after (t := { s with dev := _ }) refusal ..
  split
  · exact held _ _ ((count_frame ..).spares.step (by decide) ((promoteUnits_frame ..).spares.mono (by decide)))
  split
  · have hMarked : Spares homeParts s.dev marked := Spares.foldl (.refl ..) fun _ _ => (poisonLine_tame ..).frame.spares.mono (by decide)
    exact endJob_after (t := { s with dev := marked }) hMarked ..
  dsimp only
  split
  · exact endJob_after (.refl ..) ..
  next dst _ =>
  split
  · exact endJob_after (.refl ..) ..
  next r _ =>
  have ended : ∀ (t : State) (a : Ans), Spares homeParts s.dev t.dev → Spares homeParts s.dev (t.endJob k a).dev := fun t a h => endJob_after h k a
  refine .iteState (ended _ _ (.refl ..)) ?_
  split
  · exact ended _ _ (.refl ..)
  · next e waits => exact held _ _ ((takeUnits_tame (congrArg Alloc.dev? waits)).frame.spares.mono (by decide))
  · next e made =>
    have made' : Spares homeParts s.dev e := (takeUnits_tame (congrArg Alloc.dev? made)).frame.spares.mono (by decide)
    refine Spares.foldState ((modJob_frame ..).spares.step (by decide) made') fun t i => ?_
    exact (applyUpdate_spares ..).mono (by decide)

theorem startNear_spares (s : State) (k : Nat) : Spares homeParts s.dev (s.startNear k).dev := by
  unfold State.startNear
  split
  · exact .refl ..
  extract_lets reads t far
  have started : Spares homeParts s.dev t.dev := (fromBorrow_frame ..).spares.mono (by decide)
  refine .iteState (started.trans (runNear_spares ..)) ?_
  refine Spares.foldl ((modJob_frame ..).spares.step (by decide) started) fun _ _ => ?_
  exact (sendReq_spares ..).mono (by decide)

/-! #### Mappings and records -/

theorem installMap_frame (d : Dev) (x : Mapping) : Frame [.rgn] d (d.installMap x) := Frame.rgn d _

theorem mapNotice_spares (d : Dev) (r : Region) (dev p rights first count : Nat) (job : Option Nat) :
    Spares homeParts d (d.mapNotice r dev p rights first count job).2 := by
  unfold Dev.mapNotice
  split
  · dsimp only
    exact .ite ((removeMap_frame ..).spares.mono (by decide)) ((installMap_frame ..).spares.mono (by decide))
  split
  · exact .refl ..
  extract_lets b m
  split
  · exact (sendReq_spares ..).mono (by decide)
  · have tagged := freshTag_frame d
    split
    next n e fresh =>
    rw [fresh] at tagged
    exact (sendMessage_spares ..).step (by decide) (((Frame.fab e _).step (by decide) tagged).spares.mono (by decide))

theorem putSlot_frame (d : Dev) (x : Nat) (r : Region) : Frame [.rgn] d (d.putSlot x r) := Frame.rgn d _

theorem putRegionRec_tame {d e : Dev} {x : Nat} {r : Region} (h : Alloc.dev? (d.putRegionRec x r) = some e) : Tame allocParts d e := by
  unfold Dev.putRegionRec at h
  split at h
  · split at h
    · next f made =>
      obtain rfl : f.putSlot x r = e := Option.some.inj h
      exact (putSlot_frame ..).tame.step (by decide) (takeUnits_tame (congrArg Alloc.dev? made))
    · exact takeUnits_tame h
  · obtain rfl : d.putSlot x r = e := Option.some.inj h
    exact (putSlot_frame ..).tame.mono (by decide)

theorem dropUnits_frame (d : Dev) (x : Nat) : Frame [.rgn] d (d.dropUnits x) := Frame.rgn d _

theorem recordGone_frame (d : Dev) (tier : TierSt) (rgn : RgnSt) (flt : FltSt) : Frame [.tier, .rgn, .flt, .log] d { d with tier, rgn, flt } :=
  (Frame.flt { d with tier, rgn } flt).step (by decide) ((Frame.rgn { d with tier } rgn).step (by decide) ((Frame.tier d tier).mono (by decide)))

theorem freeRegion_spares (s : State) (x : Nat) : Spares homeParts s.dev (s.freeRegion x).dev := by
  unfold State.freeRegion
  split
  · exact .refl ..
  next r _ =>
  extract_lets d ks stale pins dropped lo tierSt rgnSt fltSt freed
  have hStale : Spares homeParts s.dev stale := Spares.foldl (.refl ..) fun _ _ => (staleUnit_tame ..).frame.spares.mono (by decide)
  have hDropped : Spares homeParts s.dev dropped := hStale.foldl fun _ _ => (dropMeta_frame ..).spares.mono (by decide)
  exact (recordGone_frame ..).spares.step (by decide) hDropped

theorem createMap_spares (d : Dev) (k x : Nat) : Spares homeParts d (d.createMap k x) := by
  unfold Dev.createMap
  split
  · exact .refl ..
  next r _ =>
  have told := mapNotice_spares d r r.ownerDev r.ownerPatron 15 0 r.unitCount (some k)
  split
  next w e notice =>
  rw [notice] at told
  exact (settleJob_spares ..).step (by decide) ((modJob_frame ..).spares.step (by decide) told)

theorem holdCreate_frame (d : Dev) (k : Nat) : Frame [.fab] d (d.holdCreate k) := holdReq_frame ..

theorem homeCreate_spares (s : State) (k : Nat) (j : Job) : Spares homeParts s.dev (s.homeCreate k j).dev := by
  unfold State.homeCreate
  extract_lets id x r asMirror t d
  have freed : Spares homeParts s.dev t.dev := .iteState (freeRegion_spares ..) (.refl ..)
  have ended : ∀ (u : State) (a : Ans), Spares homeParts t.dev u.dev → Spares homeParts s.dev (u.endJob k a).dev := fun u a h => endJob_after (freed.trans h) k a
  have dropped : Spares homeParts t.dev (t.dev.dropUnits x) := (dropUnits_frame ..).spares.mono (by decide)
  split
  · exact ended _ _ (.refl ..)
  split
  · exact ended _ _ (.refl ..)
  split
  · split
    · exact ended _ _ dropped
    · next e waits =>
      exact (holdCreate_frame ..).spares.step (by decide) (freed.trans ((putRegionRec_tame (congrArg Alloc.dev? waits)).frame.spares.mono (by decide)))
    · next e made => exact ended { t with dev := e } _ ((putRegionRec_tame (congrArg Alloc.dev? made)).frame.spares.mono (by decide))
  split
  · exact ended _ _ (.refl ..)
  split
  · exact ended _ _ (.refl ..)
  split
  · exact ended _ _ dropped
  · next e waits =>
    exact (holdCreate_frame ..).spares.step (by decide) (freed.trans ((putRegionRec_tame (congrArg Alloc.dev? waits)).frame.spares.mono (by decide)))
  · next e made =>
    have hMade : Spares homeParts s.dev e := freed.trans ((putRegionRec_tame (congrArg Alloc.dev? made)).frame.spares.mono (by decide))
    refine .iteState ?_ ((createMap_spares ..).step (by decide) hMade)
    exact (sendReq_spares ..).step (by decide) ((modJob_frame ..).spares.step (by decide) hMade)

theorem homeGrant_spares (s : State) (k : Nat) (j : Job) : Spares homeParts s.dev (s.homeGrant k j).dev := by
  unfold State.homeGrant
  extract_lets x slot dev p rights first n g
  have ended : ∀ a, Spares homeParts s.dev (s.endJob k a).dev := fun a => endJob_after (.refl ..) k a
  split
  · exact ended _
  next r _ =>
  extract_lets entry i d
  clear_value entry
  split
  · exact ended _
  · refine .iteState (ended _) (.iteState (ended _) (.iteState (ended _) (.iteState (ended _) (.iteState (ended _) (.iteState (ended _)
      (.iteState (ended _) (.iteState (ended _) ?_)))))))
    have told := mapNotice_spares d r dev p rights first n (some k)
    split
    next w e notice =>
    rw [notice] at told
    refine (settleJob_spares ..).step (by decide) ((modJob_frame ..).spares.step (by decide) (told.step (by decide) ?_))
    exact (modRegion_frame ..).spares.mono (by decide)

theorem homePublish_spares (s : State) (k : Nat) (j : Job) : Spares homeParts s.dev (s.homePublish k j).dev := by
  unfold State.homePublish
  extract_lets x slot addr refuse line
  have refused : ∀ st, Spares homeParts s.dev (refuse st).dev := fun st => endJob_after (t := s.onDev fun d => d.countRefusal
    { source := j.dev + 64 * x.patron, addr := addr } st) ((countRefusal_frame ..).spares.mono (by decide)) ..
  clear_value refuse
  split
  · exact refused _
  next r _ =>
  refine .iteState ((holdReq_frame ..).spares.mono (by decide)) ?_
  split
  · exact refused _
  · refine .iteState (refused _) (.iteState (endJob_after (.refl ..) ..) ?_)
    extract_lets v d h
    have hRegion : Spares homeParts s.dev d := (modRegion_frame ..).spares.mono (by decide)
    clear_value d h
    have updated := dirUpdate_spares d line d.devNo (r.kind == 2)
    split
    next held e update =>
    rw [update] at updated
    extract_lets m
    have mirrored := mirrorWrite_spares e slot 0x08 (addr % 2 ^ 50) m (leBytes 8 v ++ leBytes 8 e.tim.count ++ List.replicate 48 0)
    split
    next t f mirror =>
    rw [mirror] at mirrored
    extract_lets asked rsp fabSt
    have hAsked : Spares homeParts s.dev asked :=
      (modJob_frame ..).spares.step (by decide) (mirrored.step (by decide) (updated.step (by decide) hRegion))
    exact (flushHeld_spares ..).step (by decide) ((Frame.fab asked _).spares.step (by decide) hAsked)

theorem revokePoint_spares (s : State) (k x : Nat) (target : Option (Nat × Nat)) (destroy : Bool) :
    Spares homeParts s.dev (s.revokePoint k x target destroy).dev := by
  unfold State.revokePoint
  extract_lets t
  have closed : Spares homeParts s.dev t.dev := closeHome_spares ..
  clear_value t
  split
  · exact closed
  next r _ =>
  extract_lets hit gs who point told mine near my gone kept ends run loads rsps n pass held jobs dir fabSt counted final answered
  have hTold : Spares homeParts s.dev told := ((modRegion_frame ..).spares.step (by decide) closed).foldl fun _ _ => mapNotice_spares ..
  clear_value told
  have hCounted : Spares homeParts s.dev final := (modRegion_frame ..).spares.step (by decide) ((Frame.fab told _).spares.step (by decide) hTold)
  have hAnswered : Spares homeParts s.dev answered := hCounted.foldl fun _ _ =>
    (answer_spares ..).step (by decide) (Spares.mono (countRefusal_frame ..).spares (by decide))
  clear_value answered ends
  refine hAnswered.foldState fun u i => ?_
  split
  next j _ =>
    have refusal : ∀ m, Spares homeParts u.dev (u.dev.countRefusal m stRevoked) := fun m => (countRefusal_frame ..).spares.mono (by decide)
    exact endJob_after (t := { u with dev := _ }) (refusal _) ..
  · exact .refl ..

theorem homeRevoke_spares (s : State) (k : Nat) (j : Job) : Spares homeParts s.dev (s.homeRevoke k j).dev := by
  unfold State.homeRevoke
  extract_lets x slot all dev p home t
  have ended : ∀ a, Spares homeParts s.dev (s.endJob k a).dev := fun a => endJob_after (.refl ..) k a
  split
  · exact ended _
  next r _ =>
  refine .iteState (ended _) ?_
  split
  · exact ended _
  · refine .iteState (ended _) (.iteState (ended _) (.iteState ((modRegion_frame ..).spares.mono (by decide)) ?_))
    exact (revokePoint_spares ..).step (by decide) ((modJob_frame ..).spares.mono (by decide))

theorem homeDestroy_spares (s : State) (k : Nat) (j : Job) : Spares homeParts s.dev (s.homeDestroy k j).dev := by
  unfold State.homeDestroy
  extract_lets slot
  have ended : ∀ a, Spares homeParts s.dev (s.endJob k a).dev := fun a => endJob_after (.refl ..) k a
  split
  · exact ended _
  next r _ =>
  refine .iteState (ended _) (.iteState (endJob_after (freeRegion_spares ..) ..) (.iteState (ended _)
    (.iteState ((modRegion_frame ..).spares.mono (by decide)) ?_)))
  exact (revokePoint_spares ..).step (by decide) ((modJob_frame ..).spares.mono (by decide))

/-! #### Hints and discards of a region -/

/-- The parts that a hint on units reaches. -/
def hintParts : List Part := [.rgn, .out, .ctrs, .tier, .seqs]

theorem addMeta_frame (d : Dev) (p n : Nat) : Frame [.seqs] d (d.addMeta p n) := Frame.seqs d _

theorem addPin_frame (d : Dev) (key kind id unit : Nat) : Frame [.tier, .seqs] d (d.addPin key kind id unit) := by
  unfold Dev.addPin
  split
  · exact (Frame.tier d _).mono (by decide)
  · exact (Frame.tier (d.addMeta key 16) _).step (by decide) ((addMeta_frame ..).mono (by decide))

theorem dropPin_frame (d : Dev) (key kind id unit : Nat) : Frame [.tier, .seqs] d (d.dropPin key kind id unit) := by
  unfold Dev.dropPin
  split
  · exact .ite ((Frame.tier d _).mono (by decide)) ((Frame.tier (d.dropMeta key 16) _).step (by decide) ((dropMeta_frame ..).mono (by decide)))
  · exact Frame.refl ..

theorem hintUnits_frame (d : Dev) (dev p hint tier id first count : Nat) : Frame hintParts d (d.hintUnits dev p hint tier id first count).1 := by
  unfold Dev.hintUnits
  split
  · exact Frame.refl ..
  next r _ =>
  extract_lets x rights ks n key away touch now bytes pins full own held
  have touched : ∀ t, Frame hintParts d (touch d t) := fun t => (Frame.refl ..).foldl fun _ _ => (modUnit_frame ..).mono (by decide)
  have promoted : ∀ e, Frame hintParts e (e.promoteUnits away false) := fun e => (promoteUnits_frame ..).mono (by decide)
  clear_value touch away
  split
  · exact Frame.refl ..
  split
  · exact (touched _).trans (promoted _)
  split
  · exact touched _
  split
  · exact touched _
  split
  · split
    · exact Frame.refl ..
    · exact (promoted d).foldl fun _ _ => (modUnit_frame ..).step (by decide) ((addPin_frame ..).mono (by decide))
  split
  · split
    · exact Frame.refl ..
    · exact (Frame.refl ..).foldl fun _ _ => (modUnit_frame ..).step (by decide) ((dropPin_frame ..).mono (by decide))
  · exact (modRegion_frame ..).mono (by decide)

theorem discardRegion_frame (s : State) (dev : Nat) (x : DescIn) : Frame (.rgn :: flashParts) s.dev (s.discardRegion dev x).1.dev := by
  unfold State.discardRegion
  extract_lets d slot off len hits
  split
  · exact Frame.refl ..
  next r _ =>
  extract_lets copied rights
  split
  · exact Frame.refl ..
  split
  · exact Frame.refl ..
  · obtain ⟨⟨-, -, frame⟩, -, -⟩ := discardAll_changes s hits
    exact frame

theorem homeExtra_spares (s : State) (k : Nat) (j : Job) : Spares homeParts s.dev (s.homeExtra k j).dev := by
  unfold State.homeExtra
  extract_lets r
  refine .iteState (endJob_after ((discardRegion_frame ..).spares.mono (by decide)) ..) ?_
  unfold State.homeHint
  extract_lets x h
  exact endJob_after (t := { s with dev := h.1 }) ((hintUnits_frame ..).spares.mono (by decide)) ..

theorem homeRegionOp_spares {hint : State → Nat → Job → State} (hinted : ∀ s k j, Spares homeParts s.dev (hint s k j).dev) (s : State) (k : Nat) :
    Spares homeParts s.dev (s.homeRegionOp hint k).dev := by
  unfold State.homeRegionOp
  split
  · exact .refl ..
  · exact .iteState (startNear_spares ..) (.iteState (homePublish_spares ..) (.iteState (homeRevoke_spares ..) (.iteState (homeCreate_spares ..)
      (.iteState (homeGrant_spares ..) (.iteState (homeDestroy_spares ..) (.iteState (hinted ..) (endJob_after (.refl ..) ..)))))))

theorem openService_spares (s : State) : Spares homeParts s.dev s.openService.dev := by
  unfold State.openService
  refine .iteState (.refl ..) ?_
  extract_lets hs t
  refine .iteState (.refl ..) (Spares.foldState ((Frame.fab s.dev _).spares.mono (by decide)) fun t h => ?_)
  split
  · exact homeRegionOp_spares homeExtra_spares ..
  · exact request_spares ..

end Sys2Proof.Safety
end

section
/-! ### The tick edge (R41, R47) -/

namespace Sys2Proof.Safety

open Sys2Proof.Machine

/-! #### What an edge does not move: device time and the tick number -/

/-- Two devices at the same device time, in the same tick, with the same next edge. -/
structure SameClock (d e : Dev) : Prop where
  now : e.tim.now = d.tim.now
  count : e.tim.count = d.tim.count
  ticking : e.tim.ticking = d.tim.ticking
  len : e.tim.len = d.tim.len

theorem SameClock.refl (d : Dev) : SameClock d d := ⟨rfl, rfl, rfl, rfl⟩

theorem SameClock.trans {d e f : Dev} (h : SameClock d e) (k : SameClock e f) : SameClock d f :=
  ⟨k.now.trans h.now, k.count.trans h.count, k.ticking.trans h.ticking, k.len.trans h.len⟩

theorem Frame.sameClock {ps : List Part} {d e : Dev} (h : Frame ps d e) (n : .tim ∉ ps := by decide) : SameClock d e :=
  ⟨h.timField n (·.now), h.timField n (·.count), h.timField n (·.ticking), h.timField n (·.len)⟩

theorem SameClock.foldl {α : Type} {g : Dev → α → Dev} {l : List α} {d : Dev} (k : ∀ x y, SameClock x (g x y)) : SameClock d (l.foldl g d) :=
  List.foldlRecOn (motive := SameClock d) _ _ (.refl d) fun e h x _ => h.trans (k e x)

theorem SameClock.nextEdge {d e : Dev} (h : SameClock d e) : e.tim.nextEdge = d.tim.nextEdge := by
  simp only [TimeSt.nextEdge, TimeSt.tickNs, h.now, h.ticking, h.len]

/-! #### Before the edge -/

/-- The parts that the end of a tick reaches. -/
def lastParts : List Part := .flt :: .stk :: .host :: .adm :: evParts

theorem writeDue_frame (d : Dev) (refused : List Nat) (x : Due) : Frame lastParts d (d.writeDue refused x) := by
  unfold Dev.writeDue
  extract_lets p k faulted dropped c dep read
  have hDrop : ∀ e : Dev, Frame lastParts e (e.dropDue x) := fun e => (Frame.adm e _).mono (by decide)
  have hFaulted : Frame lastParts d faulted := .ite ((patronFaults_frame ..).mono (by decide)) (Frame.refl ..)
  have hDropped : Frame lastParts d dropped := (modCq_frame ..).step (by decide) (hFaulted.trans (hDrop _))
  have hRead : Frame lastParts d read := (emits_tame dropped x.peers fun w => .peerRead w.1 w.2 0).frame.step (by decide) hDropped
  clear_value dropped read
  split
  · exact hDrop d
  split
  · exact hDropped
  split
  next load back _ =>
  exact (modCq_frame ..).step (by decide) ((emit_frame ..).step (by decide) ((arbGrant_frame ..).step (by decide) hRead))

theorem writeDues_frame (refused : List Nat) (n : Nat) (d : Dev) : Frame lastParts d (Dev.writeDues refused n d) := by
  induction n generalizing d with
  | zero => exact Frame.refl ..
  | succ n ih =>
    unfold Dev.writeDues
    split
    · exact Frame.refl ..
    · exact (writeDue_frame ..).trans (ih _)

theorem writeLast_frame (d : Dev) (refused : List Nat) : Frame lastParts d (d.writeLast refused) := .ite (writeDues_frame ..) (Frame.refl ..)

theorem loadFeedback_frame (d : Dev) (e : EdgeIn) : Frame [.adm] d (d.loadFeedback e) := Frame.adm d _

theorem heldHeads_frame (d : Dev) : Frame [.ctrs] d d.heldHeads := by
  unfold Dev.heldHeads
  refine (Frame.refl ..).foldl fun e p => ?_
  extract_lets hs gated
  have hGated : Frame [.ctrs] e gated := .ite (count_frame ..) (Frame.refl ..)
  exact hGated.foldl fun f c => .ite (count2_frame ..) (Frame.refl ..)

theorem stallTick_frame (d : Dev) : Frame lastParts d d.stallTick := by
  unfold Dev.stallTick
  extract_lets stalled waiting admSt kept streams jobs last stkSt fltSt
  have hStalled : Frame lastParts d stalled := (Frame.refl ..).foldl fun _ _ => (count2_frame ..).mono (by decide)
  have hKept : Frame lastParts d kept := (Frame.adm stalled _).step (by decide) hStalled
  have hStreams : Frame lastParts d streams := hKept.foldl fun e x => by
    cases e.streamCause x.2 with
    | none => exact Frame.refl ..
    | some c => exact (count2_frame ..).mono (by decide)
  have hLast : Frame lastParts d last := hStreams.foldl fun _ _ => (count2_frame ..).mono (by decide)
  exact (Frame.flt { last with stk := { last.stk with retrying := [] } } _).step (by decide) ((Frame.stk last _).step (by decide) hLast)

theorem moveArbs_adopt (d : Dev) : d.moveArbs.tim.adopt = d.tim.adopt := rfl

theorem moveArbs_clock (d : Dev) : SameClock d d.moveArbs := ⟨rfl, rfl, rfl, rfl⟩

/-! #### Settings and refills of the tick that opens -/

theorem correct_clock (d : Dev) (off delta : Int) : SameClock d (d.correct off delta) := by
  unfold Dev.correct
  extract_lets noted good lock led
  split
  · exact ⟨rfl, rfl, rfl, rfl⟩
  split
  · split <;> exact ⟨rfl, rfl, rfl, rfl⟩
  · exact ⟨rfl, rfl, rfl, rfl⟩

theorem loadFree_clock (d : Dev) : SameClock d d.loadFree := by
  unfold Dev.loadFree
  split
  · exact ⟨rfl, rfl, rfl, rfl⟩
  split
  · exact .refl d
  · split
    · exact .refl d
    · next arrival v _ =>
      have loaded : SameClock d { d with tim := { d.tim with freeLoaded := true, tod := [] } } := ⟨rfl, rfl, rfl, rfl⟩
      exact loaded.trans (correct_clock ..)

theorem regStored_clock (d : Dev) (a old : Nat) : SameClock d (d.regStored a old) := by
  unfold Dev.regStored
  extract_lets w pos
  split
  · split
    · exact .refl d
    · exact ⟨rfl, rfl, rfl, rfl⟩
  split
  · exact ⟨rfl, rfl, rfl, rfl⟩
  split
  · exact .foldl fun e k => (enablePort_spares e k).frame.sameClock
  split
  · exact .foldl fun e x => (askRebuild_spares e x _).frame.sameClock
  · exact .refl d

theorem storeNow_clock (d : Dev) (a cold w : Nat) : SameClock d (d.storeNow a cold w) := by
  unfold Dev.storeNow
  extract_lets old
  split
  · exact .refl d
  · exact (setRegWord_frame ..).sameClock.trans (regStored_clock ..)

theorem applyWrites_clock (d : Dev) : SameClock d d.applyWrites := by
  unfold Dev.applyWrites
  have taken : SameClock d { d with pendRegs := [] } := ⟨rfl, rfl, rfl, rfl⟩
  exact taken.trans (.foldl fun e x => storeNow_clock ..)

/-! #### The new budget -/

/-- A tick that has just opened: nothing is admitted or charged in it. -/
structure Fresh (d : Dev) : Prop where
  count : d.adm.count = 0
  charge : d.adm.charge = 0
  filter : d.adm.filter = []
  admitted : d.adm.admitted = []

theorem Spares.fresh {ps : List Part} {d e : Dev} (h : Spares ps d e) (k : Fresh d) : Fresh e :=
  ⟨(h.field (·.count)).trans k.count, (h.field (·.charge)).trans k.charge, (h.field (·.filter)).trans k.filter, (h.field (·.admitted)).trans k.admitted⟩

/-- An operation that keeps device time and lets a fresh tick stay fresh. -/
structure StaysFresh (d e : Dev) : Prop where
  clock : SameClock d e
  fresh : Fresh d → Fresh e

theorem Spares.staysFresh {ps : List Part} {d e : Dev} (h : Spares ps d e) (tim : .tim ∉ ps := by decide) : StaysFresh d e :=
  ⟨h.frame.sameClock tim, h.fresh⟩

theorem StaysFresh.trans {d e f : Dev} (h : StaysFresh d e) (k : StaysFresh e f) : StaysFresh d f :=
  ⟨h.clock.trans k.clock, fun x => k.fresh (h.fresh x)⟩

theorem StaysFresh.foldl {α : Type} {g : Dev → α → Dev} {l : List α} {d e : Dev} (h : StaysFresh d e) (k : ∀ x y, StaysFresh x (g x y)) :
    StaysFresh d (l.foldl g e) :=
  List.foldlRecOn (motive := StaysFresh d) _ _ h fun e h x _ => h.trans (k e x)

theorem abandon_fresh (d : Dev) (p : Nat) (answer : Bool) : StaysFresh d (d.abandon p answer) := by
  unfold Dev.abandon
  extract_lets qs keep admSt closed given
  have hClosed : StaysFresh d closed := ⟨⟨rfl, rfl, rfl, rfl⟩, fun h => ⟨h.count, h.charge, h.filter, congrArg keep h.admitted⟩⟩
  have completed : ∀ (e : Dev) (q : Req) (a : Ans) (c : Bool), StaysFresh e (if c then e.complete q a else e) := fun e q a c => by
    split
    · exact (complete_spares ..).staysFresh
    · exact (Spares.refl [] e).staysFresh
  have hGiven : StaysFresh d given := hClosed.foldl fun e q => by
    extract_lets left
    have walks : Frame [.seqs, .fab] e left := (dropFetch_frame ..).step (by decide)
      (Frame.foldl ((dropResv_frame ..).mono (by decide)) fun _ _ => (endWalk_frame ..).mono (by decide))
    exact walks.spares.staysFresh.trans (completed ..)
  refine hGiven.foldl fun e x => ?_
  split
  · split
    · exact (Spares.refl [] e).staysFresh
    · exact (modJob_frame ..).spares.staysFresh.trans (completed ..)
  · exact (Spares.refl [] e).staysFresh

theorem abandonAll_fresh (d : Dev) : StaysFresh d d.abandonAll := by
  unfold Dev.abandonAll
  refine (Spares.refl [] d).staysFresh.foldl fun e p => ?_
  split
  · exact abandon_fresh ..
  · exact abandon_fresh ..
  · exact (Spares.refl [] e).staysFresh

theorem sealSet_clock (d : Dev) : SameClock d d.sealSet := by
  unfold Dev.sealSet
  extract_lets counted admSt emptied
  have hEmptied : SameClock d emptied := (count_frame d _ _ _).sameClock.trans (Frame.adm counted _).sameClock
  clear_value emptied
  split
  · exact hEmptied
  · split
    · exact hEmptied.trans (Frame.adm emptied _).sameClock
    · exact hEmptied.trans ((Frame.arbs emptied _).sameClock.trans (Frame.adm _ _).sameClock)

theorem sealSet_fresh (d : Dev) : Fresh d.sealSet := by
  unfold Dev.sealSet
  extract_lets counted admSt emptied
  split
  · exact ⟨rfl, rfl, rfl, rfl⟩
  · split <;> exact ⟨rfl, rfl, rfl, rfl⟩

theorem edgeCounts_frame (d : Dev) : Frame [.ctrs] d d.edgeCounts := by
  unfold Dev.edgeCounts
  extract_lets shaped aer full
  have hShaped : Frame [.ctrs] d shaped := (Frame.refl ..).foldl fun _ _ => count_frame ..
  have hAer : Frame [.ctrs] d aer := hShaped.trans (count2_frame ..)
  have hFull : Frame [.ctrs] d full := .ite (hAer.trans (count_frame ..)) hAer
  exact hFull.foldl fun _ _ => count_frame ..

theorem readReleased_frame (d : Dev) (e : EdgeIn) : Frame [.tier] d (d.readReleased e) := Frame.tier d _

/-- What follows the sealing in the admission phase. -/
theorem sealed_stays (d : Dev) (e : EdgeIn) : StaysFresh d (d.flushEgress.edgeCounts.abandonAll.readReleased e).eventMsix :=
  ((flushEgress_spares d).staysFresh.trans ((edgeCounts_frame _).spares.staysFresh.trans (abandonAll_fresh _))).trans
    (((readReleased_frame _ e).spares.staysFresh).trans (eventMsix_frame _).spares.staysFresh)

/-- The tick that opens: device time stands, nothing is admitted in it, and its admission phase is in force. -/
structure Opens (d e : Dev) : Prop where
  clock : SameClock d e
  fresh : Fresh e
  phase : e.tim.phase = .admission

theorem openTick_opens (d : Dev) (e : EdgeIn) : Opens d (d.openTick e) := by
  unfold Dev.openTick
  extract_lets loaded admSt kept opened
  have hLoaded : SameClock d loaded := ((((applyWrites_clock d).trans (loadFree_clock _)).trans (refillAll_spares ..).frame.sameClock).trans
    (recalcBudgets_frame ..).sameClock).trans (refreshWaiting_tame ..).frame.sameClock
  have hKept : SameClock d kept := hLoaded.trans (Frame.adm loaded _).sameClock
  have hSealed : SameClock d kept.refillGovernor.sealSet := (hKept.trans (refillGovernor_frame ..).sameClock).trans (sealSet_clock ..)
  have fresh : Fresh kept.refillGovernor.sealSet := sealSet_fresh ..
  clear_value kept
  obtain ⟨clock, stays⟩ := sealed_stays kept.refillGovernor.sealSet e
  have hOpened : SameClock d opened := hSealed.trans clock
  have hFresh : Fresh opened := stays fresh
  clear_value opened
  exact ⟨⟨hOpened.now, hOpened.count, hOpened.ticking, hOpened.len⟩, ⟨hFresh.count, hFresh.charge, hFresh.filter, hFresh.admitted⟩, rfl⟩

theorem Opens.spares {ps : List Part} {d e f : Dev} (h : Opens d e) (k : Spares ps e f) (tim : .tim ∉ ps := by decide) : Opens d f :=
  ⟨h.clock.trans (k.frame.sameClock tim), k.fresh h.fresh, (k.frame.timField tim (·.phase)).trans h.phase⟩

/-! #### The edge -/

theorem halted_edge {s : State} (e : EdgeIn) (runs : s.dev.edgesRun = true) (halted : s.dev.halted = true) :
    s.tickEdge e = { s with dev := s.dev.advance } := by
  simp only [State.tickEdge, runs, halted]
  rfl

theorem advance_frame (d : Dev) : Frame [.tim] d d.advance := Frame.tim_only d _ rfl

theorem advance_adopt (d : Dev) : d.advance.tim.adopt = d.tim.adopt := rfl

theorem advance_ticks {d : Dev} (ticking : d.tim.ticking = true) :
    d.advance.tim.count = d.tim.count + 1 ∧ d.advance.tim.now = d.tim.nextEdge ∧ d.advance.tim.ticking = true :=
  ⟨if_pos ticking, rfl, rfl⟩

theorem adoptTime_none {d : Dev} (none : d.tim.adopt = none) : d.adoptTime = d := by
  simp only [Dev.adoptTime, none]

/-- What the tick that ends leaves of device time before the edge. -/
theorem lastTick_clock (d : Dev) (e : EdgeIn) : SameClock d (((d.writeLast e.refused).loadFeedback e).heldHeads).stallTick.moveArbs
    ∧ (((d.writeLast e.refused).loadFeedback e).heldHeads).stallTick.moveArbs.tim.adopt = d.tim.adopt := by
  have last : Frame lastParts d (((d.writeLast e.refused).loadFeedback e).heldHeads).stallTick := (stallTick_frame _).step (by decide)
    ((heldHeads_frame _).step (by decide) ((loadFeedback_frame _ e).step (by decide) (writeLast_frame d e.refused)))
  exact ⟨last.sameClock.trans (moveArbs_clock _), (moveArbs_adopt _).trans (last.timField (by decide) (·.adopt))⟩

theorem running_edge {s : State} (e : EdgeIn) (runs : s.dev.edgesRun = true) (up : s.dev.halted = false) (ticking : s.dev.tim.ticking = true)
    (known : s.dev.tim.adopt = none) : ∃ d : Dev, SameClock s.dev d
      ∧ s.tickEdge e = ({ s with dev := d.advance.openTick e }).rebuildStep.openService := by
  obtain ⟨clock, adopt⟩ := lastTick_clock s.dev e
  have still : ((s.dev.writeLast e.refused).tim.ticking) = true := ((writeLast_frame ..).sameClock.ticking).trans ticking
  refine ⟨_, clock, ?_⟩
  have unknown := (advance_adopt _).trans (adopt.trans known)
  simp only [State.tickEdge, runs, up, still, Bool.not_true, Bool.false_eq_true, if_false, if_true, adoptTime_none unknown]

/-- Settles O34: before the edge the tick that ends moves no clock; the edge advances it; the admission phase seals the set, which leaves the new
tick's budget fresh, and what follows in it reaches neither the clock nor the budget. A stopped device only advances. -/
theorem tickEdgeRow : Obligations.TickEdgeRow := by
  unfold Obligations.TickEdgeRow
  intro s e
  refine ⟨fun runs up ticking known => ?runs, fun runs halted ticking => ?stopped, fun before => ?early⟩
  case runs =>
    refine .of_exec rfl ?_
    obtain ⟨d, clock, run⟩ := running_edge e runs up ticking known
    have kept := (State.tickEdge_kept s e).1
    obtain ⟨count, now, ticks⟩ := advance_ticks (clock.ticking.trans ticking)
    rw [run] at kept ⊢
    obtain ⟨same, fresh, phase⟩ := ((openTick_opens d.advance e).spares (rebuildStep_spares { s with dev := d.advance.openTick e })).spares (openService_spares _)
    exact ⟨same.count.trans (count.trans (congrArg (· + 1) clock.count)), same.now.trans (now.trans clock.nextEdge), same.ticking.trans ticks, phase,
      fresh.count, fresh.charge, fresh.filter, fresh.admitted, kept⟩
  case stopped =>
    refine .of_exec (congrArg Host.Outcome.next (halted_edge e runs halted)) ?_
    obtain ⟨count, now, -⟩ := advance_ticks ticking
    exact ⟨count, now, .of_frame (advance_frame _)⟩
  case early =>
    exact congrArg Host.Outcome.next (if_pos (by simp [before]))

end Sys2Proof.Safety
end

section
/-! ### Region operations at the home (R386, R389, R397, R400, R402) -/

namespace Sys2Proof.Safety

open Sys2Proof.Machine

/-! #### The operations -/

/-- What an operation at the home comes to: memory and queue stand, and the record of the region is one of which `P` holds. -/
structure LeavesRecord (x : Nat) (P : Region → Prop) (s t : State) : Prop where
  record : ∃ r, tget t.dev.rgn.slots x = some r ∧ P r
  mem : t.mem = s.mem
  pending : t.pending = s.pending

/-- What a PUBLISH leaves of a record, besides its version. -/
def published (r : Region) : Nat × Nat × List Grant × Nat := (r.version, r.versionTick, r.grants, r.size)

theorem homePublish_publishes {s : State} {k : Nat} {j : Job} {r : Region} (here : tget s.dev.rgn.slots (j.x.object / 64) = some r)
    (there : s.dev.regionOf (regionAddr j.x.object + versionOff) = some r) (primary : r.mirror = false) (live : r.live = none)
    (valid : r.revoked j.dev j.x.patron = false) (may : r.grants_ j.dev j.x.patron 3 none = true) (version : j.x.fld 0 0 64 = r.version) :
    LeavesRecord (j.x.object / 64) (fun r' => r'.version = r.version + 1 ∧ r'.versionTick = s.dev.tim.count ∧ r'.grants = r.grants
      ∧ r'.size = r.size) s (s.homePublish k j) := by
  unfold State.homePublish
  extract_lets x slot addr refuse line
  clear_value refuse line
  split
  · next none => exact absurd (there.symm.trans none) nofun
  next r' same =>
  obtain rfl : r = r' := Option.some.inj (there.symm.trans same)
  rw [if_neg (by simp [primary])]
  split
  · next st dead => exact absurd (live.symm.trans dead) nofun
  rw [if_neg (by simp [valid, may, x]), if_neg (by simp [version, x])]
  extract_lets v d h
  have raised : tget d.rgn.slots slot = some { r with version := v, versionTick := s.dev.tim.count } := record_modRegion here _
  clear_value d h
  have updated := dirUpdate_spares d line d.devNo (r.kind == 2)
  split
  next held e update =>
  rw [update] at updated
  extract_lets m
  have mirrored := mirrorWrite_records (g := published) (fun _ _ => rfl) e slot 0x08 (addr % 2 ^ 50) m
    (leBytes 8 v ++ leBytes 8 e.tim.count ++ List.replicate 48 0)
  split
  next t f mirror =>
  rw [mirror] at mirrored
  extract_lets asked rsp fabSt
  have kept : SameRecords published d asked := updated.sameRecords.trans (mirrored.trans (modJob_frame ..).sameRecords)
  clear_value asked
  have answered : ∀ fab : FabSt, SameRecords published d ({ asked with fab } : Dev).flushHeld := fun fab =>
    kept.trans ((Frame.fab asked fab).sameRecords.trans (flushHeld_spares _).sameRecords)
  obtain ⟨r', record, same⟩ := (answered { asked.fab with heldRsp := asked.fab.heldRsp ++ [rsp] }).record raised
  obtain ⟨hVersion, hTick, hGrants, hSize⟩ : _ ∧ _ ∧ _ ∧ _ := by simpa [published] using same
  exact ⟨⟨r', record, hVersion, hTick, hGrants, hSize⟩, rfl, rfl⟩

theorem homePublish_leaves {s : State} {k : Nat} {j : Job} {r : Region} (small : j.x.object < 2 ^ 18)
    (known : s.dev.regionOf (regionAddr j.x.object) = some r) (primary : r.mirror = false) (live : r.live = none)
    (valid : r.revoked j.dev j.x.patron = false) (may : r.grants_ j.dev j.x.patron 3 none = true) (version : j.x.fld 0 0 64 = r.version) :
    LeavesRecord (j.x.object / 64) (fun r' => r'.version = r.version + 1 ∧ r'.versionTick = s.dev.tim.count ∧ r'.grants = r.grants
      ∧ r'.size = r.size) s (s.homePublish k j) :=
  homePublish_publishes (record_of_regionOf small known) (regionOf_version small known) primary live valid may version

/-- The grant that a REGION_GRANT describes. -/
def grantOf (x : DescIn) : Grant := { dev := x.fld 0 0 6, patron := x.fld 1 0 6, rights := x.fld 2 0 4, first := x.fld 4 0 32, count := x.fld 8 0 32 }

theorem homeGrant_leaves {s : State} {k : Nat} {j : Job} {r : Region} (small : j.x.object < 2 ^ 18)
    (known : s.dev.regionOf (regionAddr j.x.object) = some r) (live : r.live = none) (led : r.orphan = false) (kind : r.kind ≠ 0)
    (other : r.isOwner (j.x.fld 0 0 6) (j.x.fld 1 0 6) = false) (reading : r.kind = 2 → j.x.fld 2 0 4 = 1)
    (first : j.x.fld 4 0 32 < r.unitCount) (last : j.x.fld 4 0 32 + j.x.fld 8 0 32 ≤ r.unitCount) (alone : r.grants = [])
    (ranges : s.dev.rangeEntries < 65536) (maps : s.dev.rgn.maps.length < 16384) :
    LeavesRecord (j.x.object / 64) (fun r' => r'.grants = [grantOf j.x]) s (s.homeGrant k j) := by
  unfold State.homeGrant
  extract_lets x slot dev p rights f n g
  have here : tget s.dev.rgn.slots slot = some r := record_of_regionOf small known
  split
  · next none => exact absurd (known.symm.trans none) nofun
  next r' same =>
  obtain rfl : r = r' := Option.some.inj (known.symm.trans same)
  extract_lets entry i d
  split
  · next st dead => exact absurd (live.symm.trans dead) nofun
  have noEntry : entry = none := by simp [entry, alone]
  rw [if_neg (by simp [Dev.mayAdmin, led]), if_neg kind, if_neg (by simp [other, dev, p, x]), if_neg (by intro h; exact h.2 (reading h.1)),
    if_neg (by simp only [f, x]; omega), if_neg (by simp only [f, n, x]; omega),
    if_neg (by simp only [alone, List.length_nil]; omega), if_neg (by omega)]
  have granted : tget d.rgn.slots slot = some { r with grants := [g] } := by
    have step := record_modRegion here fun r => { r with grants := if entry.isSome then r.grants.set i g else r.grants ++ [g] }
    rw [show d = _ from rfl, step, noEntry, alone]
    rfl
  clear_value d
  have told := mapNotice_records (·.grants) d r dev p rights f n (some k)
  split
  next w e notice =>
  rw [notice] at told
  obtain ⟨r', record, same⟩ := (told.trans ((modJob_frame e k _).sameRecords.trans (settleJob_records _ _ k))).record granted
  exact ⟨⟨r', record, same⟩, rfl, rfl⟩

/-- What a revoke point leaves of a record. -/
def marked (r : Region) : List Grant × Option (Nat × Nat) × Bool × Nat := (r.grants, r.target, r.destroy, r.st)

/-- The grants that a revoke point takes away: those of its target, or of everyone. -/
def hitBy (r : Region) (target : Option (Nat × Nat)) (destroy : Bool) (g : Grant) : Bool :=
  match target with
  | some (a, b) => g.dev == a && g.patron == b
  | none => destroy || !(r.isOwner g.dev g.patron)

/-- A record behind a revoke point (R401, R402). -/
structure RevokedAs (r : Region) (target : Option (Nat × Nat)) (destroy : Bool) (r' : Region) : Prop where
  grants : r'.grants = r.grants.map fun g => if hitBy r target destroy g then { g with revoking := true } else g
  reach : r'.target = target
  whole : r'.destroy = destroy
  st : r'.st = if destroy then 5 else r.st

/-- Nothing waits in a window: closing the windows only ends them. -/
theorem closeHome_none {s : State} (calm : s.dev.fab.homeComb = []) (f : HomeComb → Bool) :
    (s.closeHome f).mem = s.mem ∧ (s.closeHome f).pending = s.pending ∧ (s.closeHome f).dev.rgn = s.dev.rgn := by
  simp only [State.closeHome, calm, List.filter_nil, List.flatMap_nil, List.foldl_nil]
  exact ⟨rfl, rfl, rfl⟩

theorem revokePoint_leaves {s : State} {x : Nat} {r : Region} (k : Nat) (target : Option (Nat × Nat)) (destroy : Bool)
    (known : tget s.dev.rgn.slots x = some r) (calm : s.dev.fab.homeComb = []) :
    LeavesRecord x (RevokedAs r target destroy) s (s.revokePoint k x target destroy) := by
  unfold State.revokePoint
  extract_lets t
  obtain ⟨mem, pending, rgn⟩ : t.mem = s.mem ∧ t.pending = s.pending ∧ t.dev.rgn = s.dev.rgn := closeHome_none calm _
  have here : tget t.dev.rgn.slots x = some r := by rw [rgn]; exact known
  clear_value t
  split
  · next gone => exact absurd (here.symm.trans gone) nofun
  next r' same =>
  obtain rfl : r = r' := Option.some.inj (here.symm.trans same)
  extract_lets hit gs who point told mine near my gone kept ends run loads rsps n pass held jobs dir fabSt counted final answered
  have revoked : ∃ r', tget point.rgn.slots x = some r' ∧ RevokedAs r target destroy r' := ⟨_, record_modRegion here _, rfl, rfl, rfl, rfl⟩
  have hTold : SameRecords marked point told := (SameRecords.refl ..).foldl fun _ _ => mapNotice_records ..
  clear_value point told
  have hFinal : SameRecords marked point final :=
    (hTold.trans (Frame.fab told _).sameRecords).trans (modRegion_sameRecords counted x fun _ => rfl)
  have refused : ∀ (e : Dev) (m : Msg), SameRecords marked e (e.countRefusal m stRevoked) := fun e m => countRefusal_records (fun _ _ => rfl) ..
  have hAnswered : SameRecords marked point answered := hFinal.foldl fun e h => (refused e h.m).trans (answer_spares ..).sameRecords
  clear_value answered ends
  obtain ⟨hMem, hPending, hRecords⟩ : SameRun marked { t with dev := answered } _ := SameRun.foldl (l := ends)
    (op := fun (u : State) i => match tget u.dev.fab.jobs i with
      | some j => (u.onDev fun d => d.countRefusal { source := j.dev + 64 * j.x.patron, addr := regionAddr r.id } stRevoked).endJob i { status := stRevoked }
      | none => u) fun u i => by
    split
    · next j _ => exact ⟨rfl, rfl, (refused ..).trans
        (endJob_spares (u.onDev fun d => d.countRefusal { source := j.dev + 64 * j.x.patron, addr := regionAddr r.id } stRevoked) i _).sameRecords⟩
    · exact ⟨rfl, rfl, .refl ..⟩
  obtain ⟨r₁, record₁, as⟩ := revoked
  obtain ⟨r₂, record₂, same⟩ := (hAnswered.trans hRecords).record record₁
  obtain ⟨hGrants, hTarget, hDestroy, hSt⟩ : _ ∧ _ ∧ _ ∧ _ := by simpa [marked] using same
  exact ⟨⟨r₂, record₂, hGrants.trans as.grants, hTarget.trans as.reach, hDestroy.trans as.whole, hSt.trans as.st⟩, hMem.trans mem, hPending.trans pending⟩

theorem LeavesRecord.imp {x : Nat} {P Q : Region → Prop} {s t : State} (h : LeavesRecord x P s t) (w : ∀ r, P r → Q r) : LeavesRecord x Q s t :=
  let ⟨⟨r, record, holds⟩, mem, pending⟩ := h
  ⟨⟨r, record, w r holds⟩, mem, pending⟩

theorem homeRevoke_leaves {s : State} {k : Nat} {j : Job} {r : Region} {g : Grant} (small : j.x.object < 2 ^ 18)
    (known : s.dev.regionOf (regionAddr j.x.object) = some r) (live : r.live = none) (one : j.x.fld 2 0 1 = 0)
    (may : (j.dev = s.dev.devNo ∧ j.x.patron = 0) ∨ (r.isOwner j.dev j.x.patron = true ∧ r.orphan = false))
    (other : r.isOwner (j.x.fld 0 0 6) (j.x.fld 1 0 6) = false) (alone : r.grants = [g]) (dev : g.dev = j.x.fld 0 0 6)
    (patron : g.patron = j.x.fld 1 0 6) (holds : g.revoking = false) (free : r.revoke = none) (calm : s.dev.fab.homeComb = []) :
    LeavesRecord (j.x.object / 64) (RevokedAs r (some (j.x.fld 0 0 6, j.x.fld 1 0 6)) false) s (s.homeRevoke k j) := by
  unfold State.homeRevoke
  extract_lets x slot all v p home t
  have here : tget s.dev.rgn.slots slot = some r := record_of_regionOf small known
  split
  · next none => exact absurd (known.symm.trans none) nofun
  next r' same =>
  obtain rfl : r = r' := Option.some.inj (known.symm.trans same)
  have hAll : all = false := by simp [all, x, one]
  have hMay : (home || (r.isOwner j.dev x.patron && !r.orphan)) = true := by
    rcases may with ⟨hDev, hPatron⟩ | ⟨owner, led⟩
    · simp [home, hDev, hPatron]
    · simp [x, owner, led]
  rw [hMay, if_neg (by decide)]
  split
  · next st dead => exact absurd (live.symm.trans dead) nofun
  rw [if_neg (by simp [other, v, p, x]), if_neg (by simp [alone, dev, patron, holds, v, p, x]), if_neg (by simp [free]), hAll]
  obtain ⟨record, mem, pending⟩ := revokePoint_leaves (s := t) k (some (v, p)) false here calm
  exact ⟨record, mem, pending⟩

theorem homeDestroy_leaves {s : State} {k : Nat} {j : Job} {r : Region} (small : j.x.object < 2 ^ 18)
    (known : s.dev.regionOf (regionAddr j.x.object) = some r) (live : r.live = none) (led : r.orphan = false)
    (own : r.id % 64 = s.dev.devNo) (free : r.revoke = none) (calm : s.dev.fab.homeComb = []) :
    LeavesRecord (j.x.object / 64) (RevokedAs r none true) s (s.homeDestroy k j) := by
  unfold State.homeDestroy
  extract_lets slot
  have here : tget s.dev.rgn.slots slot = some r := record_of_regionOf small known
  have notDestroying : r.st ≠ 5 := fun st => by simp [Region.live, st] at live
  split
  · next none => exact absurd (known.symm.trans none) nofun
  next r' same =>
  obtain rfl : r = r' := Option.some.inj (known.symm.trans same)
  rw [if_neg (by simp [Dev.mayAdmin, led]), if_neg (by simp [own]), if_neg notDestroying, if_neg (by simp [free])]
  obtain ⟨record, mem, pending⟩ := revokePoint_leaves (s := s.onDev fun d => d.modJob k fun j => { j with wait := 1 }) k none true here calm
  exact ⟨record, mem, pending⟩

theorem createMap_records {β : Type} (g : Region → β) (d : Dev) (k x : Nat) : SameRecords g d (d.createMap k x) := by
  unfold Dev.createMap
  split
  · exact .refl ..
  next r _ =>
  have told := mapNotice_records g d r r.ownerDev r.ownerPatron 15 0 r.unitCount (some k)
  split
  next w e notice =>
  rw [notice] at told
  exact told.trans ((modJob_frame ..).sameRecords.trans (settleJob_records ..))

theorem homeCreate_leaves {s : State} {k : Nat} {j : Job} (absent : tget s.dev.rgn.slots (j.x.object / 64) = none)
    (plain : (regionFrom j.x j.x.object).durable = false) (volume : s.dev.volumeOk (regionFrom j.x j.x.object) = true)
    (ranges : s.dev.rangeEntries < 65536) :
    LeavesRecord (j.x.object / 64) (fun r' => r' = regionFrom j.x j.x.object) s (s.homeCreate k j) := by
  unfold State.homeCreate
  extract_lets id x r asMirror t d
  have kind : r.kind ≠ 3 := fun three => absurd (show r.durable = true by simpa [Region.durable, Region.kind] using three) (by simp [r, id, plain])
  have notMirror : asMirror = false := by simp [asMirror, r, id, plain]
  have same : t = s := if_neg (by simp [notMirror])
  rw [if_neg (by simp [d, same, x, id, absent]), if_neg (by simp [d, same, r, id, volume]), if_neg (by simp [notMirror]),
    if_neg (fun h => kind h.1), if_neg (by simp only [d, same]; omega)]
  have made : d.putRegionRec x r = .made (d.putSlot x r) := if_neg (by simp [r, id, plain])
  rw [made]
  dsimp only
  rw [if_neg kind, same]
  have put : tget (d.putSlot x r).rgn.slots x = some r := tget_tset_same ..
  obtain ⟨r', record, eq⟩ := (createMap_records (fun r => r) (d.putSlot x r) k x).record put
  exact ⟨⟨r', record, eq⟩, rfl, rfl⟩

/-! #### The rows -/

section
variable {s : State} {k : Nat} {j : Job} (hint : State → Nat → Job → State) (job : tget s.dev.fab.jobs k = some j)
include job

theorem homeRegionOp_publish (op : j.op = 0x34) : s.homeRegionOp hint k = s.homePublish k j := by simp [State.homeRegionOp, job, op]
theorem homeRegionOp_revoke (op : j.op = 0x35) : s.homeRegionOp hint k = s.homeRevoke k j := by simp [State.homeRegionOp, job, op]
theorem homeRegionOp_create (op : j.op = 0x86) : s.homeRegionOp hint k = s.homeCreate k j := by simp [State.homeRegionOp, job, op]
theorem homeRegionOp_grant (op : j.op = 0x87) : s.homeRegionOp hint k = s.homeGrant k j := by simp [State.homeRegionOp, job, op]
theorem homeRegionOp_destroy (op : j.op = 0x88) : s.homeRegionOp hint k = s.homeDestroy k j := by simp [State.homeRegionOp, job, op]

end

/-- A state in which the home executes a granted descriptor of its own. -/
structure HomeJob (s : State) (op : Nat) (x : DescIn) (t : State) (k : Nat) (j : Job) : Prop where
  job : tget t.dev.fab.jobs k = some j
  op : j.op = op
  body : j.x = x
  dev : j.dev = t.dev.devNo
  here : t.dev.devNo = s.dev.devNo
  rgn : t.dev.rgn = s.dev.rgn
  stk : t.dev.stk = s.dev.stk
  tim : t.dev.tim = s.dev.tim
  comb : t.dev.fab.homeComb = s.dev.fab.homeComb
  mem : t.mem = s.mem
  pending : t.pending = s.pending

theorem jobState_homeJob (s : State) (op : Nat) (x : DescIn) :
    HomeJob s op x (jobState (grantedState s op x) (ran s op x) x.object)
      ((granted s op x).2.newJob (regionJob (granted s op x).2 (ran s op x) x.object)).1 (regionJob (granted s op x).2 (ran s op x) x.object) where
  job := jobState_job ..
  op := rfl
  body := rfl
  dev := rfl
  here := granted_devNo s op x
  rgn := granted_rgn s op x
  stk := granted_stk s op x
  tim := granted_tim s op x
  comb := by
    rw [← granted_fab s op x]
    rfl
  mem := rfl
  pending := rfl

/-- A region descriptor served here comes to what its operation leaves of the record. -/
theorem After.of_home {c : Instr} {s : State} {op : Nat} {x : DescIn} {P : Region → Prop} (run : exec c s = .next (s.descriptor op x))
    (h : Grants s op x) (plain : plainOp op = true) (serves : s.dev.servesRegion x.object = s.dev.devNo)
    (code : (grantedState s op x).runOp (ran s op x) = ((grantedState s op x).opRegion State.homeHint (ran s op x) x.object).byItself)
    (leaves : ∀ t k j, HomeJob s op x t k j → LeavesRecord (x.object / 64) P t (t.homeRegionOp State.homeHint k)) :
    After c s fun t => (∃ r', tget t.dev.rgn.slots (x.object / 64) = some r' ∧ P r') ∧ t.mem = s.mem ∧ t.pending = s.pending := by
  refine ⟨_, run, ?_⟩
  have here : (grantedState s op x).dev.servesRegion x.object = (grantedState s op x).dev.devNo :=
    ((servesRegion_of (granted_rgn s op x) (granted_fab ..) _).trans serves).trans (granted_devNo s op x).symm
  rw [descriptor_plain h plain, code, opRegion_home State.homeHint _ here]
  obtain ⟨record, mem, pending⟩ := leaves _ _ _ (jobState_homeJob s op x)
  exact ⟨record, mem, pending⟩

/-- The descriptors of a home name a REGION_ID: their form says so. -/
theorem object_small {s : State} {op : Nat} {x : DescIn} {f : Form} (h : Grants s op x) (form : (granted s op x).2.fetchCheck op x = f.check x)
    (object : f.object = isRegionId) : x.object < 2 ^ 18 := by
  have passes := (check_passes (form.symm.trans h.form)).object
  rw [object] at passes
  exact of_decide_eq_true passes

theorem rangeEntries_of {d e : Dev} (rgn : e.rgn = d.rgn) : e.rangeEntries = d.rangeEntries := by simp only [Dev.rangeEntries, rgn]

/-- Settles O30: the job runs at its home at once, and each operation changes the record that it names; what follows it — the mirror's write,
notices, held responses, ended requests — reads no more of the record than the statement lets it. -/
theorem regionRowsAtHome : Obligations.RegionRowsAtHome := by
  unfold Obligations.RegionRowsAtHome
  intro s x
  refine ⟨fun r here primary live => ⟨fun h valid may closed version => ?publish, fun h led kind other reading first last alone ranges maps => ?grant,
    fun g h one may other alone dev patron holds free calm => ?revoke, fun h led own free calm => ?destroy⟩,
    fun h serves absent plain volume ranges => ?create⟩
  case publish =>
    have small : x.object < 2 ^ 18 := object_small (f := formPublish) h rfl rfl
    have open_ := (writesOpen_of (granted_fab s 0x34 x) (granted_boot ..) x.patron x.object).trans closed
    refine .of_home rfl h rfl here.1 (if_neg (by rw [Bool.not_eq_true]; exact open_)) fun t k j job => ?_
    rw [homeRegionOp_publish _ job.job job.op]
    obtain rfl := job.body
    have leaves := homePublish_leaves (s := t) (k := k) (j := j) (r := r) small ((regionOf_of job.rgn _).trans here.2) primary live
      (by rw [job.dev, job.here]; exact valid) (by rw [job.dev, job.here]; exact may) version
    rw [job.tim] at leaves
    exact leaves
  case grant =>
    have small : x.object < 2 ^ 18 := object_small (f := formRegionGrant _) h rfl rfl
    refine .of_home rfl h rfl here.1 rfl fun t k j job => ?_
    rw [homeRegionOp_grant _ job.job job.op]
    obtain rfl := job.body
    exact homeGrant_leaves (s := t) (k := k) (j := j) (r := r) small ((regionOf_of job.rgn _).trans here.2) live led kind other reading first last
      alone ((rangeEntries_of job.rgn).trans_lt ranges) (by rw [job.rgn]; exact maps)
  case revoke =>
    have small : x.object < 2 ^ 18 := object_small (f := formRevoke) h rfl rfl
    have run := After.of_home (c := .revoke x) (P := RevokedAs r (some (x.fld 0 0 6, x.fld 1 0 6)) false) rfl h rfl here.1 rfl fun t k j job => by
      rw [homeRegionOp_revoke _ job.job job.op]
      obtain rfl := job.body
      exact homeRevoke_leaves (s := t) (k := k) (j := j) (r := r) small ((regionOf_of job.rgn _).trans here.2) live one
        (may.imp (⟨job.dev, ·⟩) fun owner => ⟨by rw [job.dev, job.here]; exact owner.1, owner.2⟩) other alone dev patron holds free (job.comb.trans calm)
    obtain ⟨t, ran, ⟨r', record, as⟩, mem, pending⟩ := run
    refine ⟨t, ran, ⟨r', record, ?_, as.reach, as.st⟩, mem, pending⟩
    rw [as.grants, alone]
    simp [hitBy, dev, patron]
  case destroy =>
    have small : x.object < 2 ^ 18 := object_small (f := formRegionDestroy) h rfl rfl
    have run := After.of_home (c := .regionDestroy x) (P := RevokedAs r none true) rfl h rfl here.1 rfl fun t k j job => by
      rw [homeRegionOp_destroy _ job.job job.op]
      obtain rfl := job.body
      exact homeDestroy_leaves (s := t) (k := k) (j := j) (r := r) small ((regionOf_of job.rgn _).trans here.2) live led (own.trans job.here.symm) free
        (job.comb.trans calm)
    obtain ⟨t, ran, ⟨r', record, as⟩, mem, pending⟩ := run
    refine ⟨t, ran, ⟨r', record, as.st, as.whole, fun g mem => ?_⟩, mem, pending⟩
    rw [as.grants] at mem
    obtain ⟨g', -, rfl⟩ := List.mem_map.mp mem
    rfl
  case create =>
    have run := After.of_home (c := .regionCreate x) (P := fun r' => r' = regionFrom x x.object) rfl h rfl serves rfl fun t k j job => by
      rw [homeRegionOp_create _ job.job job.op]
      obtain rfl := job.body
      refine homeCreate_leaves (s := t) (k := k) (j := j) (by rw [job.rgn]; exact absent) plain ?_ ((rangeEntries_of job.rgn).trans_lt ranges)
      rw [← volume, Dev.volumeOk, Dev.volumeOk, Dev.vol?, Dev.vol?, job.stk]
    obtain ⟨t, ran, ⟨r', record, eq⟩, mem, pending⟩ := run
    rw [eq] at record
    exact ⟨t, ran, ⟨_, record, rfl, rfl, rfl, rfl⟩, mem, pending⟩

end Sys2Proof.Safety
end

section
/-! ### Near-memory operations at their home (R404 to R406) -/

namespace Sys2Proof.Safety

open Sys2Proof.Machine

/-- A home in the last 100 ns of tick 100, in its close phase: region 0 of four units is mapped to patron 0, and the number of the next
request stands among those whose end comes too late for this tick. -/
def lateHome : State :=
  { pending := [], mem := [], dev := {
      regs := [(regPatSqnCtrl.addr 0 0, 4), (regPatCqnCtrl.addr 0 0, 4), (regPatEqCtrl.addr 0 0, 4)]
      host := { linkUp := true, flit := true, patrons := [(0, { st := .active, lock := true, sq := [(0, { tail := 4 })] })] }
      tim := { ticking := true, count := 100, now := 2000000, phase := .close }
      adm := { late := [0] }
      boot := { st := .serving, steps := List.range 12, straps := { wingSize := 3 } }
      rgn := { slots := [(0, { attrs := 0, ownerDev := 0, ownerPatron := 0, size := 2 ^ 23 })]
               units := [(0, {}), (1, {}), (2, {}), (3, {})]
               maps := [{ region := 0, patron := 0, rights := 15, first := 0, count := 4 }] } } }

/-- A COMPARE of line 1 with line 2, of 64 bytes, whose deadline is tick 100. -/
def lateCompare : DescIn :=
  { patron := 0, deadline := 100, body := List.replicate 8 0 ++ leBytes 8 64 ++ leBytes 8 64 ++ leBytes 8 128 ++ List.replicate 16 0 }

theorem lateCompare_grants : Grants lateHome 0x32 lateCompare where
  runs := by decide +kernel
  room := by decide +kernel
  form := by decide +kernel
  timely := by decide +kernel
  first := by decide +kernel

theorem lateCompare_here : NearHere lateHome 0x32 lateCompare where
  grants := lateCompare_grants
  mapped := by decide +kernel
  pool := by decide +kernel
  home := by decide +kernel
  own := by decide +kernel
  allowed := by
    intro a w mem
    cases w
    · revert a
      decide +kernel
    · simp [nearWrites] at mem
  clean := by decide +kernel

/-- Refutes O29: a COMPARE that ends in the last 100 ns of its deadline tick, whose number stands among the late ones, has its completion
due in the next tick (R63), not in the tick in which it ends. -/
theorem not_nearRowsComplete : ¬ Obligations.NearRowsComplete := by
  intro h
  obtain ⟨-, -, compare, -⟩ := h lateHome 0x32 lateCompare { attrs := 0, ownerDev := 0, ownerPatron := 0, size := 2 ^ 23 } lateCompare_here
    (by decide +kernel) (by decide +kernel) (by decide +kernel) (by decide +kernel)
  obtain ⟨t, run, ⟨f, ps, due⟩, -, -⟩ := compare rfl
  obtain rfl : lateHome.descriptor 0x32 lateCompare = t := Host.Outcome.next.inj run
  have next : (lateHome.descriptor 0x32 lateCompare).dev.adm.due.all (fun y => y.tick == 101) = true := by decide +kernel
  have now : (lateHome.descriptor 0x32 lateCompare).dev.tim.count = 100 := by decide +kernel
  have tick := List.all_eq_true.mp next _ due
  rw [now] at tick
  exact absurd (show ((100 : Nat) == 101) = true from tick) (by decide)

end Sys2Proof.Safety
end

section
/-! ### Catalogue rows (R239, R244, R246) -/

namespace Sys2Proof.Safety

open Sys2Proof.Machine

/-- A serving device in a tick: patron 0 ACTIVE with rings of 16 entries; its catalogue has one entry, of span 5 in patron 0's own scope,
and span 5 has no reference left. -/
def unreferenced : State :=
  { pending := [], mem := [], dev := {
      regs := [(regPatSqnCtrl.addr 0 0, 4), (regPatCqnCtrl.addr 0 0, 4), (regPatEqCtrl.addr 0 0, 4)]
      host := { linkUp := true, flit := true, patrons := [(0, { st := .active, lock := true, sq := [(0, { tail := 4 })] })] }
      tim := { ticking := true, count := 100, now := 2000000 }
      boot := { st := .serving, steps := List.range 12 }
      seqs := { spans := [(5, { profile := 0, owner := 0, firstPos := 0, parent := 0, ref := 0, st := 3 })] }
      cat := { ents := [(0, { key := 1, span := 5, scope := 0, cls := 2, publisher := 0, stamp := 0 })] } } }

/-- A WITHDRAW of one span, number 5, from the patron's own scope. -/
def withdrawOne : DescIn := { patron := 0, object := 5, body := leBytes 2 1 ++ List.replicate 46 0 }

theorem withdrawOne_grants : Grants unreferenced 0x12 withdrawOne where
  runs := by decide +kernel
  room := by decide +kernel
  form := by decide +kernel
  timely := by decide +kernel
  first := by decide +kernel

/-- Refutes O27: WITHDRAW takes a span whose REF_COUNT is zero as absent (R248), so that an entry of it stays. -/
theorem not_catalogueRowsComplete : ¬ Obligations.CatalogueRowsComplete := by
  intro h
  obtain ⟨-, -, withdraw⟩ := h unreferenced withdrawOne
  obtain ⟨t, run, gone, -⟩ := withdraw { profile := 0, owner := 0, firstPos := 0, parent := 0, ref := 0, st := 3 } 0
    { key := 1, span := 5, scope := 0, cls := 2, publisher := 0, stamp := 0 } withdrawOne_grants (by decide +kernel) (by decide +kernel) rfl rfl
    (by decide +kernel) rfl (.inl (by decide))
  obtain rfl : unreferenced.descriptor 0x12 withdrawOne = t := Host.Outcome.next.inj run
  have stays : (unreferenced.descriptor 0x12 withdrawOne).dev.cat.ents.isEmpty = false := by decide +kernel
  rw [gone] at stays
  cases stays

end Sys2Proof.Safety
end

section
/-! ### What answers and ends requests (R356, R361) -/

namespace Sys2Proof.Safety

open Sys2Proof.Machine

/-- A home with one unit of region 0, mapped to every patron of device 2. Line 0 awaits the acknowledgement of position 2; a store of the
ordered channel to line 5 waits behind others of its channel, and nothing of that channel stands before it any more. -/
def behindHome : State :=
  { pending := [], mem := [], dev := {
      regs := [(regChgCtrl.addr 0 0, 1), (regRgnCtrl.addr 0 0, 2)]
      boot := { st := .serving, steps := List.range 12, straps := { wingSize := 3 } }
      fab := { dir := [(0, [{ line := 0, inval := true, awaited := [2] }])]
               held := [{ port := 0, code := 0x08, why := 8
                          m := { vc := 4, source := 2, addr := 320, slots := List.replicate 64 0xFF } }] }
      rgn := { slots := [(0, { attrs := 0, ownerDev := 0, ownerPatron := 0, size := 2 ^ 23 })], units := [(0, {})] } } }

/-- The acknowledgement of line 0 from position 2. -/
def ackOfLine0 : Msg := { vc := 2, source := 2 }

/-- Refutes O51: the last acknowledgement of a line also lets the requests of the ordered channel go on that waited behind others (R361),
and a store among them changes pool memory. -/
theorem not_answerRowsComplete : ¬ Obligations.AnswerRowsComplete := by
  intro h
  obtain ⟨-, -, invAck, -⟩ := h behindHome 0 ackOfLine0
  have taken : Taken behindHome 0 0x21 ackOfLine0 := ⟨by decide +kernel, by decide +kernel, by decide +kernel⟩
  obtain ⟨t, run, -, -, same, -⟩ := invAck { line := 0, inval := true, awaited := [2] } taken (by decide) (by decide +kernel) rfl
  obtain rfl := Host.Outcome.next.inj run
  have written : memGet (behindHome.onMsg 0 0x21 ackOfLine0 fun s => (s.invAck 0 0 2).serveOrdered).mem 320 = 0xFF := by decide +kernel
  have reached := congrArg (memGet · 320) same
  exact absurd (written.symm.trans reached) (by decide)

end Sys2Proof.Safety
end

section
/-! ### The power-fail sequence (R327) -/

namespace Sys2Proof.Safety

open Sys2Proof.Machine

/-- A device with stacks whose supply is failing, without a record of a loss of power. -/
def failingSupply : State :=
  { pending := [], mem := [], dev := { stk := { discovered := true }, pwr := { pwrFail := true } } }

/-- Refutes O55: the power-fail sequence also writes the record of the loss of power, with the last WRITE_SEQ of each volume and the place of
the checkpoint (R327); the stacks differ from before by more than the flag. -/
theorem not_powerRowsComplete : ¬ Obligations.PowerRowsComplete := by
  intro h
  obtain ⟨-, -, -, -, -, -, -, -, -, -, -, sequence⟩ := h failingSupply
  obtain ⟨⟨t, run, -, stored, -⟩, -⟩ := sequence rfl rfl
  obtain rfl := Host.Outcome.next.inj run
  have recorded : failingSupply.dev.flashSequence.stk.lossRecord = some ([], 0) := by decide +kernel
  have kept := congrArg StkSt.lossRecord stored
  exact absurd (recorded.symm.trans kept) (by decide)

end Sys2Proof.Safety
end

section
/-! ### Regions restored at bring-up (R449, R506) -/

namespace Sys2Proof.Safety

open Sys2Proof.Machine

/-- A device before step 9: region 0 is durable and its unit is on the stacks, with an uncorrectable sector whose number lies in the unit of
region 1, which is not durable; the poison table of cluster 0 is full. -/
def restoring : State :=
  { pending := [], mem := [], dev := {
      boot := { st := .booting, steps := [1, 2, 3, 4, 5, 6, 7, 8] }
      stk := { discovered := true, volumes := [(0, { region := true, units := [(0, { sectors := [(2 ^ 26, { bad := true })] })] })] }
      flt := { tables := (List.range 8192).map fun i => (i, 0) }
      rgn := { slots := [(0, { attrs := 11, ownerDev := 0, ownerPatron := 0, size := 2 ^ 21 }),
                         (1, { attrs := 0, ownerDev := 0, ownerPatron := 0, size := 2 ^ 21, id := 64 })]
               units := [(0, { resident := false, onStacks := true }), (2 ^ 17, {})] } } }

/-- Refutes O54: the lines of an uncorrectable sector of a durable region are poisoned as its unit comes back, and without an entry of the
poison table the whole unit that they lie in is (R449), here one of a region that is not durable. -/
theorem not_bootRowsComplete : ¬ Obligations.BootRowsComplete := by
  intro h
  obtain ⟨-, -, -, -, -, -, -, -, restore, -⟩ := h restoring 0
    (fun n => { restoring.dev.boot with steps := restoring.dev.boot.steps ++ [n], endMs := tset restoring.dev.boot.endMs n 0 }) fun _ => rfl
  obtain ⟨t, run, -, units, -⟩ := restore (by decide +kernel)
  obtain ⟨w, found, -, kept⟩ := units (2 ^ 17) {} { attrs := 0, ownerDev := 0, ownerPatron := 0, size := 2 ^ 21, id := 64 } rfl rfl
  obtain rfl := kept rfl
  have poisoned : (match exec (.regionRestore 0) restoring with
      | .next t => ((tget t.dev.rgn.units (2 ^ 17)).map (·.poisoned))
      | _ => none) = some true := by decide +kernel
  rw [run] at poisoned
  dsimp only at poisoned
  rw [found] at poisoned
  exact absurd poisoned (by decide)

end Sys2Proof.Safety
end

section
/-! ### Accesses of the host (R77, R363) -/

namespace Sys2Proof.Safety

open Sys2Proof.Machine

/-- A device whose aperture slot 0 shows region 0 of device 1 to patron 0, with a group of stores of that patron open for the first line. -/
def groupOpen : State :=
  { pending := [], mem := [], dev := {
      regs := [(regHpiAptSlots.addr 0 0, 64 + 2 ^ 64 * 2 ^ 50)]
      host := { linkUp := true, flit := true }
      boot := { st := .serving, steps := List.range 12, straps := { wingSize := 3 } }
      fab := { comb := [(0, { line := 2 ^ 44, dest := 1, code := 0x08, m := { addr := 2 ^ 50, slots := List.replicate 64 0 } })] }
      rgn := { maps := [{ region := addrRegion (2 ^ 50), patron := 0, rights := 15, first := 0, count := 4 }] } } }

/-- Refutes O56: with no request to its line outstanding, an aperture write joins the group of its patron that is open for the line (R363)
instead of leaving as a request of its own. -/
theorem not_accessRowsComplete : ¬ Obligations.AccessRowsComplete := by
  intro h
  obtain ⟨-, -, -, aperture⟩ := h groupOpen
  obtain ⟨-, write, -⟩ := aperture 0 64 (2 ^ 50) 0 1 [] (by decide +kernel) (by decide) (by decide) (by decide +kernel) (by decide +kernel)
    (by decide +kernel) (by decide) (by decide +kernel) (by decide +kernel) (by decide +kernel) (by decide +kernel)
  obtain ⟨t, run, ⟨o, sent, -⟩, -⟩ := write (List.replicate 64 0) rfl (by decide +kernel)
  have joined : (match exec (.apertureWrite 0 (List.replicate 64 0)) groupOpen with
      | .next t => t.dev.fab.outst
      | _ => []) = [] := by decide +kernel
  rw [run] at joined
  dsimp only at joined
  rw [joined] at sent
  exact absurd sent List.not_mem_nil

end Sys2Proof.Safety
end

section
/-! ### A demotion that the stacks accept (R300, R302, R316) -/

namespace Sys2Proof.Safety

open Sys2Proof.Machine

/-- A span whose demotion the stacks are about to accept in one unit. The flash unit that the copy begins with is still mapped, as the last
valid one of a RETIRING block, and its volume has no block in service. -/
def overRetiring : State :=
  { pending := [], mem := [], dev := {
      boot := { st := .serving, steps := List.range 12 }
      seqs := { spans := [(0, { st := 3 })] }
      tier := { demos := [(0, { left := 65536, units := 1 })] }
      stk := { discovered := true, channels := 32, rawGiB := 1024, blocks := [(0, { st := 6, volume := 0, valid := [0] })]
               volumes := [(0, { balance := 1000000, units := [(0, { staged := false })] })] } } }

/-- Refutes O37: the flash unit that the accepted part replaces was the last valid one of a RETIRING block; the block is RETIRED, and the
volume's spare blocks are reported (R316, R323): the log changes. -/
theorem not_spanRowsComplete : ¬ Obligations.SpanRowsComplete := by
  intro h
  obtain ⟨rows, -⟩ := h overRetiring
  obtain ⟨-, -, demotion, -⟩ := rows 0 { st := 3 } rfl
  obtain ⟨-, accepted⟩ := demotion { left := 65536, units := 1 } [] rfl (by decide) (by decide) (by decide +kernel) rfl (by decide +kernel)
  obtain ⟨t, run, -, -, -, -, -, -, -, frame⟩ := accepted { balance := 1000000, units := [(0, { staged := false })] }
    (overRetiring.dev.demoPart 0 { left := 65536, units := 1 }) _ rfl (by decide +kernel) (by decide +kernel) rfl rfl rfl
  obtain rfl := Host.Outcome.next.inj run
  have logged : (overRetiring.dev.demotionAccepted 0).flt.logSeq ≠ 0 := by decide +kernel
  obtain ⟨-, -, -, same, -⟩ := frame.same .log (by decide)
  exact logged same

end Sys2Proof.Safety
end

section
/-! ### What traffic leaves of links and of the request state (R342 to R346, R439) -/

namespace Sys2Proof.Safety

open Sys2Proof.Machine

/-! #### Ports and peers -/

theorem port_modPort_same (d : Dev) (k : Nat) (f : Port → Port) : (d.modPort k f).port k = f (d.port k) := tgetD_tset_same ..
theorem port_modPort_other (d : Dev) {j k : Nat} (ne : j ≠ k) (f : Port → Port) : (d.modPort k f).port j = d.port j := tgetD_tset_other _ ne.symm ..
theorem peer_modPeer_same (d : Dev) (k : Nat) (f : Peer → Peer) : (d.modPeer k f).peer k = f (d.peer k) := tgetD_tset_same ..
theorem peer_modPeer_other (d : Dev) {j k : Nat} (ne : j ≠ k) (f : Peer → Peer) : (d.modPeer k f).peer j = d.peer j := tgetD_tset_other _ ne.symm ..
theorem chan_modChan_same (d : Dev) (k : Nat) (f : MsgChan → MsgChan) : (d.modChan k f).chan k = f (d.chan k) := tgetD_tset_same ..
theorem chan_modChan_other (d : Dev) {j k : Nat} (ne : j ≠ k) (f : MsgChan → MsgChan) : (d.modChan k f).chan j = d.chan j := tgetD_tset_other _ ne.symm ..

theorem port_of_fab {d e : Dev} (h : e.fab = d.fab) (k : Nat) : e.port k = d.port k := by simp only [Dev.port, h]
theorem peer_of_fab {d e : Dev} (h : e.fab = d.fab) (k : Nat) : e.peer k = d.peer k := by simp only [Dev.peer, h]

/-- Traffic through a port moves credits and flit numbers alone: what training and reception decide is as it was. -/
structure Traffic (p q : Port) : Prop where
  st : q.st = p.st
  partner : q.partner = p.partner
  keyOut : q.keyOut = p.keyOut
  expect : q.expect = p.expect
  ackSent : q.ackSent = p.ackSent
  naks : q.naks = p.naks
  skipping : q.skipping = p.skipping

theorem Traffic.refl (p : Port) : Traffic p p := ⟨rfl, rfl, rfl, rfl, rfl, rfl, rfl⟩

theorem Traffic.trans {p q r : Port} (h : Traffic p q) (k : Traffic q r) : Traffic p r :=
  ⟨k.st.trans h.st, k.partner.trans h.partner, k.keyOut.trans h.keyOut, k.expect.trans h.expect, k.ackSent.trans h.ackSent,
    k.naks.trans h.naks, k.skipping.trans h.skipping⟩

theorem sendFlits_traffic (p : Port) (n : Nat) : Traffic p (p.sendFlits n) := by
  induction n with
  | zero => exact .refl p
  | succ n ih => exact ih.trans ⟨rfl, rfl, rfl, rfl, rfl, rfl, rfl⟩

/-- What is known of the other positions is as it was, and every port but for its traffic. -/
structure OnlyTraffic (d e : Dev) : Prop where
  ports : ∀ k, Traffic (d.port k) (e.port k)
  peers : e.fab.peers = d.fab.peers

theorem OnlyTraffic.refl (d : Dev) : OnlyTraffic d d := ⟨fun _ => .refl _, rfl⟩
theorem OnlyTraffic.trans {d e f : Dev} (h : OnlyTraffic d e) (k : OnlyTraffic e f) : OnlyTraffic d f :=
  ⟨fun i => (h.ports i).trans (k.ports i), k.peers.trans h.peers⟩
theorem OnlyTraffic.foldl {α : Type} {d e : Dev} {f : Dev → α → Dev} {l : List α} (h : OnlyTraffic d e) (step : ∀ e x, OnlyTraffic e (f e x)) :
    OnlyTraffic d (l.foldl f e) := by
  induction l generalizing e with
  | nil => exact h
  | cons x l ih => exact ih (h.trans (step e x))

theorem OnlyTraffic.of_ports {d e : Dev} (ports : e.fab.ports = d.fab.ports) (peers : e.fab.peers = d.fab.peers) : OnlyTraffic d e :=
  ⟨fun k => by simp only [Dev.port, ports]; exact .refl _, peers⟩

theorem OnlyTraffic.of_frame {ps : List Part} {d e : Dev} (h : Frame ps d e) (n : .fab ∉ ps) : OnlyTraffic d e :=
  .of_ports (congrArg (·.ports) (h.same .fab n)) (congrArg (·.peers) (h.same .fab n))

/-- A message that leaves moves its port's traffic; one that is not the device's own request leaves the request state. -/
theorem tryEmit_traffic {d e : Dev} {dest code : Nat} {m : Msg} (h : d.tryEmit dest code m = some e) :
    OnlyTraffic d e ∧ (patronReq code = false → e.adm = d.adm) := by
  unfold Dev.tryEmit at h
  extract_lets own p n at h
  split at h
  · cases h
  split at h
  · cases h
  extract_lets k flits x left relayed charged fab at h
  split at h
  · cases h
  obtain rfl := Option.some.inj h
  have hFlits : Frame [.ctrs] (d.modPort k fun p => { p with credits := p.credits.set m.vc (p.credit m.vc - slotCount m) }.sendFlits n) flits :=
    count2_frame ..
  have hLeft : Frame [.out] flits left := emit_frame ..
  have hRelayed : Frame [.ctrs] left relayed := by
    simp only [relayed]
    split
    · split
      · exact count_frame ..
      · exact Frame.refl ..
    · exact Frame.refl ..
  have hCharged : Frame [.adm] relayed charged := .ite (chargeBkt_frame ..) (Frame.refl ..)
  have moved : OnlyTraffic d (d.modPort k fun p => { p with credits := p.credits.set m.vc (p.credit m.vc - slotCount m) }.sendFlits n) := by
    refine ⟨fun j => ?_, rfl⟩
    by_cases same : j = k
    · rw [same, port_modPort_same]
      have charged : Traffic (d.port k) { d.port k with credits := (d.port k).credits.set m.vc ((d.port k).credit m.vc - slotCount m) } :=
        ⟨rfl, rfl, rfl, rfl, rfl, rfl, rfl⟩
      exact charged.trans (sendFlits_traffic ..)
    · rw [port_modPort_other _ same]
      exact .refl _
  constructor
  · exact ((((moved.trans (.of_frame hFlits (by decide))).trans (.of_frame hLeft (by decide))).trans (.of_frame hRelayed (by decide))).trans
      (.of_frame hCharged (by decide))).trans (.of_ports rfl rfl)
  · intro quiet
    have notOwn : own = false := by simp [own, Dev.ownReq, quiet]
    have hSame : charged = relayed := if_neg (by simp [notOwn])
    change charged.adm = d.adm
    rw [hSame, hRelayed.same .adm (by decide), hLeft.same .adm (by decide), hFlits.same .adm (by decide)]
    rfl

theorem put_traffic (d : Dev) (dest code : Nat) (m : Msg) : OnlyTraffic d (d.put dest code m) := by
  cases stopped : d.flt.deviceFault with
  | true => rw [put_stopped _ _ _ stopped]; exact .refl d
  | false =>
    rcases put_eq_or dest code m stopped with waits | leaves
    · rw [waits]
      exact .of_ports rfl rfl
    · exact (tryEmit_traffic leaves).1

theorem flushEgress_traffic (d : Dev) : OnlyTraffic d d.flushEgress := by
  unfold Dev.flushEgress
  extract_lets e fabSt
  have emptied : OnlyTraffic d { d with fab := { d.fab with egress := [] } } := .of_ports rfl rfl
  exact emptied.foldl fun _ _ => put_traffic ..

theorem resendTo_traffic (d : Dev) (j : Nat) : OnlyTraffic d (d.resendTo j) := by
  unfold Dev.resendTo
  extract_lets dev os resent inv
  exact ((OnlyTraffic.refl d).foldl fun _ _ => put_traffic ..).foldl fun _ _ => put_traffic ..

/-! #### Messages that are no request of this device -/

/-- The parts that a message reaches that is not the device's own request. -/
def quietParts : List Part := [.out, .fab, .ctrs]

/-- A part that is as it was is no part of what changed. -/
theorem Frame.spare {ps : List Part} {p : Part} {d e : Dev} (h : Frame (p :: ps) d e) (same : p.same d e) : Frame ps d e := by
  refine ⟨fun q out => ?_⟩
  by_cases eq : q = p
  · exact eq ▸ same
  · exact h.same q (List.not_mem_cons_of_ne_of_not_mem eq out)

theorem put_quiet (d : Dev) (dest : Nat) {code : Nat} (m : Msg) (quiet : patronReq code = false) : Frame quietParts d (d.put dest code m) := by
  cases stopped : d.flt.deviceFault with
  | true => rw [put_stopped _ _ _ stopped]; exact Frame.refl ..
  | false =>
    rcases put_eq_or dest code m stopped with waits | leaves
    · rw [waits]
      exact (Frame.fab ..).mono (by decide)
    · exact Frame.spare (p := .adm) ((put_frame d dest code m).mono (by decide)) ((tryEmit_traffic leaves).2 quiet)

theorem sendMessage_quiet (d : Dev) (dest cls : Nat) (b : List Byte) : Frame quietParts d (d.sendMessage dest cls b) := by
  unfold Dev.sendMessage
  extract_lets k c body m kept
  have hKept : Frame quietParts d kept := (modChan_frame ..).mono (by decide)
  split
  · exact (put_quiet _ _ _ (by decide)).step (by decide) ((count_frame ..).step (by decide) hKept)
  · exact hKept

theorem announce_quiet (d : Dev) (ms : Nat) : Frame quietParts d (d.announce ms) :=
  (Frame.refl ..).foldl fun _ _ => sendMessage_quiet ..

end Sys2Proof.Safety
end

section
/-! ### Links train, and flits are taken (R342, R343, R346, R347, R479) -/

namespace Sys2Proof.Safety

open Sys2Proof.Machine

/-- One port has a record, and every other has the one that it had. -/
structure OnlyPort (k : Nat) (p : Port) (d e : Dev) : Prop where
  port : e.port k = p
  others : ∀ j, j ≠ k → e.port j = d.port j

theorem OnlyPort.mod (d : Dev) (k : Nat) (f : Port → Port) : OnlyPort k (f (d.port k)) d (d.modPort k f) :=
  ⟨port_modPort_same .., fun _ ne => port_modPort_other _ ne _⟩

theorem OnlyPort.frame {ps : List Part} {k : Nat} {p : Port} {d e f : Dev} (h : OnlyPort k p d e) (frame : Frame ps e f) (n : .fab ∉ ps) :
    OnlyPort k p d f := by
  have same := port_of_fab (frame.same .fab n)
  exact ⟨(same k).trans h.port, fun j ne => (same j).trans (h.others j ne)⟩

theorem OnlyPort.after {ps : List Part} {k : Nat} {p : Port} {d e f : Dev} (frame : Frame ps d e) (n : .fab ∉ ps) (h : OnlyPort k p e f) :
    OnlyPort k p d f :=
  ⟨h.port, fun j ne => (h.others j ne).trans (port_of_fab (frame.same .fab n) j)⟩

theorem drawBytes_length (d : Dev) (n : Nat) : (d.drawBytes n).1.length = n := by simp [Dev.drawBytes]

/-- A port that begins to train: a fresh nonce, and no keys. -/
def trainingPort (p : Port) (st : PortState) (nonce : List Byte) : Port :=
  { p with st := st, nonce := nonce, keyOut := [], keyIn := [], flits := 0 }

theorem startTraining_port (d : Dev) (k : Nat) (st : PortState) :
    OnlyPort k (trainingPort (d.port k) st (d.drawBytes 16).1) d (d.startTraining k st) :=
  .after (drawBytes_frame d 16) (by decide) (.mod (d.drawBytes 16).2 k fun p => trainingPort p st (d.drawBytes 16).1)

/-- A port whose lanes have locked, with the keys of both directions. -/
def lockedPort (p : Port) (dev far lanes : Nat) (secret nonce : List Byte) : Port :=
  { p with
    st := .exchange, lanes := lanes, degraded := lanes == 2, flits := 0
    keyOut := linkKey secret dev far p.nonce nonce, keyIn := linkKey secret far dev nonce p.nonce }

theorem lockLanes_eq (d : Dev) {k far : Nat} (lanes : Nat) {secret : List Byte} (known : d.sec.poolSecret = some secret) (partner : d.partnerOf k = some far) :
    d.lockLanes k lanes = (d.drawBytes 16).2.modPort k fun p => lockedPort p d.devNo far lanes secret (d.drawBytes 16).1 := by
  have sec : (d.drawBytes 16).2.sec.poolSecret = some secret := known
  have wired : (d.drawBytes 16).2.partnerOf k = some far := partner
  unfold Dev.lockLanes
  split
  next nonce e drawn =>
  rw [drawn] at sec wired
  rw [drawn]
  dsimp only
  rw [sec, wired]
  obtain rfl : (d.drawBytes 16).2 = e := congrArg Prod.snd drawn
  rfl

theorem lockLanes_port (d : Dev) {k far : Nat} (lanes : Nat) {secret : List Byte} (known : d.sec.poolSecret = some secret)
    (partner : d.partnerOf k = some far) :
    OnlyPort k (lockedPort (d.port k) d.devNo far lanes secret (d.drawBytes 16).1) d (d.lockLanes k lanes) := by
  rw [lockLanes_eq d lanes known partner]
  exact .after (drawBytes_frame d 16) (by decide) (.mod (d.drawBytes 16).2 k fun p => lockedPort p d.devNo far lanes secret (d.drawBytes 16).1)

theorem lockLanes_frame (d : Dev) (k lanes : Nat) : Frame [.free, .fab] d (d.lockLanes k lanes) := by
  unfold Dev.lockLanes
  have drawn := drawBytes_frame d 16
  split
  next nonce e draw =>
  rw [draw] at drawn
  exact (modPort_frame ..).step (by decide) (drawn.mono (by decide))

/-! #### Training -/

theorem After.of_port {c : Instr} {s : State} {ps : List Part} {k : Nat} {p : Port} {e : Dev} (run : exec c s = devNext s e) (port : OnlyPort k p s.dev e)
    (frame : Frame ps s.dev e) : After c s fun t => t.dev.port k = p ∧ (∀ j, j ≠ k → t.dev.port j = s.dev.port j) ∧ Changes ps s t :=
  .of_exec run ⟨port.port, port.others, .of_frame frame⟩

theorem laneLock_loads (s : State) {k lanes far : Nat} {secret : List Byte} (st : (s.dev.port k).st = .training ∨ (s.dev.port k).st = .retraining)
    (locked : lanes = 4 ∨ lanes = 2) (known : s.dev.sec.poolSecret = some secret) (clear : s.dev.sec.keysClear = false)
    (partner : s.dev.partnerOf k = some far) : After (.laneLock k lanes) s fun t =>
      (∃ nonce : List Byte, nonce.length = 16 ∧ t.dev.port k = { s.dev.port k with
        st := .exchange, lanes := lanes, degraded := lanes == 2, flits := 0
        keyOut := linkKey secret s.dev.devNo far (s.dev.port k).nonce nonce, keyIn := linkKey secret far s.dev.devNo nonce (s.dev.port k).nonce })
      ∧ (∀ j, j ≠ k → t.dev.port j = s.dev.port j) ∧ Changes [.fab, .free] s t := by
  have trains : ¬(!((s.dev.port k).st == .training || (s.dev.port k).st == .retraining)) = true := by rcases st with st | st <;> simp [st]
  have lanesOk : ¬(!(lanes == 4 || lanes == 2)) = true := by rcases locked with rfl | rfl <;> simp
  have run : exec (.laneLock k lanes) s = devNext s (s.dev.lockLanes k lanes) :=
    congrArg (devNext s) (if_neg (by simp only [known, clear, Option.isNone_some, Bool.false_eq_true, or_false]; exact not_or.mpr ⟨trains, lanesOk⟩))
  have port := lockLanes_port s.dev lanes known partner
  exact .of_exec run ⟨⟨(s.dev.drawBytes 16).1, drawBytes_length .., port.port⟩, port.others, .of_frame ((lockLanes_frame ..).mono (by decide))⟩

/-- A port that does not train fails: said, where it trained for the first time. -/
theorem trainingTimeout_says (s : State) {k : Nat} (st : (s.dev.port k).st = .training) : After (.trainingTimeout k) s fun t =>
    t.dev.port k = { s.dev.port k with st := .failed } ∧ (∀ j, j ≠ k → t.dev.port j = s.dev.port j)
    ∧ Event 0x0301 (k + 256 * 5) ((s.dev.partnerOf k).getD 0) s t ∧ Changes (.fab :: evParts) s t := by
  let failed := s.dev.modPort k fun p => { p with st := .failed }
  have run : exec (.trainingTimeout k) s = devNext s (failed.devEvent 0x0301 (k + 256 * 5) ((s.dev.partnerOf k).getD 0) { cls := 5 }) := by
    refine congrArg (devNext s) ?_
    dsimp only
    rw [st]
    rfl
  have port := (OnlyPort.mod s.dev k fun p => { p with st := .failed }).frame (devEvent_frame failed 0x0301 (k + 256 * 5) ((s.dev.partnerOf k).getD 0) { cls := 5 })
    (by decide)
  exact .of_exec run ⟨port.port, port.others, .of_dev ((devEvent_event ..).from (modPort_frame s.dev k _) (by decide) (by decide) (by decide)),
    .of_frame ((devEvent_frame ..).step (by decide) ((modPort_frame ..).mono (by decide)))⟩

theorem trainingTimeout_fails (s : State) {k : Nat} (st : (s.dev.port k).st = .retraining) : After (.trainingTimeout k) s fun t =>
    t.dev.port k = { s.dev.port k with st := .failed } ∧ (∀ j, j ≠ k → t.dev.port j = s.dev.port j) ∧ Changes [.fab] s t := by
  refine .of_port (e := s.dev.modPort k fun p => { p with st := .failed }) ?_ (.mod s.dev k fun p => { p with st := .failed }) (modPort_frame ..)
  refine congrArg (devNext s) ?_
  dsimp only
  rw [st]

theorem portRetry_trains (s : State) {k : Nat} (st : (s.dev.port k).st = .failed ∨ (s.dev.port k).st = .miswired) (may : s.dev.mayTrain k = true) :
    After (.portRetryTimer k) s fun t =>
      (∃ nonce : List Byte, nonce.length = 16
        ∧ t.dev.port k = { s.dev.port k with st := .training, nonce := nonce, keyOut := [], keyIn := [], flits := 0 })
      ∧ (∀ j, j ≠ k → t.dev.port j = s.dev.port j) ∧ Changes [.fab, .free] s t := by
  have run : exec (.portRetryTimer k) s = devNext s (s.dev.startTraining k .training) := by
    refine congrArg (devNext s) (if_pos ?_)
    rcases st with st | st <;> simp [st, may]
  have port := startTraining_port s.dev k .training
  exact .of_exec run ⟨⟨(s.dev.drawBytes 16).1, drawBytes_length .., port.port⟩, port.others, .of_frame ((startTraining_frame ..).mono (by decide))⟩

/-! #### Flits -/

theorem acked_traffic (p : Port) (a : Nat) : Traffic p (p.acked a) := by
  unfold Port.acked
  split
  · exact ⟨rfl, rfl, rfl, rfl, rfl, rfl, rfl⟩
  · exact .refl p

theorem owe_traffic (p : Port) (slots : List Nat) : Traffic p (p.owe slots) := ⟨rfl, rfl, rfl, rfl, rfl, rfl, rfl⟩

/-- A port that takes the flit that it expects (R346). -/
def takeFlit (f : FlitIn) (p : Port) : Port :=
  { p with
    expect := (p.expect + 1) % 4096, ackSent := f.fseq, naks := 0, skipping := false
    credits := if f.creditVc < 6 then p.credits.set f.creditVc (p.credit f.creditVc + f.credits) else p.credits }

theorem flitReceive_takes (s : State) {k : Nat} {f : FlitIn} (st : (s.dev.port k).st = .up) (crc : f.crcOk = true) (tag : f.tagOk = true)
    (next : f.fseq = (s.dev.port k).expect) : After (.flitReceive k f) s fun t =>
      (t.dev.port k).expect = ((s.dev.port k).expect + 1) % 4096 ∧ (t.dev.port k).ackSent = f.fseq ∧ (t.dev.port k).naks = 0
      ∧ (t.dev.port k).skipping = false ∧ (t.dev.port k).st = .up ∧ Changes [.fab, .adm, .out, .ctrs] s t := by
  let taken := s.dev.modPort k fun p => ((takeFlit f p).acked f.ack).owe f.slots
  let counted := taken.count2 .flitsAcc k 0 1
  have run : exec (.flitReceive k f) s = devNext s counted.flushEgress := by
    refine congrArg (devNext s) ?_
    refine (if_neg (by simp [st])).trans ((if_neg (by simp [crc])).trans ((if_neg (by simp [tag])).trans (if_neg (by simp [next]))))
  have port : Traffic (takeFlit f (s.dev.port k)) (counted.flushEgress.port k) := by
    have stored : taken.port k = ((takeFlit f (s.dev.port k)).acked f.ack).owe f.slots := port_modPort_same ..
    have same : counted.port k = taken.port k := port_of_fab ((count2_frame taken .flitsAcc k 0 1).same .fab (by decide)) k
    have flushed := (flushEgress_traffic counted).ports k
    rw [same, stored] at flushed
    exact ((acked_traffic ..).trans (owe_traffic ..)).trans flushed
  exact .of_exec run ⟨port.expect, port.ackSent, port.naks, port.skipping, port.st.trans st,
    .of_frame ((flushEgress_spares counted).frame.step (by decide) ((count2_frame ..).step (by decide) ((modPort_frame ..).mono (by decide))))⟩

theorem flitReceive_naks (s : State) {k : Nat} {f : FlitIn} (st : (s.dev.port k).st = .up) (crc : f.crcOk = false)
    (few : (s.dev.port k).naks + 1 < 8) : After (.flitReceive k f) s fun t =>
      t.dev.out = s.dev.out ++ [.nak k (((s.dev.port k).expect + 4095) % 4096)]
      ∧ t.dev.port k = { s.dev.port k with skipping := true, naks := (s.dev.port k).naks + 1 }
      ∧ (∀ j, j ≠ k → t.dev.port j = s.dev.port j) ∧ Changes [.fab, .out, .ctrs] s t := by
  let failed := s.dev.count2 .crcFail k 0 1
  let skipped := failed.modPort k fun p => { p with skipping := true, naks := p.naks + 1 }
  let counted := skipped.count2 .naksSent k 0 1
  have hFailed : Frame [.ctrs] s.dev failed := count2_frame ..
  have hCounted : Frame [.ctrs] skipped counted := count2_frame ..
  have same : failed.port k = s.dev.port k := port_of_fab (hFailed.same .fab (by decide)) k
  have run : exec (.flitReceive k f) s = devNext s (counted.emit (.nak k (((s.dev.port k).expect + 4095) % 4096))) := by
    refine congrArg (devNext s) ?_
    refine (if_neg (by simp [st])).trans ((if_pos (by simp [crc])).trans ?_)
    unfold Dev.flitFails
    dsimp only
    rw [show (s.dev.count2 .crcFail k 0 1).port k = s.dev.port k from same]
    exact if_neg (by omega)
  have port := (OnlyPort.mod failed k fun p => { p with skipping := true, naks := p.naks + 1 }).frame hCounted (by decide)
  have sent := (port.frame (emit_frame counted (.nak k (((s.dev.port k).expect + 4095) % 4096))) (by decide)).after hFailed (by decide)
  rw [same] at sent
  have out : counted.out = s.dev.out := (hCounted.same .out (by decide)).trans (hFailed.same .out (by decide))
  refine .of_exec run ⟨?_, sent.port, sent.others, .of_frame ?_⟩
  · rw [← out]
    exact congrArg Dev.out (if_neg (by simp [Dev.barred]))
  · exact (emit_frame ..).step (by decide) (hCounted.step (by decide) ((modPort_frame ..).step (by decide) (hFailed.mono (by decide))))

theorem logCorrected_silent (d : Dev) (block : Nat) (i : LogInfo) : Frame [.flt, .free, .log, .ctrs] d (d.logCorrected block i) := by
  unfold Dev.logCorrected
  dsimp only
  refine .ite (Frame.refl ..) ((logEvent_frame ..).step (by decide) ?_)
  exact (Frame.flt (d.drawBits 16).2 _).step (by decide) ((drawBits_frame d 16).mono (by decide))

/-- A port that sends again what follows a flit (R346). -/
def resendAfter (ack n : Nat) (p : Port) : Port :=
  let p := { p with nakAck := ack, nakSeen := n }.acked ack
  { p with flits := p.flits + p.replay }

theorem resendAfter_nakAck (ack n : Nat) (p : Port) : (resendAfter ack n p).nakAck = ack := by
  unfold resendAfter Port.acked
  dsimp only
  split <;> rfl

theorem nakReceive_resends (s : State) {k ack : Nat} (st : (s.dev.port k).st = .up)
    (few : ¬((s.dev.port k).nakAck = ack ∧ 7 ≤ (s.dev.port k).nakSeen)) : After (.nakReceive k ack) s fun t =>
      t.dev.out = s.dev.out ++ [.resend k ack] ∧ (t.dev.port k).nakAck = ack ∧ (t.dev.port k).st = .up
      ∧ (∀ j, j ≠ k → t.dev.port j = s.dev.port j) ∧ Changes (.fab :: .flt :: .free :: evParts) s t := by
  let n := if (s.dev.port k).nakSeen ≠ 0 ∧ (s.dev.port k).nakAck = ack then (s.dev.port k).nakSeen + 1 else 1
  let resent := (s.dev.modPort k (resendAfter ack n)).emit (.resend k ack)
  have below : ¬8 ≤ n := by
    simp only [n]
    split
    · next again => exact fun h => few ⟨again.2, by omega⟩
    · omega
  have run : exec (.nakReceive k ack) s = devNext s (resent.logCorrected (eventBlock 0x0300) {}) :=
    congrArg (devNext s) ((if_neg (by simp [st])).trans (if_neg below))
  have logged := logCorrected_silent resent (eventBlock 0x0300) {}
  have port := ((OnlyPort.mod s.dev k (resendAfter ack n)).frame (emit_frame _ (.resend k ack)) (by decide)).frame logged (by decide)
  have kept : Traffic (s.dev.port k) (resendAfter ack n (s.dev.port k)) :=
    Traffic.trans (q := { s.dev.port k with nakAck := ack, nakSeen := n }) ⟨rfl, rfl, rfl, rfl, rfl, rfl, rfl⟩
      ((acked_traffic ..).trans ⟨rfl, rfl, rfl, rfl, rfl, rfl, rfl⟩)
  refine .of_exec run ⟨?_, ?_, ?_, port.others, .of_frame ?_⟩
  · exact (logged.same .out (by decide)).trans (congrArg Dev.out (if_neg (by simp [Dev.barred])))
  · exact (congrArg Port.nakAck port.port).trans (resendAfter_nakAck ..)
  · exact (congrArg Port.st port.port).trans (kept.st.trans st)
  · have sent : Frame (.fab :: .flt :: .free :: evParts) s.dev resent := (emit_frame ..).step (by decide) ((modPort_frame ..).mono (by decide))
    exact logged.step (by decide) sent

/-- A link that leaves UP to train again says so. -/
theorem linkDown_retrains {d : Dev} {k : Nat} (up : d.portUp k = true) :
    ((d.linkDown k .retraining).port k).st = .retraining ∧ ((d.linkDown k .retraining).port k).keyOut = []
    ∧ EventOn 0x0301 (k + 256 * 4) (d.port k).partner d (d.linkDown k .retraining) := by
  unfold Dev.linkDown
  extract_lets wasUp part emptied left told j fabSt relayed
  have hEmptied : Frame [.fab] d emptied := modPort_frame ..
  have hLeft : Frame [.free, .fab] d left := (startTraining_frame ..).step (by decide) (hEmptied.mono (by decide))
  have trains := startTraining_port emptied k .retraining
  have hTold : Frame evParts left told := devEvent_frame ..
  have event : EventOn 0x0301 (k + 256 * 4) part d told := (devEvent_event ..).from hLeft (by decide) (by decide) (by decide)
  have port : ∀ e : Dev, Traffic (told.port k) (e.port k) → (e.port k).st = .retraining ∧ (e.port k).keyOut = [] := by
    intro e moved
    have same : told.port k = left.port k := port_of_fab (hTold.same .fab (by decide)) k
    have trained : left.port k = trainingPort (emptied.port k) .retraining (emptied.drawBytes 16).1 := trains.port
    rw [same, trained] at moved
    exact ⟨moved.st, moved.keyOut⟩
  have ends : ∀ (e : Dev) ps, Spares ps told e → OnlyTraffic told e → .tim ∉ ps → .flt ∉ ps → .log ∉ ps →
      (e.port k).st = .retraining ∧ (e.port k).keyOut = [] ∧ EventOn 0x0301 (k + 256 * 4) part d e := by
    intro e ps frame moved tim flt log
    obtain ⟨st, key⟩ := port e (moved.ports k)
    exact ⟨st, key, event.after (frame.frame.flt_eq flt log)⟩
  rw [if_neg (by simp [wasUp, up])]
  split
  · have hRelayed : Spares [.fab] told relayed := .ite (Frame.fab told _).spares (.refl ..)
    have moved : OnlyTraffic told relayed := by
      simp only [relayed]
      split
      · exact .of_ports rfl rfl
      · exact .refl _
    exact ends _ sendParts ((resendTo_spares ..).step (by decide) (hRelayed.mono (by decide))) (moved.trans (resendTo_traffic ..)) (by decide) (by decide) (by decide)
  · exact ends _ [] (.refl ..) (.refl ..) (by decide) (by decide) (by decide)

theorem linkIdleTimeout_retrains (s : State) {k : Nat} (up : s.dev.portUp k = true) : After (.linkIdleTimeout k) s fun t =>
    (t.dev.port k).st = .retraining ∧ (t.dev.port k).keyOut = [] ∧ Event 0x0301 (k + 256 * 4) (s.dev.port k).partner s t
    ∧ Changes (.fab :: .free :: .adm :: evParts) s t := by
  have counted := count_frame s.dev .portRetrain k 1
  have same := port_of_fab (counted.same .fab (by decide)) k
  have up' : (s.dev.count .portRetrain k).portUp k = true := (congrArg (fun p : Port => p.st == .up) same).trans up
  obtain ⟨st, key, event⟩ := linkDown_retrains up'
  rw [same] at event
  refine .of_exec (congrArg (devNext s) (if_pos up)) ⟨st, key, .of_dev (event.from counted (by decide) (by decide) (by decide)), .of_frame ?_⟩
  exact (linkDown_spares ..).frame.step (by decide) (counted.mono (by decide))

end Sys2Proof.Safety
end

section
/-! ### Keepalives, identities and death of the other positions (R369 to R371, R378) -/

namespace Sys2Proof.Safety

open Sys2Proof.Machine

/-! #### Keepalives -/

/-- For each element of a list a message is on its way, to a place and with a content that depend on the element. -/
structure Posts {α : Type} (dest : α → Nat) (code : Nat) (msg : α → Msg) (l : List α) (e : Dev) : Prop where
  sent : ∀ x ∈ l, ∃ m, Carried (msg x) m ∧ OnItsWay (dest x) code m e

theorem posts_keep {α : Type} (dest : α → Nat) (code : Nat) (msg : α → Msg) (l : List α) {d : Dev} {dest' c : Nat} {m : Msg} (h : OnItsWay dest' c m d) :
    OnItsWay dest' c m (l.foldl (fun d x => d.put (dest x) code (msg x)) d) := by
  induction l generalizing d with
  | nil => exact h
  | cons k l ih => exact ih (h.put ..)

theorem puts_post {α : Type} (dest : α → Nat) (code : Nat) (msg : α → Msg) (l : List α) {d : Dev} (runs : d.flt.deviceFault = false) :
    Posts dest code msg l (l.foldl (fun d x => d.put (dest x) code (msg x)) d) := by
  induction l generalizing d with
  | nil => exact ⟨fun _ mem => nomatch mem⟩
  | cons y l ih =>
    refine ⟨fun x mem => ?_⟩
    rcases List.mem_cons.mp mem with rfl | later
    · obtain ⟨m, carried, sent⟩ := put_onItsWay (dest x) code (msg x) runs
      exact ⟨m, carried, posts_keep dest code msg l sent⟩
    · have runs' : (d.put (dest y) code (msg y)).flt.deviceFault = false := by
        rw [(put_frame d (dest y) code (msg y)).flt_eq (by decide) (by decide)]; exact runs
      exact (ih runs').sent x later

/-- Sending messages whose place the boot state decides. -/
theorem puts_boot {α : Type} (dest : Dev → α → Nat) (code : Nat) (msg : Dev → α → Msg)
    (same : ∀ d e : Dev, e.boot = d.boot → ∀ x, dest e x = dest d x ∧ msg e x = msg d x) (l : List α) {d e : Dev} (boot : e.boot = d.boot) :
    l.foldl (fun d x => d.put (dest d x) code (msg d x)) e = l.foldl (fun e x => e.put (dest d x) code (msg d x)) e := by
  induction l generalizing e with
  | nil => rfl
  | cons x l ih =>
    obtain ⟨place, content⟩ := same d e boot x
    simp only [List.foldl_cons]
    rw [place, content]
    exact ih (((put_frame e (dest d x) code (msg d x)).same .boot (by decide)).trans boot)

theorem keepaliveSend_sends (s : State) (on : s.dev.fabOn = true) : After .keepaliveSend s fun t =>
    (∀ j, j < 15 → s.dev.portUp j = true → Sends (16 * s.dev.wing + meshPartner s.dev.pos j) 0x38 (fun x =>
      x.source = s.dev.devNo ∧ x.slots = leBytes 4 s.dev.fab.epoch ++ leBytes 2 s.dev.reach ++ leBytes 1 s.dev.gatesUp ++ leBytes 1 0 ++ leBytes 8 s.dev.tim.now) t)
    ∧ Changes [.fab, .out, .ctrs] s t := by
  let b := leBytes 4 s.dev.fab.epoch ++ leBytes 2 s.dev.reach ++ leBytes 1 s.dev.gatesUp ++ leBytes 1 0 ++ leBytes 8 s.dev.tim.now
  let dest := fun (d : Dev) k => 16 * d.wing + meshPartner d.pos k
  let msg := fun (d : Dev) (_ : Nat) => ({ vc := 5, source := d.devNo, slots := b } : Msg)
  have same : ∀ d e : Dev, e.boot = d.boot → ∀ x, dest e x = dest d x ∧ msg e x = msg d x := by
    intro d e boot x
    simp only [dest, msg, Dev.wing, Dev.pos, Dev.devNo, boot, and_self]
  let sent := ((List.range 15).filter s.dev.portUp).foldl (fun e x => e.put (dest s.dev x) 0x38 (msg s.dev x)) s.dev
  have run : exec .keepaliveSend s = devNext s sent := by
    refine congrArg (devNext s) ((if_neg (by simp [on])).trans ?_)
    exact puts_boot dest 0x38 msg same _ rfl
  have posts := puts_post (dest s.dev) 0x38 (msg s.dev) ((List.range 15).filter s.dev.portUp) (fabOn_runs on)
  refine .of_exec run ⟨fun j lt up => ?_, .of_frame ?_⟩
  · obtain ⟨m, carried, way⟩ := posts.sent j (List.mem_filter.mpr ⟨List.mem_range.mpr lt, up⟩)
    refine way.sends ?_
    rcases carried with rfl | rfl
    · exact ⟨rfl, rfl⟩
    · exact ⟨rfl, rfl⟩
  · exact ((Frame.refl quietParts s.dev).foldl fun _ _ => put_quiet _ _ _ (by decide)).mono (by decide)

/-- A position that is heard with the epoch it had, or for the first time. -/
theorem heardFrom_known {s : State} {dev epoch : Nat} (known : (s.dev.peer dev).epoch = none ∨ (s.dev.peer dev).epoch = some epoch)
    (alive : (s.dev.peer dev).dead = false) :
    s.heardFrom dev epoch = s.onDev fun d => d.modPeer dev fun p => { p with dead := false, epoch := some epoch } := by
  have same : (match (s.dev.peer dev).epoch with
    | some e => e != epoch
    | none => false) = false := by rcases known with h | h <;> simp [h]
  unfold State.heardFrom
  extract_lets old changed s1 back s2 s3
  have unchanged : changed = false := same
  have alive' : back = false := by
    simp only [back, s1, unchanged]
    exact alive
  rw [alive']
  simp only [Bool.false_eq_true, if_false, s3, s2, s1, unchanged]

theorem keepalive_taken (s : State) {k dev : Nat} {m : Msg} (taken : Taken s k 0x38 m) (from_ : dev = srcDev m.source) (other : dev ≠ s.dev.devNo)
    (alive : s.dev.isDead dev = false) (known : (s.dev.peer dev).epoch = none ∨ (s.dev.peer dev).epoch = some (fieldOf m.slots 0 4)) :
    After (.keepalive k m) s fun t =>
      t.dev.peer dev = { s.dev.peer dev with
        dead := false, epoch := some (fieldOf m.slots 0 4), reach := fieldOf m.slots 4 2, gate := fieldOf m.slots 6 1 % 8
        heard := s.dev.tim.now, direct := if m.relayed then (s.dev.peer dev).direct else some s.dev.tim.now }
      ∧ (∀ j, j ≠ dev → t.dev.peer j = s.dev.peer j) ∧ Changes [.fab] s t := by
  subst from_
  let heard := s.dev.modPeer (srcDev m.source) fun p => { p with dead := false, epoch := some (fieldOf m.slots 0 4) }
  let f := fun p : Peer => { p with
    reach := fieldOf m.slots 4 2, gate := fieldOf m.slots 6 1 % 8, heard := s.dev.tim.now
    direct := if m.relayed then p.direct else some s.dev.tim.now }
  have run : exec (.keepalive k m) s = devNext s (heard.modPeer (srcDev m.source) f) := by
    refine congrArg Host.Outcome.next ((onMsg_taken taken _).trans ?_)
    dsimp only
    rw [if_neg other, heardFrom_known known alive]
    rfl
  refine .of_exec run ⟨?_, fun j ne => ?_, .of_frame ((modPeer_frame ..).trans (modPeer_frame ..))⟩
  · exact (peer_modPeer_same ..).trans (congrArg f (peer_modPeer_same ..))
  · exact (peer_modPeer_other _ ne _).trans (peer_modPeer_other _ ne _)

/-! #### Identities -/

theorem ident_up (s : State) {k dev : Nat} {m : Msg} (on : s.dev.fabOn = true) (ok : msgOk 0x3A m = true) (st : (s.dev.port k).st = .exchange)
    (from_ : dev = fieldOf m.slots 0 1 % 64) (wired : s.dev.partnerOf k = some dev) (gateway : 15 ≤ k) : After (.ident k m) s fun t =>
      (t.dev.port k).st = .up ∧ (t.dev.port k).partner = dev ∧ Event 0x0302 (k + 256 * (s.dev.port k).lanes) dev s t
      ∧ Changes (.fab :: .adm :: evParts) s t := by
  subst from_
  let dev := fieldOf m.slots 0 1 % 64
  let acked := s.dev.modPort k fun p => p.acked (fieldOf m.slots 8 2)
  let upPort := fun p : Port => { p with
    st := .up, partner := dev, credits := vcCredits, owed := [], naks := 0, nakSeen := 0, skipping := false }
  let told := (acked.modPort k upPort).devEvent 0x0302 (k + 256 * (acked.port k).lanes) dev
  have port : acked.port k = (s.dev.port k).acked (fieldOf m.slots 8 2) := port_modPort_same ..
  have lanes : (acked.port k).lanes = (s.dev.port k).lanes := by
    rw [port]
    unfold Port.acked
    split <;> rfl
  have st' : (acked.port k).st = .exchange := by rw [port]; exact (acked_traffic ..).st.trans st
  have run : exec (.ident k m) s = devNext s told.settleRelays.flushEgress := by
    refine congrArg Host.Outcome.next ((if_neg (by simp [on])).trans ((if_neg (by simp [ok])).trans ?_))
    change State.identIn { s with dev := acked } k dev (fieldOf m.slots 4 4) = _
    unfold State.identIn
    rw [if_neg (not_not.mpr st')]
    have partner : acked.partnerOf k = some dev := wired
    dsimp only
    rw [if_neg (not_not.mpr partner), if_neg (by omega)]
    rfl
  have frame : Frame [.fab] s.dev (acked.modPort k upPort) := (modPort_frame ..).trans (modPort_frame ..)
  have hTold : Frame evParts (acked.modPort k upPort) told := devEvent_frame ..
  have settled : Frame [.fab] told told.settleRelays := Frame.fab told _
  have moved : Traffic (upPort (acked.port k)) (told.settleRelays.flushEgress.port k) := by
    have same : told.settleRelays.port k = upPort (acked.port k) :=
      (port_of_fab (hTold.same .fab (by decide)) k).trans (port_modPort_same ..)
    have flushed := (flushEgress_traffic told.settleRelays).ports k
    rw [same] at flushed
    exact flushed
  have event : EventOn 0x0302 (k + 256 * (s.dev.port k).lanes) dev s.dev told := by
    rw [← lanes]
    exact (devEvent_event ..).from frame (by decide) (by decide) (by decide)
  have flushed : Frame sendParts told told.settleRelays.flushEgress := (flushEgress_spares _).frame.step (by decide) (settled.mono (by decide))
  exact .of_exec run ⟨moved.st, moved.partner, .of_dev (event.after (flushed.flt_eq (by decide) (by decide))),
    .of_frame (flushed.step (by decide) (hTold.step (by decide) (frame.mono (by decide))))⟩

theorem ident_miswired (s : State) {k dev : Nat} {m : Msg} (on : s.dev.fabOn = true) (ok : msgOk 0x3A m = true) (st : (s.dev.port k).st = .exchange)
    (from_ : dev = fieldOf m.slots 0 1 % 64) (wrong : s.dev.partnerOf k ≠ some dev) : After (.ident k m) s fun t =>
      t.dev.port k = { (s.dev.port k).acked (fieldOf m.slots 8 2) with st := .miswired, partner := dev } ∧ (∀ j, j ≠ k → t.dev.port j = s.dev.port j)
      ∧ Event 0x0303 k dev s t ∧ Changes (.fab :: evParts) s t := by
  subst from_
  let dev := fieldOf m.slots 0 1 % 64
  let acked := s.dev.modPort k fun p => p.acked (fieldOf m.slots 8 2)
  let wrongPort := fun p : Port => { p with st := .miswired, partner := dev }
  have port : acked.port k = (s.dev.port k).acked (fieldOf m.slots 8 2) := port_modPort_same ..
  have st' : (acked.port k).st = .exchange := by rw [port]; exact (acked_traffic ..).st.trans st
  have run : exec (.ident k m) s = devNext s ((acked.modPort k wrongPort).devEvent 0x0303 k dev { cls := 5 }) := by
    refine congrArg Host.Outcome.next ((if_neg (by simp [on])).trans ((if_neg (by simp [ok])).trans ?_))
    change State.identIn { s with dev := acked } k dev (fieldOf m.slots 4 4) = _
    unfold State.identIn
    have partner : acked.partnerOf k ≠ some dev := wrong
    rw [if_neg (not_not.mpr st'), if_pos partner]
    rfl
  have frame : Frame [.fab] s.dev (acked.modPort k wrongPort) := (modPort_frame ..).trans (modPort_frame ..)
  have told : Frame evParts (acked.modPort k wrongPort) ((acked.modPort k wrongPort).devEvent 0x0303 k dev { cls := 5 }) := devEvent_frame ..
  have same := port_of_fab (told.same .fab (by decide))
  refine .of_exec run ⟨?_, fun j ne => ?_, .of_dev ((devEvent_event ..).from frame (by decide) (by decide) (by decide)),
    .of_frame (told.step (by decide) (frame.mono (by decide)))⟩
  · exact (same k).trans ((port_modPort_same ..).trans (congrArg wrongPort port))
  · exact (same j).trans ((port_modPort_other _ ne _).trans (port_modPort_other _ ne _))

end Sys2Proof.Safety
end

section
/-! ### A position that is declared dead; heads and roster (R371 to R374, R513 to R516) -/

namespace Sys2Proof.Safety

open Sys2Proof.Machine

/-- Nothing of this device hangs on a position: no request to it, no mapping, record, directory entry or held request. -/
structure Unattached (d : Dev) (dev : Nat) : Prop where
  requests : d.fab.outst.filter (fun o => o.dest == dev) = []
  maps : d.rgn.maps = []
  slots : d.rgn.slots = []
  dir : d.fab.dir = []
  held : d.fab.held = []

/-- What is kept of a position is forgotten as it is declared dead. -/
def forget (d : Dev) (dev : Nat) : Dev :=
  let d := (d.modPeer dev fun p => { p with dead := true, direct := none, reach := 0, gate := 0 }).count .deadDecl 0
  let d := { d with fab := { d.fab with
    borrow := tkeep d.fab.borrow fun l _ => addrDev (64 * l) != dev
    egress := d.fab.egress.filter fun e => e.1 != dev
    relays := d.fab.relays.filter (· != dev % 16)
    replayA := tkeep d.fab.replayA fun _ r => srcDev r.src != dev
    replayS := tkeep d.fab.replayS fun _ r => srcDev r.src != dev } }
  { d with rgn := { d.rgn with slots := tmap d.rgn.slots fun _ r => { r with noticeDue := r.noticeDue.filter (· != dev) } } }

theorem forget_frame (d : Dev) (dev : Nat) (slots : d.rgn.slots = []) : Frame [.fab, .ctrs] d (forget d dev) := by
  unfold forget
  extract_lets counted fabSt erased rgnSt
  have hCounted : Frame [.fab, .ctrs] d counted := (count_frame ..).step (by decide) ((modPeer_frame ..).mono (by decide))
  have hErased : Frame [.fab, .ctrs] d erased := (Frame.fab counted _).step (by decide) hCounted
  have none : erased.rgn.slots = [] := (congrArg RgnSt.slots (hErased.same .rgn (by decide))).trans slots
  have same : tmap erased.rgn.slots (fun _ r => { r with noticeDue := r.noticeDue.filter (· != dev) }) = erased.rgn.slots := by
    rw [none]; rfl
  rw [same]
  exact hErased

theorem forget_fab (d : Dev) (dev : Nat) : (forget d dev).fab = { (d.modPeer dev fun p => { p with dead := true, direct := none, reach := 0, gate := 0 }).fab with
    borrow := tkeep d.fab.borrow fun l _ => addrDev (64 * l) != dev
    egress := d.fab.egress.filter fun e => e.1 != dev
    relays := d.fab.relays.filter (· != dev % 16)
    replayA := tkeep d.fab.replayA fun _ r => srcDev r.src != dev
    replayS := tkeep d.fab.replayS fun _ r => srcDev r.src != dev } := by
  have counted := (count_frame (d.modPeer dev fun p => { p with dead := true, direct := none, reach := 0, gate := 0 }) .deadDecl 0 1).same .fab (by decide)
  simp only [Part.same] at counted
  unfold forget
  dsimp only
  rw [counted]
  rfl

theorem Unattached.forget {d : Dev} {dev : Nat} (h : Unattached d dev) : Unattached (forget d dev) dev := by
  have fab := forget_fab d dev
  have rgn := (forget_frame d dev h.slots).same .rgn (by decide)
  simp only [Part.same] at rgn
  exact ⟨by rw [fab]; exact h.requests, by rw [rgn]; exact h.maps, by rw [rgn]; exact h.slots, by rw [fab]; exact h.dir, by rw [fab]; exact h.held⟩

theorem declareDead_forgets {s : State} {dev : Nat} (h : Unattached s.dev dev) (other : dev ≠ s.dev.devNo) (wing : dev / 16 = s.dev.wing)
    (there : dev % 16 ≤ s.dev.boot.straps.wingSize) (alive : s.dev.isDead dev = false) :
    s.declareDead dev = s.onDev fun d => (((forget d dev).devEvent 0x0304 dev 0).remoteLost dev).rosterDead dev := by
  obtain ⟨requests, maps, slots, dir, held⟩ := h.forget
  unfold State.declareDead
  extract_lets d counted fabSt erased rgnSt known os moved gone n resent torn s1 s2 ws s3 xs s4 s5
  rw [if_neg (by simp only [d, other, wing, alive, not_lt.mpr there, ne_eq, not_true_eq_false, Bool.false_eq_true, or_self, not_false_eq_true])]
  have hKnown : known = forget s.dev dev := rfl
  clear_value known
  have hOs : os = [] := by simp only [os, hKnown]; exact requests
  have hGone : gone = [] := by simp only [gone, hOs, List.filter_nil]
  have hN : n = 0 := by simp only [n, hGone, List.filter_nil, List.length_nil]
  have hResent : resent = known := by simp only [resent, moved, hOs, List.filter_nil, List.foldl_nil]
  have hTorn : torn = [] := by simp only [torn, hResent, hKnown, maps, List.filter_nil, List.map_nil, List.eraseDups_nil]
  have h2 : s2 = { s with dev := forget s.dev dev } := by
    simp only [s2, s1, State.onDev, hTorn, hGone, hResent, List.foldl_nil, hKnown]
  have hWs : ws = [] := by simp only [ws, h2, dir, List.flatMap_nil]
  have h3 : s3 = { s with dev := forget s.dev dev } := by simp only [s3, hWs, List.foldl_nil, h2]
  have hXs : xs = [] := by simp only [xs, h3, slots, List.map_nil]
  have h4 : s4 = { s with dev := forget s.dev dev } := by simp only [s4, State.onDev, hXs, List.foldl_nil, h3]
  have h5 : s5 = { s with dev := forget s.dev dev } := by
    have idle : s4.dev.fab.held = [] := by rw [h4]; exact held
    simp only [s5]
    rw [serveWhere_none idle, h4]
    dsimp only
    rw [← held]
  rw [h5, hN]
  simp only [State.onDev]

end Sys2Proof.Safety
end

section
/-! ### Death of a position, announcements of the heads, reports of the devices (R371, R513 to R516) -/

namespace Sys2Proof.Safety

open Sys2Proof.Machine

/-! #### A position declared dead -/

theorem remoteLost_none {d : Dev} {dev : Nat} (lends : ∀ r, r < 4 → d.reg regTirRemoter r 0 2 = 1 → addrDev (d.reg regTirRemoter r 0 0) ≠ dev) :
    d.remoteLost dev = d := by
  unfold Dev.remoteLost
  extract_lets ws
  refine if_pos ?_
  simp only [ws, List.isEmpty_iff, List.filter_eq_nil_iff, List.mem_range, Bool.and_eq_true, beq_iff_eq, not_and]
  exact lends

/-- The lower of two heads. -/
def lowerHead (b : Option Nat) (x : Nat) : Option Nat :=
  match b with
  | none => some x
  | some y => some (min x y)

theorem presenting_eq (d : Dev) : d.presenting = d.boot.heads.foldl lowerHead none := rfl

theorem lowerHead_mem (l : List Nat) {b : Option Nat} {x : Nat} (h : l.foldl lowerHead b = some x) : b = some x ∨ x ∈ l := by
  induction l generalizing b with
  | nil => exact .inl h
  | cons y l ih =>
    rcases ih h with start | later
    · cases b with
      | none => exact .inr (by simp_all [lowerHead])
      | some z =>
        simp only [lowerHead, Option.some.injEq] at start
        rcases min_choice y z with lower | lower
        · exact .inr (by simp [← start, lower])
        · exact .inl (by rw [← start, lower])
    · exact .inr (List.mem_cons_of_mem _ later)

/-- A device that is no head gives up nothing. -/
theorem setHead_absent {d : Dev} {dev : Nat} (absent : dev ∉ d.boot.heads) : d.setHead dev false = d := by
  have same : d.boot.heads.filter (· != dev) = d.boot.heads :=
    List.filter_eq_self.mpr fun x mem => bne_iff_ne.mpr fun eq => absent (eq ▸ mem)
  unfold Dev.setHead
  dsimp only
  simp only [Bool.false_eq_true, if_false, same]
  split
  next a b was now =>
    refine if_neg fun h => ?_
    rcases lowerHead_mem d.boot.heads ((presenting_eq d).symm.trans was) with none | mem
    · cases none
    · exact absent (h.1 ▸ mem)
  next => rfl

theorem rosterDead_frame {d : Dev} {dev : Nat} (absent : dev ∉ d.boot.heads) : Frame [.boot] d (d.rosterDead dev) := by
  unfold Dev.rosterDead
  rw [setHead_absent absent]
  exact .ite (setRoster_frame ..) (Frame.refl ..)

theorem borrow_of_keep {d : Dev} {dev l : Nat} {b : List Byte} (h : tget (tkeep d.fab.borrow fun l _ => addrDev (64 * l) != dev) l = some b) :
    addrDev (64 * l) ≠ dev := by
  have kept := mem_of_tget h
  simp only [tkeep, List.mem_filter] at kept
  exact bne_iff_ne.mp kept.2

theorem deadDeclaration_forgets (s : State) {pos dev : Nat} (on : s.dev.fabOn = true) (small : pos < 16) (there : pos ≤ s.dev.boot.straps.wingSize)
    (place : dev = 16 * s.dev.wing + pos) (other : dev ≠ s.dev.devNo) (alive : s.dev.isDead dev = false) (free : Unattached s.dev dev)
    (noHead : dev ∉ s.dev.boot.heads)
    (lends : ∀ r, r < 4 → s.dev.reg regTirRemoter r 0 2 = 1 → addrDev (s.dev.reg regTirRemoter r 0 0) ≠ dev) :
    After (.deadDeclaration pos) s fun t =>
      t.dev.isDead dev = true ∧ (∀ j, j ≠ dev → t.dev.peer j = s.dev.peer j)
      ∧ (∀ l b, tget t.dev.fab.borrow l = some b → addrDev (64 * l) ≠ dev)
      ∧ (∀ e ∈ t.dev.fab.egress, e.1 ≠ dev) ∧ Event 0x0304 dev 0 s t ∧ Changes (.fab :: .boot :: evParts) s t := by
  have forgot := forget_frame s.dev dev free.slots
  have told : Frame evParts (forget s.dev dev) ((forget s.dev dev).devEvent 0x0304 dev 0) := devEvent_frame ..
  have both : Frame (.fab :: evParts) s.dev ((forget s.dev dev).devEvent 0x0304 dev 0) := told.step (by decide) (forgot.mono (by decide))
  have unlent : ((forget s.dev dev).devEvent 0x0304 dev 0).remoteLost dev = (forget s.dev dev).devEvent 0x0304 dev 0 := by
    refine remoteLost_none fun r lt => ?_
    rw [reg_of_same_regs (both.same .regs (by decide)), reg_of_same_regs (both.same .regs (by decide))]
    exact lends r lt
  have headless : dev ∉ ((forget s.dev dev).devEvent 0x0304 dev 0).boot.heads := by
    have same : ((forget s.dev dev).devEvent 0x0304 dev 0).boot = s.dev.boot := both.same .boot (by decide)
    rw [same]
    exact noHead
  have run : exec (.deadDeclaration pos) s = devNext s (((forget s.dev dev).devEvent 0x0304 dev 0).rosterDead dev) := by
    refine congrArg Host.Outcome.next ((if_pos on).trans ?_)
    rw [← place, declareDead_forgets free other (by omega) (by omega) alive]
    exact congrArg (fun d => ({ s with dev := d.rosterDead dev } : State)) unlent
  have rostered := rosterDead_frame headless
  have fab : (((forget s.dev dev).devEvent 0x0304 dev 0).rosterDead dev).fab = (forget s.dev dev).fab :=
    (rostered.same .fab (by decide)).trans (told.same .fab (by decide))
  have peers : (forget s.dev dev).fab.peers
      = (s.dev.modPeer dev fun p => { p with dead := true, direct := none, reach := 0, gate := 0 }).fab.peers := by rw [forget_fab]
  have peer : ∀ j, (((forget s.dev dev).devEvent 0x0304 dev 0).rosterDead dev).peer j
      = (s.dev.modPeer dev fun p => { p with dead := true, direct := none, reach := 0, gate := 0 }).peer j := by
    intro j
    rw [peer_of_fab fab]
    simp only [Dev.peer, peers]
  refine .of_exec run ⟨?_, fun j ne => (peer j).trans (peer_modPeer_other _ ne _), fun l b => ?_, fun e mem => ?_, .of_dev ?_,
    .of_frame (rostered.step (by decide) (both.mono (by decide)))⟩
  · dsimp only
    unfold Dev.isDead
    rw [peer, peer_modPeer_same]
  · dsimp only
    rw [fab, forget_fab]
    exact borrow_of_keep
  · dsimp only at mem
    rw [fab, forget_fab] at mem
    exact bne_iff_ne.mp (List.mem_filter.mp mem).2
  · exact ((devEvent_event ..).from forgot (by decide) (by decide) (by decide)).after (rostered.flt_eq (by decide) (by decide))

/-! #### Announcements of the heads -/

/-- An assembly message as it is counted, before its topic is looked at. -/
def arrivedAsm (d : Dev) : Dev := ((d.count2 .asmRecv 0 0 1).drawBits 32).2

theorem arrivedAsm_frame (d : Dev) : Frame [.ctrs, .free] d (arrivedAsm d) :=
  (drawBits_frame ..).step (by decide) ((count2_frame ..).mono (by decide))

theorem arrivedAsm_boot (d : Dev) : (arrivedAsm d).boot = d.boot := (arrivedAsm_frame d).same .boot (by decide)

theorem setHead_boots (d : Dev) (dev : Nat) (on : Bool) : (d.setHead dev on).boot
    = { d.boot with heads := if on then d.boot.heads.filter (· != dev) ++ [dev] else d.boot.heads.filter (· != dev) } := by
  unfold Dev.setHead
  extract_lets prev rest bootSt heads
  split
  · split
    · exact ((count_frame ..).same .boot (by decide)).trans ((devEvent_frame ..).same .boot (by decide))
    · rfl
  · rfl

theorem setHead_events (d : Dev) (dev : Nat) (on : Bool) : Frame (.boot :: evParts) d (d.setHead dev on) := by
  unfold Dev.setHead
  extract_lets prev rest bootSt heads
  have hHeads : Frame (.boot :: evParts) d heads := (Frame.boot d _).mono (by decide)
  split
  · split
    · exact (count_frame ..).step (by decide) ((devEvent_frame ..).step (by decide) hHeads)
    · exact hHeads
  · exact hHeads

/-- Reports that go out leave which heads there are. -/
structure Reports (d e : Dev) : Prop where
  frame : Frame [.boot, .out, .fab, .ctrs] d e
  heads : e.boot.heads = d.boot.heads
  heard : e.boot.heard = d.boot.heard

theorem Reports.refl (d : Dev) : Reports d d := ⟨.refl .., rfl, rfl⟩
theorem Reports.trans {d e f : Dev} (h : Reports d e) (k : Reports e f) : Reports d f :=
  ⟨h.frame.trans k.frame, k.heads.trans h.heads, k.heard.trans h.heard⟩

/-- A message to a head, and the note that it was sent. -/
theorem Reports.send (d : Dev) (dest cls : Nat) (b : List Byte) (note : BootSt → BootSt) (heads : ∀ x, (note x).heads = x.heads)
    (heard : ∀ x, (note x).heard = x.heard) : Reports d { d.sendMessage dest cls b with boot := note (d.sendMessage dest cls b).boot } := by
  have sent := sendMessage_quiet d dest cls b
  have boot : (d.sendMessage dest cls b).boot = d.boot := sent.same .boot (by decide)
  refine ⟨(Frame.boot _ _).step (by decide) (sent.mono (by decide)), ?_, ?_⟩
  · exact (heads _).trans (congrArg (·.heads) boot)
  · exact (heard _).trans (congrArg (·.heard) boot)

/-- The READY report goes to a head that is due it. -/
def readyTo (d : Dev) (x : Nat) : Dev :=
  if d.readyDue ∧ !d.boot.readySent.contains x then
    let d := d.sendMessage x 2 (d.asmPayload 2 (tgetD d.boot.endMs 7 0))
    { d with boot := { d.boot with readySent := d.boot.readySent ++ [x] } }
  else d

/-- The SERVING report goes to a head that is due it. -/
def servingTo (d : Dev) (x : Nat) : Dev :=
  if d.boot.st = .serving ∧ !d.boot.servingSent.contains x then
    let d := d.sendMessage x 2 (d.asmPayload 3 (tgetD d.boot.endMs 11 0))
    { d with boot := { d.boot with servingSent := d.boot.servingSent ++ [x] } }
  else d

theorem sendReports_eq (d : Dev) : d.sendReports = d.boot.heard.foldl (fun d x => servingTo (readyTo d x) x) d := rfl

theorem readyTo_reports (d : Dev) (x : Nat) : Reports d (readyTo d x) := by
  unfold readyTo
  split
  · exact .send d x 2 _ (fun b => { b with readySent := b.readySent ++ [x] }) (fun _ => rfl) fun _ => rfl
  · exact .refl d

theorem servingTo_reports (d : Dev) (x : Nat) : Reports d (servingTo d x) := by
  unfold servingTo
  split
  · exact .send d x 2 _ (fun b => { b with servingSent := b.servingSent ++ [x] }) (fun _ => rfl) fun _ => rfl
  · exact .refl d

theorem sendReports_reports (d : Dev) : Reports d d.sendReports := by
  rw [sendReports_eq]
  generalize d.boot.heard = l
  suffices h : ∀ e, Reports d e → Reports d (l.foldl (fun d x => servingTo (readyTo d x) x) e) from h d (.refl d)
  induction l with
  | nil => exact fun _ h => h
  | cons x l ih => exact fun e h => ih _ ((h.trans (readyTo_reports e x)).trans (servingTo_reports _ x))

theorem headAnnounce_on (s : State) {b : List Byte} {dev : Nat} (from_ : dev = fieldOf b 1 1 % 64) (topic : fieldOf b 0 1 = 1)
    (on : bit (fieldOf b 2 1) 6 = true) : After (.headAnnounce b) s fun t =>
      dev ∈ t.dev.boot.heads ∧ dev ∈ t.dev.boot.heard ∧ Changes (.boot :: .fab :: .free :: evParts) s t := by
  subst from_
  let headed := (arrivedAsm s.dev).setHead (fieldOf b 1 1 % 64) true
  let heard := { headed with boot := { headed.boot with
    heard := if headed.boot.heard.contains (fieldOf b 1 1 % 64) then headed.boot.heard else headed.boot.heard ++ [fieldOf b 1 1 % 64] } }
  have run : exec (.headAnnounce b) s = devNext s heard.sendReports := by
    refine congrArg (devNext s) ((if_pos topic).trans ?_)
    rw [on]
    rfl
  have reports := sendReports_reports heard
  have frame : Frame (.boot :: .fab :: .free :: evParts) s.dev heard :=
    (Frame.boot headed _).step (by decide) ((setHead_events ..).step (by decide) ((arrivedAsm_frame _).mono (by decide)))
  refine .of_exec run ⟨?_, ?_, .of_frame (reports.frame.step (by decide) frame)⟩
  · dsimp only
    rw [reports.heads]
    change _ ∈ headed.boot.heads
    rw [setHead_boots]
    simp
  · dsimp only
    rw [reports.heard]
    dsimp only [heard]
    split
    next listed => exact List.contains_iff_mem.mp listed
    next => exact List.mem_append_right _ (List.mem_singleton.mpr rfl)

theorem headAnnounce_off (s : State) {b : List Byte} {dev : Nat} (from_ : dev = fieldOf b 1 1 % 64) (topic : fieldOf b 0 1 = 1)
    (off : bit (fieldOf b 2 1) 6 = false) : After (.headAnnounce b) s fun t =>
      t.dev.boot.heads = s.dev.boot.heads.filter (· != dev) ∧ t.dev.boot.heard = s.dev.boot.heard
      ∧ Changes (.boot :: .free :: evParts) s t := by
  subst from_
  have run : exec (.headAnnounce b) s = devNext s ((arrivedAsm s.dev).setHead (fieldOf b 1 1 % 64) false) := by
    refine congrArg (devNext s) ((if_pos topic).trans ?_)
    rw [off]
    rfl
  have boot := (setHead_boots (arrivedAsm s.dev) (fieldOf b 1 1 % 64) false).trans (by rw [arrivedAsm_boot])
  refine .of_exec run ⟨?_, ?_, .of_frame ((setHead_events ..).step (by decide) ((arrivedAsm_frame _).mono (by decide)))⟩
  · exact congrArg (·.heads) boot
  · exact congrArg (·.heard) boot

end Sys2Proof.Safety
end

section
/-! ### Reports that enter the roster, and what the presenting head does by itself (R513, R515, R516) -/

namespace Sys2Proof.Safety

open Sys2Proof.Machine

/-- The roster is as it was. -/
structure SameRoster (d e : Dev) : Prop where
  roster : e.boot.roster = d.boot.roster

theorem SameRoster.refl (d : Dev) : SameRoster d d := ⟨rfl⟩
theorem SameRoster.trans {d e f : Dev} (h : SameRoster d e) (k : SameRoster e f) : SameRoster d f := ⟨k.roster.trans h.roster⟩
theorem SameRoster.ent {d e : Dev} (h : SameRoster d e) (f : Nat) : e.rosterEnt f = d.rosterEnt f := by simp only [Dev.rosterEnt, h.roster]
theorem SameRoster.of_frame {ps : List Part} {d e : Dev} (h : Frame ps d e) (n : .boot ∉ ps) : SameRoster d e :=
  ⟨congrArg (·.roster) (h.same .boot n)⟩
theorem SameRoster.foldl {α : Type} {d e : Dev} {f : Dev → α → Dev} {l : List α} (h : SameRoster d e) (step : ∀ e x, SameRoster e (f e x)) :
    SameRoster d (l.foldl f e) := by
  induction l generalizing e with
  | nil => exact h
  | cons x l ih => exact ih (h.trans (step e x))

theorem devEvent_roster (d : Dev) (code d0 d1 : Nat) (i : LogInfo) : SameRoster d (d.devEvent code d0 d1 i) :=
  .of_frame (devEvent_frame ..) (by decide)

theorem poolAssembled_roster (d : Dev) (ms : Nat) : SameRoster d (d.poolAssembled ms) := by
  unfold Dev.poolAssembled
  extract_lets reported bootSt assembled
  have hReported : SameRoster d reported := devEvent_roster ..
  have hAssembled : SameRoster d assembled := ⟨hReported.roster⟩
  exact hAssembled.foldl fun _ _ => devEvent_roster ..

theorem rosterCheck_roster (d : Dev) (ms : Nat) : SameRoster d (d.rosterCheck ms) := by
  unfold Dev.rosterCheck
  extract_lets assembled told bootSt
  have hAssembled : SameRoster d assembled := by
    simp only [assembled]
    split
    · exact poolAssembled_roster ..
    · exact .refl d
  split
  · exact .refl d
  split
  · exact ⟨hAssembled.roster⟩
  · exact hAssembled

theorem rosterEnt_setRoster_same (d : Dev) (f : Nat) (e : RosterEnt) : (d.setRoster f e).rosterEnt f = e := tgetD_tset_same ..
theorem rosterEnt_setRoster_other (d : Dev) {f g : Nat} (ne : g ≠ f) (e : RosterEnt) : (d.setRoster f e).rosterEnt g = d.rosterEnt g :=
  tgetD_tset_other _ ne.symm ..

/-- An entry keeps its times. -/
structure SameTimes (d e : Dev) : Prop where
  ready : ∀ f, (e.rosterEnt f).readyMs = (d.rosterEnt f).readyMs
  serving : ∀ f, (e.rosterEnt f).servingMs = (d.rosterEnt f).servingMs

theorem SameTimes.refl (d : Dev) : SameTimes d d := ⟨fun _ => rfl, fun _ => rfl⟩
theorem SameTimes.trans {d e g : Dev} (h : SameTimes d e) (k : SameTimes e g) : SameTimes d g :=
  ⟨fun f => (k.ready f).trans (h.ready f), fun f => (k.serving f).trans (h.serving f)⟩
theorem SameTimes.of_roster {d e : Dev} (h : SameRoster d e) : SameTimes d e := ⟨fun f => by rw [h.ent], fun f => by rw [h.ent]⟩

theorem setRoster_times (d : Dev) (v st : Nat) : SameTimes d (d.setRoster v { d.rosterEnt v with st := st }) := by
  constructor <;> intro f <;> by_cases same : f = v
  · rw [same, rosterEnt_setRoster_same]
  · rw [rosterEnt_setRoster_other _ same]
  · rw [same, rosterEnt_setRoster_same]
  · rw [rosterEnt_setRoster_other _ same]

theorem refreshRoster_times (d : Dev) : SameTimes d d.refreshRoster := by
  unfold Dev.refreshRoster
  extract_lets ex
  suffices h : ∀ (l : List Nat) (e : Dev), SameTimes d e → SameTimes d (l.foldl (fun d v =>
      let e := d.rosterEnt v
      if ex.contains v ∧ e.st = 6 then d.setRoster v { e with st := 0 }
      else if !ex.contains v ∧ e.st = 0 then d.setRoster v { e with st := 6 } else d) e) from h _ d (.refl d)
  intro l
  induction l with
  | nil => exact fun _ h => h
  | cons v l ih =>
    refine fun e h => ih _ (h.trans ?_)
    dsimp only
    split
    · exact setRoster_times ..
    split
    · exact setRoster_times ..
    · exact .refl e

/-- The entry that a READY or SERVING report leaves. -/
structure Entered (topic : Nat) (b : List Byte) (d e : Dev) : Prop where
  epoch : (e.rosterEnt (fieldOf b 1 1 % 64)).epoch = fieldOf b 4 4
  ports : (e.rosterEnt (fieldOf b 1 1 % 64)).portsUp = fieldOf b 8 3
  head : (e.rosterEnt (fieldOf b 1 1 % 64)).head = bit (fieldOf b 2 1) 6
  ready : (e.rosterEnt (fieldOf b 1 1 % 64)).readyMs
    = if topic = 2 then min 65535 (fieldOf b 12 4) else (d.rosterEnt (fieldOf b 1 1 % 64)).readyMs
  serving : (e.rosterEnt (fieldOf b 1 1 % 64)).servingMs
    = if topic = 3 then min 65535 (fieldOf b 12 4) else (d.rosterEnt (fieldOf b 1 1 % 64)).servingMs

theorem rosterReport_enters {d : Dev} (on : d.boot.rosterOn = true) (topic : Nat) (b : List Byte) (ms : Nat) :
    Entered topic b d (d.rosterReport topic b ms) := by
  unfold Dev.rosterReport
  rw [if_neg (by simp [on])]
  extract_lets f x w bootSt sized old size el st e set_ miscounted joined
  have hSized : SameTimes d sized := by
    simp only [sized]
    split
    · have sizes : SameRoster d { d with boot := { bootSt with wingSizes := tset d.boot.wingSizes w (bits x 0 4) } } := ⟨rfl⟩
      exact (SameTimes.of_roster sizes).trans (refreshRoster_times _)
    · exact .refl d
  have hMiscounted : SameRoster set_ miscounted := by
    simp only [miscounted]
    split
    · exact devEvent_roster ..
    · exact .refl _
  have hJoined : SameRoster set_ joined := by
    simp only [joined]
    split
    · exact hMiscounted.trans (devEvent_roster ..)
    · exact hMiscounted
  have entry : (joined.rosterCheck ms).rosterEnt f = e :=
    ((hJoined.trans (rosterCheck_roster ..)).ent f).trans (rosterEnt_setRoster_same sized f e)
  refine ⟨congrArg (·.epoch) entry, congrArg (·.portsUp) entry, congrArg (·.head) entry, ?_, ?_⟩
  · rw [← hSized.ready]
    exact congrArg (·.readyMs) entry
  · rw [← hSized.serving]
    exact congrArg (·.servingMs) entry

theorem report_enters (s : State) {c : Instr} {b : List Byte} {topic : Nat} (on : s.dev.boot.rosterOn = true) (is : fieldOf b 0 1 = topic)
    (report : topic = 2 ∨ topic = 3) (run : exec c s = .next (s.onDev fun d => d.assembly b)) : After c s fun t =>
      Entered topic b s.dev t.dev ∧ Changes (.boot :: .free :: evParts) s t := by
  let ms := ((s.dev.count2 .asmRecv 0 0 1).drawBits 32).1
  have assembled : s.dev.assembly b = (arrivedAsm s.dev).rosterReport topic b ms := by
    unfold Dev.assembly
    dsimp only
    rw [is, if_neg (by omega), if_pos report]
    rfl
  have on' : (arrivedAsm s.dev).boot.rosterOn = true := by rw [arrivedAsm_boot]; exact on
  have same : SameRoster s.dev (arrivedAsm s.dev) := ⟨congrArg (·.roster) (arrivedAsm_boot s.dev)⟩
  have entered := rosterReport_enters on' topic b ms
  have times := SameTimes.of_roster same
  refine .of_exec (run.trans (congrArg (devNext s) assembled)) ⟨⟨entered.epoch, entered.ports, entered.head, ?_, ?_⟩,
    .of_frame ((rosterReport_frame ..).step (by decide) ((arrivedAsm_frame _).mono (by decide)))⟩
  · exact entered.ready.trans (by rw [times.ready])
  · exact entered.serving.trans (by rw [times.serving])

theorem rosterRow_enters (s : State) {c : Instr} {b : List Byte} (on : s.dev.boot.rosterOn = true)
    (row : (fieldOf b 0 1 = 2 ∧ c = .ready b) ∨ (fieldOf b 0 1 = 3 ∧ c = .servingReport b)) : After c s fun t =>
      (t.dev.rosterEnt (fieldOf b 1 1 % 64)).epoch = fieldOf b 4 4 ∧ (t.dev.rosterEnt (fieldOf b 1 1 % 64)).portsUp = fieldOf b 8 3
      ∧ (t.dev.rosterEnt (fieldOf b 1 1 % 64)).head = bit (fieldOf b 2 1) 6
      ∧ (fieldOf b 0 1 = 2 → (t.dev.rosterEnt (fieldOf b 1 1 % 64)).readyMs = min 65535 (fieldOf b 12 4)
        ∧ (t.dev.rosterEnt (fieldOf b 1 1 % 64)).servingMs = (s.dev.rosterEnt (fieldOf b 1 1 % 64)).servingMs)
      ∧ (fieldOf b 0 1 = 3 → (t.dev.rosterEnt (fieldOf b 1 1 % 64)).servingMs = min 65535 (fieldOf b 12 4)
        ∧ (t.dev.rosterEnt (fieldOf b 1 1 % 64)).readyMs = (s.dev.rosterEnt (fieldOf b 1 1 % 64)).readyMs)
      ∧ Changes (.boot :: .free :: evParts) s t := by
  have report : fieldOf b 0 1 = 2 ∨ fieldOf b 0 1 = 3 := row.imp (·.1) (·.1)
  have run : exec c s = .next (s.onDev fun d => d.assembly b) := by rcases row with ⟨_, rfl⟩ | ⟨_, rfl⟩ <;> rfl
  refine (report_enters s on rfl report run).imp fun t ⟨ran, entered, changes⟩ => ⟨ran, entered.epoch, entered.ports, entered.head, ?_, ?_, changes⟩
  · exact fun two => ⟨entered.ready.trans (if_pos two), entered.serving.trans (if_neg (by omega))⟩
  · exact fun three => ⟨entered.serving.trans (if_pos three), entered.ready.trans (if_neg (by omega))⟩

/-! #### What the presenting head does by itself -/

theorem poolAssembled_notes (s : State) {ms : Nat} (on : s.dev.boot.rosterOn = true) (presents : s.dev.presenting = some s.dev.devNo)
    (not_ : s.dev.boot.assembled = false) (late : 1200 ≤ ms) : After (.poolAssembled ms) s fun t =>
      t.dev.boot = { s.dev.boot with assembled := true, assembledMs := ms } ∧ Changes (.boot :: evParts) s t := by
  have run : exec (.poolAssembled ms) s = devNext s (s.dev.poolAssembled ms) := congrArg (devNext s) (if_pos ⟨on, presents, by simp [not_], late⟩)
  refine .of_exec run ⟨?_, .of_frame (poolAssembled_frame ..)⟩
  dsimp only
  unfold Dev.poolAssembled
  extract_lets reported bootSt assembled
  have hReported : reported.boot = s.dev.boot := (devEvent_frame ..).same .boot (by decide)
  have told : Frame evParts assembled ((assembled.expected.filter fun v => (assembled.rosterEnt v).st == 0).foldl
      (fun d v => d.devEvent 0x0022 v 0) assembled) := (Frame.refl ..).foldl fun _ _ => devEvent_frame ..
  refine (told.same .boot (by decide)).trans ?_
  change { reported.boot with assembled := true, assembledMs := ms } = _
  rw [hReported]

theorem poolMemberMissing_tells (s : State) {ms v : Nat} (on : s.dev.boot.rosterOn = true) (presents : s.dev.presenting = some s.dev.devNo)
    (late : 13600 ≤ ms) (one : (s.dev.expected.filter fun x => (s.dev.rosterEnt x).st != 2) = [v]) : After (.poolMemberMissing ms) s fun t =>
      Event 0x0022 v (s.dev.rosterEnt v).st s t ∧ Changes evParts s t := by
  have run : exec (.poolMemberMissing ms) s = devNext s (s.dev.devEvent 0x0022 v (s.dev.rosterEnt v).st) := by
    refine congrArg (devNext s) ((if_pos ⟨on, presents, late⟩).trans ?_)
    rw [one]
    rfl
  exact .of_exec run ⟨.of_dev (devEvent_event ..), .of_frame (devEvent_frame ..)⟩

end Sys2Proof.Safety
end

section
/-! ### A message that is sent touches ports, requests and egress alone (R342 to R346) -/

namespace Sys2Proof.Safety

open Sys2Proof.Machine

/-- Of the fabric's state the ports, the requests and the egress alone may differ, and the same ports are UP. -/
structure OnlySends (d e : Dev) : Prop where
  fab : e.fab = { d.fab with ports := e.fab.ports, outst := e.fab.outst, egress := e.fab.egress }
  up : e.portUp = d.portUp

theorem OnlySends.refl (d : Dev) : OnlySends d d := ⟨rfl, rfl⟩

theorem OnlySends.trans {d e f : Dev} (h : OnlySends d e) (k : OnlySends e f) : OnlySends d f :=
  ⟨by rw [k.fab, h.fab], k.up.trans h.up⟩

theorem OnlySends.of_frame {ps : List Part} {d e : Dev} (h : Frame ps d e) (n : .fab ∉ ps) : OnlySends d e := by
  have same := h.same .fab n
  simp only [Part.same] at same
  exact ⟨by rw [same], by funext k; simp only [Dev.portUp, Dev.port, same]⟩

theorem OnlySends.foldl {α : Type} {d e : Dev} {f : Dev → α → Dev} {l : List α} (h : OnlySends d e) (step : ∀ e x, OnlySends e (f e x)) :
    OnlySends d (l.foldl f e) := by
  induction l generalizing e with
  | nil => exact h
  | cons x l ih => exact ih (h.trans (step e x))

theorem OnlySends.chan {d e : Dev} (h : OnlySends d e) (k : Nat) : e.chan k = d.chan k := by
  simp only [Dev.chan]
  rw [h.fab]

theorem up_of_traffic {d e : Dev} (h : ∀ k, Traffic (d.port k) (e.port k)) : e.portUp = d.portUp := by
  funext k
  simp only [Dev.portUp, (h k).st]

theorem tryEmit_onlySends {d e : Dev} {dest code : Nat} {m : Msg} (h : d.tryEmit dest code m = some e) : OnlySends d e := by
  refine ⟨?_, up_of_traffic (tryEmit_traffic h).1.ports⟩
  unfold Dev.tryEmit at h
  extract_lets own p n at h
  split at h
  · cases h
  split at h
  · cases h
  extract_lets k flits x left relayed charged fab at h
  split at h
  · cases h
  obtain rfl := Option.some.inj h
  have hFlits : Frame [.ctrs] (d.modPort k fun p => { p with credits := p.credits.set m.vc (p.credit m.vc - slotCount m) }.sendFlits n) flits :=
    count2_frame ..
  have hLeft : Frame [.out, .ctrs] flits left := (emit_frame ..).mono (by decide)
  have hRelayed : Frame [.out, .ctrs] flits relayed := by
    simp only [relayed]
    split
    · split
      · exact (count_frame ..).step (by decide) hLeft
      · exact hLeft
    · exact hLeft
  have hCharged : Frame [.adm, .out, .ctrs] flits charged :=
    .ite ((chargeBkt_frame ..).step (by decide) (hRelayed.mono (by decide))) (hRelayed.mono (by decide))
  have same : charged.fab = (d.modPort k fun p => { p with credits := p.credits.set m.vc (p.credit m.vc - slotCount m) }.sendFlits n).fab :=
    (hCharged.same .fab (by decide)).trans (hFlits.same .fab (by decide))
  have hFab : fab = (d.modPort k fun p => { p with credits := p.credits.set m.vc (p.credit m.vc - slotCount m) }.sendFlits n).fab := same
  clear_value charged fab
  subst hFab
  rfl

theorem put_onlySends (d : Dev) (dest code : Nat) (m : Msg) : OnlySends d (d.put dest code m) := by
  cases stopped : d.flt.deviceFault with
  | true => rw [put_stopped _ _ _ stopped]; exact .refl d
  | false =>
    rcases put_eq_or dest code m stopped with waits | leaves
    · rw [waits]
      exact ⟨rfl, rfl⟩
    · exact tryEmit_onlySends leaves

/-! #### HEAD_ANNOUNCE goes out again -/

/-- What a device says of itself in assembly messages and what it has sent and not seen acknowledged. -/
structure Announces (d e : Dev) : Prop where
  payload : ∀ topic ms, e.asmPayload topic ms = d.asmPayload topic ms
  waiting : ∀ k x, x ∈ (d.chan k).unacked → x ∈ (e.chan k).unacked

theorem Announces.refl (d : Dev) : Announces d d := ⟨fun _ _ => rfl, fun _ _ h => h⟩
theorem Announces.trans {d e f : Dev} (h : Announces d e) (k : Announces e f) : Announces d f :=
  ⟨fun topic ms => (k.payload topic ms).trans (h.payload topic ms), fun i x mem => k.waiting i x (h.waiting i x mem)⟩

theorem asmPayload_of {d e : Dev} (frame : Frame quietParts d e) (epoch : e.fab.epoch = d.fab.epoch) (up : e.portUp = d.portUp) (topic ms : Nat) :
    e.asmPayload topic ms = d.asmPayload topic ms := by
  have boot : e.boot = d.boot := frame.same .boot (by decide)
  have host : e.host.linkUp = d.host.linkUp := frame.hostField (by decide) (·.linkUp)
  simp only [Dev.asmPayload, Dev.devNo, Dev.headSet, Dev.portsUp, boot, host, epoch, up]

/-- The message as it is entered in the channel that waits for its acknowledgement. -/
theorem sendMessage_waits (d : Dev) (dest cls : Nat) (b : List Byte) : Announces d (d.sendMessage dest cls b)
    ∧ ∃ x ∈ ((d.sendMessage dest cls b).chan (chanKey dest cls)).unacked, x.2.2.slots.drop 16 = padSlots b := by
  have quiet := sendMessage_quiet d dest cls b
  unfold Dev.sendMessage at quiet ⊢
  extract_lets k c body m kept at quiet
  extract_lets
  have unacked : (kept.chan k).unacked = c.unacked ++ [(c.nextSeq, d.tim.now, m)] := congrArg (·.unacked) (chan_modChan_same ..)
  have others : ∀ j, j ≠ k → kept.chan j = d.chan j := fun j ne => chan_modChan_other _ ne _
  have slots : m.slots.drop 16 = padSlots b := by
    have sixteen : body.length = 16 := by simp [body, leBytes]
    exact List.drop_left' sixteen
  have sent : OnlySends kept (if c.unacked.length < msgWindow then (kept.count .msgSent 0).put dest 0x30 m else kept) := by
    split
    · exact (OnlySends.of_frame (count_frame ..) (by decide)).trans (put_onlySends ..)
    · exact .refl _
  have epoch : kept.fab.epoch = d.fab.epoch := rfl
  have up : kept.portUp = d.portUp := rfl
  clear_value kept
  refine ⟨⟨asmPayload_of quiet ?_ (sent.up.trans up), fun j x mem => ?_⟩, (c.nextSeq, d.tim.now, m), ?_, slots⟩
  · exact (congrArg (·.epoch) sent.fab).trans epoch
  · rw [sent.chan]
    by_cases same : j = k
    · subst same
      rw [unacked]
      exact List.mem_append_left _ mem
    · rw [others j same]
      exact mem
  · rw [sent.chan]
    change _ ∈ (kept.chan k).unacked
    rw [unacked]
    exact List.mem_append_right _ (List.mem_singleton.mpr rfl)

theorem announce_waits (ms : Nat) (l : List Nat) (d : Dev) : Announces d (l.foldl (fun d x => d.sendMessage x 2 (d.asmPayload 1 ms)) d)
    ∧ ∀ y ∈ l, ∃ x ∈ ((l.foldl (fun d x => d.sendMessage x 2 (d.asmPayload 1 ms)) d).chan (chanKey y 2)).unacked,
      x.2.2.slots.drop 16 = padSlots (d.asmPayload 1 ms) := by
  induction l generalizing d with
  | nil => exact ⟨.refl d, fun _ mem => nomatch mem⟩
  | cons y l ih =>
    obtain ⟨first, x, waits, content⟩ := sendMessage_waits d y 2 (d.asmPayload 1 ms)
    obtain ⟨rest, each⟩ := ih (d.sendMessage y 2 (d.asmPayload 1 ms))
    refine ⟨first.trans rest, fun z mem => ?_⟩
    rcases List.mem_cons.mp mem with rfl | later
    · exact ⟨x, rest.waiting _ x waits, content⟩
    · obtain ⟨x, waits, content⟩ := each z later
      exact ⟨x, waits, content.trans (by rw [first.payload])⟩

theorem headAnnounceResend_waits (s : State) {ms : Nat} (head : s.dev.headSet = true) (ready : s.dev.readyDue = true)
    (missing : s.dev.rosterCount (· == 2) ≠ s.dev.expected.length) : After (.headAnnounceResend ms) s fun t =>
      (∀ x ∈ s.dev.expected, x ≠ s.dev.devNo →
        ∃ e ∈ (t.dev.chan (chanKey x 2)).unacked, e.2.2.slots.drop 16 = padSlots (s.dev.asmPayload 1 ms))
      ∧ Changes [.fab, .out, .ctrs] s t := by
  have run : exec (.headAnnounceResend ms) s = devNext s (s.dev.announce ms) := congrArg (devNext s) (if_pos ⟨head, ready, missing⟩)
  refine .of_exec run ⟨fun x mem ne => ?_, .of_frame ((announce_quiet ..).mono (by decide))⟩
  exact (announce_waits ms _ s.dev).2 x (List.mem_filter.mpr ⟨mem, bne_iff_ne.mpr ne⟩)

/-- Settles O53: each row by its own lemma (links above, then keepalives, deaths, heads and roster). -/
theorem linkRowsComplete : Obligations.LinkRowsComplete := by
  intro s k
  refine ⟨?_, ?_, ?_, ?_, ?_, ?_, ?_, ?_, ?_, ?_, ?_, ?_, ?_, ?_, ?_⟩
  · exact fun lanes secret far st locked known clear partner => laneLock_loads s st locked known clear partner
  · exact fun st => trainingTimeout_says s st
  · exact fun st => trainingTimeout_fails s st
  · exact fun st may => portRetry_trains s st may
  · exact fun f st => ⟨flitReceive_takes s st, flitReceive_naks s st⟩
  · exact fun ack st few => nakReceive_resends s st few
  · exact fun up => linkIdleTimeout_retrains s up
  · exact fun on => keepaliveSend_sends s on
  · exact fun m dev taken from_ other alive known => keepalive_taken s taken from_ other alive known
  · exact fun m dev on ok st from_ => ⟨fun wired gateway => ident_up s on ok st from_ wired gateway, fun wrong => ident_miswired s on ok st from_ wrong⟩
  · exact fun pos dev on small there place other alive requests maps slots dir held noHead lends =>
      deadDeclaration_forgets s on small there place other alive ⟨requests, maps, slots, dir, held⟩ noHead lends
  · exact fun b dev from_ topic => ⟨headAnnounce_on s from_ topic, headAnnounce_off s from_ topic⟩
  · rintro c b _ rfl on row
    exact rosterRow_enters s on row
  · exact fun ms head ready missing => headAnnounceResend_waits s head ready missing
  · exact fun ms on presents => ⟨poolAssembled_notes s on presents, fun v late one => poolMemberMissing_tells s on presents late one⟩

end Sys2Proof.Safety
end

section
/-! ### A line of a region is written: what that leaves (R351, R356, R407) -/

namespace Sys2Proof.Safety

open Sys2Proof.Machine

/-- The parts that writes of lines reach. -/
def lineParts : List Part := .fab :: .rgn :: .flt :: .stk :: .tier :: evParts

/-- Lines are written and their directory told: of the fabric's state ports, requests, egress and directory alone may differ; the
regions' records are as they were, and the device runs on. -/
structure Writes (d e : Dev) : Prop where
  frame : Frame lineParts d e
  fab : e.fab = { d.fab with ports := e.fab.ports, outst := e.fab.outst, egress := e.fab.egress, dir := e.fab.dir }
  slots : e.rgn.slots = d.rgn.slots
  runs : e.flt.deviceFault = d.flt.deviceFault

section
variable {d e f : Dev}

theorem Writes.refl (d : Dev) : Writes d d := ⟨.refl .., rfl, rfl, rfl⟩
theorem Writes.trans (h : Writes d e) (k : Writes e f) : Writes d f :=
  ⟨h.frame.trans k.frame, by rw [k.fab, h.fab], k.slots.trans h.slots, k.runs.trans h.runs⟩
theorem Writes.ite {c : Prop} [Decidable c] (h : Writes d e) (k : Writes d f) : Writes d (if c then e else f) := by
  split
  · exact h
  · exact k
theorem Writes.foldl {α : Type} {op : Dev → α → Dev} {l : List α} (h : Writes d e) (k : ∀ x y, Writes x (op x y)) : Writes d (l.foldl op e) := by
  induction l generalizing e with
  | nil => exact h
  | cons y l ih => exact ih (h.trans (k e y))

theorem Writes.of_frame {ps : List Part} (h : Frame ps d e) (w : ∀ p ∈ ps, p ∈ lineParts) (fab : .fab ∉ ps) (rgn : .rgn ∉ ps) (flt : .flt ∉ ps) :
    Writes d e := by
  have sameFab : e.fab = d.fab := h.same .fab fab
  have sameRgn : e.rgn = d.rgn := h.same .rgn rgn
  exact ⟨h.mono w, by rw [sameFab], by rw [sameRgn], h.fltField flt (·.deviceFault)⟩

theorem Writes.held (h : Writes d e) : e.fab.held = d.fab.held := by rw [h.fab]
theorem Writes.heldRsp (h : Writes d e) : e.fab.heldRsp = d.fab.heldRsp := by rw [h.fab]
theorem Writes.devNo (h : Writes d e) : e.devNo = d.devNo := by
  have boot : e.boot = d.boot := h.frame.same .boot (by decide)
  simp only [Dev.devNo, boot]
theorem Writes.regionOf (h : Writes d e) (addr : Nat) : e.regionOf addr = d.regionOf addr := by simp only [Dev.regionOf, h.slots]

end

theorem modUnit_writes (d : Dev) (k : Nat) (f : RUnit → RUnit) : Writes d (d.modUnit k f) := ⟨(modUnit_frame ..).mono (by decide), rfl, rfl, rfl⟩

theorem put_writes (d : Dev) (dest : Nat) {code : Nat} (m : Msg) (quiet : patronReq code = false) : Writes d (d.put dest code m) := by
  have frame := put_quiet d dest m quiet
  have sends := put_onlySends d dest code m
  refine ⟨frame.mono (by decide), ?_, congrArg (·.slots) (frame.same .rgn (by decide)), frame.fltField (by decide) (·.deviceFault)⟩
  exact sends.fab.trans (by rw [sends.fab])

theorem setDir_writes (d : Dev) (set : Nat) (es : List DirEnt) : Writes d (d.setDir set es) := ⟨(setDir_frame ..).mono (by decide), rfl, rfl, rfl⟩
theorem modDir_writes (d : Dev) (set line : Nat) (f : DirEnt → DirEnt) : Writes d (d.modDir set line f) := setDir_writes ..

theorem sendInv_writes (d : Dev) (addr : Nat) (devs : List Nat) : Writes d (d.sendInv addr devs) :=
  (Writes.refl d).foldl fun _ _ => (Writes.of_frame (count_frame ..) (by decide) (by decide) (by decide) (by decide)).trans (put_writes _ _ _ (by decide))

theorem dirUpdate_writes (d : Dev) (line writer : Nat) (reference : Bool) : Writes d (d.dirUpdate line writer reference).2 := by
  unfold Dev.dirUpdate
  extract_lets set es cur devs told marked
  clear_value devs cur
  split
  · exact .refl d
  split
  · split
    · exact .refl d
    · exact (setDir_writes d set _).trans (sendInv_writes ..)
  · split
    · exact .refl d
    · exact (modDir_writes d set line _).trans (sendInv_writes ..)

theorem cleanLine_writes (d : Dev) (line : Nat) : Writes d (d.cleanLine line) := by
  have frame := (cleanLine_frame d line).mono (qs := lineParts) (by decide)
  unfold Dev.cleanLine at frame ⊢
  dsimp only at frame ⊢
  split at frame
  next h => rw [if_pos h]; exact ⟨frame, rfl, rfl, rfl⟩
  next h => rw [if_neg h]; exact ⟨frame, rfl, rfl, rfl⟩

theorem poisonEvent_writes (d : Dev) (p cluster off kind : Nat) (i : LogInfo) : Writes d (d.poisonEvent p cluster off kind i) :=
  .of_frame (poisonEvent_tame ..).frame (by decide) (by decide) (by decide) (by decide)

theorem poisonLine_writes (d : Dev) (line : Nat) : Writes d (d.poisonLine line) := by
  unfold Dev.poisonLine
  extract_lets k
  refine .ite (.refl d) ?_
  split
  · exact .refl d
  · next u _ =>
    extract_lets marked
    have hMarked : Writes d marked := by
      simp only [marked]
      split
      · next e taken =>
        have entry : Writes d e := .of_frame (poisonEntry_frame taken) (by decide) (by decide) (by decide) (by decide)
        exact entry.trans ⟨(Frame.flt e _).mono (by decide), rfl, rfl, rfl⟩
      · exact (modUnit_writes ..).trans (.of_frame (count_frame ..) (by decide) (by decide) (by decide) (by decide))
    clear_value marked
    exact hMarked.trans (poisonEvent_writes ..)

theorem staleUnit_writes (d : Dev) (k : Nat) : Writes d (d.staleUnit k) := by
  unfold Dev.staleUnit
  extract_lets dropped vs unmapped tierSt cleared
  have hDropped : Writes d dropped := .of_frame (dropDemo_tame ..).frame (by decide) (by decide) (by decide) (by decide)
  have hUnmapped : Writes d unmapped :=
    hDropped.foldl fun _ _ => (Writes.refl _).foldl fun _ _ => .of_frame (unmapUnit_tame ..).frame (by decide) (by decide) (by decide) (by decide)
  have hCleared : Writes unmapped cleared := .of_frame (Frame.tier unmapped _) (by decide) (by decide) (by decide) (by decide)
  exact (hUnmapped.trans hCleared).trans (modUnit_writes ..)

theorem putLine_writes (s : State) (r : Region) (off mask : Nat) (b : List Byte) (writer : Nat) (poison : Bool) :
    Writes s.dev (s.putLine r off mask b writer poison).2.dev := by
  unfold State.putLine
  extract_lets line k full mem cleaned poisoned sec marked h
  have hCleaned : Writes s.dev cleaned := .ite (cleanLine_writes ..) (.refl _)
  have hPoisoned : Writes s.dev poisoned := .ite (hCleaned.trans (poisonLine_writes ..)) hCleaned
  have hMarked : Writes s.dev marked := by
    simp only [marked]
    split
    · exact hPoisoned.trans (modUnit_writes ..)
    · split
      · exact .ite (hPoisoned.trans (staleUnit_writes ..)) hPoisoned
      · exact hPoisoned
  clear_value marked
  have told := dirUpdate_writes marked line writer (r.kind == 2)
  split
  next held e update =>
  rw [update] at told
  exact hMarked.trans told

theorem putLine_mem (s : State) (r : Region) (off : Nat) (b : List Byte) (writer : Nat) (poison : Bool) :
    (s.putLine r off (2 ^ 64 - 1) b writer poison).2.mem = memWrite s.mem (64 * (off / 64)) b := by
  unfold State.putLine
  dsimp only
  simp only [decide_true, if_true]

theorem putLine_pending (s : State) (r : Region) (off mask : Nat) (b : List Byte) (writer : Nat) (poison : Bool) :
    (s.putLine r off mask b writer poison).2.pending = s.pending := rfl

/-- Reading back what was written. -/
theorem memRead_eq {m : List Host.Cell} {a : Nat} {b : List Byte} (h : ∀ i (lt : i < b.length), memGet m (a + i) = b[i]) : memRead m a b.length = b := by
  induction b generalizing a with
  | nil => rfl
  | cons x b ih =>
    change memGet m a :: memRead m (a + 1) b.length = _
    congr 1
    · exact h 0 (by simp)
    · refine ih fun i lt => ?_
      have := h (i + 1) (by simpa using lt)
      rw [show a + 1 + i = a + (i + 1) by omega]
      simpa using this

theorem memRead_memWrite {m : List Host.Cell} (wf : Memory.wf m = true) (a : Nat) (b : List Byte) : memRead (memWrite m a b) a b.length = b :=
  memRead_eq fun i lt => by rw [memGet_memWrite_inside b m a i wf lt]

/-! #### Responses that are held and those that go out -/

/-- Whether a response awaits nothing more. -/
def goesOut (h : HeldRsp) : Bool := h.lines.isEmpty && h.accept.isEmpty && h.mirror.isEmpty

theorem goesOut_waiting {h : HeldRsp} (w : h.lines ≠ [] ∨ h.accept ≠ [] ∨ h.mirror ≠ []) : goesOut h = false := by
  rcases w with w | w | w <;> simp [goesOut, w]

theorem flushHeld_eq (d : Dev) : d.flushHeld = (d.fab.heldRsp.filter goesOut).foldl (fun d h => d.deliver h.dest h.code 0 h.m h.job)
    { d with fab := { d.fab with heldRsp := d.fab.heldRsp.filter fun h => !goesOut h } } := rfl

theorem flushHeld_calm {d : Dev} (waiting : ∀ h ∈ d.fab.heldRsp, h.lines ≠ [] ∨ h.accept ≠ [] ∨ h.mirror ≠ []) : d.flushHeld = d := by
  have leave : d.fab.heldRsp.filter goesOut = [] := List.filter_eq_nil_iff.mpr fun h mem => by rw [goesOut_waiting (waiting h mem)]; decide
  have stay : d.fab.heldRsp.filter (fun h => !goesOut h) = d.fab.heldRsp :=
    List.filter_eq_self.mpr fun h mem => by rw [goesOut_waiting (waiting h mem)]; rfl
  rw [flushHeld_eq, leave, stay]
  rfl

/-- A response that awaits nothing goes out, and none of those that waited. -/
theorem flushHeld_one {d : Dev} {h : HeldRsp} (waiting : ∀ h ∈ d.fab.heldRsp, h.lines ≠ [] ∨ h.accept ≠ [] ∨ h.mirror ≠ [])
    (ready : h.lines = [] ∧ h.accept = [] ∧ h.mirror = []) :
    ({ d with fab := { d.fab with heldRsp := d.fab.heldRsp ++ [h] } } : Dev).flushHeld = d.deliver h.dest h.code 0 h.m h.job := by
  have leave : d.fab.heldRsp.filter goesOut = [] := List.filter_eq_nil_iff.mpr fun h mem => by rw [goesOut_waiting (waiting h mem)]; decide
  have stay : d.fab.heldRsp.filter (fun h => !goesOut h) = d.fab.heldRsp :=
    List.filter_eq_self.mpr fun h mem => by rw [goesOut_waiting (waiting h mem)]; rfl
  have goes : goesOut h = true := by
    obtain ⟨lines, accept, mirror⟩ := ready
    simp [goesOut, lines, accept, mirror]
  rw [flushHeld_eq]
  dsimp only
  rw [List.filter_append, List.filter_append, leave, stay, List.filter_singleton, List.filter_singleton, goes]
  simp

/-- A response of which nothing is known but where it goes: it waits with those that wait, or goes out alone. -/
theorem flushHeld_new {d : Dev} {h : HeldRsp} (waiting : ∀ h ∈ d.fab.heldRsp, h.lines ≠ [] ∨ h.accept ≠ [] ∨ h.mirror ≠ []) :
    ({ d with fab := { d.fab with heldRsp := d.fab.heldRsp ++ [h] } } : Dev).flushHeld
      = { d with fab := { d.fab with heldRsp := d.fab.heldRsp ++ [h] } }
    ∨ ({ d with fab := { d.fab with heldRsp := d.fab.heldRsp ++ [h] } } : Dev).flushHeld = d.deliver h.dest h.code 0 h.m h.job := by
  by_cases ready : h.lines = [] ∧ h.accept = [] ∧ h.mirror = []
  · exact .inr (flushHeld_one waiting ready)
  · refine .inl (flushHeld_calm fun x mem => ?_)
    rcases List.mem_append.mp mem with old | new
    · exact waiting x old
    · rw [List.mem_singleton.mp new]
      by_cases lines : h.lines = []
      · by_cases accept : h.accept = []
        · exact .inr (.inr fun mirror => ready ⟨lines, accept, mirror⟩)
        · exact .inr (.inl accept)
      · exact .inl lines

end Sys2Proof.Safety
end

section
/-! ### Mapping notices, mirrors and requests of regions that arrive (R389, R401, R402, R411, R413, R416) -/

namespace Sys2Proof.Safety

open Sys2Proof.Machine

/-! #### Mapping notices -/

/-- A mapping of a notice is installed. -/
def noticed (d : Dev) (x : Mapping) : Dev := ({ d with rgn := { d.rgn with torn := d.rgn.torn.filter (· != x.region) } } : Dev).installMap x

theorem mapNotice_installs (s : State) {port : Nat} {m : Msg} (taken : Taken s port 0x52 m) (wing : srcDev m.source / 16 = s.dev.wing)
    (some_ : fieldOf m.slots 12 4 ≠ 0) (room : s.dev.rgn.maps.length < 16384) : After (.mapNotice port m) s fun t =>
      { region := fieldOf m.slots 0 4, patron := srcPatron (fieldOf m.slots 4 2), rights := fieldOf m.slots 6 1, first := fieldOf m.slots 8 4
        count := fieldOf m.slots 12 4, attrs := fieldOf m.slots 7 1, partner := m.arg } ∈ t.dev.rgn.maps
      ∧ Sends (srcDev m.source) 0x29 (fun x => x.tag = m.tag ∧ x.arg = stOk) t ∧ Changes [.fab, .rgn, .out, .ctrs] s t := by
  let x : Mapping := {
    region := fieldOf m.slots 0 4, patron := srcPatron (fieldOf m.slots 4 2), rights := fieldOf m.slots 6 1, first := fieldOf m.slots 8 4
    count := fieldOf m.slots 12 4, attrs := fieldOf m.slots 7 1, partner := m.arg }
  have installed : Frame [.rgn] s.dev (noticed s.dev x) := Frame.rgn s.dev _
  have runs : (noticed s.dev x).flt.deviceFault = false := fabOn_runs taken.1
  have run : exec (.mapNotice port m) s = devNext s ((noticed s.dev x).put (srcDev m.source) 0x29 ((noticed s.dev x).rsp m stOk [])) := by
    refine congrArg Host.Outcome.next ((onMsg_taken taken _).trans ?_)
    have fits : (fieldOf m.slots 12 4 != 0 && decide (16384 ≤ s.dev.rgn.maps.length)
        && !s.dev.rgn.maps.any fun (x : Mapping) => x.region == fieldOf m.slots 0 4 && x.patron == srcPatron (fieldOf m.slots 4 2)) = false := by
      simp [not_le.mpr room]
    unfold State.mapNoticeIn State.onDev
    dsimp only
    rw [fits, if_neg some_]
    simp only [Bool.false_eq_true, if_false]
    exact congrArg (fun d => ({ s with dev := d } : State)) (if_pos wing)
  have sent := put_quiet (noticed s.dev x) (srcDev m.source) ((noticed s.dev x).rsp m stOk []) (code := 0x29) (by decide)
  have maps : x ∈ (noticed s.dev x).rgn.maps := List.mem_append_right _ (List.mem_singleton.mpr rfl)
  obtain ⟨out, carried, way⟩ := put_onItsWay (srcDev m.source) 0x29 ((noticed s.dev x).rsp m stOk []) runs
  refine .of_exec run ⟨?_, way.sends ?_, .of_frame (sent.step (by decide) (installed.mono (by decide)))⟩
  · have rgn := sent.same .rgn (by decide)
    simp only [Part.same] at rgn
    dsimp only
    rw [rgn]
    exact maps
  · rcases carried with rfl | rfl <;> exact ⟨rfl, rfl⟩

/-! #### Writes of the primary -/

/-- DONE answers a request of another device, or of this one. -/
theorem deliver_leaves (d : Dev) (dest code : Nat) (m : Msg) (quiet : patronReq code = false) : Writes d (d.deliver dest code 0 m none) := by
  unfold Dev.deliver
  exact .ite (.refl d) (put_writes _ _ _ quiet)

theorem deliver_sends {d : Dev} {dest : Nat} (code : Nat) (m : Msg) (other : dest ≠ d.devNo) (runs : d.flt.deviceFault = false) :
    ∃ x, Carried m x ∧ OnItsWay dest code x (d.deliver dest code 0 m none) := by
  unfold Dev.deliver
  rw [if_neg other]
  exact put_onItsWay dest code m runs

theorem record_recs (d : Dev) (code : Nat) (m : Msg) (result : Nat) : Frame [.fab] d (d.record code m result)
    ∧ (d.record code m result).fab.held = d.fab.held ∧ (d.record code m result).fab.heldRsp = d.fab.heldRsp := by
  refine ⟨record_frame .., ?_⟩
  unfold Dev.record
  split
  · exact ⟨rfl, rfl⟩
  dsimp only
  split <;> exact ⟨rfl, rfl⟩

theorem mirrorWrite_late (s : State) {port : Nat} {m : Msg} {r : Region} (taken : Taken s port 0x58 m) (here : s.dev.regionOf m.addr = some r)
    (late : fieldOf m.slots 0 8 ≤ r.mirrorSeq) : After (.mirrorWrite port m) s fun t =>
      Sends (srcDev m.source) 0x29 (fun x => x.tag = m.tag ∧ x.arg = stOk) t ∧ Changes [.fab, .out, .ctrs] s t := by
  have run : exec (.mirrorWrite port m) s = devNext s (s.dev.put (srcDev m.source) 0x29 (s.dev.rsp m stOk [])) := by
    refine congrArg Host.Outcome.next ((onMsg_taken taken _).trans ?_)
    unfold State.mirrorWriteIn
    rw [here]
    exact if_pos late
  obtain ⟨x, carried, way⟩ := put_onItsWay (srcDev m.source) 0x29 (s.dev.rsp m stOk []) (fabOn_runs taken.1)
  refine .of_exec run ⟨way.sends ?_, .of_frame ((put_quiet _ _ _ (by decide)).mono (by decide))⟩
  rcases carried with rfl | rfl <;> exact ⟨rfl, rfl⟩

/-- What a write of a mirror leaves: the line, the record's place in the order, the answer. -/
structure Mirrored (s : State) (m : Msg) (r : Region) (t : State) : Prop where
  mem : t.mem = memWrite s.mem (64 * (m.addr % 2 ^ 50 / 64 * 64 / 64)) ((m.slots.drop 16).take 64)
  region : ∃ q, t.dev.regionOf m.addr = some q ∧ q.mirrorSeq = fieldOf m.slots 0 8
  held : t.dev.fab.held = s.dev.fab.held
  sends : srcDev m.source ≠ s.dev.devNo → ∃ x, x.tag = m.tag ∧ x.arg = stOk ∧ OnItsWay (srcDev m.source) 0x29 x t.dev
  pending : t.pending = s.pending
  frame : Frame lineParts s.dev t.dev

theorem regionOf_modRegion {d : Dev} {addr : Nat} {r : Region} (here : d.regionOf addr = some r) (f : Region → Region) (id : (f r).id = r.id) :
    (d.modRegion (slotOf addr) f).regionOf addr = some (f r) := by
  unfold Dev.regionOf at here ⊢
  split at here
  next r' known =>
    split at here
    next same =>
      obtain rfl := Option.some.inj here
      have changed : tget (d.modRegion (slotOf addr) f).rgn.slots (slotOf addr) = some (f r') := by
        rw [Dev.modRegion, tget_tmod_same, known]
        rfl
      rw [changed]
      exact if_pos (id.trans same)
    next => cases here
  next => cases here

theorem mirrorApply_writes {s : State} {m : Msg} {r : Region} (here : s.dev.regionOf m.addr = some r) (runs : s.dev.flt.deviceFault = false)
    (line : m.addr % 2 ^ 50 % windowBytes / 64 * 64 ≠ versionOff) (store : fieldOf m.slots 12 1 ≠ 0x10) (waiting : calm s) (plain : r.persist = false) :
    Mirrored s m r (s.mirrorApply m r) := by
  unfold State.mirrorApply
  extract_lets x off code orig body s1 n at_ s2 d acc h fabSt
  have ordered : s1.dev.regionOf m.addr = some { r with mirrorSeq := fieldOf m.slots 0 8 } := regionOf_modRegion here _ rfl
  have hS1 : s1.dev.flt = s.dev.flt := rfl
  have hS2 : s2 = (s1.putLine r (off / 64 * 64) (2 ^ 64 - 1) (body.take 64) s1.dev.devNo m.poison).2 := (if_neg line).trans (if_neg store)
  have first : Frame [.rgn] s.dev s1.dev := modRegion_frame ..
  have same : s1.dev.fab = s.dev.fab := rfl
  have mem : s1.mem = s.mem := rfl
  have pending : s1.pending = s.pending := rfl
  clear_value s1
  have writes : Writes s1.dev s2.dev := hS2 ▸ putLine_writes ..
  have written : s2.mem = memWrite s1.mem (64 * (off / 64 * 64 / 64)) (body.take 64) := hS2 ▸ putLine_mem ..
  have pending2 : s2.pending = s1.pending := hS2 ▸ putLine_pending ..
  clear_value s2
  obtain ⟨recorded, held, heldRsp⟩ := record_recs s2.dev code orig (if code = 0x10 then fieldOf body 0 16 else 0)
  have hAcc : acc = [] := by
    refine (if_neg line).trans ?_
    unfold Dev.acceptOf
    rw [plain]
    rfl
  have calm_ : ∀ h ∈ d.fab.heldRsp, h.lines ≠ [] ∨ h.accept ≠ [] ∨ h.mirror ≠ [] := by
    intro h mem
    rw [heldRsp, writes.heldRsp, same] at mem
    exact waiting h mem
  have sent : ({ d with fab := { d.fab with heldRsp := d.fab.heldRsp ++ [h] } } : Dev).flushHeld = d.deliver (srcDev m.source) 0x29 0 (d.rsp m stOk []) none :=
    flushHeld_one calm_ ⟨rfl, hAcc, rfl⟩
  have delivered := deliver_leaves d (srcDev m.source) 0x29 (d.rsp m stOk []) (by decide)
  have devNo : d.devNo = s.dev.devNo := by
    have boot : d.boot = s.dev.boot :=
      (recorded.same .boot (by decide)).trans ((writes.frame.same .boot (by decide)).trans (first.same .boot (by decide)))
    simp only [Dev.devNo, boot]
  have runs' : d.flt.deviceFault = false := by
    rw [recorded.fltField (by decide) (·.deviceFault), writes.runs, hS1]
    exact runs
  have slots : d.rgn.slots = s2.dev.rgn.slots := congrArg (·.slots) (recorded.same .rgn (by decide))
  have answered := deliver_sends (d := d) (dest := srcDev m.source) 0x29 (d.rsp m stOk []) (runs := runs')
  have frame : Frame lineParts s.dev d :=
    recorded.step (by decide) (writes.frame.step (by decide) (first.mono (by decide)))
  have tag : (d.rsp m stOk []).tag = m.tag ∧ (d.rsp m stOk []).arg = stOk := ⟨rfl, rfl⟩
  have heldD : d.fab.held = s2.dev.fab.held := held
  generalize d.rsp m stOk [] = out at sent delivered answered tag
  clear_value d h acc
  refine ⟨?_, ⟨{ r with mirrorSeq := fieldOf m.slots 0 8 }, ?_, rfl⟩, ?_, fun other => ?_, pending2.trans pending, ?_⟩
  · exact written.trans (by rw [mem])
  · dsimp only [fabSt]
    rw [sent, delivered.regionOf]
    unfold Dev.regionOf
    rw [slots]
    exact (writes.regionOf m.addr).trans ordered
  · dsimp only [fabSt]
    rw [sent, delivered.held, heldD, writes.held, same]
  · obtain ⟨y, carried, way⟩ := answered (by rw [devNo]; exact other)
    refine ⟨y, ?_, ?_, ?_⟩
    · rcases carried with rfl | rfl <;> exact tag.1
    · rcases carried with rfl | rfl <;> exact tag.2
    · dsimp only [fabSt]
      rw [sent]
      exact way
  · dsimp only [fabSt]
    rw [sent]
    exact delivered.frame.step (by decide) frame

theorem mirrorWrite_next (s : State) {port : Nat} {m : Msg} {r : Region} (taken : Taken s port 0x58 m) (wf : Memory.wf s.mem = true)
    (here : s.dev.regionOf m.addr = some r) (next : fieldOf m.slots 0 8 = r.mirrorSeq + 1) (size : m.slots.length = 80)
    (store : fieldOf m.slots 12 1 ≠ 0x10) (waiting : calm s) (aligned : m.addr % 64 = 0) (line : m.addr % windowBytes ≠ versionOff)
    (plain : r.persist = false) (none : ∀ h ∈ s.dev.fab.held, h.why ≠ 4) : After (.mirrorWrite port m) s fun t =>
      memRead t.mem (m.addr % 2 ^ 50) 64 = m.slots.drop 16
      ∧ (∀ a, a < m.addr % 2 ^ 50 ∨ m.addr % 2 ^ 50 + 64 ≤ a → memGet t.mem a = memGet s.mem a)
      ∧ (∃ q, t.dev.regionOf m.addr = some q ∧ q.mirrorSeq = r.mirrorSeq + 1)
      ∧ (srcDev m.source ≠ s.dev.devNo → Sends (srcDev m.source) 0x29 (fun x => x.tag = m.tag ∧ x.arg = stOk) t)
      ∧ t.pending = s.pending ∧ Frame (.fab :: .rgn :: .flt :: .stk :: .tier :: evParts) s.dev t.dev := by
  have off : m.addr % 2 ^ 50 / 64 * 64 = m.addr % 2 ^ 50 := by omega
  have window : m.addr % 2 ^ 50 % windowBytes / 64 * 64 = m.addr % windowBytes := by simp only [windowBytes]; omega
  have applied := mirrorApply_writes here (fabOn_runs taken.1) (by rw [window]; exact line) store waiting plain
  have run : exec (.mirrorWrite port m) s = .next (s.mirrorApply m r) := by
    refine congrArg Host.Outcome.next ((onMsg_taken taken _).trans ?_)
    have early : (s.mirrorApply m r).dev.fab.held.filter (fun h => h.why == 4 && addrRegion h.m.addr == r.id) = [] := by
      rw [applied.held, List.filter_eq_nil_iff]
      intro h mem
      simp [none h mem]
    unfold State.mirrorWriteIn
    rw [here]
    dsimp only
    rw [if_neg (by omega), if_neg (by omega), early]
    rfl
  have bytes : (m.slots.drop 16).length = 64 := by simp [size]
  have content : (m.slots.drop 16).take 64 = m.slots.drop 16 := List.take_of_length_le bytes.le
  have mem : (s.mirrorApply m r).mem = memWrite s.mem (m.addr % 2 ^ 50) (m.slots.drop 16) := by
    rw [applied.mem, content, off]
    congr 1
    omega
  refine .of_exec run ⟨?_, fun a out => ?_, ?_, fun other => ?_, applied.pending, applied.frame⟩
  · rw [mem, ← bytes]
    exact memRead_memWrite wf ..
  · rw [mem]
    exact memGet_memWrite_outside _ _ _ _ (by rw [bytes]; exact out)
  · obtain ⟨q, known, seq⟩ := applied.region
    exact ⟨q, known, seq.trans next⟩
  · obtain ⟨x, tag, status, way⟩ := applied.sends other
    exact way.sends ⟨tag, status⟩

/-! #### Blocks of a rebuild -/

theorem memWrite_append (b c : List Byte) (m : List Host.Cell) (a : Nat) : memWrite m a (b ++ c) = memWrite (memWrite m a b) (a + b.length) c := by
  induction b generalizing m a with
  | nil => rfl
  | cons x b ih =>
    change memWrite (memSet m a x) (a + 1) (b ++ c) = _
    rw [ih, List.length_cons, show a + (b.length + 1) = a + 1 + b.length by omega]
    rfl

/-- Whole lines one after another. -/
def putLines (s : State) (r : Region) (off : Nat) (b : List Byte) (writer : State → Nat) (poison : Bool) (n : Nat) : State :=
  (List.range n).foldl (fun s i => (s.putLine r (off + 64 * i) (2 ^ 64 - 1) ((b.drop (64 * i)).take 64) (writer s) poison).2) s

theorem putLines_succ (s : State) (r : Region) (off : Nat) (b : List Byte) (writer : State → Nat) (poison : Bool) (n : Nat) :
    putLines s r off b writer poison (n + 1)
      = ((putLines s r off b writer poison n).putLine r (off + 64 * n) (2 ^ 64 - 1) ((b.drop (64 * n)).take 64)
        (writer (putLines s r off b writer poison n)) poison).2 := by
  rw [putLines, List.range_succ, List.foldl_append]
  rfl

theorem putLines_writes (s : State) (r : Region) (off : Nat) (b : List Byte) (writer : State → Nat) (poison : Bool) (n : Nat) :
    Writes s.dev (putLines s r off b writer poison n).dev := by
  induction n with
  | zero => exact .refl _
  | succ n ih =>
    rw [putLines_succ]
    exact ih.trans (putLine_writes ..)

theorem putLines_pending (s : State) (r : Region) (off : Nat) (b : List Byte) (writer : State → Nat) (poison : Bool) (n : Nat) :
    (putLines s r off b writer poison n).pending = s.pending := by
  induction n with
  | zero => rfl
  | succ n ih => rw [putLines_succ, putLine_pending, ih]

theorem putLines_mem (s : State) (r : Region) {off : Nat} (aligned : off % 64 = 0) (b : List Byte) (writer : State → Nat) (poison : Bool) (n : Nat)
    (size : 64 * n ≤ b.length) : (putLines s r off b writer poison n).mem = memWrite s.mem off (b.take (64 * n)) := by
  induction n with
  | zero => rfl
  | succ n ih =>
    have bytes : (b.take (64 * n)).length = 64 * n := List.length_take_of_le (by omega)
    have place : 64 * ((off + 64 * n) / 64) = off + 64 * n := by omega
    rw [putLines_succ, putLine_mem, ih (by omega), place, show 64 * (n + 1) = 64 * n + 64 by omega, List.take_add, memWrite_append, bytes]

/-- The record of a region after a block of its rebuild: the last one puts it in service. -/
def rebuilt (m : Msg) (r : Region) (last : Prop) [Decidable last] (d : Dev) : Dev :=
  let d := (d.count .rebuildBytes 0 (64 * (m.arg + 1))).modRegion (slotOf m.addr) fun r => { r with mirrorSeq := max r.mirrorSeq (fieldOf m.slots 0 8) }
  if last then (d.modRegion (slotOf m.addr) fun r => { r with st := 1 }).devEvent 0x0403 r.id d.devNo else d

/-- What a block of a rebuild leaves of the device besides its lines. -/
structure Rebuilt (m : Msg) (last : Prop) (d e : Dev) : Prop where
  frame : Frame lineParts d e
  heldRsp : e.fab.heldRsp = d.fab.heldRsp
  serves : last → ∃ q, e.regionOf m.addr = some q ∧ q.st = 1

theorem rebuilt_serves {m : Msg} {r : Region} (last : Prop) [Decidable last] {d : Dev} (here : d.regionOf m.addr = some r) :
    Rebuilt m last d (rebuilt m r last d) := by
  unfold rebuilt
  extract_lets seq
  have hCounted : Frame [.ctrs] d (d.count .rebuildBytes 0 (64 * (m.arg + 1))) := count_frame ..
  have known : (d.count .rebuildBytes 0 (64 * (m.arg + 1))).regionOf m.addr = some r := (regionOf_of (hCounted.same .rgn (by decide)) _).trans here
  have hSeq : seq.regionOf m.addr = some { r with mirrorSeq := max r.mirrorSeq (fieldOf m.slots 0 8) } := regionOf_modRegion known _ rfl
  have fab : seq.fab = d.fab := hCounted.same .fab (by decide)
  have frame : Frame [.ctrs, .rgn] d seq := (modRegion_frame ..).step (by decide) (hCounted.mono (by decide))
  clear_value seq
  split
  next h =>
    have served : (seq.modRegion (slotOf m.addr) fun r => { r with st := 1 }).regionOf m.addr
        = some { r with mirrorSeq := max r.mirrorSeq (fieldOf m.slots 0 8), st := 1 } := regionOf_modRegion hSeq _ rfl
    have told : Frame evParts (seq.modRegion (slotOf m.addr) fun r => { r with st := 1 })
        ((seq.modRegion (slotOf m.addr) fun r => { r with st := 1 }).devEvent 0x0403 r.id seq.devNo) := devEvent_frame ..
    refine ⟨told.step (by decide) ((modRegion_frame ..).step (by decide) (frame.mono (by decide))), ?_, fun _ => ⟨_, (regionOf_of (told.same .rgn (by decide)) _).trans served, rfl⟩⟩
    rw [told.same .fab (by decide)]
    exact congrArg (·.heldRsp) fab
  next h => exact ⟨frame.mono (by decide), congrArg (·.heldRsp) fab, fun l => absurd l h⟩

theorem mirrorBlock_writes (s : State) {port : Nat} {m : Msg} {r : Region} (taken : Taken s port 0x59 m) (wf : Memory.wf s.mem = true)
    (here : s.dev.regionOf m.addr = some r) (waiting : calm s) (whole : m.slots.length % 16 = 0) : After (.mirrorBlock port m) s fun t =>
      memRead t.mem (m.addr % 2 ^ 50) (64 * (m.arg + 1)) = m.slots.drop 16
      ∧ (∀ a, a < m.addr % 2 ^ 50 ∨ m.addr % 2 ^ 50 + 64 * (m.arg + 1) ≤ a → memGet t.mem a = memGet s.mem a)
      ∧ (r.st = 3 → m.addr % windowBytes + 64 * (m.arg + 1) = r.size → ∃ q, t.dev.regionOf m.addr = some q ∧ q.st = 1)
      ∧ t.pending = s.pending ∧ Frame (.fab :: .rgn :: .flt :: .stk :: .tier :: evParts) s.dev t.dev := by
  obtain ⟨shape, aligned⟩ : m.slots.length / 16 = 1 + 4 * (m.arg + 1) ∧ m.addr % 64 = 0 := by
    have ok := taken.2.1
    simp only [msgOk, msgShape, addrAligned, Bool.and_eq_true, beq_iff_eq] at ok
    exact ⟨by simpa using ok.1.1.1.2.2, by simpa using ok.1.1.2⟩
  let last := decide (m.addr % 2 ^ 50 / 64 * 64 % windowBytes + 64 * (m.arg + 1) = r.size) = true ∧ r.st = 3
  let lines := putLines s r (m.addr % 2 ^ 50 / 64 * 64) (m.slots.drop 16) (·.dev.devNo) m.poison (m.arg + 1)
  let d := rebuilt m r last lines.dev
  let h : HeldRsp := {
    dest := srcDev m.source, code := 0x29, m := d.rsp m stOk []
    accept := (List.range (m.arg + 1)).flatMap fun i => d.acceptOf r (m.addr % 2 ^ 50 / 64 * 64 + 64 * i) }
  let answered := ({ d with fab := { d.fab with heldRsp := d.fab.heldRsp ++ [h] } } : Dev).flushHeld
  have run : exec (.mirrorBlock port m) s = .next { lines with dev := answered } := by
    refine congrArg Host.Outcome.next ((onMsg_taken taken _).trans ?_)
    unfold State.mirrorBlockIn
    rw [here]
    rfl
  have writes : Writes s.dev lines.dev := putLines_writes ..
  have bytes : (m.slots.drop 16).length = 64 * (m.arg + 1) := by rw [List.length_drop]; omega
  have off : m.addr % 2 ^ 50 / 64 * 64 = m.addr % 2 ^ 50 := by omega
  have window : m.addr % 2 ^ 50 / 64 * 64 % windowBytes = m.addr % windowBytes := by simp only [windowBytes]; omega
  have mem : lines.mem = memWrite s.mem (m.addr % 2 ^ 50) (m.slots.drop 16) := by
    refine (putLines_mem s r (by omega) _ _ _ _ bytes.ge).trans ?_
    rw [List.take_of_length_le bytes.le, off]
  have pending : lines.pending = s.pending := putLines_pending ..
  have done : Rebuilt m last lines.dev d := rebuilt_serves last ((writes.regionOf m.addr).trans here)
  have calm_ : ∀ h ∈ d.fab.heldRsp, h.lines ≠ [] ∨ h.accept ≠ [] ∨ h.mirror ≠ [] := by
    intro h mem
    rw [done.heldRsp, writes.heldRsp] at mem
    exact waiting h mem
  clear_value lines d
  have answer : Frame [.fab, .out, .ctrs] d answered := by
    rcases flushHeld_new (h := h) calm_ with waits | goes
    · simp only [answered, waits]
      exact (Frame.fab d _).mono (by decide)
    · simp only [answered, goes]
      exact .ite (Frame.refl ..) ((put_quiet _ _ _ (code := 0x29) (by decide)).mono (by decide))
  clear_value answered
  refine .of_exec run ⟨?_, fun a out => ?_, fun st end_ => ?_, pending, ?_⟩
  · dsimp only
    rw [mem, ← bytes]
    exact memRead_memWrite wf ..
  · dsimp only
    rw [mem]
    exact memGet_memWrite_outside _ _ _ _ (by rw [bytes]; exact out)
  · obtain ⟨q, known, serves⟩ := done.serves ⟨by rw [window]; exact decide_eq_true end_, st⟩
    exact ⟨q, (regionOf_of (answer.same .rgn (by decide)) _).trans known, serves⟩
  · exact answer.step (by decide) (done.frame.step (by decide) writes.frame)

end Sys2Proof.Safety
end

section
/-! ### Drained revocations and requests of regions that arrive (R401, R402, R416) -/

namespace Sys2Proof.Safety

open Sys2Proof.Machine

/-- What `g` reads of the fabric's state is as it was. -/
structure SameFab {β : Type} (g : FabSt → β) (d e : Dev) : Prop where
  field : g e.fab = g d.fab

/-- A reading of the fabric's state that does not see what sending changes. -/
structure Blind {β : Type} (g : FabSt → β) : Prop where
  sends : ∀ x ports outst egress, g { x with ports := ports, outst := outst, egress := egress } = g x
  chans : ∀ x chans, g { x with chans := chans } = g x

theorem blind_jobs : Blind FabSt.jobs := ⟨fun _ _ _ _ => rfl, fun _ _ => rfl⟩
theorem blind_heldRsp : Blind FabSt.heldRsp := ⟨fun _ _ _ _ => rfl, fun _ _ => rfl⟩

section
variable {β : Type} {g : FabSt → β} {d e f : Dev}

theorem SameFab.refl (g : FabSt → β) (d : Dev) : SameFab g d d := ⟨rfl⟩
theorem SameFab.trans (h : SameFab g d e) (k : SameFab g e f) : SameFab g d f := ⟨k.field.trans h.field⟩
theorem SameFab.of_frame {ps : List Part} (h : Frame ps d e) (n : .fab ∉ ps) : SameFab g d e := ⟨congrArg g (h.same .fab n)⟩
theorem SameFab.foldl {α : Type} {op : Dev → α → Dev} {l : List α} (h : SameFab g d e) (k : ∀ x y, SameFab g x (op x y)) :
    SameFab g d (l.foldl op e) := by
  induction l generalizing e with
  | nil => exact h
  | cons y l ih => exact ih (h.trans (k e y))

theorem OnlySends.sameFab (h : OnlySends d e) (blind : Blind g) : SameFab g d e := ⟨by rw [h.fab]; exact blind.sends ..⟩

theorem sendMessage_sameFab (blind : Blind g) (d : Dev) (dest cls : Nat) (b : List Byte) : SameFab g d (d.sendMessage dest cls b) := by
  unfold Dev.sendMessage
  extract_lets k c body m kept
  have hKept : SameFab g d kept := ⟨blind.chans ..⟩
  split
  · exact (hKept.trans (.of_frame (count_frame ..) (by decide))).trans ((put_onlySends ..).sameFab blind)
  · exact hKept

theorem answerRegion_sameFab (blind : Blind g) (d : Dev) (dev tag : Nat) (a : Ans) : SameFab g d (d.answerRegion dev tag a) := by
  unfold Dev.answerRegion Dev.putRegion
  split
  · exact (put_onlySends ..).sameFab blind
  · exact sendMessage_sameFab blind ..

/-- A job that ends is taken off the list; its answer goes out. -/
theorem finishJob_sameFab (blind : Blind g) {k : Nat} {j : Job} (known : tget d.fab.jobs k = some j) :
    SameFab g { d with fab := { d.fab with jobs := tdel d.fab.jobs k } } (d.finishJob k) := by
  unfold Dev.finishJob
  split
  · next none => rw [none] at known; cases known
  next j' same =>
  obtain rfl : j = j' := Option.some.inj (known.symm.trans same)
  extract_lets fabSt taken finished answered
  have hFinished : SameFab g taken finished := by
    simp only [finished]
    split
    · exact (SameFab.of_frame (finishReq_spares ..).frame (by decide)).trans (.of_frame (stampLoad_spares ..).frame (by decide))
    · exact .refl ..
  have hAnswered : SameFab g taken answered := by
    simp only [answered]
    split
    · exact hFinished.trans (answerRegion_sameFab blind ..)
    · exact hFinished
  split
  · exact hAnswered.trans (.of_frame (apertureDone_frame ..) (by decide))
  · exact hAnswered

end

theorem finishJob_ends (d : Dev) (k : Nat) : tget (d.finishJob k).fab.jobs k = none := by
  cases known : tget d.fab.jobs k with
  | none => simp only [Dev.finishJob, known]
  | some j =>
    rw [(finishJob_sameFab blind_jobs known).field]
    exact tget_tdel_same ..

theorem endJob_ends (s : State) (k : Nat) (a : Ans) : tget (s.endJob k a).dev.fab.jobs k = none := finishJob_ends ..

theorem SameRecords.regionOf {d e : Dev} (h : SameRecords id d e) (addr : Nat) : e.regionOf addr = d.regionOf addr := by
  have same : tget e.rgn.slots (slotOf addr) = tget d.rgn.slots (slotOf addr) := by simpa using h.slot (slotOf addr)
  simp only [Dev.regionOf, same]

theorem revokeDrainEnd_ends (s : State) {region k : Nat} {r : Region} (here : s.dev.regionOf (regionAddr region) = some r) (revoke : r.revoke = some k)
    (drained : s.dev.drainOpen r = false) (stays : r.destroy = false) (alone : r.revokeNext = []) (slot : slotOf (regionAddr region) = region / 64) :
    After (.revokeDrainEnd region) s fun t =>
      tget t.dev.fab.jobs k = none
      ∧ t.dev.regionOf (regionAddr region) = some { r with grants := r.grants.filter (!·.revoking), revoke := none, target := none }
      ∧ t.mem = s.mem ∧ t.pending = s.pending := by
  let f := fun r : Region => { r with grants := r.grants.filter (!·.revoking), revoke := none, target := none }
  let a : Ans := { r0 := r.admitted % 2 ^ 32 + 2 ^ 32 * (r.refused % 2 ^ 32) }
  let revoked : State := { s with dev := s.dev.modRegion (region / 64) f }
  have run : exec (.revokeDrainEnd region) s = .next ((revoked.endJob k a).nextRevoke (region / 64)) := by
    refine congrArg Host.Outcome.next ?_
    unfold State.drainEnd
    dsimp only
    rw [here]
    dsimp only
    rw [revoke]
    dsimp only
    rw [drained, stays]
    rfl
  have record : revoked.dev.regionOf (regionAddr region) = some (f r) := by
    simp only [revoked, ← slot]
    exact regionOf_modRegion here f rfl
  have ended : SameRecords id revoked.dev (revoked.endJob k a).dev := (endJob_spares revoked k a).sameRecords
  have after := (ended.regionOf (regionAddr region)).trans record
  have idle : (revoked.endJob k a).nextRevoke (region / 64) = revoked.endJob k a := by
    unfold State.nextRevoke
    split
    · rfl
    next r' known =>
      have same : r' = f r := by
        unfold Dev.regionOf at after
        rw [slot, known] at after
        dsimp only at after
        split at after
        · exact Option.some.inj after
        · cases after
      split
      · rfl
      next more => exact absurd ((congrArg Region.revokeNext same).trans alone) (by rw [more]; nofun)
  refine .of_exec (run.trans (congrArg Host.Outcome.next idle)) ⟨endJob_ends .., after, rfl, rfl⟩

/-! #### A PUBLISH that arrives -/

theorem fld_eq (p : Nat) (object : Nat) (b : List Byte) : ({ patron := p, object := object, body := b } : DescIn).fld 0 0 64 = fieldOf b 0 8 % 2 ^ 64 := by
  simp [DescIn.fld, fieldOf, bits]

theorem leNat_lt (b : List Byte) : leNat b < 256 ^ b.length := by
  induction b with
  | nil => exact Nat.one_pos
  | cons x b ih =>
    have byte : x.toNat < 256 := x.isLt
    rw [leNat, List.length_cons, pow_succ]
    omega

theorem fieldOf_lt (b : List Byte) (off n : Nat) : fieldOf b off n < 256 ^ n :=
  (leNat_lt _).trans_le (Nat.pow_le_pow_right (by decide) (List.length_take_le ..))

theorem regionRequest_publishes (s : State) {port dev : Nat} {m : Msg} {r : Region} (taken : Taken s port 0x50 m) (from_ : dev = srcDev m.source)
    (opened : s.dev.regionOpen = true) (fresh : ∀ e ∈ s.dev.fab.jobs, e.2.asker ≠ some (dev, m.tag)) (op : fieldOf m.slots 2 1 = 0x34)
    (here : s.dev.regionOf (regionAddr (addrRegion m.addr) + versionOff) = some r) (primary : r.mirror = false) (live : r.live = none)
    (slot : slotOf (regionAddr (addrRegion m.addr) + versionOff) = addrRegion m.addr / 64)
    (valid : r.revoked (srcDev (fieldOf m.slots 0 2)) (srcPatron (fieldOf m.slots 0 2)) = false)
    (may : r.grants_ (srcDev (fieldOf m.slots 0 2)) (srcPatron (fieldOf m.slots 0 2)) 3 none = true) (version : fieldOf m.slots 16 8 = r.version) :
    After (.regionRequest port m) s fun t =>
      (∃ q, tget t.dev.rgn.slots (addrRegion m.addr / 64) = some q ∧ q.version = r.version + 1 ∧ q.versionTick = s.dev.tim.count)
      ∧ t.mem = s.mem ∧ t.pending = s.pending := by
  subst from_
  let j : Job := {
    asker := some (srcDev m.source, m.tag), op := fieldOf m.slots 2 1, dev := srcDev (fieldOf m.slots 0 2)
    x := { patron := srcPatron (fieldOf m.slots 0 2), object := addrRegion m.addr, body := m.slots.drop 16 } }
  let t : State := { s with dev := (s.dev.newJob j).2 }
  have job : tget t.dev.fab.jobs (s.dev.newJob j).1 = some j := tget_tset_same ..
  have run : exec (.regionRequest port m) s = .next (t.homePublish (s.dev.newJob j).1 j) := by
    refine congrArg Host.Outcome.next ((onMsg_taken taken _).trans ?_)
    have unknown : (s.dev.fab.jobs.any fun e => e.2.asker == some (srcDev m.source, m.tag)) = false := by
      rw [List.any_eq_false]
      exact fun e mem => by simpa using fresh e mem
    have open_ : (s.dev.newJob j).2.regionOpen = true := opened
    unfold State.regionRequestIn
    dsimp only
    rw [unknown]
    refine Eq.trans (if_neg (by decide)) ?_
    refine Eq.trans (if_neg (by simpa [j] using open_)) ?_
    change t.homeRegionOp State.homeExtra (s.dev.newJob j).1 = _
    unfold State.homeRegionOp
    rw [job]
    dsimp only
    rw [if_neg (by simp [j, op]), if_pos (by simp [j, op])]
  have record : tget t.dev.rgn.slots (j.x.object / 64) = some r := by
    have known := here
    unfold Dev.regionOf at known
    rw [slot] at known
    split at known
    next r' found =>
      split at known
      · exact found.trans known
      · cases known
    next => cases known
  have body : j.x.fld 0 0 64 = r.version := by
    refine (fld_eq ..).trans ?_
    rw [← version]
    have small := fieldOf_lt m.slots 16 8
    have same : fieldOf (m.slots.drop 16) 0 8 = fieldOf m.slots 16 8 := by simp [fieldOf]
    rw [same]
    exact Nat.mod_eq_of_lt (small.trans_eq (by norm_num))
  obtain ⟨record, mem, pending⟩ := homePublish_publishes (s := t) (k := (s.dev.newJob j).1) (j := j) record here primary live valid may body
  obtain ⟨q, known, isNext, tick, -, -⟩ := record
  exact .of_exec run ⟨⟨q, known, isNext, tick⟩, mem, pending⟩

end Sys2Proof.Safety
end

section
/-! ### A handed sector is accepted into the stacks (R299, R408) -/

namespace Sys2Proof.Safety

open Sys2Proof.Machine

/-- A sector of a unit is mapped, with a content under a key. -/
structure HoldsSector (d : Dev) (v u j : Nat) (data : List Byte) (key : Nat) : Prop where
  found : ∃ z w f, d.vol? v = some z ∧ tget z.units u = some w ∧ tget w.sectors j = some f ∧ f.data = data ∧ f.key = key

theorem HoldsSector.of_volumes {d e : Dev} {v u j : Nat} {data : List Byte} {key : Nat} (h : HoldsSector d v u j data key)
    (same : e.stk.volumes = d.stk.volumes) : HoldsSector e v u j data key := by
  obtain ⟨z, w, f, vol, rest⟩ := h.found
  exact ⟨z, w, f, by rw [Dev.vol?, same]; exact vol, rest⟩

theorem SameVolumes.exists {d e : Dev} {v : Nat} {x : Volume} (h : SameVolumes d e) (known : d.vol? v = some x) : ∃ y, e.vol? v = some y := by
  have same := h v
  rw [known] at same
  obtain ⟨y, there, -⟩ := Option.map_eq_some_iff.mp same
  exact ⟨y, there⟩

/-- A volume after a unit of it was taken. -/
def takesUnit (u n : Nat) (y : FUnit) (x : Volume) : Volume :=
  { x with units := tset x.units u y, writeSeq := x.writeSeq + 1, accepted := x.accepted + n }

theorem takesUnit_holds {d e : Dev} {v u j n : Nat} {x : Volume} {y : FUnit} {f : FSector} (h : SameVolumes d e) (known : d.vol? v = some x)
    (sector : tget y.sectors j = some f) : HoldsSector ((e.modVol v (takesUnit u n y)).staged_ v u n) v u j f.data f.key := by
  obtain ⟨z, there⟩ := h.exists known
  have held : HoldsSector (e.modVol v (takesUnit u n y)) v u j f.data f.key :=
    ⟨takesUnit u n y z, y, f, by rw [vol_modVol_same, there]; rfl, tget_tset_same .., sector, rfl, rfl⟩
  have counted : ((e.modVol v (takesUnit u n y)).count .bytesAcc v n).stk = (e.modVol v (takesUnit u n y)).stk := (count_frame ..).same .stk (by decide)
  exact held.of_volumes (congrArg StkSt.volumes counted :)

theorem acceptFine_holds {d : Dev} {v : Nat} {x : Volume} (known : d.vol? v = some x) (u j : Nat) (f : FSector) :
    HoldsSector (d.acceptFine v u j f) v u j f.data f.key := by
  unfold Dev.acceptFine
  split
  · next none => exact absurd (known.symm.trans none) nofun
  next volume _ =>
  extract_lets old y marked unlocated n
  have hMarked : SameVolumes d marked := by
    simp only [marked]
    split
    · exact .refl d
    · exact .of_volumes rfl
  have hUnlocated : SameVolumes d unlocated := by
    simp only [unlocated]
    split
    · exact hMarked.trans (unlocateSector_same marked u j _)
    · exact hMarked
  have sector : tget n.sectors j = some { f with place := none, seq := volume.writeSeq } := tget_tset_same ..
  have holds := takesUnit_holds (y := n) (n := 4096) (u := u) hUnlocated known sector
  exact holds

theorem acceptUnit_holds {d : Dev} {v : Nat} {x : Volume} (known : d.vol? v = some x) (u n strm j : Nat) {g : FUnit → FUnit} {data : List Byte} {key : Nat}
    (sector : ∀ y, ∃ f, tget (g y).sectors j = some f ∧ f.data = data ∧ f.key = key) :
    HoldsSector (d.acceptUnit v u n strm g) v u j data key := by
  unfold Dev.acceptUnit
  split
  · next none => exact absurd (known.symm.trans none) nofun
  extract_lets old unlocated y taken
  have hUnlocated : SameVolumes d unlocated := by
    have replaced : ∀ o : Option FUnit, SameVolumes d (match o with
        | some y => d.unlocate u y
        | none => d) := by
      rintro (_ | y)
      · exact .refl d
      · exact unlocate_same d u y
    exact replaced old
  obtain ⟨f, there, rfl, rfl⟩ := sector _
  exact takesUnit_holds (y := taken) hUnlocated known there

/-! #### Responses that awaited the sector -/

theorem jobPart_heldRsp (d : Dev) (k code addr : Nat) (m : Msg) : SameFab FabSt.heldRsp d (d.jobPart k code addr m) := by
  have settled : ∀ e : Dev, SameFab FabSt.heldRsp e (e.settleJob k) := by
    intro e
    unfold Dev.settleJob
    split
    next j known =>
      split
      · exact ⟨(finishJob_sameFab blind_heldRsp known).field⟩
      · exact .refl ..
    next => exact .refl ..
  exact ⟨(settled _).field⟩

theorem flushHeld_heldRsp (d : Dev) : d.flushHeld.fab.heldRsp = d.fab.heldRsp.filter fun h => !goesOut h := by
  have delivered : ∀ (e : Dev) (h : HeldRsp), SameFab FabSt.heldRsp e (e.deliver h.dest h.code 0 h.m h.job) := by
    intro e h
    unfold Dev.deliver
    split
    · split
      · exact jobPart_heldRsp ..
      · exact .refl ..
    · exact (put_onlySends ..).sameFab blind_heldRsp
  exact ((SameFab.refl FabSt.heldRsp { d with fab := { d.fab with heldRsp := d.fab.heldRsp.filter fun h => !goesOut h } }).foldl delivered).field

/-- What the acceptance of a sector leaves. -/
structure Accepted (s : State) (k sec at_ : Nat) (r : Region) (t : State) : Prop where
  holds : HoldsSector t.dev r.volume (flashUnit (k / 2 ^ 17) (k % 2 ^ 17) + sec / 16) (sec % 16)
    (memRead s.mem (k / 2 ^ 17 * windowBytes + k % 2 ^ 17 * unitBytes + 4096 * sec) 4096) (s.dev.unitPatron r)
  waits : ∀ h ∈ t.dev.fab.heldRsp, (k, sec, at_) ∉ h.accept
  mem : t.mem = s.mem
  pending : t.pending = s.pending

theorem acceptSector_accepts {s : State} {k sec at_ : Nat} {r : Region} {x : Volume} (region : tget s.dev.rgn.slots (k / 2 ^ 17) = some r)
    (known : s.dev.vol? r.volume = some x) : Accepted s k sec at_ r (s.acceptSector (k, sec, at_)) := by
  unfold State.acceptSector
  split
  next k' sec' at' whole =>
  obtain ⟨rfl, rfl, rfl⟩ : k = k' ∧ sec = sec' ∧ at_ = at' := by simpa using whole
  split
  · next none => exact absurd (region.symm.trans none) nofun
  next r' same =>
  obtain rfl : r = r' := Option.some.inj (region.symm.trans same)
  extract_lets off u bad old data n balanced accepted prior counted hs
  have there : balanced.vol? r.volume = some { x with balance := x.balance - n } := by
    simp only [balanced]
    rw [vol_modVol_same, known]
    rfl
  have hAccepted : HoldsSector accepted r.volume u (sec % 16) data.data data.key := by
    simp only [accepted]
    split
    · exact acceptFine_holds there ..
    · exact acceptUnit_holds there _ _ _ _ fun y => ⟨{ data with seq := y.seq }, tget_tset_same .., rfl, rfl⟩
  clear_value accepted balanced
  have hCounted : HoldsSector counted r.volume u (sec % 16) data.data data.key := by
    have same : counted.stk = { prior with prior := tdel accepted.stk.prior (512 * k + sec) } := (count_frame ..).same .stk (by decide)
    exact hAccepted.of_volumes (congrArg StkSt.volumes same :)
  clear_value counted
  have flushed := flushHeld_spares { counted with fab := { counted.fab with heldRsp := hs } }
  have stk : ({ counted with fab := { counted.fab with heldRsp := hs } } : Dev).flushHeld.stk = counted.stk := flushed.frame.same .stk (by decide)
  refine ⟨hCounted.of_volumes (congrArg StkSt.volumes stk), fun h mem => ?_, rfl, rfl⟩
  dsimp only at mem
  rw [flushHeld_heldRsp] at mem
  obtain ⟨old, -, rfl⟩ := List.mem_map.mp (List.mem_filter.mp mem).1
  simp

theorem persistAccept_accepts (s : State) {k sec at_ : Nat} {r : Region} {x : Volume} (handed : s.dev.rgn.handed = [(k, sec, at_)])
    (on : s.dev.stacksOn = true) (room : s.dev.sectorBytes (k, sec, at_) ≤ s.dev.acceptRoom) (region : tget s.dev.rgn.slots (k / 2 ^ 17) = some r)
    (known : s.dev.vol? r.volume = some x) (open_ : x.protected_ = false) : After .persistAccept s fun t =>
      t.dev.rgn.handed = []
      ∧ (∃ z w f, t.dev.vol? r.volume = some z ∧ tget z.units (flashUnit (k / 2 ^ 17) (k % 2 ^ 17) + sec / 16) = some w
        ∧ tget w.sectors (sec % 16) = some f ∧ f.data = memRead s.mem (k / 2 ^ 17 * windowBytes + k % 2 ^ 17 * unitBytes + 4096 * sec) 4096
        ∧ f.key = s.dev.unitPatron r)
      ∧ (∀ h ∈ t.dev.fab.heldRsp, (k, sec, at_) ∉ h.accept) ∧ t.mem = s.mem ∧ t.pending = s.pending := by
  let emptied : Dev → Dev := fun d => { d with rgn := { d.rgn with handed := [] } }
  have unbarred : s.dev.sectorBarred (k, sec, at_) = false := by
    unfold Dev.sectorBarred
    rw [region, Option.bind_some, known, Option.map_some, Option.getD_some, open_]
  have run : exec .persistAccept s = .next ((s.acceptSector (k, sec, at_)).onDev emptied) := by
    refine congrArg Host.Outcome.next ?_
    rw [handed]
    unfold State.acceptSectors
    rw [unbarred, if_neg (by decide), if_neg (by simp [on, room])]
    rfl
  have accepted := acceptSector_accepts (at_ := at_) (sec := sec) region known
  exact .of_exec run ⟨rfl, (accepted.holds.of_volumes (e := emptied (s.acceptSector (k, sec, at_)).dev) rfl).found, accepted.waits, accepted.mem, accepted.pending⟩

/-- Settles O52: notices, the mirror's writes and blocks, the drained revocation, the request that arrives and the accepted sector, each by
its own lemma above. -/
theorem regionMessagesComplete : Obligations.RegionMessagesComplete := by
  intro s port m r
  refine ⟨?_, ?_, ?_, ?_, ?_, ?_, ?_⟩
  · exact fun taken wing some_ room => mapNotice_installs s taken wing some_ room
  · exact fun taken wf here next size store waiting aligned line plain none =>
      mirrorWrite_next s taken wf here next size store waiting aligned line plain none
  · exact fun taken here late => mirrorWrite_late s taken here late
  · exact fun taken wf here waiting whole => mirrorBlock_writes s taken wf here waiting whole
  · exact fun region k here revoke drained stays alone slot => revokeDrainEnd_ends s here revoke drained stays alone slot
  · exact fun dev taken from_ opened fresh op here primary live slot valid may version =>
      regionRequest_publishes s taken from_ opened fresh op here primary live slot valid may version
  · exact fun k sec at_ x handed on room region known open_ => persistAccept_accepts s handed on room region known open_

end Sys2Proof.Safety
end

section
/-! ### Loads that a home serves at once (R351, R355, R357) -/

namespace Sys2Proof.Safety

open Sys2Proof.Machine

/-! #### The way to the home -/

/-- A request whose region is there and that nothing holds back is served, whether or not its requester was admitted before. -/
structure Serves (s : State) (code : Nat) (m : Msg) (r : Region) (pass : Bool) : Prop where
  region : s.dev.regionOf m.addr = some r
  primary : r.mirror = false
  whole : s.dev.fencedHome code m (reqLines code m) = false
  allowed : s.dev.homeRefuses code m pass = none
  resident : s.dev.awaitsUnit m.addr (reqLines code m) = []
  clean : s.dev.poisonStops code m = none

theorem Serves.served {s : State} {code : Nat} {m : Msg} {r : Region} {pass : Bool} (h : Serves s code m r pass) (plain : r.persist = false ∨ rightOf code = 0)
    (port : Nat) (job : Option Nat) : s.homeServe port code m job false pass
      = if rightOf code = 0 then
          (s.onDev fun d => if code = 0x01 then d.shareRead (m.addr / 64) (r.kind == 2) else d).homeLoad port code m job (r.kind != 2) pass
        else s.serialise port code m job r := by
  unfold State.homeServe
  extract_lets d lines out promoted
  split
  · next none => exact absurd (h.region.symm.trans none) nofun
  next r' same =>
  obtain rfl : r = r' := Option.some.inj (h.region.symm.trans same)
  have none : out = [] := h.resident
  rw [if_neg (by simp [h.primary]), if_neg (by simp [h.primary]), if_neg (by simp only [d, lines, h.whole]; decide)]
  split
  · next st refuses => exact absurd (h.allowed.symm.trans refuses) nofun
  rw [if_neg (by simp [none]), if_neg (by simp [none])]
  split
  · next l stops => exact absurd (h.clean.symm.trans stops) nofun
  split
  · rfl
  next writes => exact if_neg (by simp [plain.resolve_right writes])

theorem HomeReady.serves {s : State} {code : Nat} {m : Msg} {r : Region} (h : HomeReady s code m r) : Serves s code m r false :=
  ⟨h.region, h.primary, by simp [Dev.fencedHome, h.served], h.allowed, h.resident, h.clean⟩

/-- A check that found nothing did not hold, and those after it found nothing. -/
theorem passed_of_none {α : Type} {c : Prop} [Decidable c] {x : α} {y : Option α} (h : (if c then some x else y) = none) : ¬c ∧ y = none := by
  split at h
  · cases h
  next not_ => exact ⟨not_, h⟩

/-- What a requester holds it held before the revoke point too. -/
theorem beforeRevoke_grants {r : Region} {dev p right : Nat} {unit : Option Nat} (held : r.grants_ dev p right unit = true) :
    r.beforeRevoke.grants_ dev p right unit = true := by
  simp only [Region.grants_, Bool.or_eq_true, List.any_eq_true] at held ⊢
  rcases held with owner | ⟨g, mem, holds⟩
  · exact .inl owner
  · refine .inr ⟨{ g with revoking := false }, List.mem_map.mpr ⟨g, mem, rfl⟩, ?_⟩
    simp only [Bool.and_eq_true, Bool.not_false, and_true] at holds ⊢
    exact ⟨⟨holds.1.1.1, holds.1.2⟩, holds.2⟩

/-- What a home allows of a requester it allowed before a revoke point (R401). -/
theorem homeRefuses_pass {d : Dev} {code : Nat} {m : Msg} (allowed : d.homeRefuses code m = none) (pass : Bool) : d.homeRefuses code m pass = none := by
  cases pass with
  | false => exact allowed
  | true =>
    unfold Dev.homeRefuses at allowed ⊢
    split at allowed
    · cases allowed
    next r known =>
    dsimp only at allowed ⊢
    simp only [Bool.false_eq_true, if_false] at allowed
    obtain ⟨fits, allowed⟩ := passed_of_none allowed
    obtain ⟨torn, allowed⟩ := passed_of_none allowed
    obtain ⟨standing, allowed⟩ := passed_of_none allowed
    obtain ⟨-, allowed⟩ := passed_of_none allowed
    obtain ⟨admitted, -⟩ := passed_of_none allowed
    have same : r.beforeRevoke.st = r.st := if_neg standing
    have valid : r.beforeRevoke.revoked (srcDev m.source) (srcPatron m.source) = false := by simp [Region.revoked, Region.beforeRevoke]
    rw [if_pos rfl, if_neg (by exact fits), if_neg (by rw [same]; exact torn), if_neg (by rw [same]; exact standing), valid, if_neg (by decide)]
    refine if_neg fun ⟨on, lacks⟩ => admitted ⟨on, ?_⟩
    simp only [Bool.not_eq_true'] at lacks ⊢
    refine Bool.eq_false_iff.mpr fun held => Bool.eq_false_iff.mp lacks ?_
    split at held
    next ver => rw [if_pos ver]; exact beforeRevoke_grants held
    next ver =>
      rw [if_neg ver]
      rw [List.all_eq_true] at held ⊢
      exact fun i mem => beforeRevoke_grants (held i mem)

/-- A request that arrives for the first time goes to the home's checks. -/
theorem request_arrives {s : State} {port code : Nat} {m : Msg} {r : Region} (h : HomeServes s port code m r)
    (once : isUpdate code = true → m.retry = false ∧ tget s.dev.fab.replayA (m.source * 65536 + m.tag) = none
      ∧ tget s.dev.fab.replayS (m.source * 65536 + m.tag) = none) :
    s.request port code m = s.homeServe port code m none false := by
  have known := h.ready.region
  have first : (isUpdate code && m.retry) = false := by
    cases update : isUpdate code with
    | false => rfl
    | true => simp [(once update).1]
  have new : (if code = 0x10 then tget s.dev.fab.replayA (m.source * 65536 + m.tag)
      else if isUpdate code then tget s.dev.fab.replayS (m.source * 65536 + m.tag) else none) = none := by
    split
    next atomic => exact (once (by rw [atomic]; decide)).2.1
    next =>
      split
      next update => exact (once update).2.2
      next => rfl
  unfold State.request
  extract_lets d src key
  rw [if_neg (by simp [d, known]), if_neg (by simp [d, h.opened]), if_neg (by simp [first])]
  split
  next r' found => exact absurd (new.symm.trans found) nofun
  next =>
    rw [if_neg (by simp [first])]
    refine if_neg fun ⟨ordered, waits⟩ => ?_
    simp [h.ordered ordered] at waits

/-! #### The directory -/

theorem dirEnts_setDir (d : Dev) (set : Nat) (es : List DirEnt) : (d.setDir set es).dirEnts set = es := by
  unfold Dev.dirEnts Dev.setDir
  dsimp only
  split
  next none => simp [tgetD, List.isEmpty_iff.mp none]
  next => exact tgetD_tset_same ..

theorem bit_add {x k : Nat} (clear : bit x k = false) : bit (x + 2 ^ k) k = true := by
  simp only [bit, beq_eq_false_iff_ne, ne_eq, beq_iff_eq] at clear ⊢
  rw [Nat.add_div_right _ (Nat.two_pow_pos k)]
  omega

/-- A load that the directory serves. -/
structure Enters (d : Dev) (line dev : Nat) (track : Bool) (p : Bool × Dev) : Prop where
  served : p.1 = true
  frame : Frame [.fab] d p.2
  held : p.2.fab.held = d.fab.held
  entry : track = true → ∃ e ∈ p.2.dirEnts (dirSet line), e.line = line ∧ bit e.holders (dev % 16) = true

theorem dirLoad_enters {d : Dev} {line : Nat} (h : HeldReq) (track : Bool) (room : (d.dirEnts (dirSet line)).length < 16) :
    Enters d line (srcDev h.m.source) track (d.dirLoad line h track) := by
  unfold Dev.dirLoad
  extract_lets set dev
  have ticked : Frame [.fab] d d.dirTick.2 := dirTick_frame d
  have held : d.dirTick.2.fab.held = d.fab.held := rfl
  have ents : d.dirTick.2.dirEnts set = d.dirEnts set := rfl
  split
  next t e tick =>
  rw [tick] at ticked held ents
  dsimp only at ticked held ents
  extract_lets es
  have few : (es.filter fun e => !e.untracked).length < 16 := (List.length_filter_le ..).trans_lt (by simp only [es, ents]; exact room)
  split
  next x there =>
    have mem : x ∈ es := List.mem_of_find?_eq_some there
    have line_ : x.line = line := by simpa using List.find?_some there
    split
    next untracked => exact ⟨rfl, ticked, held, fun t => by simp [t] at untracked⟩
    · refine ⟨rfl, ticked.trans (modDir_frame ..), held, fun _ => ?_⟩
      refine ⟨_, by rw [Dev.modDir, dirEnts_setDir]; exact List.mem_map.mpr ⟨x, mem, rfl⟩, ?_⟩
      rw [if_pos line_]
      refine ⟨line_, ?_⟩
      dsimp only
      split
      next set_ => exact set_
      next clear => exact bit_add (by simpa using clear)
  next =>
    split
    next untracked => exact ⟨rfl, ticked, held, fun t => by simp [t] at untracked⟩
    · refine ⟨rfl, ticked.trans (setDir_frame ..), held, fun _ => ?_⟩
      refine ⟨{ line := line, holders := 2 ^ (dev % 16), used := t }, ?_, rfl, ?_⟩
      · rw [dirEnts_setDir]
        exact List.mem_append_right _ (List.mem_singleton.mpr rfl)
      · have alone := bit_add (x := 0) (k := dev % 16) (by simp [bit])
        rwa [Nat.zero_add] at alone

theorem dirHolds_none {d : Dev} {line lines : Nat}
    (quiet : ∀ i, i < lines → ∀ e ∈ d.dirEnts (dirSet (line + i)), e.inval = false ∧ e.line < 2 ^ 44) : d.dirHolds line lines = none := by
  unfold Dev.dirHolds
  rw [List.findSome?_eq_none_iff]
  intro i mem
  dsimp only
  rw [Option.map_eq_none_iff, List.find?_eq_none]
  intro e listed
  obtain ⟨valid, small⟩ := quiet i (List.mem_range.mp mem) e listed
  have other : e.line ≠ setLine (dirSet (line + i)) := by simp only [setLine]; omega
  simp [valid, other]

/-! #### Lines and units -/

theorem lineData_of {s t : State} (mem : t.mem = s.mem) (rgn : t.dev.rgn = s.dev.rgn) (addr : Nat) : t.lineData addr = s.lineData addr := by
  simp only [State.lineData, mem, regionOf_of rgn]

theorem linePoisoned_modUnit (d : Dev) (k : Nat) {f : RUnit → RUnit} (blind : ∀ u, (f u).poisoned = u.poisoned ∧ (f u).rewritten = u.rewritten)
    (line : Nat) : (d.modUnit k f).linePoisoned line = d.linePoisoned line := by
  have unit : tget (d.modUnit k f).rgn.units (addrUnit (64 * line))
      = if k = addrUnit (64 * line) then (tget d.rgn.units (addrUnit (64 * line))).map f else tget d.rgn.units (addrUnit (64 * line)) := tget_tmod ..
  have lines : (d.modUnit k f).flt = d.flt := rfl
  simp only [Dev.linePoisoned, unit, lines]
  congr 1
  split_ifs
  · cases tget d.rgn.units (addrUnit (64 * line)) with
    | none => rfl
    | some u => simp [blind u]
  · rfl

/-- A unit that a request touched now. -/
def touched (d : Dev) (u : RUnit) : RUnit := { u with lastTick := d.tim.count % 2 ^ 32 }

theorem touchUnits_poison (d : Dev) (addr lines line : Nat) : (d.touchUnits addr lines).linePoisoned line = d.linePoisoned line := by
  unfold Dev.touchUnits
  split
  next a n _ =>
  suffices h : ∀ (l : List Nat) (e : Dev), (l.foldl (fun d i => d.modUnit (unitKey (slotOf addr) (a + i)) (touched d)) e).linePoisoned line
      = e.linePoisoned line from h _ d
  intro l
  induction l with
  | nil => exact fun _ => rfl
  | cons i l ih => exact fun e => (ih _).trans (linePoisoned_modUnit e (unitKey (slotOf addr) (a + i)) (f := touched e) (fun _ => ⟨rfl, rfl⟩) line)

theorem linePoisoned_of {d e : Dev} (flt : e.flt = d.flt) (rgn : e.rgn = d.rgn) (line : Nat) : e.linePoisoned line = d.linePoisoned line := by
  simp only [Dev.linePoisoned, flt, rgn]

/-! #### Loads -/

/-- No line of a request is under invalidation, and the set of each has room. -/
def DirQuiet (d : Dev) (line lines : Nat) : Prop :=
  ∀ i, i < lines → (d.dirEnts (dirSet (line + i))).length < 16 ∧ ∀ e ∈ d.dirEnts (dirSet (line + i)), e.inval = false ∧ e.line < 2 ^ 44

/-- The lines that a load returns. -/
def loadedLines (s : State) (code : Nat) (m : Msg) : List Byte :=
  (List.range (reqLines code m)).flatMap fun i => s.lineData (m.addr / 64 * 64 + 64 * i)

/-- What a load leaves that is served at once. -/
structure Loaded (s : State) (code : Nat) (m : Msg) (track : Bool) (t : State) : Prop where
  sends : ∃ x, x.tag = m.tag ∧ x.arg = stOk ∧ x.slots = loadedLines s code m ∧ OnItsWay (srcDev m.source) 0x28 x t.dev
  changes : Changes [.fab, .rgn, .out, .ctrs] s t
  held : t.dev.fab.held = s.dev.fab.held
  entry : code = 0x01 → track = true →
    ∃ e ∈ t.dev.dirEnts (dirSet (m.addr % 2 ^ 50 / 64)), e.line = m.addr % 2 ^ 50 / 64 ∧ bit e.holders (srcDev m.source % 16) = true

/-- The directory takes note of a load, and of no READ_BLOCK. -/
def directed (d : Dev) (code line : Nat) (h : HeldReq) (track : Bool) : Bool × Dev := if code = 0x01 then d.dirLoad line h track else (true, d)

theorem directed_enters {d : Dev} {code line : Nat} (h : HeldReq) (track : Bool) (room : (d.dirEnts (dirSet line)).length < 16) :
    Enters d line (srcDev h.m.source) (code == 0x01 && track) (directed d code line h track) := by
  unfold directed
  split
  next load =>
    have enters := dirLoad_enters (d := d) (line := line) h track room
    exact ⟨enters.served, enters.frame, enters.held, fun t => enters.entry (by simpa [load] using t)⟩
  next other => exact ⟨rfl, .refl .., rfl, fun t => by simp [other] at t⟩

/-- A load is answered. -/
def answersLoad (s : State) (code : Nat) (m : Msg) (d : Dev) : State :=
  { s with dev := d.deliver (srcDev m.source) 0x28 m.addr (d.rsp m stOk (loadedLines s code m)) none }

/-- A load whose lines are sound is answered with them, from the device as the directory has left it. -/
theorem homeLoad_answers {s : State} {d : Dev} {code : Nat} {m : Msg} {port : Nat} {track pass : Bool}
    (free : s.dev.dirHolds (m.addr % 2 ^ 50 / 64) (reqLines code m) = none)
    (entered : directed s.dev code (m.addr % 2 ^ 50 / 64) { port := port, code := code, m := m, why := 7, pass := pass }
      (track && srcDev m.source != s.dev.devNo) = (true, d))
    (sound : ∀ i, i < reqLines code m → d.linePoisoned (m.addr % 2 ^ 50 / 64 + i) = false) :
    s.homeLoad port code m none track pass = answersLoad s code m (d.touchUnits m.addr (reqLines code m)) := by
  have clean : ((List.range (reqLines code m)).any fun i => (d.touchUnits m.addr (reqLines code m)).linePoisoned (m.addr % 2 ^ 50 / 64 + i)) = false := by
    rw [List.any_eq_false]
    intro i mem
    rw [touchUnits_poison, sound i (List.mem_range.mp mem)]
    decide
  unfold directed at entered
  unfold State.homeLoad
  dsimp only
  rw [free]
  dsimp only
  rw [entered]
  dsimp only
  rw [if_neg (by decide), clean, if_neg (by decide)]
  rfl

theorem homeLoad_loads {s : State} {code : Nat} {m : Msg} (port : Nat) (track pass : Bool) (remote : srcDev m.source ≠ s.dev.devNo)
    (runs : s.dev.flt.deviceFault = false) (some_ : 0 < reqLines code m) (quiet : DirQuiet s.dev (m.addr % 2 ^ 50 / 64) (reqLines code m))
    (clean : ∀ i, i < reqLines code m → s.dev.linePoisoned (m.addr % 2 ^ 50 / 64 + i) = false) :
    Loaded s code m track (s.homeLoad port code m none track pass) := by
  have free : s.dev.dirHolds (m.addr % 2 ^ 50 / 64) (reqLines code m) = none := dirHolds_none fun i lt => (quiet i lt).2
  have enters := directed_enters (d := s.dev) (code := code) (line := m.addr % 2 ^ 50 / 64)
    { port := port, code := code, m := m, why := 7, pass := pass } (track && srcDev m.source != s.dev.devNo) (quiet 0 some_).1
  generalize pair : directed s.dev code (m.addr % 2 ^ 50 / 64) { port := port, code := code, m := m, why := 7, pass := pass }
    (track && srcDev m.source != s.dev.devNo) = p at enters
  obtain ⟨served, d⟩ := p
  obtain ⟨isServed, entered, held, entry⟩ := enters
  dsimp only at isServed entered held entry
  subst isServed
  rw [homeLoad_answers free pair fun i lt =>
    (linePoisoned_of (entered.flt_eq (by decide) (by decide)) (entered.same .rgn (by decide)) _).trans (clean i lt)]
  have hTouched : Frame [.rgn] d (d.touchUnits m.addr (reqLines code m)) := touchUnits_frame ..
  generalize d.touchUnits m.addr (reqLines code m) = touched at hTouched ⊢
  have boot : touched.boot = s.dev.boot := (hTouched.same .boot (by decide)).trans (entered.same .boot (by decide))
  have here : touched.devNo = s.dev.devNo := by simp only [Dev.devNo, boot]
  have fab : touched.fab = d.fab := hTouched.same .fab (by decide)
  have goes : touched.deliver (srcDev m.source) 0x28 m.addr (touched.rsp m stOk (loadedLines s code m)) none
      = touched.put (srcDev m.source) 0x28 (touched.rsp m stOk (loadedLines s code m)) :=
    if_neg (by rw [here]; exact remote)
  have runs' : touched.flt.deviceFault = false := by
    rw [hTouched.fltField (by decide) (·.deviceFault), entered.fltField (by decide) (·.deviceFault)]
    exact runs
  have sent := put_onlySends touched (srcDev m.source) 0x28 (touched.rsp m stOk (loadedLines s code m))
  have frame := put_quiet touched (srcDev m.source) (code := 0x28) (touched.rsp m stOk (loadedLines s code m)) (by decide)
  obtain ⟨x, carried, way⟩ := put_onItsWay (srcDev m.source) 0x28 (touched.rsp m stOk (loadedLines s code m)) runs'
  have content : (touched.rsp m stOk (loadedLines s code m)).tag = m.tag ∧ (touched.rsp m stOk (loadedLines s code m)).arg = stOk
      ∧ (touched.rsp m stOk (loadedLines s code m)).slots = loadedLines s code m := ⟨rfl, rfl, rfl⟩
  unfold answersLoad
  rw [goes]
  refine ⟨⟨x, ?_, ?_, ?_, way⟩, .of_frame (frame.step (by decide) (hTouched.step (by decide) (entered.mono (by decide)))), ?_, fun load tracked => ?_⟩
  · rcases carried with rfl | rfl <;> exact content.1
  · rcases carried with rfl | rfl <;> exact content.2.1
  · rcases carried with rfl | rfl <;> exact content.2.2
  · dsimp only
    rw [sent.fab, fab]
    exact held
  · obtain ⟨e, mem, line_, set_⟩ := entry (by simp [load, tracked, remote])
    refine ⟨e, ?_, line_, set_⟩
    dsimp only [Dev.dirEnts]
    rw [sent.fab, fab]
    exact mem

theorem clean_of {d : Dev} {code : Nat} {m : Msg} (reads : rightOf code = 0) (clean : d.poisonStops code m = none) (i : Nat) (lt : i < reqLines code m) :
    d.linePoisoned (m.addr % 2 ^ 50 / 64 + i) = false := by
  unfold Dev.poisonStops at clean
  dsimp only at clean
  rw [if_neg ?_, List.find?_eq_none] at clean
  · simpa using clean _ (List.mem_map.mpr ⟨i, List.mem_range.mpr lt, rfl⟩)
  · rintro (rfl | rfl | ⟨rfl, -⟩) <;> exact absurd reads (by decide)

/-- A load that begins or shares a read leaves the directory and what is held. -/
structure SameHome (d e : Dev) : Prop where
  frame : Frame [.fab, .ctrs] d e
  dir : e.fab.dir = d.fab.dir
  held : e.fab.held = d.fab.held

theorem shareRead_home (d : Dev) (line : Nat) (reference : Bool) : SameHome d (d.shareRead line reference) := by
  unfold Dev.shareRead
  have reading : ∀ reads : Tab Nat, SameHome d { d with fab := { d.fab with lineReads := reads } } := fun reads => ⟨(Frame.fab d _).mono (by decide), rfl, rfl⟩
  split
  · exact ⟨.refl .., rfl, rfl⟩
  split
  · split
    · have counted : Frame [.ctrs] d (d.count .joinHome 0) := count_frame ..
      have same := counted.same .fab (by decide)
      exact ⟨counted.mono (by decide), congrArg (·.dir) same, congrArg (·.held) same⟩
    · exact reading _
  · exact reading _

/-- A read that nothing holds back is answered at once, from a home that is as another but for the reads it shares. -/
theorem serves_loads {s t : State} {code : Nat} {m : Msg} {r : Region} (port : Nat) (pass : Bool) (same : SameHome s.dev t.dev) (mem : t.mem = s.mem)
    (pending : t.pending = s.pending) (ready : HomeReady s code m r) (reads : rightOf code = 0) (remote : srcDev m.source ≠ s.dev.devNo)
    (runs : s.dev.flt.deviceFault = false) : Loaded s code m (r.kind != 2) (t.homeLoad port code m none (r.kind != 2) pass) := by
  have boot : t.dev.boot = s.dev.boot := same.frame.same .boot (by decide)
  have rgn : t.dev.rgn = s.dev.rgn := same.frame.same .rgn (by decide)
  have here : t.dev.devNo = s.dev.devNo := by simp only [Dev.devNo, boot]
  have ents : ∀ set, t.dev.dirEnts set = s.dev.dirEnts set := fun set => by simp only [Dev.dirEnts, same.dir]
  have some_ : 0 < reqLines code m := by unfold reqLines; split <;> omega
  have loaded := homeLoad_loads (s := t) (code := code) (m := m) port (r.kind != 2) pass (by rw [here]; exact remote)
    ((same.frame.fltField (by decide) (·.deviceFault)).trans runs) some_ (fun i lt => by rw [ents]; exact ready.quiet i lt)
    (fun i lt => (linePoisoned_of (same.frame.flt_eq (by decide) (by decide)) rgn _).trans (clean_of reads ready.clean i lt))
  obtain ⟨x, tag, status, content, way⟩ := loaded.sends
  obtain ⟨waits, bytes, frame⟩ := loaded.changes
  refine ⟨⟨x, tag, status, ?_, way⟩, ⟨waits.trans pending, bytes.trans mem, frame.step (by decide) (same.frame.mono (by decide))⟩,
    loaded.held.trans same.held, loaded.entry⟩
  rw [content]
  simp only [loadedLines, lineData_of mem rgn]

theorem load_loads (s : State) {port : Nat} {m : Msg} {r : Region} (h : HomeServes s port 0x01 m r) : After (.load port m) s fun t =>
    Sends (srcDev m.source) 0x28 (fun x => x.tag = m.tag ∧ x.arg = stOk ∧ x.slots = s.lineData (m.addr / 64 * 64)) t
    ∧ (r.kind ≠ 2 → ∃ e ∈ t.dev.dirEnts (dirSet (m.addr % 2 ^ 50 / 64)),
      e.line = m.addr % 2 ^ 50 / 64 ∧ bit e.holders (srcDev m.source % 16) = true)
    ∧ Changes [.fab, .rgn, .out, .ctrs] s t := by
  have run : exec (.load port m) s = .next ((s.onDev fun d => d.shareRead (m.addr / 64) (r.kind == 2)).homeLoad port 0x01 m none (r.kind != 2) false) := by
    refine congrArg Host.Outcome.next ((onMsg_taken h.taken _).trans ?_)
    rw [request_arrives h nofun, h.ready.serves.served (.inr rfl), if_pos (by decide : rightOf 0x01 = 0)]
    rfl
  have loaded := serves_loads (t := s.onDev fun d => d.shareRead (m.addr / 64) (r.kind == 2)) port false (shareRead_home ..) rfl rfl h.ready rfl h.remote
    (fabOn_runs h.taken.1)
  obtain ⟨x, tag, status, content, way⟩ := loaded.sends
  refine .of_exec run ⟨way.sends ⟨tag, status, content.trans ?_⟩, fun kind => loaded.entry rfl (by simpa using kind), loaded.changes⟩
  simp [loadedLines, reqLines]

theorem readBlock_loads (s : State) {port : Nat} {m : Msg} {r : Region} (h : HomeServes s port 0x03 m r) : After (.readBlock port m) s fun t =>
    Sends (srcDev m.source) 0x28 (fun x => x.tag = m.tag ∧ x.arg = stOk
      ∧ x.slots = (List.range (m.arg + 1)).flatMap fun i => s.lineData (m.addr / 64 * 64 + 64 * i)) t
    ∧ Changes [.fab, .rgn, .out, .ctrs] s t := by
  have run : exec (.readBlock port m) s = .next (s.homeLoad port 0x03 m none (r.kind != 2) false) := by
    refine congrArg Host.Outcome.next ((onMsg_taken h.taken _).trans ?_)
    rw [request_arrives h nofun, h.ready.serves.served (.inr rfl), if_pos (by decide : rightOf 0x03 = 0)]
    rfl
  have loaded := serves_loads (t := s) port false ⟨.refl .., rfl, rfl⟩ rfl rfl h.ready rfl h.remote (fabOn_runs h.taken.1)
  obtain ⟨x, tag, status, content, way⟩ := loaded.sends
  exact .of_exec run ⟨way.sends ⟨tag, status, content⟩, loaded.changes⟩

/-! #### A load that was held, and configuration traffic -/

theorem serveOrdered_idle {s : State} (none : ∀ h ∈ s.dev.fab.held, h.m.vc ≠ 4) : s.serveOrdered = s := by
  have idle : s.dev.fab.held.find? (fun h => h.why == 8 && h.m.vc == 4) = Option.none := by
    rw [List.find?_eq_none]
    intro h mem
    simp [none h mem]
  unfold State.serveOrdered
  cases s.dev.fab.held.length with
  | zero => rfl
  | succ n =>
    unfold State.serveBehind
    split
    · rfl
    · rw [idle]

theorem held_unordered {d : Dev} (none : d.ordHeld = []) {h : HeldReq} (mem : h ∈ d.fab.held) : h.m.vc ≠ 4 := by
  intro ordered
  have listed : h ∈ d.ordHeld := List.mem_filter.mpr ⟨List.mem_append_left _ mem, by simp [ordered]⟩
  rw [none] at listed
  cases listed

theorem heldAccess_loads (s : State) {i : Nat} {h : HeldReq} {r : Region} (there : s.dev.fab.held[i]? = some h) (why : h.why = 0) (code : h.code = 0x03)
    (remoteJob : h.job = none) (due : ∃ k, h.ready = some k ∧ k ≤ s.dev.tim.count) (ready : HomeReady s 0x03 h.m r) (ordered : s.dev.ordHeld = [])
    (remote : srcDev h.m.source ≠ s.dev.devNo) (runs : s.dev.flt.deviceFault = false) : After (.heldAccessServe i) s fun t =>
      Sends (srcDev h.m.source) 0x28 (fun x => x.tag = h.m.tag ∧ x.arg = stOk
        ∧ x.slots = (List.range (h.m.arg + 1)).flatMap fun j => s.lineData (h.m.addr / 64 * 64 + 64 * j)) t
      ∧ t.dev.fab.held = s.dev.fab.held.eraseIdx i ∧ Changes [.fab, .rgn, .out, .ctrs] s t := by
  obtain ⟨k, readyAt, landed⟩ := due
  let t : State := s.onDev fun d => { d with fab := { d.fab with held := d.fab.held.eraseIdx i } }
  have frame : Frame [.fab] s.dev t.dev := Frame.fab s.dev _
  have unordered : ∀ x ∈ s.dev.fab.held, x.m.vc ≠ 4 := fun x mem => held_unordered ordered mem
  have serves : Serves t 0x03 h.m r h.pass := by
    have served := ready.serves
    exact ⟨served.region, served.primary, by simp [Dev.fencedHome, t, State.onDev, ready.served], homeRefuses_pass (ready.allowed) h.pass, served.resident, served.clean⟩
  have ready' : HomeReady t 0x03 h.m r := ⟨ready.region, ready.primary, ready.served, ready.allowed, ready.resident, ready.clean, ready.quiet⟩
  have loaded := serves_loads (t := t) h.port h.pass ⟨.refl .., rfl, rfl⟩ rfl rfl ready' rfl remote runs
  have run : exec (.heldAccessServe i) s = .next (t.homeLoad h.port 0x03 h.m none (r.kind != 2) h.pass) := by
    refine congrArg Host.Outcome.next ?_
    rw [there]
    dsimp only
    rw [why, readyAt]
    change (if s.dev.tim.count < k then s else (t.serveHeld h false).serveOrdered) = _
    rw [if_neg (by omega)]
    have served : t.serveHeld h false = t.homeLoad h.port 0x03 h.m none (r.kind != 2) h.pass := by
      unfold State.serveHeld
      rw [if_neg (fun ⟨vc, _⟩ => unordered h (List.mem_of_getElem? there) vc), code, remoteJob, if_neg (by decide)]
      exact serves.served (.inr rfl) ..
    rw [served]
    refine serveOrdered_idle fun x mem => ?_
    rw [loaded.held] at mem
    exact unordered x (List.mem_of_mem_eraseIdx mem)
  obtain ⟨x, tag, status, content, way⟩ := loaded.sends
  obtain ⟨pending, mem, changes⟩ := loaded.changes
  refine .of_exec run ⟨way.sends ⟨tag, status, content⟩, loaded.held, pending, mem, changes.step (by decide) (frame.mono (by decide))⟩

theorem config_unheld {s : State} (ordered : s.dev.ordHeld = []) (steady : s.dev.sec.restarting = false) (port code : Nat) (m : Msg) :
    s.configIn port code m = s.configServe code m := by
  unfold State.configIn State.configTry
  rw [ordered, steady]
  rfl

theorem configRead_answers (s : State) {port : Nat} {m : Msg} (taken : Taken s port 0x40 m) (steady : s.dev.sec.restarting = false)
    (ordered : s.dev.ordHeld = []) : After (.configRead port m) s fun t =>
      Sends (srcDev m.source) 0x28 (fun x => x.tag = m.tag ∧ x.arg = stOk ∧ x.slots.length = 64) t ∧ Changes [.fab, .out, .ctrs, .free] s t := by
  let drawn := (s.dev.drawBytes 64).2
  let answer := drawn.rsp m stOk (s.dev.drawBytes 64).1
  have run : exec (.configRead port m) s = devNext s (drawn.put (srcDev m.source) 0x28 answer) := by
    refine congrArg Host.Outcome.next ((onMsg_taken taken _).trans ?_)
    rw [config_unheld ordered steady]
    rfl
  have bytes : answer.slots.length = 64 := drawBytes_length s.dev 64
  have runs : drawn.flt.deviceFault = false := fabOn_runs taken.1
  obtain ⟨x, carried, way⟩ := put_onItsWay (srcDev m.source) 0x28 answer runs
  refine .of_exec run ⟨way.sends ?_, .of_frame ((put_quiet _ _ _ (by decide)).step (by decide) ((drawBytes_frame s.dev 64).mono (by decide)))⟩
  rcases carried with rfl | rfl <;> exact ⟨rfl, rfl, bytes⟩

theorem configWrite_answers (s : State) {port : Nat} {m : Msg} (taken : Taken s port 0x41 m) (steady : s.dev.sec.restarting = false)
    (ordered : s.dev.ordHeld = []) : After (.configWrite port m) s fun t =>
      Sends (srcDev m.source) 0x29 (fun x => x.tag = m.tag ∧ x.arg = stOk) t ∧ Changes [.fab, .out, .ctrs] s t := by
  have run : exec (.configWrite port m) s = devNext s (s.dev.put (srcDev m.source) 0x29 (s.dev.rsp m stOk [])) := by
    refine congrArg Host.Outcome.next ((onMsg_taken taken _).trans ?_)
    rw [config_unheld ordered steady]
    rfl
  obtain ⟨x, carried, way⟩ := put_onItsWay (srcDev m.source) 0x29 (s.dev.rsp m stOk []) (fabOn_runs taken.1)
  refine .of_exec run ⟨way.sends ?_, .of_frame ((put_quiet _ _ _ (by decide)).mono (by decide))⟩
  rcases carried with rfl | rfl <;> exact ⟨rfl, rfl⟩

end Sys2Proof.Safety
end

section
/-! ### Updates that a home applies at once (R351, R352, R356, R365, R368) -/

namespace Sys2Proof.Safety

open Sys2Proof.Machine

/-! #### The way to the update -/

theorem lineQueued_not {d : Dev} {m : Msg} {lines : Nat} (some_ : 0 < lines) (windows : d.fab.homeComb = [])
    (quiet : DirQuiet d (m.addr % 2 ^ 50 / 64) lines) : d.lineQueued (m.addr / 64) = false := by
  have line : m.addr / 64 % 2 ^ 44 = m.addr % 2 ^ 50 / 64 := by omega
  unfold Dev.lineQueued
  rw [line, windows, List.any_nil, Bool.or_false, List.any_eq_false]
  intro e mem
  have valid := ((quiet 0 some_).2 e mem).1
  simp [valid]

theorem closeHome_idle {s : State} (windows : s.dev.fab.homeComb = []) (f : HomeComb → Bool) : s.closeHome f = s := by
  unfold State.closeHome
  simp only [windows, List.filter_nil, List.flatMap_nil, List.foldl_nil, State.onDev]
  rw [← windows]

theorem takeUnits_there {d : Dev} {x first : Nat} {r : Region} (n : Nat) (there : ∀ i, i < n → (tget d.rgn.units (unitKey x (first + i))).isSome = true) :
    d.takeUnits x first r n = .made d := by
  induction n with
  | zero => rfl
  | succ n ih =>
    unfold Dev.takeUnits
    rw [ih fun i lt => there i (by omega)]
    exact if_pos (there n (by omega))

/-- The state that an update is applied to: the reads that later loads could share have ended (R357). -/
def readsEnded (s : State) (code : Nat) (m : Msg) : State := { s with dev := s.dev.endReads (m.addr / 64) (reqLines code m) }

theorem request_updates {s : State} {port code : Nat} {m : Msg} {r : Region} (h : HomeWrites s port code m r) (writes : rightOf code ≠ 0) :
    s.request port code m = (readsEnded s code m).applyUpdate code m none r := by
  have some_ : 0 < reqLines code m := by unfold reqLines; split <;> omega
  have ready := h.serves.ready
  rw [request_arrives h.serves fun _ => h.once, ready.serves.served (.inl h.plain.1), if_neg writes]
  unfold State.serialise
  dsimp only
  rw [lineQueued_not some_ h.windows ready.quiet, Bool.and_false, if_neg (by decide), closeHome_idle h.windows, ready.region]
  dsimp only
  unfold State.applyOne
  have units := takeUnits_there (r := r) _ h.units
  dsimp only
  generalize unitRun m.addr (reqLines code m) = run at units ⊢
  obtain ⟨a, n⟩ := run
  dsimp only at units ⊢
  rw [units]
  rfl

/-! #### Memory under a mask -/

theorem bit_succ (k i : Nat) : bit k (i + 1) = bit (k / 2) i := by simp only [bit, pow_succ', Nat.div_div_eq_div_mul]

theorem memGet_memWriteMask (bs : List Byte) : ∀ (m : List Host.Cell) (a k j : Nat), Memory.wf m = true →
    memGet (memWriteMask m a k bs) j = if a ≤ j ∧ j < a + bs.length ∧ bit k (j - a) = true then bs.getD (j - a) 0 else memGet m j := by
  induction bs with
  | nil =>
    intro m a k j _
    rw [if_neg (by simp; omega)]
    rfl
  | cons b bs ih =>
    intro m a k j wf
    have odd : bit k 0 = true ↔ k % 2 = 1 := by simp [bit]
    have wf' : Memory.wf (if k % 2 = 1 then memSet m a b else m) = true := by
      split
      · exact memSet_wf m a b wf
      · exact wf
    rw [memWriteMask, ih _ _ _ _ wf', List.length_cons]
    by_cases here : j = a
    · subst here
      rw [if_neg (by omega), Nat.sub_self]
      by_cases set_ : k % 2 = 1
      · rw [if_pos set_, if_pos ⟨le_refl _, by omega, odd.mpr set_⟩, memGet_memSet_same m j b wf]
        rfl
      · rw [if_neg set_, if_neg fun h => set_ (odd.mp h.2.2)]
    · have outside : memGet (if k % 2 = 1 then memSet m a b else m) j = memGet m j := by
        split
        · exact memGet_memSet_other m (fun e => here e.symm) b
        · rfl
      rw [outside]
      by_cases later : a < j
      · obtain ⟨i, rfl⟩ : ∃ i, j = a + 1 + i := ⟨j - (a + 1), by omega⟩
        rw [show a + 1 + i - (a + 1) = i by omega, show a + 1 + i - a = i + 1 by omega, bit_succ, List.getD_cons_succ]
        simp only [show a + 1 ≤ a + 1 + i by omega, show a ≤ a + 1 + i by omega, true_and]
        congr 1
        simp only [eq_iff_iff]
        constructor <;> rintro ⟨lt, set_⟩ <;> exact ⟨by omega, set_⟩
      · rw [if_neg (by omega), if_neg (by omega)]

/-- Memory after a line is written under a mask. -/
def lineMem (mem : List Host.Cell) (off mask : Nat) (b : List Byte) : List Host.Cell :=
  if mask = 2 ^ 64 - 1 then memWrite mem (64 * (off / 64)) b else memWriteMask mem (64 * (off / 64)) mask b

theorem putLine_lineMem (s : State) (r : Region) (off mask : Nat) (b : List Byte) (writer : Nat) (poison : Bool) :
    (s.putLine r off mask b writer poison).2.mem = lineMem s.mem off mask b := by
  unfold State.putLine lineMem
  dsimp only
  simp only [decide_eq_true_eq]

/-! #### The lines of an update -/

/-- No other device is to be told of a write of a line. -/
def Alone (d : Dev) (r : Region) (line : Nat) : Prop := r.kind ≠ 2 ∧ d.dirEnts (dirSet line) = []

theorem dirUpdate_alone {d : Dev} {line : Nat} (none : d.dirEnts (dirSet line) = []) (writer : Nat) : d.dirUpdate line writer false = (false, d) := by
  unfold Dev.dirUpdate
  simp [none]

theorem putLine_alone {s : State} {r : Region} {off : Nat} (alone : Alone s.dev r (off / 64)) (mask : Nat) (b : List Byte) (writer : Nat) (poison : Bool) :
    (s.putLine r off mask b writer poison).1 = [] ∧ (s.putLine r off mask b writer poison).2.dev.fab.dir = s.dev.fab.dir := by
  unfold State.putLine
  extract_lets line k full mem cleaned poisoned sec marked h
  have hCleaned : Frame (.rgn :: .tier :: .flt :: flashParts) s.dev cleaned := .ite ((cleanLine_frame ..).mono (by decide)) (.refl ..)
  have hPoisoned : Frame (.rgn :: .tier :: .flt :: flashParts) s.dev poisoned := .ite ((poisonLine_tame ..).frame.step (by decide) hCleaned) hCleaned
  have hMarked : Frame (.rgn :: .tier :: .flt :: flashParts) s.dev marked := by
    simp only [marked]
    split
    · exact (modUnit_frame ..).step (by decide) hPoisoned
    · split
      · exact .ite ((staleUnit_tame ..).frame.step (by decide) hPoisoned) hPoisoned
      · exact hPoisoned
  clear_value marked h
  have fab : marked.fab = s.dev.fab := hMarked.same .fab (by decide)
  have ents : marked.dirEnts (dirSet line) = [] := by
    simp only [Dev.dirEnts, fab]
    exact alone.2
  have kind : (r.kind == 2) = false := by simpa using alone.1
  rw [kind, dirUpdate_alone ents]
  exact ⟨rfl, congrArg (·.dir) fab⟩

/-- One line of a store, as an update writes it. -/
def storeLine (code : Nat) (m : Msg) (r : Region) (x off mask : Nat) (data : List Byte) (dev : Nat)
    (p : List Nat × List Nat × List (Nat × Nat × Nat) × Nat × State) (i : Nat) : List Nat × List Nat × List (Nat × Nat × Nat) × Nat × State :=
  let o := off / 64 * 64 + 64 * i
  let s := p.2.2.2.2
  let (l, s) := s.putLine r o mask ((data.drop (64 * i)).take 64) dev m.poison
  let (t, d) := s.dev.mirrorWrite x code o m (memRead s.mem o 64)
  (p.1 ++ l, p.2.1 ++ t, p.2.2.1 ++ d.acceptOf r o, 0, { s with dev := d })

/-- The lines of a store have been written, with none to mirror and none to accept. -/
structure LinesWritten (s : State) (r : Region) (off n : Nat) (mem : List Host.Cell) (p : List Nat × List Nat × List (Nat × Nat × Nat) × Nat × State) : Prop where
  rest : p.2.1 = [] ∧ p.2.2.1 = [] ∧ p.2.2.2.1 = 0
  mem : p.2.2.2.2.mem = mem
  pending : p.2.2.2.2.pending = s.pending
  writes : Writes s.dev p.2.2.2.2.dev
  alone : (∀ i, i < n → Alone s.dev r (off / 64 + i)) → p.1 = [] ∧ p.2.2.2.2.dev.fab.dir = s.dev.fab.dir

/-- Memory after the lines of a store. -/
def storeMem (mem : List Host.Cell) (off mask : Nat) (data : List Byte) : Nat → List Host.Cell
  | 0 => mem
  | n + 1 => lineMem (storeMem mem off mask data n) (off / 64 * 64 + 64 * n) mask ((data.drop (64 * n)).take 64)

theorem mirrorWrite_none {d : Dev} {x code off : Nat} {m : Msg} {b : List Byte} (plain : ∀ r, tget d.rgn.slots x = some r → r.durable = false) :
    d.mirrorWrite x code off m b = ([], d) := by
  unfold Dev.mirrorWrite
  split
  · rfl
  next r known =>
    have none : d.mirrorOf r (off % windowBytes / unitBytes) = none := by simp [Dev.mirrorOf, plain r known]
    rw [none]

theorem storeLine_writes {s : State} {code : Nat} {m : Msg} {r : Region} {x off mask : Nat} {data : List Byte} {dev n : Nat}
    {p : List Nat × List Nat × List (Nat × Nat × Nat) × Nat × State} (plain : r.persist = false)
    (undurable : ∀ r, tget s.dev.rgn.slots x = some r → r.durable = false) (h : LinesWritten s r off n (storeMem s.mem off mask data n) p) :
    LinesWritten s r off (n + 1) (storeMem s.mem off mask data (n + 1)) (storeLine code m r x off mask data dev p n) := by
  obtain ⟨ls, ms, acc, old, t⟩ := p
  obtain ⟨⟨hMirror, hAcc, hOld⟩, mem, pending, writes, alone⟩ := h
  dsimp only at hMirror hAcc hOld mem pending writes alone
  subst hMirror hAcc hOld
  have written := putLine_writes t r (off / 64 * 64 + 64 * n) mask ((data.drop (64 * n)).take 64) dev m.poison
  have content := putLine_lineMem t r (off / 64 * 64 + 64 * n) mask ((data.drop (64 * n)).take 64) dev m.poison
  have waits := putLine_pending t r (off / 64 * 64 + 64 * n) mask ((data.drop (64 * n)).take 64) dev m.poison
  have unheld := fun a => putLine_alone (s := t) (r := r) (off := off / 64 * 64 + 64 * n) a mask ((data.drop (64 * n)).take 64) dev m.poison
  unfold storeLine
  dsimp only
  generalize t.putLine r (off / 64 * 64 + 64 * n) mask ((data.drop (64 * n)).take 64) dev m.poison = q at written content waits unheld ⊢
  obtain ⟨l, u⟩ := q
  dsimp only at written content waits unheld ⊢
  have slots : u.dev.rgn.slots = s.dev.rgn.slots := (writes.trans written).slots
  rw [mirrorWrite_none (by rw [slots]; exact undurable)]
  have none : u.dev.acceptOf r (off / 64 * 64 + 64 * n) = [] := by simp [Dev.acceptOf, plain]
  refine ⟨⟨rfl, none, rfl⟩, content.trans (by rw [mem]; rfl), waits.trans pending, writes.trans written, fun each => ?_⟩
  obtain ⟨nothing, dir⟩ := alone fun i lt => each i (by omega)
  have line : (off / 64 * 64 + 64 * n) / 64 = off / 64 + n := by omega
  obtain ⟨held, same⟩ := unheld (by
    rw [line]
    refine ⟨(each n (by omega)).1, ?_⟩
    simp only [Dev.dirEnts, dir]
    exact (each n (by omega)).2)
  exact ⟨by rw [nothing, held]; rfl, same.trans dir⟩

theorem storeLines_write (s : State) (code : Nat) (m : Msg) (r : Region) (x off mask : Nat) (data : List Byte) (dev n : Nat) (plain : r.persist = false)
    (undurable : ∀ r, tget s.dev.rgn.slots x = some r → r.durable = false) :
    LinesWritten s r off n (storeMem s.mem off mask data n) ((List.range n).foldl (storeLine code m r x off mask data dev) ([], [], [], 0, s)) := by
  induction n with
  | zero => exact ⟨⟨rfl, rfl, rfl⟩, rfl, rfl, .refl _, fun _ => ⟨rfl, rfl⟩⟩
  | succ n ih =>
    rw [List.range_succ, List.foldl_append]
    exact storeLine_writes plain undurable ih

theorem storeMem_full {mem : List Host.Cell} {off : Nat} (aligned : off % 64 = 0) (data : List Byte) (n : Nat) (size : 64 * n ≤ data.length) :
    storeMem mem off (2 ^ 64 - 1) data n = memWrite mem off (data.take (64 * n)) := by
  induction n with
  | zero => rfl
  | succ n ih =>
    have bytes : (data.take (64 * n)).length = 64 * n := List.length_take_of_le (by omega)
    have place : 64 * ((off / 64 * 64 + 64 * n) / 64) = off + 64 * n := by omega
    rw [storeMem, ih (by omega), lineMem, if_pos rfl, place, show 64 * (n + 1) = 64 * n + 64 by omega, List.take_add, memWrite_append, bytes]

/-! #### The answer to an update -/

/-- An update whose lines are written: its record is kept, its response sent or held. -/
def answersUpdate (s : State) (code : Nat) (m : Msg) (job : Option Nat) (r : Region) (lines mirror : List Nat) (acc : List (Nat × Nat × Nat)) (old : Nat) :
    State :=
  let d := (s.dev.record code m old).touchUnits m.addr (reqLines code m)
  let rm := d.rsp m stOk (if code = 0x10 then leBytes 16 old else [])
  let h : HeldRsp := {
    dest := srcDev m.source, code := rspCode code, m := rm, job := job, source := m.source, region := r.id, lines := lines, accept := acc, mirror := mirror }
  { s with dev := ({ d with fab := { d.fab with heldRsp := d.fab.heldRsp ++ [h] } }).flushHeld }

theorem applyUpdate_store {s : State} {code : Nat} {m : Msg} {r : Region} (store : code ≠ 0x10) :
    s.applyUpdate code m none r
      = let p := (List.range (reqLines code m)).foldl
          (storeLine code m r (slotOf m.addr) (m.addr % 2 ^ 50) (storeParts code m).1 (storeParts code m).2 (srcDev m.source)) ([], [], [], 0, s)
        answersUpdate p.2.2.2.2 code m none r p.1 p.2.1 p.2.2.1 p.2.2.2.1 := by
  unfold State.applyUpdate
  dsimp only
  rw [if_neg store]
  rfl

/-- What the answer to an update leaves. -/
structure UpdateAnswered (s : State) (code : Nat) (m : Msg) (lines : List Nat) (old : Nat) (d e : Dev) : Prop where
  replayS : e.fab.replayS = (d.record code m old).fab.replayS
  replayA : e.fab.replayA = (d.record code m old).fab.replayA
  frame : Frame [.fab, .rgn, .out, .ctrs] d e
  sends : lines = [] → ∃ x, x.tag = m.tag ∧ x.arg = stOk ∧ x.slots = (if code = 0x10 then leBytes 16 old else [])
    ∧ OnItsWay (srcDev m.source) (rspCode code) x e

theorem answersUpdate_answers {s : State} {code : Nat} {m : Msg} {r : Region} {lines : List Nat} {old : Nat} (remote : srcDev m.source ≠ s.dev.devNo)
    (runs : s.dev.flt.deviceFault = false) (waiting : calm s) (quiet : patronReq (rspCode code) = false) :
    UpdateAnswered s code m lines old s.dev (answersUpdate s code m none r lines [] [] old).dev := by
  unfold answersUpdate
  extract_lets d rm h
  obtain ⟨recorded, -, heldRsp⟩ := record_recs s.dev code m old
  have touched : Frame [.rgn] (s.dev.record code m old) d := touchUnits_frame ..
  have fab : d.fab = (s.dev.record code m old).fab := touched.same .fab (by decide)
  have frame : Frame [.fab, .rgn] s.dev d := touched.step (by decide) (recorded.mono (by decide))
  have boot : d.boot = s.dev.boot := frame.same .boot (by decide)
  have here : d.devNo = s.dev.devNo := by simp only [Dev.devNo, boot]
  have runs' : d.flt.deviceFault = false := (frame.fltField (by decide) (·.deviceFault)).trans runs
  have waiting' : ∀ h ∈ d.fab.heldRsp, h.lines ≠ [] ∨ h.accept ≠ [] ∨ h.mirror ≠ [] := by
    rw [fab, heldRsp]
    exact waiting
  have goes : d.deliver h.dest h.code 0 h.m h.job = d.put (srcDev m.source) (rspCode code) rm := if_neg (by rw [here]; exact remote)
  have sent := put_onlySends d (srcDev m.source) (rspCode code) rm
  have sentFrame := put_quiet d (srcDev m.source) rm quiet
  obtain ⟨x, carried, way⟩ := put_onItsWay (srcDev m.source) (rspCode code) rm runs'
  have content : rm.tag = m.tag ∧ rm.arg = stOk ∧ rm.slots = (if code = 0x10 then leBytes 16 old else []) := ⟨rfl, rfl, rfl⟩
  have hLines : h.lines = lines ∧ h.accept = [] ∧ h.mirror = [] := ⟨rfl, rfl, rfl⟩
  clear_value rm h d
  rcases flushHeld_new (h := h) waiting' with waits | leaves
  · refine ⟨?_, ?_, ?_, fun none => ?_⟩
    · rw [waits, ← fab]
    · rw [waits, ← fab]
    · rw [waits]
      exact (Frame.fab d _).step (by decide) (frame.mono (by decide))
    · have out := flushHeld_one (h := h) waiting' ⟨hLines.1.trans none, hLines.2.1, hLines.2.2⟩
      rw [out, goes]
      refine ⟨x, ?_, ?_, ?_, way⟩
      · rcases carried with rfl | rfl <;> exact content.1
      · rcases carried with rfl | rfl <;> exact content.2.1
      · rcases carried with rfl | rfl <;> exact content.2.2
  · rw [goes] at leaves
    refine ⟨?_, ?_, ?_, fun _ => ⟨x, ?_, ?_, ?_, ?_⟩⟩
    · rw [leaves, sent.fab, ← fab]
    · rw [leaves, sent.fab, ← fab]
    · rw [leaves]
      exact sentFrame.step (by decide) (frame.mono (by decide))
    · rcases carried with rfl | rfl <;> exact content.1
    · rcases carried with rfl | rfl <;> exact content.2.1
    · rcases carried with rfl | rfl <;> exact content.2.2
    · rw [leaves]
      exact way

/-! #### Stores -/

theorem record_store {d : Dev} {code : Nat} {m : Msg} (remote : srcDev m.source ≠ d.devNo) (store : code ≠ 0x10) (old : Nat) :
    tget (d.record code m old).fab.replayS (m.source * 65536 + m.tag) = some { src := m.source, tag := m.tag } := by
  unfold Dev.record
  rw [if_neg remote]
  dsimp only
  rw [if_neg store]
  exact tget_tset_same ..

theorem record_atomic {d : Dev} {m : Msg} (remote : srcDev m.source ≠ d.devNo) (old : Nat) :
    tget (d.record 0x10 m old).fab.replayA (m.source * 65536 + m.tag) = some { src := m.source, tag := m.tag, arg := m.arg, result := old } := by
  unfold Dev.record
  rw [if_neg remote]
  exact tget_tset_same ..

/-- What a store leaves that a home applies at once. -/
structure Stored (s : State) (code : Nat) (m : Msg) (r : Region) (t : State) : Prop where
  mem : t.mem = storeMem s.mem (m.addr % 2 ^ 50) (storeParts code m).1 (storeParts code m).2 (reqLines code m)
  replay : tget t.dev.fab.replayS (m.source * 65536 + m.tag) = some { src := m.source, tag := m.tag }
  sends : unshared s code m r → Sends (srcDev m.source) 0x29 (fun x => x.tag = m.tag ∧ x.arg = stOk) t
  pending : t.pending = s.pending
  frame : Frame (.fab :: .rgn :: .flt :: .stk :: .tier :: evParts) s.dev t.dev

theorem record_undurable {d : Dev} {addr : Nat} {r : Region} (region : d.regionOf addr = some r) (plain : r.durable = false) :
    ∀ q, tget d.rgn.slots (slotOf addr) = some q → q.durable = false := by
  intro q known
  unfold Dev.regionOf at region
  rw [known] at region
  dsimp only at region
  split at region
  · obtain rfl := Option.some.inj region
    exact plain
  · cases region

theorem request_stores {s : State} {port code : Nat} {m : Msg} {r : Region} (h : HomeWrites s port code m r) (writes : rightOf code ≠ 0)
    (store : code ≠ 0x10) (response : rspCode code = 0x29) : Stored s code m r (s.request port code m) := by
  rw [request_updates h writes, applyUpdate_store store]
  have ended : Frame [.fab] s.dev (readsEnded s code m).dev := Frame.fab s.dev _
  have written := storeLines_write (readsEnded s code m) code m r (slotOf m.addr) (m.addr % 2 ^ 50) (storeParts code m).1 (storeParts code m).2
    (srcDev m.source) (reqLines code m) h.plain.1 (record_undurable h.serves.ready.region h.plain.2)
  generalize (List.range (reqLines code m)).foldl (storeLine code m r (slotOf m.addr) (m.addr % 2 ^ 50) (storeParts code m).1 (storeParts code m).2
    (srcDev m.source)) ([], [], [], 0, readsEnded s code m) = p at written ⊢
  obtain ⟨ls, ms, acc, old, t⟩ := p
  obtain ⟨⟨hMirror, hAcc, hOld⟩, mem, pending, writes, alone⟩ := written
  dsimp only at hMirror hAcc hOld mem pending writes alone ⊢
  subst hMirror hAcc hOld
  have remote : srcDev m.source ≠ t.dev.devNo := by rw [writes.devNo]; exact h.serves.remote
  have waiting : calm t := by
    intro x mem
    rw [writes.heldRsp] at mem
    exact h.waiting x mem
  have answered := answersUpdate_answers (s := t) (r := r) (lines := ls) (old := 0) (code := code) remote
    (writes.runs.trans (fabOn_runs h.serves.taken.1)) waiting (by rw [response]; decide)
  refine ⟨mem, ?_, fun apart => ?_, pending, ?_⟩
  · rw [answered.replayS]
    exact record_store remote store 0
  · obtain ⟨x, tag, status, -, way⟩ := answered.sends (alone fun i lt => ⟨apart.1, apart.2 i lt⟩).1
    rw [response] at way
    exact way.sends ⟨tag, status⟩
  · exact answered.frame.step (by decide) (writes.frame.step (by decide) (ended.mono (by decide)))

end Sys2Proof.Safety
end

section
/-! ### Stores, masked stores and atomics at the home (R351, R352, R356) -/

namespace Sys2Proof.Safety

open Sys2Proof.Machine

theorem store_stores (s : State) {port : Nat} {m : Msg} {r : Region} {c : Instr} {code : Nat}
    (row : (c, code) ∈ [(Instr.store port m, 0x08), (.writeBlock port m, 0x0A)]) (h : HomeWrites s port code m r) : After c s fun t =>
      memRead t.mem (m.addr % 2 ^ 50) m.slots.length = m.slots
      ∧ (∀ a, a < m.addr % 2 ^ 50 ∨ m.addr % 2 ^ 50 + m.slots.length ≤ a → memGet t.mem a = memGet s.mem a)
      ∧ tget t.dev.fab.replayS (m.source * 65536 + m.tag) = some { src := m.source, tag := m.tag }
      ∧ (unshared s code m r → Sends (srcDev m.source) 0x29 (fun x => x.tag = m.tag ∧ x.arg = stOk) t)
      ∧ t.pending = s.pending ∧ Frame (.fab :: .rgn :: .flt :: .stk :: .tier :: evParts) s.dev t.dev := by
  have whole := h.slots
  have ok := h.serves.taken.2.1
  simp only [msgOk, Bool.and_eq_true] at ok
  obtain ⟨⟨⟨shape, aligned⟩, -⟩, -⟩ := ok
  obtain ⟨run, form, size, align, store, response, writes⟩ : exec c s = .next (s.request port code m) ∧ storeParts code m = (2 ^ 64 - 1, m.slots)
      ∧ m.slots.length = 64 * reqLines code m ∧ m.addr % 64 = 0 ∧ code ≠ 0x10 ∧ rspCode code = 0x29 ∧ rightOf code ≠ 0 := by
    simp only [List.mem_cons, Prod.mk.injEq, List.not_mem_nil, or_false] at row
    rcases row with ⟨rfl, rfl⟩ | ⟨rfl, rfl⟩
    · refine ⟨congrArg Host.Outcome.next (onMsg_taken h.serves.taken _), rfl, ?_, by simpa [addrAligned] using aligned, by decide, rfl, by decide⟩
      simp [msgShape] at shape
      simp [reqLines]
      omega
    · refine ⟨congrArg Host.Outcome.next (onMsg_taken h.serves.taken _), rfl, ?_, by simpa [addrAligned] using aligned, by decide, rfl, by decide⟩
      simp [msgShape] at shape
      simp [reqLines]
      omega
  have stored := request_stores h writes store response
  have mem : (s.request port code m).mem = memWrite s.mem (m.addr % 2 ^ 50) m.slots := by
    rw [stored.mem, form, storeMem_full (by omega) _ _ size.ge, ← size, List.take_length]
  refine .of_exec run ⟨?_, fun a out => ?_, stored.replay, stored.sends, stored.pending, stored.frame⟩
  · rw [mem]
    exact memRead_memWrite h.memory ..
  · rw [mem]
    exact memGet_memWrite_outside _ _ _ _ out

theorem bit_eq_testBit (x i : Nat) : bit x i = x.testBit i := by
  rw [Nat.testBit_eq_decide_div_mod_eq, bit, beq_eq_decide]

theorem bit_full {i : Nat} (lt : i < 64) : bit (2 ^ 64 - 1) i = true := by
  rw [bit_eq_testBit, Nat.testBit_two_pow_sub_one, decide_eq_true lt]

/-- What a line that is written under a mask reads as. -/
theorem memGet_lineMem {mem : List Host.Cell} (wf : Memory.wf mem = true) {off at_ : Nat} (line : 64 * (off / 64) = at_) (mask : Nat) {b : List Byte}
    (size : b.length = 64) (j : Nat) :
    memGet (lineMem mem off mask b) j = if at_ ≤ j ∧ j < at_ + 64 ∧ bit mask (j - at_) = true then b.getD (j - at_) 0 else memGet mem j := by
  unfold lineMem
  rw [line]
  split
  next full =>
    by_cases inside : at_ ≤ j ∧ j < at_ + 64
    · obtain ⟨i, rfl⟩ : ∃ i, j = at_ + i := ⟨j - at_, by omega⟩
      rw [Nat.add_sub_cancel_left, full, if_pos ⟨inside.1, inside.2, bit_full (by omega)⟩, memGet_memWrite_inside b mem at_ i wf (by omega),
        List.getD_eq_getElem _ _ (by omega)]
    · rw [memGet_memWrite_outside b mem at_ j (by omega), if_neg fun h => inside ⟨h.1, h.2.1⟩]
  next =>
    rw [memGet_memWriteMask b mem at_ mask j wf, size]

theorem storePartial_stores (s : State) {port : Nat} {m : Msg} {r : Region} (h : HomeWrites s port 0x09 m r) : After (.storePartial port m) s fun t =>
    (∀ i, i < 64 → memGet t.mem (m.addr % 2 ^ 50 + i)
      = if bit (fieldOf m.slots 0 8) i then (m.slots.drop 16).getD i 0 else memGet s.mem (m.addr % 2 ^ 50 + i))
    ∧ (∀ a, a < m.addr % 2 ^ 50 ∨ m.addr % 2 ^ 50 + 64 ≤ a → memGet t.mem a = memGet s.mem a)
    ∧ tget t.dev.fab.replayS (m.source * 65536 + m.tag) = some { src := m.source, tag := m.tag }
    ∧ (unshared s 0x09 m r → Sends (srcDev m.source) 0x29 (fun x => x.tag = m.tag ∧ x.arg = stOk) t)
    ∧ t.pending = s.pending ∧ Frame (.fab :: .rgn :: .flt :: .stk :: .tier :: evParts) s.dev t.dev := by
  have whole := h.slots
  obtain ⟨bytes, aligned⟩ : m.slots.length = 80 ∧ m.addr % 64 = 0 := by
    have ok := h.serves.taken.2.1
    simp [msgOk, msgShape, addrAligned] at ok
    omega
  have stored := request_stores h (by decide) (by decide) rfl
  have size : (m.slots.drop 16).length = 64 := by simp [bytes]
  have mem : (s.request port 0x09 m).mem = lineMem s.mem (m.addr % 2 ^ 50) (fieldOf m.slots 0 8) (m.slots.drop 16) := by
    have place : m.addr % 2 ^ 50 / 64 * 64 + 64 * 0 = m.addr % 2 ^ 50 := by omega
    rw [stored.mem]
    change lineMem s.mem (m.addr % 2 ^ 50 / 64 * 64 + 64 * 0) (fieldOf m.slots 0 8) (((m.slots.drop 16).drop 0).take 64) = _
    rw [place, List.drop_zero, List.take_of_length_le size.le]
  have get := fun j => memGet_lineMem h.memory (off := m.addr % 2 ^ 50) (at_ := m.addr % 2 ^ 50) (by omega) (fieldOf m.slots 0 8) size j
  refine .of_exec (congrArg Host.Outcome.next (onMsg_taken h.serves.taken _)) ⟨fun i lt => ?_, fun a out => ?_, stored.replay, stored.sends, stored.pending,
    stored.frame⟩
  · rw [mem, get, Nat.add_sub_cancel_left]
    simp only [le_add_iff_nonneg_right, zero_le, Nat.add_lt_add_iff_left, lt, true_and]
  · rw [mem, get, if_neg (by omega)]

/-! #### Atomics -/

/-- The line that an atomic writes: its operand's new value, under a mask of its bytes. -/
def atomicLine (at_ n : Nat) (new : List Byte) : List Byte := List.replicate at_ 0 ++ new ++ List.replicate (64 - at_ - n) 0

theorem bit_mask {n at_ i : Nat} : bit ((2 ^ n - 1) * 2 ^ at_) i = (decide (at_ ≤ i) && decide (i < at_ + n)) := by
  rw [bit_eq_testBit, Nat.testBit_mul_two_pow]
  by_cases le : at_ ≤ i
  · rw [Nat.testBit_two_pow_sub_one]
    simp only [le, decide_true, Bool.true_and]
    congr 1
    simp only [eq_iff_iff]
    omega
  · simp [le]

/-- The new value of an atomic. -/
def atomicValue (s : State) (m : Msg) : Nat :=
  atomicNew (m.arg % 16) (8 * atomicWidth m.arg) (leNat (memRead s.mem (m.addr % 2 ^ 50) (atomicWidth m.arg))) (atomicArgs m.arg m.slots).1
    (atomicArgs m.arg m.slots).2

theorem applyUpdate_atomic {s : State} {m : Msg} {r : Region} (undurable : ∀ q, tget s.dev.rgn.slots (slotOf m.addr) = some q → q.durable = false)
    (plain : r.persist = false) :
    s.applyUpdate 0x10 m none r
      = let n := atomicWidth m.arg
        let p := s.putLine r (m.addr % 2 ^ 50) ((2 ^ n - 1) * 2 ^ (m.addr % 2 ^ 50 % 64)) (atomicLine (m.addr % 2 ^ 50 % 64) n (leBytes n (atomicValue s m)))
          (srcDev m.source) false
        answersUpdate p.2 0x10 m none r p.1 [] [] (leNat (memRead s.mem (m.addr % 2 ^ 50) n)) := by
  have slots := (putLine_writes s r (m.addr % 2 ^ 50) ((2 ^ atomicWidth m.arg - 1) * 2 ^ (m.addr % 2 ^ 50 % 64))
    (atomicLine (m.addr % 2 ^ 50 % 64) (atomicWidth m.arg) (leBytes (atomicWidth m.arg) (atomicValue s m))) (srcDev m.source) false).slots
  unfold atomicLine atomicValue at slots ⊢
  unfold State.applyUpdate
  generalize atomicArgs m.arg m.slots = args at slots ⊢
  obtain ⟨a, b⟩ := args
  dsimp only at slots ⊢
  rw [if_pos rfl]
  generalize s.putLine r (m.addr % 2 ^ 50) _ _ (srcDev m.source) false = p at slots ⊢
  obtain ⟨l, t⟩ := p
  dsimp only at slots ⊢
  rw [mirrorWrite_none (by rw [slots]; exact undurable)]
  have none : t.dev.acceptOf r (m.addr % 2 ^ 50) = [] := by simp [Dev.acceptOf, plain]
  dsimp only
  rw [none]
  rfl

theorem leBytes_length (n x : Nat) : (leBytes n x).length = n := by
  induction n generalizing x with
  | zero => rfl
  | succ n ih => rw [leBytes, List.length_cons, ih]

theorem atomicWidth_cases {arg : Nat} (some_ : atomicWidth arg ≠ 0) : atomicWidth arg = 4 ∨ atomicWidth arg = 8 ∨ atomicWidth arg = 16 := by
  unfold atomicWidth at some_ ⊢
  dsimp only at some_ ⊢
  split at some_
  · exact absurd rfl some_
  next ok =>
    rw [if_neg ok]
    obtain h | h | h : arg / 16 = 0 ∨ arg / 16 = 1 ∨ arg / 16 = 2 := by omega
    all_goals simp [h]

/-- The operand lies in its line where the mask says. -/
theorem atomicLine_getD {at_ n i : Nat} {new : List Byte} (size : new.length = n) (lt : i < n) : (atomicLine at_ n new).getD (at_ + i) 0 = new.getD i 0 := by
  unfold atomicLine
  rw [List.append_assoc, List.getD_append_right _ _ _ _ (by simp), List.length_replicate, Nat.add_sub_cancel_left, List.getD_append _ _ _ _ (by omega)]

theorem atomic_applies (s : State) {port : Nat} {m : Msg} {r : Region} (h : HomeWrites s port 0x10 m r) {n old new : Nat} (width : n = atomicWidth m.arg)
    (before : old = leNat (memRead s.mem (m.addr % 2 ^ 50) n))
    (after : new = atomicNew (m.arg % 16) (8 * n) old (atomicArgs m.arg m.slots).1 (atomicArgs m.arg m.slots).2) : After (.atomic port m) s fun t =>
      memRead t.mem (m.addr % 2 ^ 50) n = leBytes n new
      ∧ (∀ a, a < m.addr % 2 ^ 50 ∨ m.addr % 2 ^ 50 + n ≤ a → memGet t.mem a = memGet s.mem a)
      ∧ tget t.dev.fab.replayA (m.source * 65536 + m.tag) = some { src := m.source, tag := m.tag, arg := m.arg, result := old }
      ∧ (unshared s 0x10 m r → Sends (srcDev m.source) 0x2A (fun x => x.tag = m.tag ∧ x.arg = stOk ∧ x.slots = leBytes 16 old) t)
      ∧ t.pending = s.pending ∧ Frame (.fab :: .rgn :: .flt :: .stk :: .tier :: evParts) s.dev t.dev := by
  subst width before after
  let n := atomicWidth m.arg
  let off := m.addr % 2 ^ 50
  let old := leNat (memRead s.mem off n)
  let e := readsEnded s 0x10 m
  let mask := (2 ^ n - 1) * 2 ^ (off % 64)
  let line := atomicLine (off % 64) n (leBytes n (atomicValue s m))
  have ended : Frame [.fab] s.dev e.dev := Frame.fab s.dev _
  have fits : off % 64 + n ≤ 64 := by
    obtain ⟨width, aligned⟩ : n ≠ 0 ∧ m.addr % max 1 n = 0 := by
      have ok := h.serves.taken.2.1
      simp [msgOk, msgShape, addrAligned] at ok
      exact ⟨ok.1.1.1.2.1, ok.1.1.2⟩
    have cases_ : n = 4 ∨ n = 8 ∨ n = 16 := atomicWidth_cases width
    clear_value n
    rcases cases_ with rfl | rfl | rfl <;> simp only [Nat.reduceLeDiff, sup_of_le_right] at aligned <;> omega
  have size : line.length = 64 := by simp [line, atomicLine, leBytes_length]; omega
  have run : exec (.atomic port m) s = .next (e.applyUpdate 0x10 m none r) :=
    congrArg Host.Outcome.next ((onMsg_taken h.serves.taken _).trans (request_updates h (by decide)))
  rw [applyUpdate_atomic (s := e) (record_undurable h.serves.ready.region h.plain.2) h.plain.1] at run
  have writes := putLine_writes e r off mask line (srcDev m.source) false
  have mem := putLine_lineMem e r off mask line (srcDev m.source) false
  have pending := putLine_pending e r off mask line (srcDev m.source) false
  have alone : Alone s.dev r (off / 64) → (e.putLine r off mask line (srcDev m.source) false).1 = [] := fun a => (putLine_alone (s := e) a _ _ _ _).1
  have run' : exec (.atomic port m) s = .next (answersUpdate (e.putLine r off mask line (srcDev m.source) false).2 0x10 m none r
      (e.putLine r off mask line (srcDev m.source) false).1 [] [] old) := run
  generalize e.putLine r off mask line (srcDev m.source) false = p at writes mem pending alone run'
  obtain ⟨l, t⟩ := p
  dsimp only at writes mem pending alone run'
  have remote : srcDev m.source ≠ t.dev.devNo := by rw [writes.devNo]; exact h.serves.remote
  have waiting : calm t := by
    intro x mem
    rw [writes.heldRsp] at mem
    exact h.waiting x mem
  have answered := answersUpdate_answers (s := t) (r := r) (lines := l) (old := old) (code := 0x10) remote
    (writes.runs.trans (fabOn_runs h.serves.taken.1)) waiting (by decide)
  have get := fun j => memGet_lineMem h.memory (off := off) (at_ := off / 64 * 64) (by omega) mask size j
  have get' : ∀ j, memGet (answersUpdate t 0x10 m none r l [] [] old).mem j = if off ≤ j ∧ j < off + n then (leBytes n (atomicValue s m)).getD (j - off) 0
      else memGet s.mem j := by
    intro j
    refine (congrArg (memGet · j) mem).trans ((get j).trans ?_)
    by_cases inside : off ≤ j ∧ j < off + n
    · obtain ⟨i, rfl⟩ : ∃ i, j = off + i := ⟨j - off, by omega⟩
      have place : off + i - off / 64 * 64 = off % 64 + i := by omega
      have masked : bit mask (off % 64 + i) = true := by
        rw [bit_mask, decide_eq_true (by omega), decide_eq_true (by omega)]
        rfl
      rw [place, if_pos ⟨by omega, by omega, masked⟩, if_pos inside, Nat.add_sub_cancel_left]
      exact atomicLine_getD (leBytes_length ..) (by omega)
    · rw [if_neg inside]
      refine if_neg fun ⟨ge, lt, set_⟩ => ?_
      rw [bit_mask, Bool.and_eq_true, decide_eq_true_iff, decide_eq_true_iff] at set_
      omega
  refine .of_exec run' ⟨?_, fun a out => ?_, ?_, fun apart => ?_, pending, ?_⟩
  · have value : memRead (answersUpdate t 0x10 m none r l [] [] old).mem off (leBytes n (atomicValue s m)).length = leBytes n (atomicValue s m) := by
      refine memRead_eq fun i lt => ?_
      rw [leBytes_length] at lt
      rw [get', if_pos ⟨by omega, by omega⟩, Nat.add_sub_cancel_left, List.getD_eq_getElem]
    rwa [leBytes_length] at value
  · rw [get', if_neg (by omega)]
  · rw [answered.replayA]
    exact record_atomic remote old
  · obtain ⟨x, tag, status, content, way⟩ := answered.sends (alone ⟨apart.1, apart.2 0 (by simp [reqLines])⟩)
    exact way.sends ⟨tag, status, content⟩
  · exact answered.frame.step (by decide) (writes.frame.step (by decide) (ended.mono (by decide)))

/-- Settles O50: a home that can serve at once loads, stores, applies and answers, each row by its own lemma above. -/
theorem homeRowsComplete : Obligations.HomeRowsComplete := by
  intro s port m r
  refine ⟨?_, ?_, ?_, ?_, ?_, ?_, ?_, ?_⟩
  · exact fun h => load_loads s h
  · exact fun h => readBlock_loads s h
  · exact fun c code row h => store_stores s row h
  · exact fun h => storePartial_stores s h
  · exact fun h n old new width before after => atomic_applies s h width before after
  · exact fun taken steady ordered => configRead_answers s taken steady ordered
  · exact fun taken steady ordered => configWrite_answers s taken steady ordered
  · exact fun i h there why code job due ready ordered remote runs => heldAccess_loads s there why code job due ready ordered remote runs

end Sys2Proof.Safety
end

section
/-! ### Records of blocks: reads and refresh of one, and what every retirement keeps (R307, R308, R311, R316) -/

namespace Sys2Proof.Safety

open Sys2Proof.Machine

theorem fblock_modBlock_same (d : Dev) (k : Nat) (f : FBlock → FBlock) : (d.modBlock k f).fblock k = f (d.fblock k) := tgetD_tset_same ..

theorem fblock_modBlock_other (d : Dev) {j k : Nat} (h : j ≠ k) (f : FBlock → FBlock) : (d.modBlock k f).fblock j = d.fblock j :=
  tgetD_tset_other _ h.symm ..

theorem fblock_of_blocks {d e : Dev} (h : e.stk.blocks = d.stk.blocks) (k : Nat) : e.fblock k = d.fblock k := by rw [Dev.fblock, Dev.fblock, h]

theorem Frame.fblock {ps : List Part} {d e : Dev} (h : Frame ps d e) (n : .stk ∉ ps) (k : Nat) : e.fblock k = d.fblock k :=
  fblock_of_blocks (by rw [h.same .stk n]) k

/-! #### Steps that reach the record of one block alone -/

/-- A step changes the record of one block and nothing else. -/
structure OnlyBlock (k : Nat) (d e : Dev) : Prop where
  rest : ∃ bs, e = { d with stk := { d.stk with blocks := bs } }
  others : ∀ j, j ≠ k → e.fblock j = d.fblock j

section
variable {k : Nat} {d e f : Dev}

theorem OnlyBlock.refl (k : Nat) (d : Dev) : OnlyBlock k d d := ⟨⟨d.stk.blocks, rfl⟩, fun _ _ => rfl⟩

theorem OnlyBlock.trans (h : OnlyBlock k d e) (g : OnlyBlock k e f) : OnlyBlock k d f := by
  obtain ⟨bs, rfl⟩ := h.rest
  obtain ⟨cs, rfl⟩ := g.rest
  exact ⟨⟨cs, rfl⟩, fun j other => (g.others j other).trans (h.others j other)⟩

theorem OnlyBlock.ite {c : Prop} [Decidable c] (h : OnlyBlock k d e) (g : OnlyBlock k d f) : OnlyBlock k d (if c then e else f) := by
  split
  · exact h
  · exact g

theorem OnlyBlock.frame (h : OnlyBlock k d e) : Frame [.stk] d e := by
  obtain ⟨bs, rfl⟩ := h.rest
  exact Frame.stk d _

/-- What does not look at the records of blocks is as it was. -/
theorem OnlyBlock.keeps {α : Type} (h : OnlyBlock k d e) (g : Dev → α)
    (blind : ∀ (d : Dev) (bs : Tab FBlock), g { d with stk := { d.stk with blocks := bs } } = g d := by intros; rfl) : g e = g d := by
  obtain ⟨bs, rfl⟩ := h.rest
  exact blind d bs

end

theorem modBlock_only (d : Dev) (k : Nat) (f : FBlock → FBlock) : OnlyBlock k d (d.modBlock k f) :=
  ⟨⟨_, rfl⟩, fun _ other => fblock_modBlock_other d other f⟩

/-- A RELOCATING block that holds nothing valid is DIRTY. -/
def movedOut (b : FBlock) : FBlock := if b.valid = [] then { b with st := 0, refresh := false } else b

theorem movedOut_valid (b : FBlock) : (movedOut b).valid = b.valid := by
  unfold movedOut
  split <;> rfl

theorem settleBlock_moving {d : Dev} {k : Nat} (moving : (d.fblock k).st = 5) :
    OnlyBlock k d (d.settleBlock k) ∧ (d.settleBlock k).fblock k = movedOut (d.fblock k) := by
  unfold Dev.settleBlock movedOut
  extract_lets b
  by_cases empty : b.valid = []
  · rw [if_neg (by simp [empty]), if_pos moving, if_pos empty]
    exact ⟨modBlock_only .., fblock_modBlock_same ..⟩
  · rw [if_pos (by simp [empty]), if_neg empty]
    exact ⟨.refl .., rfl⟩

/-- A block becomes RELOCATING. -/
theorem relocating_block (d : Dev) (k : Nat) : OnlyBlock k d ((d.modBlock k fun b => { b with st := 5 }).settleBlock k)
    ∧ ((d.modBlock k fun b => { b with st := 5 }).settleBlock k).fblock k = movedOut { d.fblock k with st := 5 } := by
  obtain ⟨only, settled⟩ := settleBlock_moving (d := d.modBlock k fun b => { b with st := 5 }) (k := k) (by rw [fblock_modBlock_same])
  rw [fblock_modBlock_same] at settled
  exact ⟨(modBlock_only ..).trans only, settled⟩

/-- A block whose refresh may start. -/
def refreshed (on : Prop) [Decidable on] (b : FBlock) : FBlock := if b.refresh ∧ b.st = 4 ∧ on then movedOut { b with st := 5 } else b

theorem startRefresh_only (d : Dev) (k : Nat) : OnlyBlock k d (d.startRefresh k) := .ite (relocating_block d k).1 (.refl ..)

theorem startRefresh_block (d : Dev) (k : Nat) : (d.startRefresh k).fblock k = refreshed (d.reg regStkCtrl 0 0 2 = 1) (d.fblock k) := by
  unfold Dev.startRefresh refreshed
  rw [apply_ite (fun e : Dev => e.fblock k), (relocating_block d k).2]

theorem scheduleRefresh_only (d : Dev) (k : Nat) : OnlyBlock k d (d.scheduleRefresh k) := (modBlock_only ..).trans (startRefresh_only ..)

theorem scheduleRefresh_block (d : Dev) (k : Nat) :
    (d.scheduleRefresh k).fblock k = refreshed (d.reg regStkCtrl 0 0 2 = 1) { d.fblock k with refresh := true } := by
  unfold Dev.scheduleRefresh
  rw [startRefresh_block, fblock_modBlock_same]
  rfl

/-- A block with page reads counted. -/
def readMore (n : Nat) (b : FBlock) : FBlock := { b with reads := min (b.reads + n) (2 ^ 32 - 1) }

/-- The reads after which a block is to be refreshed (R307). -/
def readLimit (d : Dev) (k : Nat) : Nat := d.reg regStkReadLimit 0 0 (if d.inSystem k then 1 else 0)

theorem countReads_only (d : Dev) (k n : Nat) : OnlyBlock k d (d.countReads k n) :=
  .ite ((modBlock_only ..).trans (scheduleRefresh_only ..)) (modBlock_only ..)

/-- Counted reads, with refresh scheduled at the limit. -/
theorem countReads_block (d : Dev) (k n : Nat) : (d.countReads k n).fblock k = readMore n (d.fblock k)
    ∨ (d.countReads k n).fblock k = refreshed (d.reg regStkCtrl 0 0 2 = 1) { readMore n (d.fblock k) with refresh := true } := by
  unfold Dev.countReads
  extract_lets old counted lim
  have counts : counted.fblock k = readMore n (d.fblock k) := fblock_modBlock_same ..
  split
  · exact .inr (by rw [scheduleRefresh_block, counts]; rfl)
  · exact .inl counts

theorem countReads_below {d : Dev} {k n : Nat} (below : (d.fblock k).reads + n < readLimit d k) (fits : (d.fblock k).reads + n < 2 ^ 32) :
    (d.countReads k n).fblock k = { d.fblock k with reads := (d.fblock k).reads + n } := by
  unfold Dev.countReads
  extract_lets old counted lim
  have counts : counted.fblock k = { d.fblock k with reads := (d.fblock k).reads + n } := by
    rw [fblock_modBlock_same, Nat.min_eq_left (by omega)]
  have system : counted.inSystem k = d.inSystem k := by
    unfold Dev.inSystem
    rw [counts]
    rfl
  have limit : lim = readLimit d k := by
    change d.reg regStkReadLimit 0 0 (if counted.inSystem k then 1 else 0) = _
    rw [system]
    rfl
  rw [if_neg]
  · exact counts
  · rw [counts, limit]
    dsimp only
    omega

theorem refreshed_reads (on : Prop) [Decidable on] (b : FBlock) : (refreshed on b).reads = b.reads := by
  unfold refreshed movedOut
  split
  · split <;> rfl
  · rfl

theorem refreshed_valid (on : Prop) [Decidable on] (b : FBlock) : (refreshed on b).valid = b.valid := by
  unfold refreshed
  split
  · exact movedOut_valid _
  · rfl

/-- Only a CLOSED block's refresh starts. -/
theorem refreshed_of_open {on : Prop} [Decidable on] {b : FBlock} (st : b.st ≠ 4) : refreshed on b = b := if_neg fun h => st h.2.1

/-- A refresh that starts finds valid data, and makes the block RELOCATING. -/
theorem refreshed_of_filled {on : Prop} [Decidable on] {b : FBlock} (filled : b.valid ≠ []) :
    refreshed on b = if b.refresh ∧ b.st = 4 ∧ on then { b with st := 5 } else b := by
  unfold refreshed movedOut
  rw [if_neg filled]

theorem countReads_reads (d : Dev) (k n : Nat) : ((d.countReads k n).fblock k).reads = min ((d.fblock k).reads + n) (2 ^ 32 - 1) := by
  obtain h | h := countReads_block d k n
  · rw [h, readMore]
  · rw [h, refreshed_reads, readMore]

theorem countReads_valid (d : Dev) (k n : Nat) : ((d.countReads k n).fblock k).valid = (d.fblock k).valid := by
  obtain h | h := countReads_block d k n
  · rw [h, readMore]
  · rw [h, refreshed_valid, readMore]

/-- Reads of a block that is not CLOSED leave its state, and its refresh stays scheduled. -/
theorem countReads_open {d : Dev} {k : Nat} (n : Nat) (st : (d.fblock k).st ≠ 4) : ((d.countReads k n).fblock k).st = (d.fblock k).st
    ∧ ((d.fblock k).refresh = true → ((d.countReads k n).fblock k).refresh = true) := by
  obtain h | h := countReads_block d k n
  · rw [h]
    exact ⟨rfl, id⟩
  · rw [h, refreshed_of_open (by exact st)]
    exact ⟨rfl, fun _ => rfl⟩

/-! #### What every retirement keeps -/

/-- RETIRING or RETIRED. -/
def Doomed (b : FBlock) : Prop := b.st = 6 ∨ b.st = 7

/-- A step that retires blocks or goes on without them: no block comes back, no die does, and no unit,
no copy and no staged byte is lost. -/
structure Retires (d e : Dev) : Prop where
  frame : Frame flashParts d e
  doomed : ∀ k, Doomed (d.fblock k) → Doomed (e.fblock k)
  failed : ∀ k ∈ d.stk.failedDies, k ∈ e.stk.failedDies
  staging : e.stk.staging = d.stk.staging
  copies : e.stk.copies = d.stk.copies
  units : ∀ v, (e.vol? v).map (·.units) = (d.vol? v).map (·.units)

section
variable {d e f : Dev}

theorem Retires.refl (d : Dev) : Retires d d := ⟨.refl .., fun _ => id, fun _ => id, rfl, rfl, fun _ => rfl⟩

theorem Retires.trans (h : Retires d e) (g : Retires e f) : Retires d f :=
  ⟨h.frame.trans g.frame, fun k x => g.doomed k (h.doomed k x), fun k x => g.failed k (h.failed k x), g.staging.trans h.staging,
    g.copies.trans h.copies, fun v => (g.units v).trans (h.units v)⟩

theorem Retires.ite {c : Prop} [Decidable c] (h : Retires d e) (g : Retires d f) : Retires d (if c then e else f) := by
  split
  · exact h
  · exact g

theorem Retires.foldl {α : Type} {g : Dev → α → Dev} {l : List α} (h : Retires d e) (step : ∀ x y, Retires x (g x y)) : Retires d (l.foldl g e) := by
  induction l generalizing e with
  | nil => exact h
  | cons y l ih => exact ih (h.trans (step e y))

theorem Retires.of_frame {ps : List Part} (h : Frame ps d e) (n : .stk ∉ ps) (within : ∀ p ∈ ps, p ∈ flashParts) : Retires d e := by
  have same : e.stk = d.stk := h.same .stk n
  refine ⟨h.mono within, fun k x => h.fblock n k ▸ x, fun k x => same ▸ x, by rw [same], by rw [same], fun v => ?_⟩
  rw [Dev.vol?, Dev.vol?, same]

theorem Retires.stk (d : Dev) (st : StkSt) (blocks : st.blocks = d.stk.blocks := by rfl) (staging : st.staging = d.stk.staging := by rfl)
    (volumes : st.volumes = d.stk.volumes := by rfl) (copies : st.copies = d.stk.copies := by rfl)
    (failed : ∀ k ∈ d.stk.failedDies, k ∈ st.failedDies := by exact fun _ => id) :
    Retires d { d with stk := st } := by
  refine ⟨(Frame.stk d st).mono (by decide), fun k x => ?_, failed, staging, copies, fun v => ?_⟩
  · rwa [fblock_of_blocks (d := d) (e := { d with stk := st }) blocks]
  · rw [Dev.vol?, Dev.vol?, volumes]

/-- The units of a volume stay where the volume's units do. -/
theorem Retires.vol (h : Retires d e) {v : Nat} {x : Volume} (known : d.vol? v = some x) : ∃ z, e.vol? v = some z ∧ z.units = x.units := by
  have same := h.units v
  rw [known] at same
  exact Option.map_eq_some_iff.mp same

end

theorem modBlock_retires {d : Dev} {k : Nat} {f : FBlock → FBlock} (h : Doomed (d.fblock k) → Doomed (f (d.fblock k))) : Retires d (d.modBlock k f) := by
  refine ⟨(modBlock_frame ..).mono (by decide), fun j x => ?_, fun _ => id, rfl, rfl, fun _ => rfl⟩
  by_cases same : j = k
  · subst same
    rw [fblock_modBlock_same]
    exact h x
  · rw [fblock_modBlock_other d same]
    exact x

theorem modVol_retires (d : Dev) (v : Nat) {f : Volume → Volume} (h : ∀ x, (f x).units = x.units) : Retires d (d.modVol v f) := by
  refine ⟨(modVol_frame ..).mono (by decide), fun _ => id, fun _ => id, rfl, rfl, fun k => ?_⟩
  by_cases same : v = k
  · subst same
    rw [vol_modVol_same, Option.map_map]
    exact congrArg (fun g => (d.vol? v).map g) (funext h)
  · rw [vol_modVol_other d same]

theorem event_modVol_retires (d : Dev) (code d0 d1 v : Nat) {f : Volume → Volume} (h : ∀ x, (f x).units = x.units) :
    Retires d ((d.devEvent code d0 d1).modVol v f) :=
  (Retires.of_frame (devEvent_frame ..) (by decide) (by decide)).trans (modVol_retires _ v h)

theorem spareCheck_retires (d : Dev) (v : Nat) : Retires d (d.spareCheck v) := by
  unfold Dev.spareCheck
  split
  · exact .refl d
  extract_lets sp warned
  have hWarned : Retires d warned := by
    refine (Retires.refl d).foldl fun e t => ?_
    split
    · exact .ite (event_modVol_retires _ _ _ _ _ fun _ => rfl) (.refl e)
    · exact .refl e
  exact .ite (hWarned.trans (event_modVol_retires _ _ _ _ _ fun _ => rfl)) hWarned

theorem settleBlock_retires (d : Dev) (k : Nat) : Retires d (d.settleBlock k) := by
  unfold Dev.settleBlock
  extract_lets b gone
  refine .ite (.refl d) ?_
  split
  · next st =>
    change (d.fblock k).st = 5 at st
    exact modBlock_retires fun x => absurd x (by unfold Doomed; omega)
  · refine .ite ?_ (.refl d)
    have hGone : Retires d gone := (modBlock_retires fun _ => .inr rfl).trans (.of_frame (count_frame ..) (by decide) (by decide))
    exact hGone.trans (spareCheck_retires ..)

/-- A block is RETIRING, until nothing valid is left in it. -/
theorem retiring_block (d : Dev) (k : Nat) : Retires d ((d.modBlock k fun b => { b with st := 6 }).settleBlock k)
    ∧ Doomed (((d.modBlock k fun b => { b with st := 6 }).settleBlock k).fblock k) := by
  have marked : Retires d (d.modBlock k fun b => { b with st := 6 }) := modBlock_retires fun _ => .inl rfl
  have settled := settleBlock_retires (d.modBlock k fun b => { b with st := 6 }) k
  exact ⟨marked.trans settled, settled.doomed k (.inl (by rw [fblock_modBlock_same]))⟩

theorem replaceSystem_retires (d : Dev) (k : Nat) : Retires d (d.replaceSystem k) := by
  unfold Dev.replaceSystem
  extract_lets good
  refine .ite (.refl d) ?_
  split
  · exact modBlock_retires fun x => x
  · exact .refl d

theorem retireBlock_retires (d : Dev) (k : Nat) : Retires d (d.retireBlock k) ∧ Doomed ((d.retireBlock k).fblock k) := by
  unfold Dev.retireBlock
  extract_lets marked die ts stkSt
  have hMarked : Retires d marked := modBlock_retires fun _ => .inl rfl
  have hNoted := Retires.stk marked { stkSt with retireTimes := tset stkSt.retireTimes die ts }
  have after : ∀ e : Dev, Retires e ((e.settleBlock k).replaceSystem k) := fun e => (settleBlock_retires e k).trans (replaceSystem_retires _ k)
  have gone : Doomed (marked.fblock k) := .inl (by rw [fblock_modBlock_same])
  exact ⟨(hMarked.trans hNoted).trans (after _), (hNoted.trans (after _)).doomed k gone⟩

theorem programmed_retires (d : Dev) (k : Nat) : Retires d (d.programmed k) :=
  .stk d _

theorem programParity_retires (d : Dev) (v : Nat) (ct210 : Bool) (gr : FGroup) (a b : Nat) : Retires d (d.programParity v ct210 gr a b) := by
  refine (Retires.refl d).foldl fun e i => ?_
  refine .ite (.of_frame (count_frame ..) (by decide) (by decide)) ?_
  extract_lets m written
  refine .ite (.refl e) (Retires.trans (e := written) ?_ (modVol_retires _ v fun _ => rfl))
  exact ((modBlock_retires fun x => x).trans (programmed_retires ..)).trans (.of_frame (count_frame ..) (by decide) (by decide))

theorem groupGoesOn_retires (d : Dev) (v strm g n : Nat) : Retires d (d.groupGoesOn v strm g n) := by
  unfold Dev.groupGoesOn
  split
  case h_2 => exact .refl d
  case h_1 x gr _ _ =>
    extract_lets per next written stkSt moved closed
    have hMoved : Retires d moved := (programParity_retires d v x.ct210 gr _ _).trans
      (.stk written _)
    have hClosed : Retires d closed := by
      refine hMoved.foldl fun e k => modBlock_retires fun x => ?_
      rw [if_neg (by obtain x | x := x <;> omega)]
      exact x
    exact .ite hMoved (hClosed.trans (.stk closed _))

theorem refitGroups_retires (d : Dev) : Retires d d.refitGroups := by
  refine (Retires.refl d).foldl fun e x => ?_
  split
  · exact groupGoesOn_retires ..
  · exact .refl e

/-- Blocks that are retired one by one. -/
theorem retireAll_retires (d : Dev) (keys : List Nat) :
    Retires d (keys.foldl (fun (d : Dev) k => (d.modBlock k fun b => { b with st := 6 }).settleBlock k) d)
    ∧ ∀ k ∈ keys, Doomed ((keys.foldl (fun (d : Dev) k => (d.modBlock k fun b => { b with st := 6 }).settleBlock k) d).fblock k) := by
  induction keys generalizing d with
  | nil => exact ⟨.refl d, fun _ h => nomatch h⟩
  | cons k ks ih =>
    obtain ⟨first, gone⟩ := retiring_block d k
    obtain ⟨rest, all⟩ := ih ((d.modBlock k fun b => { b with st := 6 }).settleBlock k)
    refine ⟨first.trans rest, fun j h => ?_⟩
    obtain rfl | h := List.mem_cons.mp h
    · exact rest.doomed j gone
    · exact all j h

/-- A failed die is noted, and every block on it leaves service (R311). -/
theorem failDie_retires (d : Dev) (ch die : Nat) : Retires d (d.failDie ch die)
    ∧ (ch + 32 * die ∉ d.stk.failedDies → ch + 32 * die ∈ (d.failDie ch die).stk.failedDies
      ∧ ∀ k, (tget d.stk.blocks k).isSome = true → keyChannel k = ch → keyDie k = die → Doomed ((d.failDie ch die).fblock k)) := by
  unfold Dev.failDie
  extract_lets keys units stkSt noted emptied said
  by_cases known : ch + 32 * die ∈ d.stk.failedDies
  · rw [if_pos (List.contains_iff_mem.mpr known)]
    exact ⟨.refl d, fun h => absurd known h⟩
  rw [if_neg (mt List.contains_iff_mem.mp known)]
  have hNoted : Retires d noted := .stk d _ (failed := fun _ h => List.mem_append_left _ h)
  obtain ⟨hKeys, gone⟩ := retireAll_retires noted keys
  have after : Retires _ (List.foldl Dev.spareCheck said (List.range 8)) := ((refitGroups_retires _).trans
    (.of_frame (devEvent_frame ..) (by decide) (by decide))).foldl fun e v => spareCheck_retires e v
  refine ⟨(hNoted.trans hKeys).trans after, fun _ => ⟨(hKeys.trans after).failed _ (List.mem_append_right _ List.mem_cons_self), ?_⟩⟩
  intro k listed onChannel onDie
  obtain ⟨b, found⟩ := Option.isSome_iff_exists.mp listed
  by_cases retired : b.st = 7
  · refine (hKeys.trans after).doomed k (.inr ?_)
    change (tgetD d.stk.blocks k {}).st = 7
    rw [tgetD, found]
    exact retired
  · refine after.doomed k (gone k (List.mem_map.mpr ⟨(k, b), List.mem_filter.mpr ⟨mem_of_tget found, ?_⟩, rfl⟩))
    simp [onChannel, onDie, retired]

theorem checkDie_retires (d : Dev) (k : Nat) : Retires d (d.checkDie k) := .ite (failDie_retires ..).1 (.refl d)

/-- A block that fails is out of service, and its die with it where too many did. -/
theorem retired_checked (d : Dev) (k : Nat) : Retires d ((d.retireBlock k).checkDie k) ∧ Doomed (((d.retireBlock k).checkDie k).fblock k) := by
  obtain ⟨retires, gone⟩ := retireBlock_retires d k
  have checked := checkDie_retires (d.retireBlock k) k
  exact ⟨retires.trans checked, checked.doomed k gone⟩

end Sys2Proof.Safety
end

section
/-! ### Programs of whole units (R293, R299, R301, R313 to R316) -/

namespace Sys2Proof.Safety

open Sys2Proof.Machine

/-! #### Where the next program goes -/

theorem nextSlot_congr {d e : Dev} (st : ∀ m, (e.fblock m).st = (d.fblock m).st) (ct210 : Bool) (ms : List Nat) (n k : Nat) :
    e.nextSlot ct210 ms n k = d.nextSlot ct210 ms n k := by
  induction n generalizing k with
  | zero => rfl
  | succ n ih => rw [Dev.nextSlot, Dev.nextSlot, st, ih]

/-- The sizes of blocks and dies are those of another device. -/
structure SameDies (d e : Dev) : Prop where
  blocks : e.stk.blocksPerDie = d.stk.blocksPerDie
  units : e.stk.unitsPerBlock = d.stk.unitsPerBlock
  paused : e.stk.paused = d.stk.paused
  openGroups : e.stk.openGroups = d.stk.openGroups
  groups : e.stk.groups = d.stk.groups

theorem SameDies.trans {d e f : Dev} (h : SameDies d e) (k : SameDies e f) : SameDies d f :=
  ⟨k.blocks.trans h.blocks, k.units.trans h.units, k.paused.trans h.paused, k.openGroups.trans h.openGroups, k.groups.trans h.groups⟩

theorem SameDies.of_frame {ps : List Part} {d e : Dev} (h : Frame ps d e) (n : .stk ∉ ps) : SameDies d e := by
  have same : e.stk = d.stk := h.same .stk n
  constructor <;> rw [same]

theorem OnlyBlock.dies {k : Nat} {d e : Dev} (h : OnlyBlock k d e) : SameDies d e := by
  obtain ⟨bs, rfl⟩ := h.rest
  exact ⟨rfl, rfl, rfl, rfl, rfl⟩

theorem SameDies.groupSize {d e : Dev} (h : SameDies d e) (ct210 : Bool) (ms : List Nat) : e.groupSize ct210 ms = d.groupSize ct210 ms := by
  unfold Dev.groupSize Dev.groupStripes
  rw [h.blocks, h.units]

theorem SameDies.diePaused {d e : Dev} (h : SameDies d e) (k : Nat) : e.diePaused k = d.diePaused k := by
  unfold Dev.diePaused
  rw [h.paused]

theorem groupNext_congr {d e : Dev} (dies : SameDies d e) (st : ∀ m, (e.fblock m).st = (d.fblock m).st) (ct210 : Bool) (gr : FGroup) :
    e.groupNext ct210 gr = d.groupNext ct210 gr := by
  unfold Dev.groupNext
  rw [dies.groupSize, nextSlot_congr st]

/-- The next program of a stream goes to a location of a block: an open group has room there, and the die's programs do not wait. -/
structure ProgramsAt (d : Dev) (v strm g : Nat) (x : Volume) (gr : FGroup) (k p blk : Nat) : Prop where
  vol : d.vol? v = some x
  opened : tget d.stk.openGroups (v * 8 + strm) = some g
  group : tget d.stk.groups g = some gr
  next : k = d.groupNext x.ct210 gr
  place : groupPlace x.ct210 gr.members k = (p, blk)
  room : k < d.groupSize x.ct210 gr.members
  running : d.diePaused blk = false

theorem ProgramsAt.of_same {d e : Dev} {v strm g : Nat} {x : Volume} {gr : FGroup} {k p blk : Nat} (h : ProgramsAt d v strm g x gr k p blk)
    (vol : e.vol? v = some x) (dies : SameDies d e) (st : ∀ m, (e.fblock m).st = (d.fblock m).st) : ProgramsAt e v strm g x gr k p blk :=
  ⟨vol, dies.openGroups ▸ h.opened, dies.groups ▸ h.group, by rw [groupNext_congr dies st]; exact h.next, h.place,
    by rw [dies.groupSize]; exact h.room, by rw [dies.diePaused]; exact h.running⟩

theorem ProgramsAt.notPaused {d : Dev} {v strm g : Nat} {x : Volume} {gr : FGroup} {k p blk : Nat} (h : ProgramsAt d v strm g x gr k p blk) :
    d.programPaused v strm = false := by
  unfold Dev.programPaused
  simp only [h.opened, h.group, h.vol, ← h.next, h.place, h.running]

theorem openGroup_of_open {d : Dev} {v strm g : Nat} (h : tget d.stk.openGroups (v * 8 + strm) = some g) : d.openGroup v strm = some (g, d) := by
  rw [Dev.openGroup, h]

/-! #### One unit programmed -/

/-- A unit is programmed whole into a location of a block, and mapped there. -/
def unitProgrammed (d : Dev) (v u blk p strm : Nat) : Dev :=
  ((((d.modBlock blk fun b => { b with valid := b.valid ++ [u], filled := b.filled + 1 }).programmed blk).modVol v fun x =>
    { x with programmed := x.programmed + 65536, units := tmod x.units u fun y => y.at_ blk p strm none }).count .bytesTlc v 65536).mapChanged v u

section
variable {d : Dev} {v u blk p strm : Nat}

theorem unitProgrammed_stk : ∃ rep new ch, (unitProgrammed d v u blk p strm).stk = { d.stk with
    blocks := tset d.stk.blocks blk { d.fblock blk with valid := (d.fblock blk).valid ++ [u], filled := (d.fblock blk).filled + 1 }
    volumes := tmod d.stk.volumes v fun x => { x with programmed := x.programmed + 65536, units := tmod x.units u fun y => y.at_ blk p strm none }
    replay := rep, replayNew := new, changed := ch } := by
  unfold unitProgrammed
  generalize before : (((d.modBlock blk _).programmed blk).modVol v _) = e
  have counted : (e.count .bytesTlc v 65536).stk = e.stk := (count_frame ..).same .stk (by decide)
  refine ⟨e.stk.replay, e.stk.replayNew, ((e.count .bytesTlc v 65536).mapChanged v u).stk.changed, ?_⟩
  unfold Dev.mapChanged
  dsimp only
  rw [counted]
  subst before
  rfl

theorem unitProgrammed_frame : Frame [.stk, .ctrs] d (unitProgrammed d v u blk p strm) :=
  (mapChanged_frame ..).step (by decide) ((count_frame ..).step (by decide) ((modVol_frame ..).step (by decide)
    ((Frame.stk (d.modBlock blk _) _).step (by decide) ((modBlock_frame ..).mono (by decide)))))

theorem unitProgrammed_block : (unitProgrammed d v u blk p strm).fblock blk
    = { d.fblock blk with valid := (d.fblock blk).valid ++ [u], filled := (d.fblock blk).filled + 1 } := by
  obtain ⟨rep, new, ch, stk⟩ := unitProgrammed_stk (d := d) (v := v) (u := u) (blk := blk) (p := p) (strm := strm)
  rw [Dev.fblock, stk]
  exact tgetD_tset_same ..

theorem unitProgrammed_others {j : Nat} (other : j ≠ blk) : (unitProgrammed d v u blk p strm).fblock j = d.fblock j := by
  obtain ⟨rep, new, ch, stk⟩ := unitProgrammed_stk (d := d) (v := v) (u := u) (blk := blk) (p := p) (strm := strm)
  rw [Dev.fblock, stk]
  exact tgetD_tset_other _ other.symm ..

theorem unitProgrammed_st (m : Nat) : ((unitProgrammed d v u blk p strm).fblock m).st = (d.fblock m).st := by
  by_cases same : m = blk
  · rw [same, unitProgrammed_block]
  · rw [unitProgrammed_others same]

theorem unitProgrammed_dies : SameDies d (unitProgrammed d v u blk p strm) := by
  obtain ⟨rep, new, ch, stk⟩ := unitProgrammed_stk (d := d) (v := v) (u := u) (blk := blk) (p := p) (strm := strm)
  constructor <;> rw [stk]

theorem unitProgrammed_staging : (unitProgrammed d v u blk p strm).stk.staging = d.stk.staging := by
  obtain ⟨rep, new, ch, stk⟩ := unitProgrammed_stk (d := d) (v := v) (u := u) (blk := blk) (p := p) (strm := strm)
  rw [stk]

theorem unitProgrammed_vol {x : Volume} (known : d.vol? v = some x) : (unitProgrammed d v u blk p strm).vol? v
    = some { x with programmed := x.programmed + 65536, units := tmod x.units u fun y => y.at_ blk p strm none } := by
  obtain ⟨rep, new, ch, stk⟩ := unitProgrammed_stk (d := d) (v := v) (u := u) (blk := blk) (p := p) (strm := strm)
  rw [Dev.vol?, stk]
  exact (tget_tmod_same ..).trans (congrArg (Option.map _) known)

end

/-- A whole unit goes where its stream's next program goes. -/
theorem programInto_whole {d : Dev} {v u strm g k p blk : Nat} {x : Volume} {gr : FGroup} {y : FUnit} (h : ProgramsAt d v strm g x gr k p blk)
    (mapped : tget x.units u = some y) :
    d.programInto v u strm none = some ((unitProgrammed (d.unlocate u y) v u blk p strm).groupGoesOn v strm g (k + 1)) := by
  unfold Dev.programInto
  rw [openGroup_of_open h.opened]
  simp only [h.vol, h.group, ← h.next, h.place, mapped]
  rw [if_neg (by simp [h.running, h.room])]
  rfl

/-! #### A group goes on -/

/-- Within a stripe a group only notes the next unit. -/
theorem groupGoesOn_within {d : Dev} {v strm g n next : Nat} {x : Volume} {gr : FGroup} (known : d.vol? v = some x)
    (group : tget d.stk.groups g = some gr) (slot : next = d.nextSlot x.ct210 gr.members (d.groupSize x.ct210 gr.members - n) n)
    (room : next < d.groupSize x.ct210 gr.members)
    (stripe : next / stripeUnits x.ct210 gr.members.length = gr.filled / stripeUnits x.ct210 gr.members.length) :
    d.groupGoesOn v strm g n = { d with stk := { d.stk with groups := tset d.stk.groups g { gr with filled := next } } } := by
  unfold Dev.groupGoesOn
  simp only [known, group, ← slot, stripe]
  rw [Dev.programParity, Nat.sub_self]
  exact if_pos room

/-- A step of programs keeps every unit where it was mapped and every block's valid data. -/
structure GoesOn (d e : Dev) : Prop where
  frame : Frame [.stk, .ctrs] d e
  valid : ∀ k, (e.fblock k).valid = (d.fblock k).valid
  units : ∀ v, (e.vol? v).map (·.units) = (d.vol? v).map (·.units)

section
variable {d e f : Dev}

theorem GoesOn.refl (d : Dev) : GoesOn d d := ⟨.refl .., fun _ => rfl, fun _ => rfl⟩

theorem GoesOn.trans (h : GoesOn d e) (g : GoesOn e f) : GoesOn d f :=
  ⟨h.frame.trans g.frame, fun k => (g.valid k).trans (h.valid k), fun v => (g.units v).trans (h.units v)⟩

theorem GoesOn.ite {c : Prop} [Decidable c] (h : GoesOn d e) (g : GoesOn d f) : GoesOn d (if c then e else f) := by
  split
  · exact h
  · exact g

theorem GoesOn.foldl {α : Type} {g : Dev → α → Dev} {l : List α} (h : GoesOn d e) (step : ∀ x y, GoesOn x (g x y)) : GoesOn d (l.foldl g e) := by
  induction l generalizing e with
  | nil => exact h
  | cons y l ih => exact ih (h.trans (step e y))

theorem GoesOn.count (d : Dev) (c : Ctr) (i n : Nat) : GoesOn d (d.count c i n) := by
  have frame := count_frame d c i n
  refine ⟨frame.mono (by decide), fun k => by rw [frame.fblock (by decide)], fun v => ?_⟩
  rw [Dev.vol?, frame.same .stk (by decide), Dev.vol?]

theorem GoesOn.stk (d : Dev) (st : StkSt) (blocks : st.blocks = d.stk.blocks := by rfl) (volumes : st.volumes = d.stk.volumes := by rfl) :
    GoesOn d { d with stk := st } := by
  refine ⟨(Frame.stk d st).mono (by decide), fun k => ?_, fun v => ?_⟩
  · rw [fblock_of_blocks (d := d) (e := { d with stk := st }) blocks]
  · rw [Dev.vol?, Dev.vol?, volumes]

end

theorem modBlock_goesOn {d : Dev} {k : Nat} {f : FBlock → FBlock} (h : ∀ b, (f b).valid = b.valid) : GoesOn d (d.modBlock k f) := by
  refine ⟨(modBlock_frame ..).mono (by decide), fun j => ?_, fun _ => rfl⟩
  by_cases same : j = k
  · rw [same, fblock_modBlock_same]
    exact h _
  · rw [fblock_modBlock_other d same]

theorem modVol_goesOn (d : Dev) (v : Nat) {f : Volume → Volume} (h : ∀ x, (f x).units = x.units) : GoesOn d (d.modVol v f) :=
  ⟨(modVol_frame ..).mono (by decide), fun _ => rfl, (modVol_retires d v h).units⟩

theorem programmed_goesOn (d : Dev) (k : Nat) : GoesOn d (d.programmed k) := ⟨(Frame.stk d _).mono (by decide), fun _ => rfl, fun _ => rfl⟩

theorem programParity_goesOn (d : Dev) (v : Nat) (ct210 : Bool) (gr : FGroup) (a b : Nat) : GoesOn d (d.programParity v ct210 gr a b) := by
  refine (GoesOn.refl d).foldl fun e i => ?_
  refine .ite (.count ..) ?_
  extract_lets m written
  have hWritten : GoesOn e written :=
      ((modBlock_goesOn (f := fun b => { b with filled := b.filled + 1 }) fun _ => rfl).trans (programmed_goesOn ..)).trans (.count ..)
  exact .ite (.refl e) (hWritten.trans (modVol_goesOn _ v fun _ => rfl))

theorem groupGoesOn_goesOn (d : Dev) (v strm g n : Nat) : GoesOn d (d.groupGoesOn v strm g n) := by
  unfold Dev.groupGoesOn
  split
  case h_2 => exact .refl d
  case h_1 x gr _ _ =>
    extract_lets per next written stkSt moved closed
    have hMoved : GoesOn d moved := (programParity_goesOn d v x.ct210 gr _ _).trans (.stk written _)
    have hClosed : GoesOn d closed := hMoved.foldl fun e k => modBlock_goesOn fun b => by split <;> rfl
    exact .ite hMoved (hClosed.trans (.stk closed _))

/-! #### The end of a program (R299, R316) -/

theorem programDone_good {d : Dev} {v u g k p blk : Nat} {x : Volume} {gr : FGroup} {y : FUnit} (h : ProgramsAt d v y.strm g x gr k p blk)
    (mapped : tget x.units u = some y) (staged : y.staged = true) (whole : y.fine = false) (power : d.pwr.pwrSeqEnd = false) :
    ∃ e, d.programInto v u y.strm none = some e ∧ e = (unitProgrammed d v u blk p y.strm).groupGoesOn v y.strm g (k + 1)
      ∧ d.programDone v u true = { e with stk := { e.stk with staging := e.stk.staging.filter fun e => e.1 != v * 2 ^ 32 + u } } := by
  have into := programInto_whole h mapped
  have stays : d.unlocate u y = d := by
    unfold Dev.unlocate
    rw [if_neg (by simp [whole]), if_pos staged]
  rw [stays] at into
  refine ⟨_, into, rfl, ?_⟩
  have known : ((d.vol? v).bind fun x => tget x.units u) = some y := by rw [h.vol]; exact mapped
  unfold Dev.programDone
  simp only [known]
  rw [if_neg (by simp [staged, h.notPaused, power]), if_pos trivial]
  have sel : y.toProgram = none := by simp [FUnit.toProgram, whole]
  simp only [sel, into]

theorem programDone_failed {d : Dev} {v u g k p blk : Nat} {x : Volume} {gr : FGroup} {y : FUnit} (h : ProgramsAt d v y.strm g x gr k p blk)
    (mapped : tget x.units u = some y) (staged : y.staged = true) (power : d.pwr.pwrSeqEnd = false) :
    d.programDone v u false = (((d.programmed blk).retireBlock blk).refitGroups).checkDie blk := by
  have known : ((d.vol? v).bind fun x => tget x.units u) = some y := by rw [h.vol]; exact mapped
  unfold Dev.programDone
  simp only [known]
  rw [if_neg (by simp [staged, h.notPaused, power]), if_neg (by simp), openGroup_of_open h.opened]
  simp only [Dev.programFails, h.opened, h.group, h.vol, ← h.next, h.place]

/-- A program that fails retires its block (R316). -/
theorem programFailed_retires (d : Dev) (blk : Nat) : Retires d ((((d.programmed blk).retireBlock blk).refitGroups).checkDie blk)
    ∧ Doomed (((((d.programmed blk).retireBlock blk).refitGroups).checkDie blk).fblock blk) := by
  obtain ⟨retires, gone⟩ := retireBlock_retires (d.programmed blk) blk
  have after := (refitGroups_retires ((d.programmed blk).retireBlock blk)).trans (checkDie_retires _ blk)
  exact ⟨((programmed_retires ..).trans retires).trans after, after.doomed blk gone⟩

end Sys2Proof.Safety
end

section
/-! ### Reads, erases, verification and scrub of the flash (R304 to R308, R312, R316) -/

namespace Sys2Proof.Safety

open Sys2Proof.Machine

/-! #### A sector read (R304, R305) -/

theorem stageOf_early {d : Dev} {blk stage : Nat} (v : Nat) (ct210 : Bool) (loc : Nat) (answers : d.dieOut blk = false) (early : stage ≤ 1) :
    d.stageOf v ct210 (some (blk, loc)) stage = stage := by
  unfold Dev.stageOf
  simp only [answers, Bool.false_eq_true, false_and, if_false]
  exact if_neg fun h => absurd h.1 (by omega)

theorem stageOf_last (d : Dev) (v : Nat) (ct210 : Bool) (at_ : Option (Nat × Nat)) : d.stageOf v ct210 at_ 5 = 5 := by
  unfold Dev.stageOf
  cases at_ with
  | none => rfl
  | some p => exact (if_neg fun h => absurd h.1 (by simp)).trans (if_neg fun h => absurd h.2 (by omega))

/-- A read that stage 0 or 1 ends is counted, and a key mismatch with it. -/
theorem sectorRead_early {d : Dev} {v sec stage blk loc : Nat} {x : Volume} {y : FUnit} (dm : Bool) (known : d.vol? v = some x)
    (mapped : tget x.units (sec / 16) = some y) (power : d.pwr.pwrFail = false) (place : y.sectorAt (sec % 16) = some (blk, loc))
    (answers : d.dieOut blk = false) (early : stage ≤ 1) :
    ∃ other : Bool, d.sectorRead v sec stage dm = if other then (d.countReads blk 1).count .keyMismatch v else d.countReads blk 1 := by
  have found : ((d.vol? v).bind fun x => (tget x.units (sec / 16)).map fun y => (x, y)) = some (x, y) := by rw [known]; simp [mapped]
  unfold Dev.sectorRead
  simp only [found, power, place, stageOf_early v x.ct210 loc answers early, Option.map_some, Option.getD_some]
  have no2 : ¬ 2 ≤ stage := by omega
  have no3 : ¬ 3 ≤ stage := by omega
  have no5 : ¬ 5 ≤ stage := by omega
  have no23 : ¬ (stage = 2 ∨ stage = 3) := by omega
  have no4 : stage ≠ 4 := by omega
  simp only [no2, no3, no5, no23, no4, Bool.false_eq_true, if_false, false_and, ne_eq, not_false_eq_true, if_true]
  exact ⟨_, rfl⟩

/-- A read that no stage ends, with its counters. -/
def readInVain (d : Dev) (v : Nat) (at_ : Option (Nat × Nat)) : Dev :=
  (((at_.map fun p => d.countReads p.1 1).getD d).count2 .readRetry v 0 1).count2 .softDec v 0 1

theorem sectorRead_late {d : Dev} {v sec : Nat} {x : Volume} {y : FUnit} (dm : Bool) (known : d.vol? v = some x)
    (mapped : tget x.units (sec / 16) = some y) (power : d.pwr.pwrFail = false) :
    d.sectorRead v sec 5 dm = (readInVain d v (y.sectorAt (sec % 16))).sectorLost v sec := by
  have found : ((d.vol? v).bind fun x => (tget x.units (sec / 16)).map fun y => (x, y)) = some (x, y) := by rw [known]; simp [mapped]
  unfold Dev.sectorRead
  simp only [found, power, stageOf_last]
  have no23 : ¬ ((5 : Nat) = 2 ∨ (5 : Nat) = 3) := by decide
  simp only [no23, Nat.reduceLeDiff, if_true, if_false, false_and, Bool.false_eq_true]
  rfl

theorem readInVain_kept (d : Dev) (v : Nat) (at_ : Option (Nat × Nat)) : Frame [.stk, .ctrs] d (readInVain d v at_)
    ∧ (readInVain d v at_).stk.volumes = d.stk.volumes ∧ (readInVain d v at_).stk.copies = d.stk.copies := by
  unfold readInVain
  generalize counts : (at_.map fun p => d.countReads p.1 1).getD d = e
  have only : ∃ k, OnlyBlock k d e := by
    subst counts
    cases at_ with
    | none => exact ⟨0, .refl ..⟩
    | some p => exact ⟨p.1, countReads_only ..⟩
  obtain ⟨k, only⟩ := only
  have counted : Frame [.ctrs] e ((e.count2 .readRetry v 0 1).count2 .softDec v 0 1) := (count2_frame ..).step (by decide) (count2_frame ..)
  refine ⟨counted.step (by decide) (only.frame.mono (by decide)), ?_, ?_⟩ <;> rw [counted.same .stk (by decide)]
  · exact only.keeps (·.stk.volumes)
  · exact only.keeps (·.stk.copies)

/-- What an uncorrectable sector notes of its volume leaves the rest of the stacks. -/
theorem uncorrectable_retires (d : Dev) (v : Nat) : Retires d (d.uncorrectable v) := by
  unfold Dev.uncorrectable
  extract_lets counted
  have hCounted : Retires d counted := .of_frame (count_frame ..) (by decide) (by decide)
  split
  · exact hCounted
  · extract_lets ts n noted
    have hNoted : Retires d noted := hCounted.trans (modVol_retires _ v fun _ => rfl)
    exact .ite (hNoted.trans (.of_frame (devEvent_frame ..) (by decide) (by decide))) hNoted

/-- A sector of a unit is marked bad. -/
def sectorBad (u j : Nat) (x : Volume) : Volume :=
  { x with units := tmod x.units u fun y => { y with sectors := tset y.sectors j { (tgetD y.sectors j ({} : FSector)) with bad := true } } }

theorem spanOfUnit_of_copies {d e : Dev} (h : e.stk.copies = d.stk.copies) (v u : Nat) : e.spanOfUnit v u = d.spanOfUnit v u := by
  rw [Dev.spanOfUnit, Dev.spanOfUnit, h]

/-- A lost sector that no span holds, and no region unit, stays bad. -/
theorem sectorLost_alone {d : Dev} {v sec : Nat} (noSpan : d.spanOfUnit v (sec / 16) = none)
    (noUnit : tget d.rgn.units (unitKey (sec / 16 / 2 ^ 22) (sec / 16 % 2 ^ 22 / 32)) = none) :
    d.sectorLost v sec = (d.uncorrectable v).modVol v (sectorBad (sec / 16) (sec % 16)) := by
  have kept := uncorrectable_retires d v
  unfold Dev.sectorLost
  extract_lets u noted bad k line
  have noSpan' : bad.spanOfUnit v u = none := (spanOfUnit_of_copies (d := d) kept.copies v u).trans noSpan
  have rgn : bad.rgn = d.rgn := kept.frame.same .rgn (by decide)
  have noUnit' : tget bad.rgn.units k = none := by rw [rgn]; exact noUnit
  simp only [noSpan', noUnit']
  rfl

/-- A lost sector of a span's copy ends the copy. -/
theorem sectorLost_span {d : Dev} {v sec i : Nat} (held : d.spanOfUnit v (sec / 16) = some i) :
    d.sectorLost v sec = ((d.uncorrectable v).modVol v (sectorBad (sec / 16) (sec % 16))).stacksLost i := by
  have kept := uncorrectable_retires d v
  unfold Dev.sectorLost
  extract_lets u noted bad
  have held' : bad.spanOfUnit v u = some i := (spanOfUnit_of_copies (d := d) kept.copies v u).trans held
  simp only [held']
  rfl

theorem dropValid_retires (d : Dev) (b k : Nat) : Retires d (d.dropValid b k) := (modBlock_retires fun x => x).trans (settleBlock_retires ..)

theorem unlocate_retires (d : Dev) (u : Nat) (y : FUnit) : Retires d (d.unlocate u y) := by
  unfold Dev.unlocate
  refine .ite ((Retires.refl d).foldl fun e s => ?_) (.ite (.refl d) (dropValid_retires ..))
  unfold Dev.unlocateSector
  split
  · exact dropValid_retires ..
  · exact .refl e

theorem unmapUnit_copies (d : Dev) (v u : Nat) : (d.unmapUnit v u).stk.copies = d.stk.copies := by
  unfold Dev.unmapUnit
  split
  · rfl
  · exact (unlocate_retires ..).copies

/-- A dropped copy goes, and no other with it. -/
theorem dropCopy_copies (d : Dev) (i : Nat) : (d.dropCopy i).stk.copies = if (tget d.stk.copies i).isSome then tdel d.stk.copies i else d.stk.copies := by
  unfold Dev.dropCopy
  cases found : tget d.stk.copies i with
  | none => rfl
  | some c =>
    have kept : ∀ (l : List Nat) (e : Dev), (l.foldl (fun (e : Dev) j => e.unmapUnit c.volume (c.firstUnit + j)) e).stk.copies = e.stk.copies := by
      intro l
      induction l with
      | nil => exact fun _ => rfl
      | cons j l ih => exact fun e => (ih _).trans (unmapUnit_copies ..)
    exact congrArg (fun t => tdel t i) (kept _ d)

theorem dropCopy_gone (d : Dev) (i : Nat) : tget (d.dropCopy i).stk.copies i = none := by
  rw [dropCopy_copies]
  split
  · exact tget_tdel_same ..
  · next none => exact Option.not_isSome_iff_eq_none.mp none

theorem dropCopy_copy_other (d : Dev) {i j : Nat} (h : i ≠ j) : tget (d.dropCopy i).stk.copies j = tget d.stk.copies j := by
  rw [dropCopy_copies]
  split
  · exact tget_tdel_other _ h
  · rfl

/-- A copy that the stacks lose is no copy any more, and the close phase hears of it (R256). -/
theorem stacksLost_ceases (d : Dev) (i : Nat) : Frame (.tier :: flashParts) d (d.stacksLost i) ∧ (i, 2) ∈ (d.stacksLost i).tier.ceased
    ∧ (d.stacksLost i).stk = (d.dropCopy i).stk := by
  have frame := copyCeases_frame d i 2
  have ceased : (i, 2) ∈ (d.copyCeases i 2).tier.ceased := List.mem_append_right _ List.mem_cons_self
  have stk : (d.copyCeases i 2).stk = (d.dropCopy i).stk := rfl
  unfold Dev.stacksLost
  extract_lets gone others
  split
  · exact ⟨frame, ceased, stk⟩
  split
  · exact ⟨frame, ceased, stk⟩
  split
  · exact ⟨(Frame.tier gone _).step (by decide) frame, ceased, stk⟩
  · exact ⟨(Frame.tier gone _).step (by decide) frame, ceased, stk⟩

/-! #### Erases and verification (R312, R316) -/

/-- A block whose erase ends well. -/
def erased (b : FBlock) : FBlock :=
  { b with st := 1, erases := min (b.erases + 1) (2 ^ 32 - 1), reads := 0, filled := 0, valid := [], group := 0, scrubIn := none, bits := none }

/-- The erase of a block may end: it is DIRTY and in service, its die works and the power holds. -/
structure MayErase (d : Dev) (k : Nat) : Prop where
  dirty : (d.fblock k).st = 0
  running : d.diePaused k = false
  serves : d.inService k = true
  exists_ : keyBlock k < d.stk.blocksPerDie
  power : d.pwr.pwrFail = false

theorem MayErase.passes {d : Dev} {k : Nat} (h : MayErase d k) :
    ¬ ((d.fblock k).st ≠ 0 ∨ d.diePaused k = true ∨ (!d.inService k) = true ∨ d.stk.blocksPerDie ≤ keyBlock k ∨ d.pwr.pwrFail = true) := by
  simp [h.dirty, h.running, h.serves, h.exists_, h.power]

theorem eraseDone_good {d : Dev} {k : Nat} (h : MayErase d k) : Frame [.stk] d (d.eraseDone k true)
    ∧ (d.eraseDone k true).fblock k = erased (d.fblock k) ∧ ∀ j, j ≠ k → (d.eraseDone k true).fblock j = d.fblock j := by
  have marked := modBlock_only d k erased
  have volumes : ∀ (o : Option Nat) (f : Volume → Volume) (e : Dev), Frame [.stk] e ((o.map fun v => e.modVol v f).getD e)
      ∧ ∀ j, ((o.map fun v => e.modVol v f).getD e).fblock j = e.fblock j
    | none, _, _ => ⟨.refl .., fun _ => rfl⟩
    | some _, _, _ => ⟨modVol_frame .., fun _ => rfl⟩
  unfold Dev.eraseDone
  extract_lets b v wiped
  rw [if_neg h.passes, if_pos rfl]
  split
  · exact ⟨marked.frame, fblock_modBlock_same .., marked.others⟩
  · obtain ⟨frame, same⟩ := volumes v (fun x => { x with erasedBytes := x.erasedBytes + wiped.blockBytes }) wiped
    exact ⟨marked.frame.trans frame, (same k).trans (fblock_modBlock_same ..), fun j other => (same j).trans (marked.others j other)⟩

theorem eraseDone_failed {d : Dev} {k : Nat} (h : MayErase d k) : Retires d (d.eraseDone k false) ∧ Doomed ((d.eraseDone k false).fblock k) := by
  unfold Dev.eraseDone
  extract_lets b v retired
  rw [if_neg h.passes, if_neg Bool.false_ne_true]
  have marked : Retires d (d.modBlock k fun b => { b with volume := v.getD b.volume }) := modBlock_retires fun x => x
  obtain ⟨gone, doomed⟩ := retired_checked (d.modBlock k fun b => { b with volume := v.getD b.volume }) k
  exact ⟨marked.trans gone, doomed⟩

/-- A group notes the members whose verification passed. -/
def memberPassed (d : Dev) (k : Nat) : Dev :=
  { d with stk := { d.stk with groups := tmod d.stk.groups (d.fblock k).group fun g => { g with passed := g.passed ++ [k] } } }

theorem verifyDone_passed {d : Dev} {k : Nat} (st : (d.fblock k).st = 3) (power : d.pwr.pwrFail = false) :
    d.verifyDone k true = memberPassed (((d.countReads k (d.fblock k).filled).modBlock k fun b => { b with st := 4 }).startRefresh k) k := by
  unfold Dev.verifyDone
  rw [if_neg (by simp [st, power])]
  rfl

theorem verifyDone_failed {d : Dev} {k : Nat} (st : (d.fblock k).st = 3) (power : d.pwr.pwrFail = false) :
    d.verifyDone k false = ((d.countReads k (d.fblock k).filled).retireBlock k).checkDie k := by
  unfold Dev.verifyDone
  rw [if_neg (by simp [st, power])]
  rfl

/-- A verified block is CLOSED, and another's record is as it was. -/
theorem verifyDone_block {d : Dev} {k : Nat} (st : (d.fblock k).st = 3) (power : d.pwr.pwrFail = false) :
    Frame [.stk] d (d.verifyDone k true) ∧ (∀ j, j ≠ k → (d.verifyDone k true).fblock j = d.fblock j)
    ∧ (d.verifyDone k true).fblock k
      = refreshed (d.reg regStkCtrl 0 0 2 = 1) { (d.countReads k (d.fblock k).filled).fblock k with st := 4 } := by
  rw [verifyDone_passed st power]
  have closed := (countReads_only d k (d.fblock k).filled).trans
    (modBlock_only (d.countReads k (d.fblock k).filled) k fun b => { b with st := 4 })
  have shut := fblock_modBlock_same (d.countReads k (d.fblock k).filled) k fun b => { b with st := 4 }
  generalize ((d.countReads k (d.fblock k).filled).modBlock k fun b => { b with st := 4 }) = e at closed shut ⊢
  have done := closed.trans (startRefresh_only e k)
  have on : e.reg regStkCtrl 0 0 2 = d.reg regStkCtrl 0 0 2 := reg_of_same_regs (closed.keeps (·.regs)) ..
  have block : (e.startRefresh k).fblock k = _ := startRefresh_block e k
  simp only [shut, on] at block
  exact ⟨done.frame.trans (Frame.stk ..), done.others, block⟩

theorem verifyFailed_retires {d : Dev} {k : Nat} (st : (d.fblock k).st = 3) (power : d.pwr.pwrFail = false) :
    Frame flashParts d (d.verifyDone k false) ∧ Doomed ((d.verifyDone k false).fblock k) := by
  rw [verifyDone_failed st power]
  obtain ⟨retires, gone⟩ := retired_checked (d.countReads k (d.fblock k).filled) k
  exact ⟨((countReads_only ..).frame.mono (by decide)).trans retires.frame, gone⟩

/-! #### Scrub (R308) -/

/-- The block of a scrub read, before refresh is scheduled. -/
def scrubbed (d : Dev) (k st : Nat) (h : Bool) : Dev :=
  ((d.startUnit 5 d.blockBytes).countReads k (d.fblock k).filled).modBlock k fun b => { b with scrubIn := some d.scrubPeriod, bits := some (st, h) }

/-- The first scrub read of a CLOSED block in its period may start. -/
structure MayScrub (d : Dev) (k : Nat) : Prop where
  closed : (d.fblock k).st = 4
  on : d.reg regStkCtrl 0 0 3 = 1
  starts : d.mayStart 5 = true
  power : d.pwr.pwrFail = false
  first : (d.fblock k).scrubIn ≠ some d.scrubPeriod

theorem flashScrub_eq {d : Dev} {k st : Nat} (h : Bool) (may : MayScrub d k) (found : st < 5) :
    d.flashScrub k st h = if 2 ≤ st ∨ h then (scrubbed d k st h).scheduleRefresh k else scrubbed d k st h := by
  have start := startUnit_frame d 5 d.blockBytes
  have read := (countReads_only (d.startUnit 5 d.blockBytes) k (d.fblock k).filled).frame
  have period : ((d.startUnit 5 d.blockBytes).countReads k (d.fblock k).filled).scrubPeriod = d.scrubPeriod := by
    have kept : Frame [.stk, .adm, .ctrs] d _ := (read.step (by decide) (start.mono (by decide)))
    unfold Dev.scrubPeriod
    rw [kept.tim_eq (by decide) (by decide), reg_of_same_regs (kept.same .regs (by decide))]
  unfold Dev.flashScrub
  rw [if_neg (by simp [may.closed, may.on, may.starts, may.power, may.first])]
  simp only [period, if_neg (Nat.not_le.mpr found)]
  rfl

/-- What a scrub read leaves of its block. -/
structure Scrubbed (d : Dev) (k st : Nat) (h : Bool) (e : Dev) : Prop where
  frame : Frame [.stk, .adm, .ctrs] d e
  others : ∀ j, j ≠ k → e.fblock j = d.fblock j
  reads : (e.fblock k).reads = min ((d.fblock k).reads + (d.fblock k).filled) (2 ^ 32 - 1)
  scrubIn : (e.fblock k).scrubIn = some d.scrubPeriod
  bits : (e.fblock k).bits = some (st, h)
  valid : (e.fblock k).valid = (d.fblock k).valid

/-- Where counted reads schedule a refresh that starts, the block is already RELOCATING, with its refresh scheduled. -/
theorem scrubbed_block {d : Dev} {k st : Nat} {h : Bool} (closed : (d.fblock k).st = 4) (filled : (d.fblock k).valid ≠ []) :
    Scrubbed d k st h (scrubbed d k st h)
    ∧ (((scrubbed d k st h).fblock k).st = 4 ∨ ((scrubbed d k st h).fblock k).st = 5) := by
  have start := startUnit_frame d 5 d.blockBytes
  have same : ∀ j, (d.startUnit 5 d.blockBytes).fblock j = d.fblock j := start.fblock (by decide)
  unfold scrubbed
  generalize d.startUnit 5 d.blockBytes = e at start same
  have read := countReads_only e k (d.fblock k).filled
  have reads := countReads_reads e k (d.fblock k).filled
  have valid := countReads_valid e k (d.fblock k).filled
  have st : ((e.countReads k (d.fblock k).filled).fblock k).st = 4 ∨ ((e.countReads k (d.fblock k).filled).fblock k).st = 5 := by
    obtain block | block := countReads_block e k (d.fblock k).filled
    · exact .inl (by rw [block, same]; exact closed)
    · rw [block, same, refreshed_of_filled (by exact filled)]
      split
      · exact .inr rfl
      · exact .inl closed
  rw [same] at reads valid
  generalize e.countReads k (d.fblock k).filled = f at read reads valid st
  have noted := read.trans (modBlock_only f k fun b => { b with scrubIn := some d.scrubPeriod, bits := some (‹Nat›, h) })
  refine ⟨⟨noted.frame.step (by decide) (start.mono (by decide)), fun j other => (noted.others j other).trans (same j), ?_, ?_, ?_, ?_⟩, ?_⟩ <;>
    rw [fblock_modBlock_same]
  · exact reads
  · exact valid
  · exact st

theorem flashScrub_block {d : Dev} {k st : Nat} {h : Bool} (may : MayScrub d k) (filled : (d.fblock k).valid ≠ []) (found : st < 5) :
    Scrubbed d k st h (d.flashScrub k st h)
    ∧ (2 ≤ st ∨ h = true → ((d.flashScrub k st h).fblock k).refresh = true
      ∧ (d.reg regStkCtrl 0 0 2 = 1 → ((d.flashScrub k st h).fblock k).st = 5)) := by
  obtain ⟨read, moving⟩ := scrubbed_block (st := st) (h := h) may.closed filled
  rw [flashScrub_eq h may found]
  by_cases worse : 2 ≤ st ∨ h = true
  · rw [if_pos worse]
    have scheduled := scheduleRefresh_only (scrubbed d k st h) k
    have block := scheduleRefresh_block (scrubbed d k st h) k
    rw [refreshed_of_filled (by rw [read.valid]; exact filled), reg_of_same_regs (read.frame.same .regs (by decide))] at block
    generalize (scrubbed d k st h).scheduleRefresh k = e at scheduled block ⊢
    have result : e.fblock k = { (scrubbed d k st h).fblock k with refresh := true }
        ∨ e.fblock k = { (scrubbed d k st h).fblock k with refresh := true, st := 5 } := by
      rw [block]
      split
      · exact .inr rfl
      · exact .inl rfl
    refine ⟨⟨scheduled.frame.step (by decide) read.frame, fun j other => (scheduled.others j other).trans (read.others j other), ?_, ?_, ?_, ?_⟩,
      fun _ => ⟨?_, fun on => ?_⟩⟩
    · exact (by obtain h | h := result <;> rw [h] : (e.fblock k).reads = _).trans read.reads
    · exact (by obtain h | h := result <;> rw [h] : (e.fblock k).scrubIn = _).trans read.scrubIn
    · exact (by obtain h | h := result <;> rw [h] : (e.fblock k).bits = _).trans read.bits
    · exact (by obtain h | h := result <;> rw [h] : (e.fblock k).valid = _).trans read.valid
    · obtain h | h := result <;> rw [h]
    · rw [block]
      split
      · rfl
      · next idle =>
        obtain four | five := moving
        · exact absurd ⟨rfl, four, on⟩ idle
        · exact five
  · rw [if_neg worse]
    exact ⟨read, fun h => absurd h worse⟩

end Sys2Proof.Safety
end

section
/-! ### Collection, relocation, health, the governor, span space and checkpoints (R313 to R326) -/

namespace Sys2Proof.Safety

open Sys2Proof.Machine

/-! #### Collection (R313) -/

/-- Blocks that become RELOCATING one by one. -/
def relocatingAll (d : Dev) (ks : List Nat) : Dev := ks.foldl (fun (d : Dev) k => (d.modBlock k fun b => { b with st := 5 }).settleBlock k) d

/-- Each becomes RELOCATING, or DIRTY where it holds nothing; the rest of the device is as it was. -/
theorem relocatingAll_blocks (d : Dev) (ks : List Nat) : (∃ bs, relocatingAll d ks = { d with stk := { d.stk with blocks := bs } })
    ∧ (∀ k, ((relocatingAll d ks).fblock k).valid = (d.fblock k).valid)
    ∧ (∀ k, k ∉ ks → (relocatingAll d ks).fblock k = d.fblock k)
    ∧ ∀ k ∈ ks, ((relocatingAll d ks).fblock k).st = if (d.fblock k).valid = [] then 0 else 5 := by
  induction ks generalizing d with
  | nil => exact ⟨⟨_, rfl⟩, fun _ => rfl, fun _ _ => rfl, fun _ h => nomatch h⟩
  | cons k ks ih =>
    obtain ⟨only, moved⟩ := relocating_block d k
    change (∃ bs, relocatingAll ((d.modBlock k fun b => { b with st := 5 }).settleBlock k) ks = _) ∧ (∀ j,
      ((relocatingAll ((d.modBlock k fun b => { b with st := 5 }).settleBlock k) ks).fblock j).valid = _) ∧ (∀ j, _ →
      (relocatingAll ((d.modBlock k fun b => { b with st := 5 }).settleBlock k) ks).fblock j = _) ∧ ∀ j, _ →
      ((relocatingAll ((d.modBlock k fun b => { b with st := 5 }).settleBlock k) ks).fblock j).st = _
    generalize (d.modBlock k fun b => { b with st := 5 }).settleBlock k = e at only moved ⊢
    obtain ⟨⟨bs, rest⟩, valid, others, all⟩ := ih e
    have kept : ∀ j, (e.fblock j).valid = (d.fblock j).valid := fun j => by
      by_cases same : j = k
      · rw [same, moved, movedOut_valid]
      · rw [only.others j same]
    refine ⟨?_, fun j => (valid j).trans (kept j), fun j out => ?_, fun j listed => ?_⟩
    · obtain ⟨cs, rfl⟩ := only.rest
      exact ⟨bs, rest⟩
    · obtain ⟨notThis, notRest⟩ := not_or.mp (mt List.mem_cons.mpr out)
      exact (others j notRest).trans (only.others j notThis)
    · by_cases later : j ∈ ks
      · rw [all j later, kept]
      · obtain rfl := (List.mem_cons.mp listed).resolve_right later
        rw [others j later, moved]
        unfold movedOut
        split <;> rfl

/-- Collection of a volume may start, and has a victim. -/
structure MayCollect (d : Dev) (v : Nat) (x : Volume) (g : Nat) : Prop where
  vol : d.vol? v = some x
  power : d.pwr.pwrFail = false
  on : d.reg regStkCtrl 0 0 1 = 1 ∨ d.gcForced x = true
  short : d.freeGroups x < d.reg regStkGcStart
  starts : d.gcForced x = true ∨ d.mayStart 4 = true
  victim : d.gcVictim v = some g

/-- The CLOSED blocks of a group. -/
def closedBlocks (d : Dev) (g : Nat) : List Nat := (d.groupBlocks g).filter fun k => (d.fblock k).st == 4

theorem collect_eq {d : Dev} {v g : Nat} {x : Volume} (h : MayCollect d v x g) :
    d.collect v = relocatingAll (d.modVol v fun x => { x with collecting := true }) (closedBlocks d g) := by
  have passes : ¬ (d.pwr.pwrFail = true ∨ (d.reg regStkCtrl 0 0 1 ≠ 1 ∧ (!d.gcForced x) = true) ∨ d.reg regStkGcStart ≤ d.freeGroups x
      ∨ (!(d.gcForced x || d.mayStart 4)) = true) := by
    have on := h.on
    have starts := h.starts
    have short := h.short
    rintro (power | ⟨off, free⟩ | enough | waits)
    · exact absurd (h.power.symm.trans power) Bool.false_ne_true
    · obtain on | forced := on
      · exact off on
      · simp [forced] at free
    · omega
    · obtain forced | mayStart := starts
      · simp [forced] at waits
      · simp [mayStart] at waits
  unfold Dev.collect
  rw [h.vol]
  dsimp only
  rw [if_neg passes, h.victim]
  rfl

/-! #### Relocation (R314, R315) -/

/-- The relocation of a whole unit out of a RELOCATING block, to where its stream's next program goes. -/
structure Relocates (d : Dev) (v u age strm g : Nat) (x : Volume) (gr : FGroup) (y : FUnit) (k p blk : Nat) : Prop where
  goes : ProgramsAt d v strm g x gr k p blk
  mapped : tget x.units u = some y
  staged : y.staged = false
  whole : y.fine = false
  moving : (d.fblock y.block).st = 5
  stream : strm = if d.reg regStkColdAge ≤ age then 4 else 3
  starts : d.gcForced x = true ∨ d.mayStart 4 = true
  power : d.pwr.pwrFail = false
  elsewhere : blk ≠ y.block

/-- A unit's relocation has started, and its block's read is counted. -/
def relocationRead (d : Dev) (blk : Nat) : Dev := (d.startUnit 4 65536).countReads blk 1

/-- A relocated unit is counted. -/
def relocationCounted (d : Dev) (v : Nat) (b : FBlock) : Dev :=
  if b.st = 6 then d.count2 .relRebuild v 0 1 else if b.refresh then d.count2 .relRefresh v 0 1 else d.count2 .relGc v 0 1

/-- Collection ends where no block is RELOCATING any more. -/
def collectionChecked (d : Dev) (v : Nat) : Dev :=
  if d.stk.blocks.any fun e => e.2.st == 5 && e.2.volume == v then d else d.modVol v fun x => { x with collecting := false }

theorem relocate_eq {d e : Dev} {v u age strm g k p blk : Nat} {x : Volume} {gr : FGroup} {y : FUnit}
    (h : Relocates d v u age strm g x gr y k p blk) (into : (relocationRead d y.block).programInto v u strm none = some e) :
    d.relocate v u true age = collectionChecked (relocationCounted e v (d.fblock y.block)) v := by
  have move : d.toMove y = some (y.block, []) := by simp [Dev.toMove, h.whole, h.staged, Dev.moving, h.moving]
  have known : ((d.vol? v).bind fun x => (tget x.units u).bind fun y => (d.toMove y).map fun m => (x, y, m)) = some (x, y, y.block, []) := by
    simp [h.goes.vol, h.mapped, move]
  have passes : ¬ ((!(d.gcForced x || d.mayStart 4)) = true ∨ d.pwr.pwrFail = true ∨ d.programPaused v strm = true) := by
    obtain starts | starts := h.starts <;> simp [starts, h.power, h.goes.notPaused]
  unfold relocationRead at into
  unfold Dev.relocate
  simp only [known, h.whole, Bool.false_and, Bool.false_eq_true, if_false, Bool.not_true, decide_eq_true_eq, ← h.stream]
  rw [if_neg passes, into]
  rfl

theorem relocationRead_kept {d : Dev} {b : Nat} (moving : (d.fblock b).st = 5) : Frame [.stk, .adm, .ctrs] d (relocationRead d b)
    ∧ SameDies d (relocationRead d b) ∧ (∀ m, ((relocationRead d b).fblock m).st = (d.fblock m).st)
    ∧ (relocationRead d b).stk.volumes = d.stk.volumes := by
  have start := startUnit_frame d 4 65536
  have same := start.fblock (ps := [.adm, .ctrs]) (by decide)
  have read := countReads_only (d.startUnit 4 65536) b 1
  have st := (countReads_open (d := d.startUnit 4 65536) (k := b) 1 (by rw [same, moving]; decide)).1
  refine ⟨read.frame.step (by decide) (start.mono (by decide)), (SameDies.of_frame start (by decide)).trans read.dies, fun m => ?_, ?_⟩
  · by_cases this : m = b
    · rw [this]
      exact st.trans (by rw [same])
    · exact (congrArg FBlock.st (read.others m this)).trans (by rw [same])
  · exact (read.keeps (·.stk.volumes)).trans (by rw [start.same .stk (by decide)])

theorem count2_goesOn (d : Dev) (c : Ctr) (i j n : Nat) : GoesOn d (d.count2 c i j n) := by
  have frame := count2_frame d c i j n
  refine ⟨frame.mono (by decide), fun k => by rw [frame.fblock (by decide)], fun v => ?_⟩
  rw [Dev.vol?, frame.same .stk (by decide), Dev.vol?]

theorem relocationCounted_goesOn (d : Dev) (v : Nat) (b : FBlock) : GoesOn d (relocationCounted d v b) :=
  .ite (count2_goesOn ..) (.ite (count2_goesOn ..) (count2_goesOn ..))

theorem collectionChecked_goesOn (d : Dev) (v : Nat) : GoesOn d (collectionChecked d v) := .ite (.refl d) (modVol_goesOn _ v fun _ => rfl)

/-- A whole unit leaves a RELOCATING block. -/
theorem dropValid_moving {d : Dev} {b : Nat} (u : Nat) (moving : (d.fblock b).st = 5) : OnlyBlock b d (d.dropValid b u)
    ∧ ((d.dropValid b u).fblock b).valid = (d.fblock b).valid.filter (· != u) := by
  have marked := modBlock_only d b fun x => { x with valid := x.valid.filter (· != u) }
  have block := fblock_modBlock_same d b fun x => { x with valid := x.valid.filter (· != u) }
  unfold Dev.dropValid
  generalize (d.modBlock b fun x => { x with valid := x.valid.filter (· != u) }) = e at marked block
  obtain ⟨settled, moved⟩ := settleBlock_moving (d := e) (k := b) (by rw [block]; exact moving)
  exact ⟨marked.trans settled, by rw [moved, movedOut_valid, block]⟩

/-- A unit relocated from a RELOCATING block is mapped at its new place, and its old block holds it no more. -/
theorem relocate_moves {d : Dev} {v u age strm g k p blk : Nat} {x : Volume} {gr : FGroup} {y : FUnit}
    (h : Relocates d v u age strm g x gr y k p blk) : Frame [.stk, .adm, .ctrs] d (d.relocate v u true age)
    ∧ (∃ z, (d.relocate v u true age).vol? v = some z ∧ tget z.units u = some (y.at_ blk p strm none))
    ∧ u ∉ ((d.relocate v u true age).fblock y.block).valid ∧ u ∈ ((d.relocate v u true age).fblock blk).valid := by
  obtain ⟨readFrame, dies, st, volumes⟩ := relocationRead_kept h.moving
  have vol : (relocationRead d y.block).vol? v = some x := by rw [Dev.vol?, volumes]; exact h.goes.vol
  have goes := h.goes.of_same vol dies st
  have into := programInto_whole (u := u) goes h.mapped
  rw [relocate_eq h into]
  have out : (relocationRead d y.block).unlocate u y = (relocationRead d y.block).dropValid y.block u := by
    unfold Dev.unlocate
    rw [if_neg (by simp [h.whole]), if_neg (by simp [h.staged])]
  rw [out]
  obtain ⟨dropped, gone⟩ := dropValid_moving (d := relocationRead d y.block) (b := y.block) u ((st _).trans h.moving)
  have droppedVol : ((relocationRead d y.block).dropValid y.block u).vol? v = some x := (dropped.keeps (·.vol? v)).trans vol
  have before : Frame [.stk, .adm, .ctrs] d ((relocationRead d y.block).dropValid y.block u) := dropped.frame.step (by decide) readFrame
  generalize (relocationRead d y.block).dropValid y.block u = e at gone droppedVol before
  have written := unitProgrammed_vol (u := u) (blk := blk) (p := p) (strm := strm) droppedVol
  have wFrame : Frame [.stk, .adm, .ctrs] d (unitProgrammed e v u blk p strm) := unitProgrammed_frame.step (by decide) before
  have wNew := unitProgrammed_block (d := e) (v := v) (u := u) (blk := blk) (p := p) (strm := strm)
  have wOld := unitProgrammed_others (d := e) (v := v) (u := u) (p := p) (strm := strm) h.elsewhere.symm
  generalize unitProgrammed e v u blk p strm = f at written wFrame wNew wOld
  have rest := ((groupGoesOn_goesOn f v strm g (k + 1)).trans (relocationCounted_goesOn _ v (d.fblock y.block))).trans
    (collectionChecked_goesOn _ v)
  generalize collectionChecked _ v = t at rest ⊢
  refine ⟨rest.frame.step (by decide) wFrame, ?_, ?_, ?_⟩
  · have units := rest.units v
    rw [written] at units
    obtain ⟨z, known, same⟩ := Option.map_eq_some_iff.mp units
    refine ⟨z, known, ?_⟩
    rw [same]
    exact (tget_tmod_same ..).trans (congrArg (Option.map _) h.mapped)
  · rw [rest.valid, wOld, gone]
    simp
  · rw [rest.valid, wNew]
    simp

/-! #### Temperatures (R323) -/

/-- The die is noted above its warning temperature, with an event when it rises. -/
def hotNoted (d : Dev) (ch die r : Nat) : Dev :=
  if 10 * d.reg regStkTempWarn ≤ r then
    (if d.stk.hotDies.contains (ch + 32 * die) then d else
      { d.devEvent 0x0203 (ch + 256 * die) r with
        stk := { (d.devEvent 0x0203 (ch + 256 * die) r).stk with hotDies := d.stk.hotDies ++ [ch + 32 * die] } })
  else { d with stk := { d.stk with hotDies := d.stk.hotDies.filter (· != ch + 32 * die) } }

/-- The die pauses above its limit, with an event when it rises, and goes on 5 °C lower. -/
def pauseNoted (d : Dev) (ch die r lim : Nat) : Dev :=
  if lim ≤ r then
    (if d.stk.paused.contains (ch + 32 * die) then d else
      { d.devEvent 0x0203 (ch + 256 * die) r with
        stk := { (d.devEvent 0x0203 (ch + 256 * die) r).stk with paused := d.stk.paused ++ [ch + 32 * die] } })
  else if r + 50 ≤ lim then { d with stk := { d.stk with paused := d.stk.paused.filter (· != ch + 32 * die) } }
  else d

theorem dieTemperature_eq (d : Dev) (ch die r : Nat) :
    d.dieTemperature ch die r = pauseNoted (hotNoted d ch die r) ch die r (10 * d.reg regStkTempPause) := rfl

theorem devEvent_stk (d : Dev) (code d0 d1 : Nat) (i : LogInfo) : (d.devEvent code d0 d1 i).stk = d.stk := (devEvent_frame ..).same .stk (by decide)

theorem hotNoted_notes (d : Dev) (ch die r : Nat) : Frame flashParts d (hotNoted d ch die r)
    ∧ ∃ hot, (hotNoted d ch die r).stk = { d.stk with hotDies := hot } ∧ (ch + 32 * die ∈ hot ↔ 10 * d.reg regStkTempWarn ≤ r) := by
  unfold hotNoted
  by_cases above : 10 * d.reg regStkTempWarn ≤ r
  · rw [if_pos above]
    by_cases known : ch + 32 * die ∈ d.stk.hotDies
    · rw [if_pos (List.contains_iff_mem.mpr known)]
      exact ⟨.refl .., d.stk.hotDies, rfl, iff_of_true known above⟩
    · rw [if_neg (mt List.contains_iff_mem.mp known)]
      refine ⟨(Frame.stk (d.devEvent ..) _).step (by decide) ((devEvent_frame ..).mono (by decide)), d.stk.hotDies ++ [ch + 32 * die], ?_,
        iff_of_true (List.mem_append_right _ List.mem_cons_self) above⟩
      rw [devEvent_stk]
  · rw [if_neg above]
    exact ⟨(Frame.stk d _).mono (by decide), _, rfl, iff_of_false (by simp) above⟩

theorem pauseNoted_notes (d : Dev) (ch die r lim : Nat) : Frame flashParts d (pauseNoted d ch die r lim)
    ∧ ∃ waits, (pauseNoted d ch die r lim).stk = { d.stk with paused := waits } ∧ (lim ≤ r → ch + 32 * die ∈ waits)
      ∧ (r + 50 ≤ lim → ch + 32 * die ∉ waits) := by
  unfold pauseNoted
  by_cases above : lim ≤ r
  · rw [if_pos above]
    by_cases known : ch + 32 * die ∈ d.stk.paused
    · rw [if_pos (List.contains_iff_mem.mpr known)]
      exact ⟨.refl .., d.stk.paused, rfl, fun _ => known, fun _ => by omega⟩
    · rw [if_neg (mt List.contains_iff_mem.mp known)]
      refine ⟨(Frame.stk (d.devEvent ..) _).step (by decide) ((devEvent_frame ..).mono (by decide)), d.stk.paused ++ [ch + 32 * die], ?_,
        fun _ => List.mem_append_right _ List.mem_cons_self, fun _ => by omega⟩
      rw [devEvent_stk]
  · rw [if_neg above]
    split
    · exact ⟨(Frame.stk d _).mono (by decide), _, rfl, fun h => absurd h above, fun _ => by simp⟩
    · next between => exact ⟨.refl .., d.stk.paused, rfl, fun h => absurd h above, fun h => absurd h between⟩

/-! #### The governor (R320) -/

/-- The first key of a table is below every other, where the keys rise. -/
theorem twf_keys {α : Type} {t : Tab α} (wf : twf t = true) : (t.map (·.1)).Pairwise (· < ·) := by
  induction t with
  | nil => exact .nil
  | cons a t ih =>
    cases t with
    | nil => exact List.pairwise_singleton ..
    | cons b t =>
      simp only [twf, Bool.and_eq_true, decide_eq_true_eq] at wf
      have rest := ih wf.2
      refine List.pairwise_cons.mpr ⟨fun k h => ?_, rest⟩
      obtain rfl | later := List.mem_cons.mp h
      · exact wf.1
      · exact wf.1.trans ((List.pairwise_cons.mp rest).1 k later)

/-- A change of a volume that looks at the rest of the device alone. -/
def BlindToVolumes (f : Dev → Volume → Volume) : Prop := ∀ (d : Dev) vs, f { d with stk := { d.stk with volumes := vs } } = f d

/-- Volumes changed one by one, each once. -/
theorem modVols {f : Dev → Volume → Volume} (blind : BlindToVolumes f) {vs : List Nat} (once : vs.Nodup) (d : Dev) :
    (∃ ws, vs.foldl (fun (d : Dev) v => d.modVol v (f d)) d = { d with stk := { d.stk with volumes := ws } })
    ∧ (∀ v ∈ vs, (vs.foldl (fun (d : Dev) v => d.modVol v (f d)) d).vol? v = (d.vol? v).map (f d))
    ∧ ∀ v, v ∉ vs → (vs.foldl (fun (d : Dev) v => d.modVol v (f d)) d).vol? v = d.vol? v := by
  induction vs generalizing d with
  | nil => exact ⟨⟨_, rfl⟩, fun _ h => (nomatch h), fun _ _ => rfl⟩
  | cons v vs ih =>
    obtain ⟨new, rest⟩ := List.nodup_cons.mp once
    obtain ⟨⟨ws, eq⟩, each, others⟩ := ih rest (d.modVol v (f d))
    have same : f (d.modVol v (f d)) = f d := blind d _
    refine ⟨⟨ws, eq⟩, fun k h => ?_, fun k out => ?_⟩
    · obtain rfl | later := List.mem_cons.mp h
      · exact (others k new).trans (vol_modVol_same ..)
      · have other : v ≠ k := fun e => new (by rw [e]; exact later)
        exact (each k later).trans (congrArg₂ Option.map same (vol_modVol_other d other _))
    · obtain ⟨notThis, notRest⟩ := not_or.mp (mt List.mem_cons.mpr out)
      exact (others k notRest).trans (vol_modVol_other d (fun e => notThis e.symm) _)

/-- A volume's sample of the hour. -/
def sampled (d : Dev) (x : Volume) : Volume := { x with hist := x.hist ++ [(d.tim.now, x.accepted, x.programmed)] }

/-- A volume with its budget recomputed. -/
def budgeted (d : Dev) (x : Volume) : Volume := { x with budget := d.budgetOf x }

theorem recomputeAll_eq (d : Dev) : d.recomputeAll = (d.stk.volumes.map (·.1)).foldl (fun (d : Dev) v => d.modVol v (budgeted d))
    ((d.stk.volumes.map (·.1)).foldl (fun (d : Dev) v => d.modVol v (sampled d)) d) := rfl

theorem recomputeAll_frame (d : Dev) : Frame [.stk] d d.recomputeAll :=
  ((Frame.refl ..).foldl fun _ _ => modVol_frame ..).foldl fun _ _ => modVol_frame ..

/-- Every volume keeps the sample of the hour, and its budget is recomputed over it. -/
theorem recomputeAll_vol {d : Dev} (wf : twf d.stk.volumes = true) {v : Nat} {x : Volume} (known : d.vol? v = some x) :
    d.recomputeAll.vol? v = some { sampled d x with budget := d.budgetOf (sampled d x) } := by
  have once : (d.stk.volumes.map (·.1)).Nodup := (twf_keys wf).imp fun h => Nat.ne_of_lt h
  have listed : v ∈ d.stk.volumes.map (·.1) := List.mem_map.mpr ⟨(v, x), mem_of_tget known, rfl⟩
  rw [recomputeAll_eq]
  obtain ⟨⟨ws, eq⟩, each, -⟩ := modVols (f := sampled) (fun _ _ => rfl) once d
  have first := each v listed
  generalize List.foldl (fun (d : Dev) v => d.modVol v (sampled d)) d _ = e at eq first ⊢
  obtain ⟨-, each, -⟩ := modVols (f := budgeted) (fun _ _ => rfl) once e
  rw [each v listed, first, known]
  subst eq
  rfl

/-! #### Span space (R319) -/

/-- A step of the discards: while the reserve is short, one more copy goes. -/
def discardStep (v : Nat) (d : Dev) (i : Nat) : Dev := if d.spanSpaceLow v then (d.stacksLost i).count .copiesDiscarded v else d

theorem discardStep_frame (v : Nat) (d : Dev) (i : Nat) : Frame (.tier :: flashParts) d (discardStep v d i) :=
  .ite ((count_frame ..).step (by decide) (stacksLost_ceases ..).1) (.refl ..)

theorem discards_stop {v : Nat} {d : Dev} (restored : d.spanSpaceLow v = false) (is : List Nat) : is.foldl (discardStep v) d = d := by
  induction is with
  | nil => rfl
  | cons i is ih =>
    have stays : discardStep v d i = d := if_neg (by simp [restored])
    rw [List.foldl_cons, stays, ih]

/-- Discards drop copies alone, until the reserve is restored or every copy of the list is gone. -/
theorem discards_drop (v : Nat) (is : List Nat) (d : Dev) :
    (∀ i c, tget (is.foldl (discardStep v) d).stk.copies i = some c → tget d.stk.copies i = some c)
    ∧ ((is.foldl (discardStep v) d).spanSpaceLow v = false ∨ ∀ i ∈ is, tget (is.foldl (discardStep v) d).stk.copies i = none) := by
  induction is generalizing d with
  | nil => exact ⟨fun _ _ => id, .inr fun _ h => nomatch h⟩
  | cons i is ih =>
    cases low : d.spanSpaceLow v with
    | false =>
      rw [discards_stop low]
      exact ⟨fun _ _ => id, .inl low⟩
    | true =>
      obtain ⟨kept, ends⟩ := ih (discardStep v d i)
      rw [List.foldl_cons]
      generalize is.foldl (discardStep v) (discardStep v d i) = e at kept ends ⊢
      have copies : (discardStep v d i).stk.copies = (d.dropCopy i).stk.copies := by
        unfold discardStep
        rw [if_pos low, (count_frame ..).same .stk (by decide), (stacksLost_ceases d i).2.2]
      rw [copies] at kept
      have fewer : ∀ j c, tget e.stk.copies j = some c → j ≠ i ∧ tget d.stk.copies j = some c := fun j c h => by
        have held := kept j c h
        by_cases same : i = j
        · rw [same, dropCopy_gone] at held
          cases held
        · exact ⟨fun h => same h.symm, (dropCopy_copy_other d same).symm.trans held⟩
      refine ⟨fun j c h => (fewer j c h).2, ends.imp_right fun all j h => ?_⟩
      obtain rfl | later := List.mem_cons.mp h
      · cases held : tget e.stk.copies j with
        | none => rfl
        | some c => exact absurd rfl (fewer j c held).1
      · exact all j later

/-- The copies of a volume that may be discarded, in the order of discarding: resident spans first, the oldest first. -/
def discardOrder (d : Dev) (v : Nat) : List Nat :=
  (sortBy (fun a b : Nat × Nat × Nat => decide (a.2.1 < b.2.1) || (a.2.1 == b.2.1 && decide (b.2.2 < a.2.2)))
    ((d.stk.copies.filter fun e => e.2.volume == v).filterMap fun e => (d.span? e.1).map fun s =>
      (e.1, (if d.resident s then 0 else 1), d.ageOf s.lastTick))).map (·.1)

theorem discardSpans_eq (d : Dev) (v : Nat) : d.discardSpans v = (discardOrder d v).foldl (discardStep v) d := by
  rw [discardOrder, List.foldl_map]
  rfl

theorem mem_discardOrder {d : Dev} {v i : Nat} {c : FCopy} {s : Span} (copy : tget d.stk.copies i = some c) (here : c.volume = v)
    (span : d.span? i = some s) : i ∈ discardOrder d v := by
  refine List.mem_map.mpr ⟨(i, (if d.resident s then 0 else 1), d.ageOf s.lastTick),
    (mem_sortBy ..).mpr (List.mem_filterMap.mpr ⟨(i, c), List.mem_filter.mpr ⟨mem_of_tget copy, ?_⟩, ?_⟩), rfl⟩
  · simp [here]
  · rw [span]
    rfl

theorem discardSpans_frame (d : Dev) (v : Nat) : Frame (.tier :: flashParts) d (d.discardSpans v) := by
  rw [discardSpans_eq]
  exact (Frame.refl ..).foldl fun _ _ => discardStep_frame ..

/-- After the discards the reserve is restored, or no span has a copy in the volume. -/
theorem discardSpans_done (d : Dev) (v : Nat) : (d.discardSpans v).spanSpaceLow v = false
    ∨ ∀ i c, tget (d.discardSpans v).stk.copies i = some c → c.volume = v → (d.discardSpans v).span? i = none := by
  have spans : (d.discardSpans v).seqs = d.seqs := (discardSpans_frame d v).same .seqs (by decide)
  rw [discardSpans_eq] at spans ⊢
  obtain ⟨kept, ends⟩ := discards_drop v (discardOrder d v) d
  refine ends.imp_right fun all i c copy here => ?_
  cases span : d.span? i with
  | none => rw [Dev.span?, spans]; exact span
  | some s => cases (all i (mem_discardOrder (kept i c copy) here span)).symm.trans copy

/-! #### Checkpoints (R325, R326) -/

theorem segmentsWritten_frame (d : Dev) : Frame [.ctrs] d d.segmentsWritten := (Frame.refl ..).foldl fun _ _ => count_frame ..

theorem ckptDone_done {d : Dev} (running : d.stk.ckptRunning = true) (power : d.pwr.pwrFail = false) : Frame [.stk, .ctrs] d d.ckptDone
    ∧ d.ckptDone.stk = { d.stk with ckptRunning := false, ckptSegs := [], replay := d.stk.replayNew, replayNew := [] } := by
  have written := segmentsWritten_frame d
  unfold Dev.ckptDone
  rw [if_neg (by simp [running, power])]
  refine ⟨(count_frame ..).step (by decide) ((Frame.stk d.segmentsWritten _).step (by decide) (written.mono (by decide))), ?_⟩
  rw [(count_frame ..).same .stk (by decide), written.same .stk (by decide)]

end Sys2Proof.Safety
end

section
/-! ### The rows of the stacks' flash (section 9) -/

namespace Sys2Proof.Safety

open Sys2Proof.Machine

/-- A row that changes the device alone, within some parts. -/
theorem After.of_frame {c : Instr} {s : State} {ps : List Part} {d : Dev} {P : State → Prop} (run : exec c s = devNext s d)
    (frame : Frame ps s.dev d) (h : Changes ps s { s with dev := d } → P { s with dev := d }) : After c s P :=
  .of_exec run (h (.of_frame frame))

theorem sectorBad_unit {u : Nat} {x : Volume} {y : FUnit} (j : Nat) (mapped : tget x.units u = some y) :
    ∃ w f, tget (sectorBad u j x).units u = some w ∧ tget w.sectors j = some f ∧ f.bad = true :=
  ⟨_, { (tgetD y.sectors j ({} : FSector)) with bad := true }, (tget_tmod_same ..).trans (congrArg (Option.map _) mapped), tget_tset_same .., rfl⟩

/-- Settles O38: each row evaluated on its guards, with the laws of blocks, programs, reads and upkeep. -/
theorem flashRowsComplete : Obligations.FlashRowsComplete := by
  intro s
  refine ⟨?program, ?read, ?erase, ?verify, ?scrub, ?collect, ?relocate, ?die, ?heat, ?governor, ?discard, ?checkpoint, ?checkpointDone⟩
  case program =>
    intro v u x y g gr k p blk known mapped staged whole power opened group next place room running
    have goes : ProgramsAt s.dev v y.strm g x gr k p blk := ⟨known, opened, group, next, place, room, running⟩
    refine ⟨fun n slot within stripe => ?_, ?_⟩
    · obtain ⟨e, -, eq, run⟩ := programDone_good goes mapped staged whole power
      have vol := unitProgrammed_vol (u := u) (blk := blk) (p := p) (strm := y.strm) known
      have new := unitProgrammed_block (d := s.dev) (v := v) (u := u) (blk := blk) (p := p) (strm := y.strm)
      have others := fun j => unitProgrammed_others (d := s.dev) (v := v) (u := u) (p := p) (strm := y.strm) (blk := blk) (j := j)
      have frame := unitProgrammed_frame (d := s.dev) (v := v) (u := u) (blk := blk) (p := p) (strm := y.strm)
      have staging := unitProgrammed_staging (d := s.dev) (v := v) (u := u) (blk := blk) (p := p) (strm := y.strm)
      have dies := unitProgrammed_dies (d := s.dev) (v := v) (u := u) (blk := blk) (p := p) (strm := y.strm)
      have st := unitProgrammed_st (d := s.dev) (v := v) (u := u) (blk := blk) (p := p) (strm := y.strm)
      generalize unitProgrammed s.dev v u blk p y.strm = f at eq vol new others frame staging dies st
      rw [groupGoesOn_within vol (dies.groups ▸ group) (by rw [dies.groupSize, nextSlot_congr st]; exact slot)
        (by rw [dies.groupSize]; exact within) stripe] at eq
      subst eq
      refine .of_frame (congrArg (devNext s) run) ((Frame.stk _ _).step (by decide) ((Frame.stk f _).step (by decide) frame)) fun same => ?_
      refine ⟨⟨_, vol, (tget_tmod_same ..).trans (congrArg (Option.map _) mapped), rfl, fun w other => tget_tmod_other _ other.symm _⟩,
        new, others, tget_tset_same .., congrArg (List.filter _) staging, same⟩
    · obtain ⟨retires, gone⟩ := programFailed_retires s.dev blk
      exact .of_frame (congrArg (devNext s) (programDone_failed goes mapped staged power)) retires.frame fun same =>
        ⟨gone, retires.vol known, retires.staging, same⟩
  case read =>
    intro v sec x y dm known mapped power
    obtain ⟨inVain, volumes, copies⟩ := readInVain_kept s.dev v (y.sectorAt (sec % 16))
    have late := sectorRead_late dm known mapped power
    refine ⟨fun stage blk loc place answers early => ?_, fun noSpan noUnit => ?_, fun i held => ?_⟩
    · obtain ⟨other, run⟩ := sectorRead_early dm known mapped power place answers early
      have only := countReads_only s.dev blk 1
      have counted : Frame [.ctrs] (s.dev.countReads blk 1) (s.dev.sectorRead v sec stage dm) := by
        rw [run]
        exact .ite (count_frame ..) (.refl ..)
      refine .of_frame rfl (counted.step (by decide) (only.frame.mono (by decide)) : Frame [.stk, .ctrs] s.dev _) fun same => ⟨?_, fun j other => ?_, ?_, same⟩
      · rw [counted.fblock (by decide), countReads_reads]
      · exact (counted.fblock (by decide) j).trans (only.others j other)
      · exact (congrArg StkSt.volumes (counted.same .stk (by decide))).trans (only.keeps (·.stk.volumes))
    · have kept := uncorrectable_retires (readInVain s.dev v (y.sectorAt (sec % 16))) v
      have lost := sectorLost_alone (d := readInVain s.dev v (y.sectorAt (sec % 16))) ((spanOfUnit_of_copies copies v _).trans noSpan)
        (by rw [inVain.same .rgn (by decide)]; exact noUnit)
      have vol : (readInVain s.dev v (y.sectorAt (sec % 16))).vol? v = some x := by rw [Dev.vol?, volumes]; exact known
      obtain ⟨z, noted, units⟩ := kept.vol vol
      refine .of_frame (congrArg (devNext s) (late.trans lost))
        ((modVol_frame ..).step (by decide) (kept.frame.step (qs := flashParts) (by decide) (inVain.mono (by decide)))) fun same => ⟨?_, same⟩
      obtain ⟨w, f, bad⟩ := sectorBad_unit (sec % 16) ((congrArg (tget · (sec / 16)) units).trans mapped)
      exact ⟨sectorBad (sec / 16) (sec % 16) z, w, f, (vol_modVol_same ..).trans (congrArg (Option.map _) noted), bad⟩
    · have lost := sectorLost_span (d := readInVain s.dev v (y.sectorAt (sec % 16))) ((spanOfUnit_of_copies copies v _).trans held)
      have noted := (uncorrectable_retires (readInVain s.dev v (y.sectorAt (sec % 16))) v).frame
      have bad := modVol_frame ((readInVain s.dev v (y.sectorAt (sec % 16))).uncorrectable v) v (sectorBad (sec / 16) (sec % 16))
      obtain ⟨ends, ceased, stk⟩ := stacksLost_ceases
        (((readInVain s.dev v (y.sectorAt (sec % 16))).uncorrectable v).modVol v (sectorBad (sec / 16) (sec % 16))) i
      refine .of_frame (ps := .stk :: .tier :: evParts) (congrArg (devNext s) (late.trans lost)) ?_ fun same => ⟨?_, ceased, same⟩
      · exact ends.step (by decide) (bad.step (by decide) (noted.step (by decide) (inVain.mono (by decide))))
      · exact (congrArg (fun t : StkSt => tget t.copies i) stk).trans (dropCopy_gone ..)
  case erase =>
    intro k v dirty running serves inside power _
    have may : MayErase s.dev k := ⟨dirty, running, serves, inside, power⟩
    obtain ⟨frame, block, others⟩ := eraseDone_good may
    obtain ⟨retires, gone⟩ := eraseDone_failed may
    exact ⟨.of_frame rfl frame fun same => ⟨block, others, same⟩, .of_frame rfl retires.frame fun same => ⟨gone, same⟩⟩
  case verify =>
    intro k st power
    obtain ⟨frame, others, block⟩ := verifyDone_block st power
    obtain ⟨failed, gone⟩ := verifyFailed_retires st power
    refine ⟨fun plain below fits => ?_, fun due filled on => ?_, .of_frame rfl failed fun same => ⟨gone, same⟩⟩
    · rw [countReads_below below fits] at block
      exact .of_frame rfl frame fun same => ⟨block.trans (if_neg (by simp [plain])), others, same⟩
    · obtain ⟨-, stays⟩ := countReads_open (s.dev.fblock k).filled (by rw [st]; decide)
      rw [refreshed_of_filled (by exact (countReads_valid ..).trans_ne filled), if_pos ⟨stays due, rfl, on⟩] at block
      exact .of_frame rfl frame fun same => ⟨by rw [block], others, same⟩
  case scrub =>
    intro k st h closed filled on starts idle power first found
    obtain ⟨read, worse⟩ := flashScrub_block (h := h) ⟨closed, on, starts, power, first⟩ filled found
    exact .of_frame (congrArg (devNext s) (if_neg (by simp [idle]))) read.frame fun same =>
      ⟨read.reads, read.scrubIn, read.bits, worse, read.others, same⟩
  case collect =>
    intro v x g idle power known on short starts victim
    have may : MayCollect s.dev v x g := ⟨known, power, on, short, starts, victim⟩
    obtain ⟨⟨bs, rest⟩, -, -, moved⟩ := relocatingAll_blocks (s.dev.modVol v fun x => { x with collecting := true }) (closedBlocks s.dev g)
    refine .of_frame (ps := [.stk]) (congrArg (devNext s) ((if_neg (by simp [idle])).trans (collect_eq may))) ?_ fun same => ⟨?_, ?_, same⟩
    · rw [rest]
      exact (Frame.stk _ _).step (by decide) (modVol_frame ..)
    · exact fun k listed closed => moved k (List.mem_filter.mpr ⟨listed, by simp [closed]⟩)
    · refine ⟨{ x with collecting := true }, ?_, rfl, rfl⟩
      rw [rest]
      exact (vol_modVol_same ..).trans (congrArg (Option.map _) known)
  case relocate =>
    intro v u age x y g gr strm k p blk idle power known mapped staged whole moving starts stream opened group next place room running elsewhere
    obtain ⟨frame, unit_, old, new⟩ := relocate_moves (d := s.dev) (age := age)
      ⟨⟨known, opened, group, next, place, room, running⟩, mapped, staged, whole, moving, stream, starts, power, elsewhere⟩
    exact .of_frame (congrArg (devNext s) (if_neg (by simp [idle]))) frame fun same => ⟨unit_, old, new, same⟩
  case die =>
    intro ch die works
    obtain ⟨retires, fails⟩ := failDie_retires s.dev ch die
    obtain ⟨failed, gone⟩ := fails works
    exact .of_frame rfl retires.frame fun same => ⟨failed, gone, same⟩
  case heat =>
    intro ch die r
    obtain ⟨hotFrame, hot, hotStk, above⟩ := hotNoted_notes s.dev ch die r
    obtain ⟨frame, waits, stk, rises, falls⟩ := pauseNoted_notes (hotNoted s.dev ch die r) ch die r (10 * s.dev.reg regStkTempPause)
    rw [hotStk] at stk
    refine .of_frame (congrArg (devNext s) (dieTemperature_eq ..)) (hotFrame.trans frame) fun same => ?_
    dsimp only
    rw [stk]
    exact ⟨above, rises, falls, rfl, rfl, same⟩
  case governor =>
    intro idle wf
    exact .of_frame (congrArg (devNext s) (if_neg (by simp [idle]))) (recomputeAll_frame s.dev) fun same =>
      ⟨fun v x known => ⟨_, rfl, recomputeAll_vol wf known⟩, same⟩
  case discard =>
    intro v _
    exact .of_frame (ps := .stk :: .tier :: evParts) rfl ((discardSpans_frame s.dev v).mono (by decide)) fun same => ⟨discardSpans_done s.dev v, same⟩
  case checkpoint =>
    intro ms rests found power due
    have run : s.dev.checkpoint ms = _ := (if_neg (by simp [rests, found, power])).trans (if_pos due)
    exact .of_frame (congrArg (devNext s) run) (Frame.stk ..) fun same => ⟨rfl, same⟩
  case checkpointDone =>
    intro running power
    obtain ⟨frame, stk⟩ := ckptDone_done running power
    exact .of_frame rfl frame fun same => ⟨stk, same⟩

end Sys2Proof.Safety
end

section
/-! ### HINT of a span, STREAM (R257, R269, R276 to R279) -/

namespace Sys2Proof.Safety

open Sys2Proof.Machine

/-! #### A touching hint -/

theorem span_modSpan_same (d : Dev) (i : Nat) (f : Span → Span) : (d.modSpan i f).span? i = (d.span? i).map f := tget_tmod_same ..

theorem span_modSpan_other (d : Dev) {i j : Nat} (h : i ≠ j) (f : Span → Span) : (d.modSpan i f).span? j = d.span? j := tget_tmod_other _ h f

theorem span_of_seqs {d e : Dev} (h : e.seqs = d.seqs) (i : Nat) : e.span? i = d.span? i := by rw [Dev.span?, Dev.span?, h]

theorem span_of_live {d : Dev} {i : Nat} {s : Span} (h : d.live? i = some s) : d.span? i = some s := by
  unfold Dev.live? at h
  cases found : d.span? i with
  | none => rw [found] at h; cases h
  | some y =>
    rw [found] at h
    dsimp only at h
    split at h
    · cases h
    · exact h

/-- A hint that touches a live span that was visible answers with one span. -/
theorem runOp_hint_touch {s : State} {q : Req} {sp : Span} (op : q.op = 0x20) (span : q.d.fld 0 0 2 = 0) (touch : q.d.fld 1 0 3 = 1)
    (live : s.dev.live? q.d.object = some sp) (seen : s.dev.visibleBefore q.d.patron q.d.object sp = true)
    (there : s.dev.hintVacant q.d.object = false) :
    s.runOp q = s.answers q (s.dev.touch q.d.object, { r0 := 1 }) := by
  have effect : s.dev.hintSpans q.d.patron 1 (q.d.fld 2 0 3) [q.d.object] (q.admTick, q.admNo) = (s.dev.touch q.d.object, { r0 := 1 }) := by
    unfold Dev.hintSpans
    rw [List.findIdx?_cons, there]
    rfl
  have run : s.runOp q = (s.opHint q).byItself := by unfold State.runOp; simp only [op]
  rw [run]
  unfold State.opHint
  simp only [span, touch, live, seen, effect, if_true]
  rfl

/-! #### Streams -/

/-- A stream that ends leaves the table; the rest of the tiers is as it was. -/
theorem endStream_tier (d : Dev) (p id reason : Nat) : (d.endStream p id reason).tier
    = { d.tier with streams := if (tget d.tier.streams (16 * p + id)).isSome then tdel d.tier.streams (16 * p + id) else d.tier.streams } := by
  unfold Dev.endStream
  cases found : tget d.tier.streams (16 * p + id) with
  | none => rfl
  | some st =>
    dsimp only
    have walks : ((st.walk.toList ++ st.ended).foldl Dev.endWalk d).tier = d.tier :=
      (((Frame.refl [.seqs] d).foldl fun _ _ => endWalk_frame ..).same .tier (by decide))
    split
    · dsimp only
      rw [walks]
      rfl
    · rw [(patEvent_frame ..).same .tier (by decide)]
      dsimp only
      rw [walks]
      rfl

theorem endStream_gone (d : Dev) (p id reason : Nat) : tget (d.endStream p id reason).tier.streams (16 * p + id) = none := by
  rw [endStream_tier]
  dsimp only
  split
  · exact tget_tdel_same ..
  · next none => exact Option.not_isSome_iff_eq_none.mp none

/-- A stream without planned slots ends with its event alone. -/
theorem endStream_idle {d : Dev} {p id : Nat} {st : StreamSt} (known : tget d.tier.streams (16 * p + id) = some st) (walk : st.walk = none)
    (ended : st.ended = []) : d.endStream p id 1
      = ({ d with tier := { d.tier with streams := tdel d.tier.streams (16 * p + id) } } : Dev).patEvent p 0x0101 (id + 256 * 1) st.delivered := by
  unfold Dev.endStream
  rw [known]
  dsimp only
  rw [walk, ended]
  rfl

/-- The slot of a stream is free, and nothing is fetched for it. -/
def streamEnded (d : Dev) (p id : Nat) : Dev := (d.endStream p id 1).dropFetch (2 ^ 40 + (16 * p + id))

theorem streamEnded_frame (d : Dev) (p id : Nat) : Frame (.fab :: .seqs :: .tier :: evParts) d (streamEnded d p id) :=
  (dropFetch_frame ..).step (by decide) ((endStream_frame ..).mono (by decide))

theorem streamEnded_gone (d : Dev) (p id : Nat) : tget (streamEnded d p id).tier.streams (16 * p + id) = none := endStream_gone ..

/-- The stream that a STREAM descriptor describes, of a record. -/
def streamOf (q : Req) (i : Nat) : StreamSt :=
  { mode := q.d.fld 0 0 2, strict := q.d.fld 0 2 1 == 1, lead := q.d.fld 2 0 8, window := q.d.fld 3 0 5, firstLayer := q.d.fld 4 0 16
    slots := q.d.fld 6 0 8, slotUnits := q.d.fld 8 0 32, slotBase := q.d.fld 12 0 32, cell := q.d.fld 16 0 32, volume := q.d.fld 20 0 32
    steps := q.d.fld 24 0 64, record := i, adm := (q.admTick, q.admNo) }

/-- A stream takes its slot. -/
def streamHeld (d : Dev) (q : Req) (i : Nat) : Dev :=
  { streamEnded d q.d.patron (q.d.fld 1 0 4) with
    tier := { (streamEnded d q.d.patron (q.d.fld 1 0 4)).tier with
      streams := tset (streamEnded d q.d.patron (q.d.fld 1 0 4)).tier.streams (16 * q.d.patron + q.d.fld 1 0 4) (streamOf q i) } }

theorem opStream_stop {d : Dev} {q : Req} {st : StreamSt} (stop : q.d.fld 0 0 2 = 2)
    (known : tget d.tier.streams (16 * q.d.patron + q.d.fld 1 0 4) = some st) :
    d.opStream q = (streamEnded d q.d.patron (q.d.fld 1 0 4), { r0 := q.d.fld 1 0 4 }) := by
  unfold Dev.opStream
  dsimp only
  rw [if_pos stop, known]
  rfl

/-- A started stream holds its slot; one that delivers zeroes its progress cell. -/
theorem opStream_start {d : Dev} {q : Req} {i : Nat} {r : Rec} (start : q.d.fld 0 0 2 ≠ 2) (seq : d.seq? q.d.patron q.d.object = some (i, r))
    (layer : q.d.fld 4 0 16 < (d.prof r.profile).layers) (on : q.d.fld 0 0 2 = 1 → d.shelfOn (q.d.fld 3 0 5) = true) :
    d.opStream q = (if q.d.fld 0 0 2 = 1 then (streamHeld d q i).emit (.peerWrite (q.d.fld 3 0 5) (q.d.fld 16 0 32) (.bytes zeroCell))
      else streamHeld d q i, { r0 := q.d.fld 1 0 4 }) := by
  have frame := streamEnded_frame d q.d.patron (q.d.fld 1 0 4)
  have faults : (streamEnded d q.d.patron (q.d.fld 1 0 4)).tier.shelfFaults = d.tier.shelfFaults := by
    change (d.endStream q.d.patron (q.d.fld 1 0 4) 1).tier.shelfFaults = _
    rw [endStream_tier]
  have shelf : q.d.fld 0 0 2 = 1 → (streamHeld d q i).shelfOn (q.d.fld 3 0 5) = true := fun deliver => by
    rw [← on deliver]
    unfold Dev.shelfOn
    rw [reg_of_same_regs (d := d) (e := streamHeld d q i) (frame.same .regs (by decide))]
    change (_ && _ && !(streamEnded d q.d.patron (q.d.fld 1 0 4)).tier.shelfFaults.contains _) = _
    rw [faults]
  unfold Dev.opStream
  dsimp only
  rw [if_neg start, seq]
  dsimp only
  rw [if_neg (Nat.not_le.mpr layer)]
  by_cases deliver : q.d.fld 0 0 2 = 1
  · have there := shelf deliver
    rw [if_neg (not_not.mpr deliver), if_pos deliver]
    exact congrArg (·, _) (if_pos there)
  · rw [if_pos deliver, if_neg deliver]
    rfl

end Sys2Proof.Safety
end

section
/-! ### Outputs into a patron's buffers, and MERGE (R168, R169, R172) -/

namespace Sys2Proof.Safety

open Sys2Proof.Machine

/-! #### Bytes into a buffer -/

/-- Transactions into a patron's memory are made. -/
def TakesOutput (d : Dev) (p : Nat) : Prop := ((d.pat p).st == .active || (d.pat p).st == .faulted) = true

theorem TakesOutput.of_frame {ps : List Part} {d e : Dev} {p : Nat} (h : TakesOutput d p) (frame : Frame ps d e) (n : .host ∉ ps) :
    TakesOutput e p := by
  have st := frame.patField n p (·.st)
  unfold TakesOutput
  rw [st]
  exact h

/-- A patron whose descriptors are fetched is ACTIVE. -/
theorem Grants.takesOutput {s : State} {op : Nat} {x : DescIn} (h : Grants s op x) : TakesOutput (granted s op x).2 x.patron := by
  have runs := h.runs
  unfold Dev.ringRuns at runs
  simp only [Bool.and_eq_true] at runs
  obtain ⟨⟨⟨⟨⟨⟨⟨_, active⟩, _⟩, _⟩, _⟩, _⟩, _⟩, _⟩ := runs
  unfold TakesOutput
  rw [granted_st, Bool.or_eq_true]
  exact .inl active

theorem emit_mem {d : Dev} {o : Out} (open_ : d.barred o = false) : o ∈ (d.emit o).out := by
  unfold Dev.emit
  rw [if_neg (by simp [open_])]
  exact List.mem_append_right _ List.mem_cons_self

theorem writeOut_tame (d : Dev) (x : DescIn) (field off : Nat) (b : List Byte) : Tame [.adm, .out] d (d.writeOut x field off b) := by
  unfold Dev.writeOut
  extract_lets own ps written
  have hWritten : Tame [.adm, .out] d written := (emit_tame ..).mono (by decide)
  exact .ite hWritten ((Frame.adm written _).tame.step (by decide) hWritten)

theorem writeOut_writes {d : Dev} {x : DescIn} (open_ : TakesOutput d x.patron) (field off : Nat) (b : List Byte) :
    Out.hostWrite x.patron x.tag (bodyOff field) off (.bytes b) ∈ (d.writeOut x field off b).out := by
  unfold Dev.writeOut
  extract_lets own ps written
  have sent : Out.hostWrite x.patron x.tag (bodyOff field) off (.bytes b) ∈ written.out := emit_mem (by
    unfold TakesOutput at open_
    simp only [Dev.barred, open_, Bool.not_true])
  split
  · exact sent
  · exact sent

theorem Tame.keepsOut {ps : List Part} {d e : Dev} (h : Tame ps d e) {o : Out} (sent : o ∈ d.out) : o ∈ e.out := h.out.subset sent

/-- Every step of a run of outputs leaves its own. -/
theorem mem_foldl_out {α : Type} {ps : List Part} {f : Dev → α → Dev} (tame : ∀ d y, Tame ps d (f d y)) (n : .host ∉ ps) {p : Nat} {l : List α}
    {y : α} (listed : y ∈ l) {o : Out} (sends : ∀ d, TakesOutput d p → o ∈ (f d y).out) {d : Dev} (open_ : TakesOutput d p) :
    o ∈ (l.foldl f d).out := by
  induction l generalizing d with
  | nil => cases listed
  | cons z l ih =>
    rw [List.foldl_cons]
    obtain rfl | later := List.mem_cons.mp listed
    · exact ((Tame.refl ps (f d y)).foldl tame).keepsOut (sends d open_)
    · exact ih later (open_.of_frame (tame d z).frame n)

/-! #### The heads of a MERGE -/

theorem foldl_fixed {α β : Type} {f : β → α → β} {c : β} {l : List α} (fixed : ∀ y ∈ l, f c y = c) : l.foldl f c = c := by
  induction l with
  | nil => rfl
  | cons y l ih =>
    rw [List.foldl_cons, fixed y List.mem_cons_self]
    exact ih fun z h => fixed z (List.mem_cons_of_mem _ h)

/-- Where every input is empty, the largest MAX is −∞. -/
theorem mergeMax_empty {x : DescIn} {k : Nat} (empty : ∀ b ∈ x.parts 16, emptyAt x b k = true) : mergeMax x k = f32Inf true := by
  have minus : ∀ b ∈ x.parts 16, fieldAt b ((mergeGeom x).2.2.2.2.1 + 4 * k) 4 = f32Inf true := fun b h => by
    have this := empty b h
    unfold emptyAt at this
    simp only [Bool.and_eq_true, beq_iff_eq] at this
    exact this.1.1
  unfold mergeMax
  refine foldl_fixed fun b h => ?_
  dsimp only
  rw [minus b h]
  generalize f32Inf true = c
  split
  · exact ite_self ..
  · rfl
  · rfl

/-- Bytes of an output element of a MERGE (R168). -/
def mergeElem (x : DescIn) : Nat := if x.fld 1 1 1 = 1 then 4 else 2

/-- The sections of a PARTIAL output of a MERGE (R169). -/
def mergeLayout (x : DescIn) : Nat × Nat × Nat := partialLayout (x.fld 4 0 16) (x.fld 6 0 16) (x.fld 8 0 16) (mergeElem x)

/-- A head's values into the output; with PARTIAL its MAX and LSE after them. -/
def headOut (d : Dev) (x : DescIn) (k : Nat) (acc lse : List Byte) : Dev :=
  if x.fld 1 2 1 = 1 then
    ((d.writeOut x 32 (k * x.fld 8 0 16 * mergeElem x) acc).writeOut x 32 ((mergeLayout x).1 + 4 * k) (leBytes 4 (mergeMax x k))).writeOut x 32
      ((mergeLayout x).2.1 + 4 * k) lse
  else d.writeOut x 32 (k * x.fld 8 0 16 * mergeElem x) acc

/-- A merged head is zeros where every input is empty. -/
theorem mergeHead_eq (d : Dev) (q : Req) (pick : List Nat → Nat) (k : Nat) : ∃ acc lse, d.mergeHead q pick k = headOut d q.d k acc lse
    ∧ ((∀ b ∈ q.d.parts 16, emptyAt q.d b k = true) → acc = List.replicate (q.d.fld 8 0 16 * mergeElem q.d) 0) := by
  unfold Dev.mergeHead mergeGeom headOut mergeLayout mergeElem
  dsimp only
  simp only [beq_iff_eq]
  split
  · next none =>
    have empty : ∀ b ∈ q.d.parts 16, emptyAt q.d b k = true := fun b h => by
      simpa using List.filter_eq_nil_iff.mp none b h
    exact ⟨List.replicate _ 0, leBytes 4 (f32Inf true), by rw [mergeMax_empty empty], fun _ => rfl⟩
  · next b bs some =>
    have seen : ¬ ∀ b ∈ q.d.parts 16, emptyAt q.d b k = true := fun empty => by
      have live : b ∈ (q.d.parts 16).filter fun b => !emptyAt q.d b k := some ▸ List.mem_cons_self
      obtain ⟨listed, full⟩ := List.mem_filter.mp live
      simp [empty b listed] at full
    split
    · exact ⟨_, _, rfl, fun empty => absurd empty seen⟩
    · exact ⟨_, _, rfl, fun empty => absurd empty seen⟩

theorem headOut_tame (d : Dev) (x : DescIn) (k : Nat) (acc lse : List Byte) : Tame [.adm, .out] d (headOut d x k acc lse) :=
  .ite (((writeOut_tame ..).trans (writeOut_tame ..)).trans (writeOut_tame ..)) (writeOut_tame ..)

theorem headOut_acc {d : Dev} {x : DescIn} (open_ : TakesOutput d x.patron) (k : Nat) (acc lse : List Byte) :
    Out.hostWrite x.patron x.tag (bodyOff 32) (k * x.fld 8 0 16 * mergeElem x) (.bytes acc) ∈ (headOut d x k acc lse).out := by
  have written := writeOut_writes open_ 32 (k * x.fld 8 0 16 * mergeElem x) acc
  unfold headOut
  split
  · exact ((writeOut_tame ..).trans (writeOut_tame ..)).keepsOut written
  · exact written

theorem headOut_max {d : Dev} {x : DescIn} (open_ : TakesOutput d x.patron) (k : Nat) (acc lse : List Byte) (part : x.fld 1 2 1 = 1) :
    Out.hostWrite x.patron x.tag (bodyOff 32) ((mergeLayout x).1 + 4 * k) (.bytes (leBytes 4 (mergeMax x k))) ∈ (headOut d x k acc lse).out := by
  unfold headOut
  rw [if_pos part]
  exact (writeOut_tame ..).keepsOut (writeOut_writes (open_.of_frame (writeOut_tame ..).frame (by decide)) ..)

theorem mergeHead_tame (d : Dev) (q : Req) (pick : List Nat → Nat) (k : Nat) : Tame [.adm, .out] d (d.mergeHead q pick k) := by
  obtain ⟨acc, lse, eq, -⟩ := mergeHead_eq d q pick k
  rw [eq]
  exact headOut_tame ..

/-! #### The row -/

/-- Every head of a MERGE. -/
def mergedHeads (d : Dev) (q : Req) : Dev :=
  (List.range (q.d.fld 4 0 16 * q.d.fld 6 0 16)).foldl (fun (e : Dev) k => e.mergeHead q (pickAt (Config.choice d.free) [k]) k) d.draw.2

theorem mergedHeads_tame (d : Dev) (q : Req) : Tame [.adm, .out] d.draw.2 (mergedHeads d q) := (Tame.refl ..).foldl fun _ _ => mergeHead_tame ..

theorem opMerge_heads {d : Dev} {q : Req} (taken : q.d.refuses 32 = false) : d.opMerge q = (mergedHeads d q, some {}) := by
  unfold Dev.opMerge
  rw [if_neg (by simp [taken])]
  rfl

/-- What one head leaves stands in the output after all of them. -/
theorem mem_mergedHeads {d : Dev} {q : Req} (open_ : TakesOutput d q.d.patron) {k : Nat} (head : k < q.d.fld 4 0 16 * q.d.fld 6 0 16) {o : Out}
    (sends : ∀ e pick, TakesOutput e q.d.patron → o ∈ (e.mergeHead q pick k).out) : o ∈ (mergedHeads d q).out :=
  mem_foldl_out (f := fun (e : Dev) k => e.mergeHead q (pickAt (Config.choice d.free) [k]) k) (d := d.draw.2) (fun _ _ => mergeHead_tame ..)
    (by decide) (List.mem_range.mpr head) (fun e open_ => sends e _ open_) open_

end Sys2Proof.Safety
end

section
/-! ### ATTEND from its walks to its answer (R174 to R182, R280, R283) -/

namespace Sys2Proof.Safety

open Sys2Proof.Machine

/-! #### The walks -/

/-- A request whose ATTEND has begun its walks: it names them and their profile, and none of its spans is vacant. -/
theorem attendPlan_ready {d₀ d : Dev} {q₀ q : Req} (plan : d₀.attendPlan q₀ = (d, q, none)) : (∃ ws prof, q = { q₀ with walks := ws, prof := prof })
    ∧ d.attendRecompute q (d.attendViews q) = none := by
  unfold Dev.attendPlan at plan
  split at plan
  · cases plan
  · dsimp only at plan
    split at plan
    · cases plan
    · next none =>
      cases plan
      exact ⟨⟨_, _, rfl⟩, none⟩

theorem attendPlan_empty {d : Dev} {q : Req} (resolves : d.attendResolve q.d q.d.patron = (none, [])) :
    d.attendPlan q = (d, { q with walks := [], prof := 0 }, none) := by
  have views : ∀ r : Req, r.walks = [] → d.attendViews r = [] := fun r none => by
    unfold Dev.attendViews
    rw [none, List.zip_nil_right]
    rfl
  unfold Dev.attendPlan
  rw [resolves]
  have none_ : d.attendRecompute { q with walks := [], prof := 0 } (d.attendViews { q with walks := [], prof := 0 }) = none := by
    rw [views _ rfl]
    rfl
  dsimp only
  split
  · next found => cases none_.symm.trans found
  · rfl

/-- An ATTEND that names no sequence begins again where it began. -/
theorem attendPlan_again {d₀ d : Dev} {q₀ q : Req} (plan : d₀.attendPlan q₀ = (d, q, none)) (none_ : q.walks = []) (m : Option Nat) :
    d.attendPlan { q with merge := m } = (d, { q with merge := m }, none) := by
  unfold Dev.attendPlan at plan
  cases found : d₀.attendResolve q₀.d q₀.d.patron with
  | mk a rs =>
    rw [found] at plan
    cases a with
    | some a => cases plan
    | none =>
      dsimp only at plan
      split at plan
      · cases plan
      · next none =>
        cases plan
        obtain rfl : rs = [] := by
          dsimp only at none_
          simpa using none_
        exact attendPlan_empty (d := d₀) (q := { q₀ with walks := [], prof := 0, merge := m }) found

/-! #### What an ATTEND that can compute finds -/

/-- The spans of a request's walks that have a visible key. -/
def attendSpans (d : Dev) (q : Req) : List Nat := (d.attendViews q).flatMap fun v => (v.reads q.d).map (·.2)

/-- A step leaves which spans are damaged, and which frames have poisoned lines. -/
structure SameSoundness (d e : Dev) : Prop where
  damaged : ∀ i, (e.span? i).map (·.damaged) = (d.span? i).map (·.damaged)
  frames : e.flt.frames = d.flt.frames

theorem SameSoundness.refl (d : Dev) : SameSoundness d d := ⟨fun _ => rfl, rfl⟩

theorem SameSoundness.trans {d e f : Dev} (h : SameSoundness d e) (k : SameSoundness e f) : SameSoundness d f :=
  ⟨fun i => (k.damaged i).trans (h.damaged i), k.frames.trans h.frames⟩

theorem SameSoundness.of_frame {ps : List Part} {d e : Dev} (h : Frame ps d e) (n : .seqs ∉ ps ∧ .flt ∉ ps) : SameSoundness d e :=
  ⟨fun i => by rw [span_of_seqs (h.same .seqs n.1)], h.fltField n.2 (·.frames)⟩

theorem modSpan_soundness (d : Dev) (i : Nat) {f : Span → Span} (h : ∀ s, (f s).damaged = s.damaged) : SameSoundness d (d.modSpan i f) := by
  refine ⟨fun j => ?_, rfl⟩
  by_cases same : i = j
  · subst same
    rw [span_modSpan_same, Option.map_map]
    exact congrArg (fun g => (d.span? i).map g) (funext h)
  · rw [span_modSpan_other d same]

theorem SameSoundness.foldl {α : Type} {d e : Dev} {f : Dev → α → Dev} {l : List α} (h : SameSoundness d e)
    (step : ∀ x y, SameSoundness x (f x y)) : SameSoundness d (l.foldl f e) := by
  induction l generalizing e with
  | nil => exact h
  | cons y l ih => exact ih (h.trans (step e y))

theorem SameSoundness.ite {c : Prop} [Decidable c] {d e f : Dev} (h : SameSoundness d e) (g : SameSoundness d f) :
    SameSoundness d (if c then e else f) := by
  split
  · exact h
  · exact g

theorem startPromo_soundness (d : Dev) (i l p kind cls : Nat) (adm : Option (Nat × Nat)) (tight : Bool) :
    SameSoundness d (d.startPromo i l p kind cls adm tight) := by
  unfold Dev.startPromo
  split
  · exact .refl d
  · refine .ite (.refl d) ?_
    extract_lets place counted m dropped tierSt promoted
    split
    · extract_lets raised joined told
      have hTold : SameSoundness d told := .ite (.of_frame (count_frame ..) (by decide)) (.refl d)
      exact hTold.trans (.of_frame (Frame.tier told _) (by decide))
    · have hCounted : SameSoundness d counted := .ite (.of_frame (count_frame ..) (by decide)) (.refl d)
      have hDropped : SameSoundness d dropped := hCounted.trans (.of_frame (dropDemo_tame ..).frame (by decide))
      exact (hDropped.trans (.of_frame (Frame.tier dropped _) (by decide))).trans (modSpan_soundness _ i fun _ => rfl)

theorem deepLead_soundness (d : Dev) (own layer : Nat) (spans : List Nat) (adm : Option (Nat × Nat)) :
    SameSoundness d (d.deepLead own layer spans adm) := by
  refine (SameSoundness.refl d).foldl fun e i => ?_
  split
  · exact .ite ((startPromo_soundness ..).trans (.of_frame (count_frame ..) (by decide))) (.refl e)
  · exact .refl e

theorem frameBad_clean {d : Dev} (clean : d.flt.frames = []) (i layer form : Nat) : d.frameBad i layer form = false := by
  rw [Dev.frameBad, clean]
  rfl

theorem shedBad_clean {d : Dev} (clean : d.flt.frames = []) (layer : Nat) (tail twin : Bool) (i : Nat) : d.shedBad layer tail twin i = d := by
  unfold Dev.shedBad
  simp only [frameBad_clean clean, Bool.and_false, Bool.false_eq_true, if_false]

theorem shedRead_clean {d : Dev} (clean : d.flt.frames = []) (x : DescIn) (v : AtnView) (layer : Nat) (e : Nat × Nat) :
    Dev.shedRead x v layer d e = d := by
  unfold Dev.shedRead
  dsimp only
  rw [shedBad_clean clean, shedBad_clean clean]

/-- An ATTEND whose walks have begun computes: its spans are resident and sound. -/
theorem attendRun_computes {d : Dev} {q : Req} (begun : d.attendRecompute q (d.attendViews q) = none)
    (resident : (d.deepLead q.d.patron (atnLayer q.d) (attendSpans d q) (some (q.admTick, q.admNo))).awaited (atnLayer q.d) (attendSpans d q) = [])
    (sound : ∀ i ∈ attendSpans d q, ∀ y, d.span? i = some y → y.damaged = false) (clean : d.flt.frames = []) :
    ∃ (e : Dev) (p : Profile), d.attendRun q = ((e.attendCompute q p (d.attendViews q)).1, { q with waits := false, stall := 0 },
      some (e.attendCompute q p (d.attendViews q)).2) := by
  have kept := deepLead_soundness d q.d.patron (atnLayer q.d) (attendSpans d q) (some (q.admTick, q.admNo))
  unfold Dev.attendRun
  dsimp only
  rw [begun]
  dsimp only
  unfold attendSpans at resident sound kept
  rw [resident]
  generalize d.deepLead q.d.patron (atnLayer q.d) _ (some (q.admTick, q.admNo)) = e at kept ⊢
  dsimp only
  have clean' : e.flt.frames = [] := kept.frames.trans clean
  have sheds : (d.attendViews q).foldl (fun (d : Dev) v => (v.reads q.d).foldl (Dev.shedRead q.d v (atnLayer q.d)) d) e = e := 
    foldl_fixed fun v _ => foldl_fixed fun r _ => shedRead_clean clean' ..
  rw [sheds]
  split
  · next i pos found => 
    obtain ⟨v, view, h⟩ := List.exists_of_findSome?_eq_some found
    obtain ⟨r, read, h⟩ := List.exists_of_findSome?_eq_some h
    split at h
    · next y span =>
      have same := kept.damaged r.2
      rw [span] at same
      obtain ⟨y', span', same⟩ := Option.map_eq_some_iff.mp same.symm
      have whole : y.damaged = false := same.symm.trans (sound r.2 (List.mem_flatMap.mpr ⟨v, view, List.mem_map.mpr ⟨r, read, rfl⟩⟩) y' span')
      have fit : e.readPoisoned r.2 (atnLayer q.d) (readOf q.d v r.1 (atnLayer q.d) y) y = false := by
        unfold Dev.readPoisoned
        rw [whole, frameBad_clean clean']
        simp
      rw [fit] at h
      cases h
    · cases h
  · exact ⟨e, _, rfl⟩

/-! #### The answer -/

theorem attendCompute_answers {d : Dev} {q : Req} (p : Profile) (vs : List AtnView) (taken : q.d.refuses 64 = false)
    (recorded : (q.d.buf 80).absent = true ∨ q.d.refuses 80 = false) : (d.attendCompute q p vs).2.status = stOk
    ∧ (d.attendCompute q p vs).2.r0 % 2 ^ 32 = (if atnBatch q.d then 0xFFFF_FFFF else (vs.head?.map (·.gen)).getD 0) % 2 ^ 32
    ∧ (d.attendCompute q p vs).2.r1 % 2 ^ 32 = min (vs.map fun v => v.keys q.d).sum (2 ^ 32 - 1) := by
  unfold Dev.attendCompute
  extract_lets x allow tol tau guard pick a vecs fs st ents total g screened
  rw [if_neg (by simp [x, taken]), if_neg (by obtain h | h := recorded <;> simp [x, h])]
  dsimp only
  have tokens : total (·.tokens) = (vs.map fun v => v.keys x).sum := by
    have each : ents.map (·.tokens) = vs.map fun v => v.keys x := by
      conv_rhs => rw [← List.zipIdx_map_fst 0 vs, List.map_map]
      exact List.map_map
    exact congrArg List.sum each
  refine ⟨rfl, ?_, ?_⟩
  · generalize (if atnBatch x then 0xFFFF_FFFF else (vs.head?.map (·.gen)).getD 0) = r
    omega
  · rw [tokens]
    change (_ + 2 ^ 32 * g) % 2 ^ 32 = min (vs.map fun v => v.keys x).sum (2 ^ 32 - 1)
    generalize (vs.map fun v => v.keys x).sum = n
    generalize g = m
    omega

/-! #### The row -/

/-- An ATTEND with its walks runs as it is, whether or not they are empty. -/
theorem opAttend_begun {d₀ d : Dev} {q₀ q : Req} (plan : d₀.attendPlan q₀ = (d, q, none)) : d.opAttend (named d q) = d.attendRun (named d q) := by
  unfold Dev.opAttend
  split
  · next none =>
    have again : d.attendPlan (named d q) = (d, named d q, Option.none) :=
      attendPlan_again plan (List.isEmpty_iff.mp none) (some (d.mergeCluster q))
    simp only [again]
  · rfl

/-- An ATTEND whose walks begin, whose spans are resident and sound and whose buffers are accepted completes OK. -/
theorem attend_answers {s : State} {x : DescIn} {d : Dev} {q : Req} (h : Attends s x d q) : After (.attend x) s fun t =>
    (∃ a : Ans, Answered (granted s 0x01 x).1 a t ∧ a.status = stOk
      ∧ a.r0 % 2 ^ 32 = (if atnBatch x then 0xFFFF_FFFF else ((d.attendViews q).head?.map (·.gen)).getD 0) % 2 ^ 32
      ∧ a.r1 % 2 ^ 32 = min ((d.attendViews q).map fun v => v.keys x).sum (2 ^ 32 - 1))
    ∧ t.pending = s.pending ∧ t.mem = s.mem := by
  obtain ⟨grants, plan, served, resident, clean, taken, recorded⟩ := h
  have run := descriptor_walk grants (.inl rfl) plan served grants.first
  have begun := opAttend_begun plan
  obtain ⟨⟨ws, prof, rfl⟩, ready⟩ := attendPlan_ready plan
  have found := resident _ rfl
  obtain ⟨e, p, computes⟩ := attendRun_computes (q := named d { (granted s 0x01 x).1 with walks := ws, prof := prof }) ready found.1 found.2 clean
  have answer := attendCompute_answers (d := e) (q := named d { (granted s 0x01 x).1 with walks := ws, prof := prof }) p
    (d.attendViews { (granted s 0x01 x).1 with walks := ws, prof := prof }) taken recorded
  rw [runOp_01 _ _ rfl, State.runAttend, begun, computes] at run
  exact .of_exec (congrArg Host.Outcome.next run) ⟨⟨_, answers_answered .., answer⟩, rfl, rfl⟩

end Sys2Proof.Safety
end

section
/-! ### DELIVER of folios from its walk to its answer (R273, R275) -/

namespace Sys2Proof.Safety

open Sys2Proof.Machine

/-! #### Blocks -/

/-- A run over a device and something besides changes of the device what each step does. -/
theorem foldl_frame {α β : Type} {ps : List Part} {f : β → α → β} (dev : β → Dev) (step : ∀ r y, Frame ps (dev r) (dev (f r y))) (l : List α) (r : β) :
    Frame ps (dev r) (dev (l.foldl f r)) := by
  induction l generalizing r with
  | nil => exact .refl ..
  | cons y l ih => exact (step r y).trans (ih (f r y))

theorem images_frame (d : Dev) (strict : Bool) (layer i : Nat) : Frame [.free] d (d.images strict layer i).2 := by
  unfold Dev.images
  split
  · exact .refl ..
  · exact Frame.free d _

theorem allImages_frame (d : Dev) (strict : Bool) (layer : Nat) (spans : List Nat) : Frame [.free] d (d.allImages strict layer spans).2 := by
  unfold Dev.allImages
  exact foldl_frame (f := fun (r : List Image × Dev) i => (r.1 ++ (r.2.images strict layer i).1, (r.2.images strict layer i).2)) (·.2)
    (fun r i => images_frame r.2 strict layer i) spans ([], d)

theorem deliverBlocks_frame (s : State) (q : Req) (ss : List Nat) (ws : List (Nat × Nat)) : Frame [.free] s.dev (s.deliverBlocks q ss ws).2 := by
  unfold State.deliverBlocks
  exact foldl_frame (fun r : List (Nat × List Byte) × Nat × Dev => r.2.2) (fun r i => allImages_frame r.2.2 _ _ ss) (List.range (q.d.fld 4 0 16))
    ([], 0, s.dev)

/-! #### What a DELIVER of folios finds -/

/-- The walk of a DELIVER of folios has begun. -/
theorem deliverPlan_ready {d₀ d : Dev} {q₀ q : Req} (folios : q₀.d.fld 0 0 1 = 1) (plan : d₀.deliverPlan q₀ = (d, q, none)) :
    (∃ w prof, q = { q₀ with walks := [w], prof := prof }) ∧ Frame [.seqs] d₀ d := by
  unfold Dev.deliverPlan at plan
  dsimp only at plan
  rw [if_neg (not_not.mpr folios)] at plan
  split at plan
  · cases plan
  split at plan
  · cases plan
  split at plan
  · cases plan
  split at plan
  · cases plan
  · cases plan
    exact ⟨⟨_, _, rfl⟩, beginWalk_frame ..⟩

/-- The bytes of a DELIVER's blocks in its output buffer. -/
def blocksOut (d : Dev) (x : DescIn) (bs : List (Nat × List Byte)) : Dev := bs.foldl (fun (d : Dev) b => d.writeOut x 32 b.1 b.2) d

theorem blocksOut_writes {d : Dev} {x : DescIn} (open_ : TakesOutput d x.patron) {bs : List (Nat × List Byte)} {b : Nat × List Byte} (listed : b ∈ bs) :
    Out.hostWrite x.patron x.tag (bodyOff 32) b.1 (.bytes b.2) ∈ (blocksOut d x bs).out :=
  mem_foldl_out (f := fun (d : Dev) b => d.writeOut x 32 b.1 b.2) (fun _ _ => writeOut_tame ..) (by decide) listed (fun _ open_ => writeOut_writes open_ ..) open_

theorem foldl_max_le {l : List Nat} {m n : Nat} (start : m ≤ n) (all : ∀ k ∈ l, k ≤ n) : l.foldl max m ≤ n := by
  induction l generalizing m with
  | nil => exact start
  | cons k l ih =>
    exact ih (Nat.max_le.mpr ⟨start, all k List.mem_cons_self⟩) fun j h => all j (List.mem_cons_of_mem _ h)

/-- A DELIVER may write: its folios are present, resident and sound, and fit its buffer. -/
structure MayDeliver (s : State) (q : Req) : Prop where
  present : (firstSpans q).findIdx? s.dev.vacantAt = none
  resident : s.dev.awaited (q.d.fld 2 0 16 + q.d.fld 4 0 16 - 1) (firstSpans q) = []
  clean : s.dev.flt.frames = []
  sound : ∀ i ∈ firstSpans q, s.dev.blockPoisoned 0 i = false
  noWeights : q.d.fld 0 1 1 = 0
  fits : ∀ b ∈ (s.deliverBlocks q (firstSpans q) []).1, b.1 + b.2.length ≤ q.d.outLen 32
  taken : q.d.refuses 32 = false

theorem blockPoisoned_clean {d : Dev} {i : Nat} (clean : d.flt.frames = []) (sound : d.blockPoisoned 0 i = false) (layer : Nat) :
    d.blockPoisoned layer i = false := by
  unfold Dev.blockPoisoned at sound ⊢
  split
  · rfl
  · next y span =>
    rw [span] at sound
    simp only [frameBad_clean clean] at sound ⊢
    exact sound

/-- What a DELIVER leaves of the device. -/
def delivered (s : State) (q : Req) : Dev :=
  blocksOut ((firstSpans q).foldl Dev.touch ((s.deliverBlocks q (firstSpans q) []).2.dropFetch q.id)) q.d (s.deliverBlocks q (firstSpans q) []).1

theorem deliverRun_delivers {s : State} {q : Req} (h : MayDeliver s q) : s.deliverRun q = ({ s with dev := delivered s q }, { q with waits := false, stall := 0 },
    some { r0 := (q.walks.head?.map (·.gen)).getD 0
           r1 := ((s.deliverBlocks q (firstSpans q) []).1.map fun b => b.2.length).sum % 2 ^ 48 }) := by
  obtain ⟨present, resident, clean, sound, noWeights, fits, taken⟩ := h
  unfold delivered
  unfold firstSpans at *
  unfold State.deliverRun
  dsimp only
  rw [present]
  dsimp only
  rw [resident]
  dsimp only
  have sheds : ∀ layers : List Nat, (s.onDev fun d => layers.foldl (fun d l => ((q.walks.head?.map (·.spans)).getD []).foldl
      (Dev.shedBad · l true (q.d.fld 0 2 1 == 1)) d) d) = s := fun layers =>
    congrArg (fun d => ({ s with dev := d } : State)) (foldl_fixed fun l _ => foldl_fixed fun i _ => shedBad_clean clean ..)
  rw [sheds]
  have whole : ((q.walks.head?.map (·.spans)).getD []).find? (fun i => ((List.range (q.d.fld 4 0 16)).map (q.d.fld 2 0 16 + ·)).any
      fun l => s.dev.blockPoisoned l i) = none := by
    refine List.find?_eq_none.mpr fun i listed => ?_
    simp [blockPoisoned_clean clean (sound i listed)]
  rw [whole]
  dsimp only
  rw [if_neg (by rw [noWeights]; decide)]
  dsimp only
  generalize s.deliverBlocks q _ [] = r at fits ⊢
  obtain ⟨bs, e⟩ := r
  dsimp only at fits ⊢
  have stop : (bs.map fun b => b.1 + b.2.length).foldl max 0 ≤ q.d.outLen 32 := foldl_max_le (Nat.zero_le _) fun k h => by
    obtain ⟨b, listed, rfl⟩ := List.mem_map.mp h
    exact fits b listed
  rw [if_neg (Nat.not_lt.mpr stop), if_neg (by simp [taken])]
  rfl

/-! #### The row -/

/-- A DELIVER of folios that are present, resident and sound, and fit an accepted buffer, writes every block there. -/
theorem deliver_answers {s : State} {x : DescIn} {d : Dev} {q : Req} (h : Delivers s x d q) : After (.deliver x) s fun t =>
    (∀ b ∈ (({ s with dev := d }).deliverBlocks q (firstSpans q) []).1, Out.hostWrite x.patron x.tag (bodyOff 32) b.1 (.bytes b.2) ∈ t.dev.out)
    ∧ Answered (granted s 0x22 x).1 { r0 := (q.walks.head?.map fun (w : Walk) => w.gen).getD 0
                                      r1 := ((({ s with dev := d }).deliverBlocks q (firstSpans q) []).1.map
                                        fun (b : Nat × List Byte) => b.2.length).sum % 2 ^ 48 } t
    ∧ t.pending = s.pending ∧ t.mem = s.mem := by
  obtain ⟨grants, folios, noWeights, plan, served, present, resident, ⟨clean, sound⟩, fits, taken⟩ := h
  have run := descriptor_walk grants (.inr rfl) plan served grants.first
  obtain ⟨⟨w, prof, rfl⟩, planned⟩ := deliverPlan_ready folios plan
  have open_ := grants.takesOutput.of_frame planned (by decide)
  have delivers := deliverRun_delivers (s := { s with dev := d }) (q := named d { (granted s 0x22 x).1 with walks := [w], prof := prof })
    ⟨present, resident, clean, sound, noWeights, fits, taken⟩
  have begun : ({ s with dev := d } : State).opDeliver (named d { (granted s 0x22 x).1 with walks := [w], prof := prof })
      = ({ s with dev := d } : State).deliverRun (named d { (granted s 0x22 x).1 with walks := [w], prof := prof }) := if_neg (by simp [named])
  have op : ({ s with dev := d } : State).runOp (named d { (granted s 0x22 x).1 with walks := [w], prof := prof })
      = ({ s with dev := d } : State).runDeliver (named d { (granted s 0x22 x).1 with walks := [w], prof := prof }) := rfl
  rw [op, State.runDeliver, begun, delivers] at run
  refine .of_exec (congrArg Host.Outcome.next run) ⟨fun b listed => ?_, answers_answered .., rfl, rfl⟩
  have read := deliverBlocks_frame { s with dev := d } (named d { (granted s 0x22 x).1 with walks := [w], prof := prof }) w.spans []
  change _ ∈ ((delivered { s with dev := d } (named d { (granted s 0x22 x).1 with walks := [w], prof := prof })).finish _ _).out
  rw [(finish_frame ..).same .out (by decide)]
  refine blocksOut_writes ?_ listed
  refine open_.of_frame (ps := [.free, .fab, .seqs]) ?_ (by decide)
  exact ((dropFetch_frame ..).step (by decide) (read.mono (by decide))).foldl fun _ _ => (modSpan_frame ..).mono (by decide)

end Sys2Proof.Safety
end

section
/-! ### Reads, hints, streams and deliveries: the rows -/

namespace Sys2Proof.Safety

open Sys2Proof.Machine

/-! #### Rows that answer at once -/

section
variable {s : State} {x : DescIn}

theorem merge_answers (h : Grants s 0x02 x) (taken : x.refuses 32 = false) {P : State → Prop}
    (post : ∀ t, t.dev = (mergedHeads (granted s 0x02 x).2 (ran s 0x02 x)).finish (ran s 0x02 x) {} → Answered (granted s 0x02 x).1 {} t →
      Changes [.adm, .rings, .ctrs, .out, .free] s t → P t) : After (.merge x) s P := by
  refine .of_answers rfl h (by decide) (e := mergedHeads (granted s 0x02 x).2 (ran s 0x02 x)) (a := {}) (ps := [.adm, .rings, .ctrs, .out, .free])
    ?_ ?_ (by decide) post
  · rw [runOp_02 _ _ rfl]
    change (grantedState s 0x02 x).mayWait _ ((granted s 0x02 x).2.opMerge (ran s 0x02 x)) = _
    rw [opMerge_heads (q := ran s 0x02 x) taken]
    rfl
  · exact (mergedHeads_tame ..).frame.step (by decide) ((Frame.free (granted s 0x02 x).2 _).mono (by decide))

theorem granted_span (op i : Nat) : (granted s op x).2.span? i = s.dev.span? i := span_of_seqs (granted_seqs ..) i

theorem granted_live (op i : Nat) : (granted s op x).2.live? i = s.dev.live? i := by rw [Dev.live?, Dev.live?, granted_span]

theorem granted_visibleBefore (op p i : Nat) (sp : Span) : (granted s op x).2.visibleBefore p i sp = s.dev.visibleBefore p i sp := by
  simp only [Dev.visibleBefore, Dev.holds, Dev.shareCtrl, granted_cat, granted_flt, granted_tim]

theorem granted_hintVacant (op i : Nat) : (granted s op x).2.hintVacant i = s.dev.hintVacant i := by
  simp only [Dev.hintVacant, granted_tier, granted_span]

theorem granted_seq (op p n : Nat) : (granted s op x).2.seq? p n = s.dev.seq? p n := by rw [Dev.seq?, Dev.seq?, granted_seqs]

theorem granted_prof (op n : Nat) : (granted s op x).2.prof n = s.dev.prof n := by rw [Dev.prof, Dev.prof, granted_seqs]

theorem granted_shelfOn (op w : Nat) : (granted s op x).2.shelfOn w = s.dev.shelfOn w := by simp only [Dev.shelfOn, granted_tier, granted_reg]

/-- What a MERGE leaves in the output stays through its completion. -/
theorem merged_out {q : Req} {d e : Dev} {a : Ans} (t : e = (mergedHeads d q).finish q a) : e.out = (mergedHeads d q).out := by
  rw [t]
  exact (finish_frame ..).same .out (by decide)

end

/-- A stream leaves the table. -/
def streamRemoved (d : Dev) (key : Nat) : Dev := { d with tier := { d.tier with streams := tdel d.tier.streams key } }

theorem streamHeld_frame (d : Dev) (q : Req) (i : Nat) : Frame (.fab :: .seqs :: .tier :: evParts) d (streamHeld d q i) :=
  (Frame.tier (streamEnded d q.d.patron (q.d.fld 1 0 4)) _).step (by decide) (streamEnded_frame ..)

/-- A stream in a free slot. -/
theorem streamHeld_new {d : Dev} {q : Req} (i : Nat) (free : tget d.tier.streams (16 * q.d.patron + q.d.fld 1 0 4) = none) :
    Frame [.tier, .fab] d (streamHeld d q i) := by
  have stays : d.endStream q.d.patron (q.d.fld 1 0 4) 1 = d := by rw [Dev.endStream, free]
  have ended : Frame [.tier, .fab] d (streamEnded d q.d.patron (q.d.fld 1 0 4)) := by
    unfold streamEnded
    rw [stays]
    exact (dropFetch_frame ..).mono (by decide)
  exact (Frame.tier (streamEnded d q.d.patron (q.d.fld 1 0 4)) _).step (by decide) ended

/-- Settles O28: ATTEND and DELIVER through their walks, MERGE head by head, HINT and STREAM by the state they answer from. -/
theorem deliveryRowsComplete : Obligations.DeliveryRowsComplete := by
  intro s x
  refine ⟨fun d q => attend_answers, ?merge, ?hint, ?stop, ?start, fun d q => deliver_answers⟩
  case merge =>
    intro n h c e l m grants taken hn hh hc he layout
    have open_ := grants.takesOutput
    refine merge_answers grants taken fun t dev answered same => ⟨answered, fun k head empty => ?_, fun part k head => ?_, same⟩
    · subst hn hh hc he
      rw [merged_out dev]
      refine mem_mergedHeads open_ head fun f pick takes => ?_
      obtain ⟨acc, lse, eq, zeros⟩ := mergeHead_eq f (ran s 0x02 x) pick k
      rw [eq, zeros empty]
      exact headOut_acc takes ..
    · subst hn hh hc he
      have at_ : m = (mergeLayout x).1 := (congrArg Prod.fst layout).symm
      rw [merged_out dev, at_]
      refine mem_mergedHeads open_ head fun f pick takes => ?_
      obtain ⟨acc, lse, eq, -⟩ := mergeHead_eq f (ran s 0x02 x) pick k
      rw [eq]
      exact headOut_max takes k acc lse part
  case hint =>
    intro sp grants span touch live seen there
    have opcode := runOp_hint_touch (s := grantedState s 0x20 x) (q := ran s 0x20 x) rfl span touch ((granted_live 0x20 _).trans live)
      ((granted_visibleBefore 0x20 _ _ _).trans seen) ((granted_hintVacant 0x20 _).trans there)
    refine .of_answers rfl grants (by decide) (ps := [.adm, .rings, .ctrs, .seqs]) opcode ((modSpan_frame ..).mono (by decide)) (by decide)
      fun t dev answered same => ⟨?_, answered, same⟩
    refine ⟨{ sp with lastTick := s.dev.tim.count % 2 ^ 32 }, ?_, rfl⟩
    rw [dev, span_of_seqs ((finish_frame ..).same .seqs (by decide))]
    change (Dev.touch (granted s 0x20 x).2 x.object).span? x.object = _
    rw [Dev.touch, span_modSpan_same, granted_span, span_of_live live, granted_tim]
    rfl
  case stop =>
    intro st grants stop known
    have known' : tget (granted s 0x21 x).2.tier.streams (16 * x.patron + x.fld 1 0 4) = some st := by rw [granted_tier]; exact known
    have opcode : (grantedState s 0x21 x).runOp (ran s 0x21 x) = _ :=
      congrArg ((grantedState s 0x21 x).answers (ran s 0x21 x)) (opStream_stop (d := (granted s 0x21 x).2) (q := ran s 0x21 x) stop known')
    refine .of_answers rfl grants (by decide) (ps := .adm :: .fab :: .seqs :: .tier :: evParts) opcode
      ((streamEnded_frame ..).mono (by decide)) (by decide) fun t dev answered same => ⟨?_, answered, same.1, same.2.1, fun walk ended => ?_⟩
    · rw [dev, (finish_frame ..).same .tier (by decide)]
      exact streamEnded_gone ..
    · have ends := endStream_idle known' walk ended
      have removed : Frame [.adm, .rings, .ctrs, .tier] s.dev (streamRemoved (granted s 0x21 x).2 (16 * x.patron + x.fld 1 0 4)) :=
        (Frame.tier (granted s 0x21 x).2 _).step (by decide) ((granted_frame ..).mono (by decide))
      have event := (patEvent_event (streamRemoved (granted s 0x21 x).2 (16 * x.patron + x.fld 1 0 4)) x.patron 0x0101 (x.fld 1 0 4 + 256 * 1)
        st.delivered {}).from removed (by decide) (by decide) (by decide)
      have said := (patEvent_frame (streamRemoved (granted s 0x21 x).2 (16 * x.patron + x.fld 1 0 4)) x.patron 0x0101 (x.fld 1 0 4 + 256 * 1)
        st.delivered {}).step (qs := .adm :: .tier :: .fab :: evParts) (by decide) (removed.mono (by decide))
      have done : t.dev = ((((granted s 0x21 x).2.endStream x.patron (x.fld 1 0 4) 1).dropFetch (2 ^ 40 + (16 * x.patron + x.fld 1 0 4))).finish
        (ran s 0x21 x) { r0 := x.fld 1 0 4 }) := dev
      rw [ends] at done
      change t.dev = (((streamRemoved (granted s 0x21 x).2 (16 * x.patron + x.fld 1 0 4)).patEvent x.patron 0x0101 (x.fld 1 0 4 + 256 * 1)
        st.delivered).dropFetch (2 ^ 40 + (16 * x.patron + x.fld 1 0 4))).finish (ran s 0x21 x) { r0 := x.fld 1 0 4 } at done
      generalize (streamRemoved (granted s 0x21 x).2 (16 * x.patron + x.fld 1 0 4)).patEvent x.patron 0x0101 (x.fld 1 0 4 + 256 * 1)
        st.delivered = e at done event said
      have flt : t.dev.flt = e.flt := by
        rw [done]
        exact (finish_frame ..).flt_eq (by decide) (by decide)
      refine ⟨event.after flt, same.1, same.2.1, ?_⟩
      rw [done]
      exact (finish_frame ..).step (by decide) ((dropFetch_frame ..).step (by decide) said)
  case start =>
    intro i r grants start seq layer on
    have opcode : (grantedState s 0x21 x).runOp (ran s 0x21 x) = _ :=
      congrArg ((grantedState s 0x21 x).answers (ran s 0x21 x)) (opStream_start (d := (granted s 0x21 x).2) (q := ran s 0x21 x) (i := i) (r := r) start
        ((granted_seq 0x21 _ _).trans seq) (by rw [granted_prof]; exact layer) fun deliver => (granted_shelfOn 0x21 _).trans (on deliver))
    have emitted : ∀ (c : Prop) [Decidable c] (e : Dev) o, Frame [.out] e (if c then e.emit o else e) := fun c _ e o => .ite (emit_frame ..) (.refl ..)
    have held := streamHeld_frame (granted s 0x21 x).2 (ran s 0x21 x) i
    refine .of_answers rfl grants (by decide) (ps := .adm :: .fab :: .seqs :: .tier :: evParts) opcode
      ((emitted ..).step (by decide) (held.mono (by decide))) (by decide) fun t dev answered same =>
        ⟨⟨streamOf (ran s 0x21 x) i, ?_, rfl, rfl, rfl, rfl, rfl, rfl, rfl, rfl, rfl, rfl, rfl, rfl, rfl⟩, fun deliver => ?_, answered, same.1, same.2.1,
          fun free => ⟨same.1, same.2.1, ?_⟩⟩
    · rw [dev, (finish_frame ..).same .tier (by decide), (emitted ..).same .tier (by decide)]
      exact tget_tset_same ..
    · rw [dev, (finish_frame ..).same .out (by decide), if_pos (show (ran s 0x21 x).d.fld 0 0 2 = 1 from deliver)]
      exact emit_mem rfl
    · rw [dev]
      refine (finish_frame ..).step (by decide) ((emitted ..).step (by decide) ?_)
      have idle := streamHeld_new (q := ran s 0x21 x) i ((congrArg (fun t : TierSt => tget t.streams _) (granted_tier s 0x21 x)).trans free)
      exact idle.step (by decide) ((granted_frame ..).mono (by decide))

end Sys2Proof.Safety
end

section
/-! ### Edits of sequences from their plan to their answer (R192, R202 to R211, R217) -/

namespace Sys2Proof.Safety

open Sys2Proof.Machine

/-! #### From the plan to the completion -/

/-- The plan of an edit does not move the clock. -/
theorem Planned.count {s : State} {op : Nat} {x : DescIn} {d : Dev} (h : Planned s op x d) : d.tim.count = s.dev.tim.count := by
  have planned := (planOne_spares (granted s op x).2 (granted s op x).2.adm.held (granted s op x).1).frame
  rw [h.ready] at planned
  exact (planned.timField (by decide) (·.count)).trans (by rw [granted_tim])

/-- An edit that is answered keeps what it made, and its completion is due. -/
theorem After.of_edit {c : Instr} {s : State} {op : Nat} {x : DescIn} {d e : Dev} {a : Ans} {f : Dev → Req → EdRes} {P : State → Prop}
    (run : exec c s = .next (s.descriptor op x)) (h : Planned s op x d) (edit : isEdit op = true)
    (opcode : ∀ (t : State) (q : Req), q.op = op → t.runOp q = t.runEdit f q)
    (effect : f (d.dropResv (granted s op x).1.id) (named d (granted s op x).1) = countEdit x.patron (e, some a)) (ok : a.status = stOk)
    (post : ∀ t, t.dev.seqs.recs = e.seqs.recs → t.dev.seqs.spans = e.seqs.spans → Answered (granted s op x).1 a t → t.pending = s.pending →
      t.mem = s.mem → P t) : After c s P := by
  have counted : countEdit x.patron (e, some a) = (e.count .editOk x.patron, some a) := by
    unfold countEdit
    dsimp only
    rw [if_pos ok]
  rw [counted] at effect
  have kept : (e.count .editOk x.patron).seqs = e.seqs := (count_frame ..).same .seqs (by decide)
  have done := descriptor_edit h.grants edit h.ready h.served
  rw [opcode _ _ rfl, State.runEdit] at done
  refine ⟨_, run, ?_⟩
  rw [done]
  change P (settled (State.mayWait _ _ (d.withResv f _)))
  unfold Dev.withResv
  dsimp only
  rw [show (named d (granted s op x).1).id = (granted s op x).1.id from rfl, effect]
  dsimp only [State.mayWait]
  refine post _ ?_ ?_ (answers_answered ..) rfl rfl
  · change (Dev.finish _ _ _).seqs.recs = _
    rw [(finish_frame ..).same .seqs (by decide)]
    exact (congrArg SeqSt.recs kept :)
  · change (Dev.finish _ _ _).seqs.spans = _
    rw [(finish_frame ..).same .seqs (by decide)]
    exact (congrArg SeqSt.spans kept :)

/-- Metadata that fits beside an edit's own reservation fits without it (R217). -/
theorem metaFits_dropResv {d : Dev} {p n : Nat} (id : Nat) (fits : d.metaFits p n = true) : (d.dropResv id).metaFits p n = true := by
  have fewer : (d.dropResv id).allReserved ≤ d.allReserved := by
    unfold Dev.allReserved Dev.dropResv
    exact List.Sublist.sum_le_sum ((List.filter_sublist ..).map _) fun _ _ => Nat.zero_le _
  have charge : (d.dropResv id).charge p = d.charge p := rfl
  have share : (d.dropResv id).share p = d.share p := rfl
  have free : (d.dropResv id).freeBytes = d.freeBytes := rfl
  have need : (d.dropResv id).pageNeed p n = d.pageNeed p n := rfl
  unfold Dev.metaFits Dev.within at fits ⊢
  simp only [need, charge, share, free, Bool.or_eq_true, Bool.and_eq_true, decide_eq_true_eq] at fits ⊢
  exact fits.imp_right fun ⟨inside, room⟩ => ⟨inside, (Nat.add_le_add_right fewer _).trans room⟩

/-! #### What an edit writes into a span -/

/-- Rows, identifiers and marks of a span change, and neither its fill nor its state, nor any record. -/
structure KeepsFill (i : Nat) (d e : Dev) : Prop where
  frame : Frame [.seqs] d e
  recs : e.seqs.recs = d.seqs.recs
  fill : (e.span? i).map (fun s => (s.fill, s.st)) = (d.span? i).map fun s => (s.fill, s.st)

section
variable {i : Nat} {d e f : Dev}

theorem KeepsFill.refl (i : Nat) (d : Dev) : KeepsFill i d d := ⟨.refl .., rfl, rfl⟩

theorem KeepsFill.trans (h : KeepsFill i d e) (k : KeepsFill i e f) : KeepsFill i d f :=
  ⟨h.frame.trans k.frame, k.recs.trans h.recs, k.fill.trans h.fill⟩

theorem KeepsFill.foldl {α : Type} {g : Dev → α → Dev} {l : List α} (h : KeepsFill i d e) (step : ∀ x y, KeepsFill i x (g x y)) :
    KeepsFill i d (l.foldl g e) := by
  induction l generalizing e with
  | nil => exact h
  | cons y l ih => exact ih (h.trans (step e y))

end

theorem modSpan_keepsFill (d : Dev) (i : Nat) {f : Span → Span} (h : ∀ s, (f s).fill = s.fill ∧ (f s).st = s.st) : KeepsFill i d (d.modSpan i f) := by
  refine ⟨modSpan_frame .., rfl, ?_⟩
  rw [span_modSpan_same, Option.map_map]
  exact congrArg (fun g => (d.span? i).map g) (funext fun s => Prod.ext (h s).1 (h s).2)

theorem writeSeg_keepsFill (d : Dev) (i : Nat) (f : AppF) (p : Profile) (b : List Byte) (t0 n at0 : Nat) :
    KeepsFill i d (d.writeSeg i f p b t0 n at0) := by
  have rows : KeepsFill i d (d.writeRows i f p b t0 n at0) := (KeepsFill.refl i d).foldl fun e x => modSpan_keepsFill e i fun _ => ⟨rfl, rfl⟩
  have ids : ∀ e : Dev, KeepsFill i e (e.writeIds i b t0 n at0) := fun e => modSpan_keepsFill e i fun _ => ⟨rfl, rfl⟩
  unfold Dev.writeSeg
  extract_lets written named
  have hNamed : KeepsFill i d named := by
    change KeepsFill i d (if f.ids then written.writeIds i b t0 n at0 else written)
    split
    · exact rows.trans (ids written)
    · exact rows
  exact hNamed.trans (modSpan_keepsFill named i fun _ => ⟨rfl, rfl⟩)

/-- The open span of an APPEND has its new tokens, and stays open. -/
structure SpanGrown (i n : Nat) (d e : Dev) : Prop where
  frame : Frame [.seqs] d e
  recs : e.seqs.recs = d.seqs.recs
  span : ∀ s, d.span? i = some s → ∃ u, e.span? i = some u ∧ u.fill = s.fill + n ∧ u.st = s.st

/-- A commit that does not fill the open span. -/
theorem commit_open {b : Build} {n : Nat} {s : Span} (span : b.dev.span? b.cur = some s) (room : s.fill + n < 256) :
    b.commit n = { b with dev := b.dev.modSpan b.cur fun s => { s with fill := s.fill + n } } := by
  unfold Build.commit
  dsimp only
  rw [span_modSpan_same, span]
  dsimp only [Option.map_some]
  rw [if_neg (show ¬ 256 ≤ s.fill + n by omega)]

theorem segments_within {pos n : Nat} (within : pos % 256 + n < 256) : segments 65 0 pos n = if n = 0 then [] else [(0, n, pos % 256)] := by
  unfold segments
  split
  · rfl
  · next some =>
    have whole : min n (256 - pos % 256) = n := by omega
    dsimp only
    rw [whole, Nat.sub_self]
    unfold segments
    rw [if_pos rfl]

/-- Tokens of every layer that stay within the open span. -/
theorem segs_within {b : Build} {own prof n pos : Nat} {f : AppF} {p : Profile} {x : List Byte} {s : Span} (some_ : b.cur ≠ 0)
    (span : b.dev.span? b.cur = some s) (within : pos % 256 + n < 256) (room : s.fill + n < 256) :
    ∃ e, b.segs own prof f p x pos true (segments 65 0 pos n) = some { b with dev := e } ∧ SpanGrown b.cur n b.dev e := by
  rw [segments_within within]
  split
  · next none =>
    subst none
    exact ⟨b.dev, rfl, ⟨.refl .., rfl, fun u h => ⟨u, h, rfl, rfl⟩⟩⟩
  · have written := writeSeg_keepsFill b.dev b.cur f p x 0 n (pos % 256)
    have kept := written.fill
    rw [span] at kept
    obtain ⟨u, there, same⟩ := Option.map_eq_some_iff.mp kept
    obtain ⟨fill, st⟩ := Prod.ext_iff.mp same
    dsimp only at fill st
    have commit := commit_open (b := { b with dev := b.dev.writeSeg b.cur f p x 0 n (pos % 256) }) (n := n) there (by rw [fill]; exact room)
    refine ⟨(b.dev.writeSeg b.cur f p x 0 n (pos % 256)).modSpan b.cur fun s => { s with fill := s.fill + n }, ?_,
      ⟨(modSpan_frame ..).step (by decide) written.frame, written.recs, fun v h => ?_⟩⟩
    · unfold Build.segs Build.seg
      dsimp only
      rw [if_neg some_]
      dsimp only [Option.map_some]
      rw [if_pos rfl, commit]
      rfl
    · obtain rfl : s = v := Option.some.inj (span.symm.trans h)
      rw [span_modSpan_same, there]
      exact ⟨_, rfl, by rw [← fill], st⟩

end Sys2Proof.Safety
end

section
/-! ### What each edit does to a record that passes its checks (R202 to R211) -/

namespace Sys2Proof.Safety

open Sys2Proof.Machine

/-! #### APPEND within the open span (R202 to R204) -/

/-- An APPEND of every layer whose tokens stay within the open span. -/
structure AppendsWithin (d : Dev) (q : Req) (r : Rec) (sp : Span) : Prop where
  state : appendState (appF q.d) (d.prof r.profile) r = true
  pend : r.pendCount = 0
  layers : (appF q.d).layers = (d.prof r.profile).layers
  some_ : r.openSpan ≠ 0
  span : d.span? r.openSpan = some sp
  within : (appF q.d).pos % 256 + (appF q.d).count < 256
  room : sp.fill + (appF q.d).count < 256
  fits : d.metaFits q.d.patron (d.appendMeta (d.prof r.profile) (appF q.d) r) = true

/-- The record after an APPEND of `n` tokens within its open span. -/
def recAppended (r : Rec) (n tick : Nat) : Rec := { r with gen := nextGen r.gen, length := r.length + n, pendLayers := 0, editTick := tick }

theorem appendRun_within {d : Dev} {q : Req} {i : Nat} {r : Rec} {sp : Span} (h : AppendsWithin d q r sp) :
    ∃ e, d.appendRun q i r false = (e, some { r0 := nextGen r.gen + 2 ^ 32 * (r.length + (appF q.d).count), r1 := r.openSpan })
      ∧ tget e.seqs.recs i = some (recAppended r (appF q.d).count d.tim.count)
      ∧ ∃ u, e.span? r.openSpan = some u ∧ u.fill = sp.fill + (appF q.d).count ∧ u.st = sp.st := by
  obtain ⟨state, pend, layers, some_, span, within, room, fits⟩ := h
  have start : (appF q.d).layer = 0 := by
    unfold appendState at state
    rw [if_pos pend] at state
    simp only [Bool.and_eq_true, beq_iff_eq] at state
    exact state.2.1.2
  have all : ((appF q.d).layer + (appF q.d).layers == (d.prof r.profile).layers) = true := by rw [start, layers]; simp
  have begins : (r.pendCount == 0) = true := by rw [pend]; rfl
  have noneFull : ((appF q.d).pos + (appF q.d).count) / 256 - (appF q.d).pos / 256 = 0 := by omega
  obtain ⟨e, built, grown⟩ := segs_within (b := { dev := d, cur := r.openSpan, last := (d.lastListed r).getD 0 }) (own := q.d.patron)
    (prof := r.profile) (f := appF q.d) (p := d.prof r.profile) (x := q.d.input 0 16) some_ span within room
  obtain ⟨u, there, fill, st⟩ := grown.span sp span
  have clock : e.tim = d.tim := grown.frame.tim_eq (by decide) (by decide)
  refine ⟨e.setRec i (recAppended r (appF q.d).count d.tim.count), ?_, tget_tset_same .., u, there, fill, st⟩
  unfold Dev.appendRun
  dsimp only
  rw [if_neg (by simp [fits])]
  simp only [all, begins, noneFull, if_true, ne_eq, not_true_eq_false, false_and, if_false, Bool.and_self, Bool.not_true, Bool.false_and,
    Bool.false_eq_true, built, List.isEmpty_nil, List.foldl_nil, List.length_nil, clock]
  unfold recAppended
  rw [pend]
  rfl

theorem opAppend_runs {d : Dev} {q : Req} {i : Nat} {r : Rec} (create : (appF q.d).create = false) (refill : (appF q.d).refill = false)
    (known : d.seq? q.d.patron q.d.object = some (i, r)) (sound : r.damaged = false) (form : appendProfileCheck q.d (d.prof r.profile) = none)
    (gen : genDiffers (appF q.d).gen r = false) (state : appendState (appF q.d) (d.prof r.profile) r = true) :
    d.opAppend q = countEdit q.d.patron (d.appendRun q i r false) := by
  unfold Dev.opAppend
  simp only [create, refill, known, sound, form, gen, state, Bool.false_eq_true, if_false, Bool.not_true]

/-! #### ADOPT (R206, R207) -/

theorem mem_of_mem_chunks {f : Nat} {l c : List Nat} {i : Nat} (chunk : c ∈ chunks f l) (listed : i ∈ c) : i ∈ l := by
  induction f generalizing l with
  | zero => cases chunk
  | succ f ih =>
    unfold chunks at chunk
    split at chunk
    · cases chunk
    · obtain rfl | later := List.mem_cons.mp chunk
      · exact List.mem_of_mem_take listed
      · exact List.mem_of_mem_drop (ih later)

/-- The spans whose count a new table raises are among those it lists. -/
theorem mem_of_mem_raised {d : Dev} {root i : Nat} {spans : List Nat} (h : i ∈ d.raised root spans) : i ∈ spans := by
  unfold Dev.raised at h
  obtain ⟨⟨c, k⟩, chunk, here⟩ := List.mem_flatMap.mp h
  have whole : i ∈ c → i ∈ spans := mem_of_mem_chunks (List.fst_mem_of_mem_zipIdx chunk)
  dsimp only at here
  split at here
  · split at here
    · cases here
    split at here
    · exact whole here
    · exact whole (List.mem_of_mem_filter here)
  · exact whole here

theorem raised_notFull {d : Dev} {spans : List Nat} (root : Nat) (room : d.anyFull spans = false) : d.anyFull (d.raised root spans) = false := by
  unfold Dev.anyFull at room ⊢
  rw [List.any_eq_false] at room ⊢
  exact fun i h => room i (mem_of_mem_raised h)

theorem newBlk_frame (d : Dev) (p : Nat) (root : Bool) (es : List Nat) : Frame [.seqs, .ctrs] d (d.newBlk p root es).2 := by
  unfold Dev.newBlk
  extract_lets n b counted
  have hCounted : Frame [.seqs, .ctrs] d counted := (count_frame ..).step (by decide) ((Frame.seqs d _).mono (by decide))
  exact (Frame.seqs counted _).step (by decide) hCounted

theorem setTable_frame (d : Dev) (p root : Nat) (spans : List Nat) : Frame [.seqs, .ctrs] d (d.setTable p root spans).2 := by
  unfold Dev.setTable
  split
  · exact (dropRoot_frame ..).mono (by decide)
  extract_lets step r w
  have leaf : ∀ (e : Dev) (c : List Nat), Frame [.seqs, .ctrs] e ((c.foldl Dev.refUp e).newBlk p false c).2 := fun e c =>
    (newBlk_frame ..).step (by decide) ((Frame.refl ..).foldl fun _ _ => (refUp_frame ..).mono (by decide))
  have tables : Frame [.seqs, .ctrs] d r.2 := by
    refine foldl_frame (f := step) (fun st : List Nat × Dev => st.2) (fun st e => ?_) (chunks 65 spans).zipIdx ([], d)
    simp only [step]
    split
    · split
      · exact (modBlk_frame ..).mono (by decide)
      · exact leaf st.2 e.1
    · exact leaf st.2 e.1
  exact (dropRoot_frame w.2 root).step (by decide) (tables.trans (newBlk_frame r.2 p true r.1))

/-- An ADOPT whose spans pass their checks and whose table fits. -/
structure Adopts (d : Dev) (q : Req) (r : Rec) : Prop where
  length : r.length = q.d.fld 0 0 32
  pend : r.pendCount = 0
  table : r.spans + (adoptList q).length ≤ 65536
  pass : d.adoptFail q.d.patron r.profile 0 r.length ((d.lastListed r).getD 0) (adoptList q) = none
  fits : d.metaFits q.d.patron (d.tableMeta r.root (d.listed r.root ++ adoptList q)) = true
  counts : d.anyFull (d.listed r.root ++ adoptList q) = false

/-- The record after an ADOPT of `n` spans. -/
def recAdopted (r : Rec) (n root tick : Nat) : Rec :=
  { r with gen := nextGen r.gen, length := r.length + 256 * n, spans := r.spans + n, root := root, editTick := tick }

theorem adoptRun_adopts {d : Dev} {q : Req} {i : Nat} {r : Rec} (h : Adopts d q r) :
    ∃ e root, d.adoptRun q i r false = (e, some { r0 := nextGen r.gen + 2 ^ 32 * (r.length + 256 * (adoptList q).length), r1 := (adoptList q).length })
      ∧ tget e.seqs.recs i = some (recAdopted r (adoptList q).length root d.tim.count) := by
  obtain ⟨length, pend, table, pass, fits, counts⟩ := h
  have written := setTable_frame d q.d.patron r.root (d.listed r.root ++ adoptList q)
  unfold Dev.adoptRun
  dsimp only
  rw [if_neg (by omega), pass]
  dsimp only
  rw [if_neg (by simp [fits, raised_notFull r.root counts])]
  generalize d.setTable q.d.patron r.root (d.listed r.root ++ adoptList q) = w at written
  obtain ⟨root, e⟩ := w
  dsimp only at written ⊢
  have charged : Frame [.seqs, .ctrs] d _ := written.foldl (l := adoptList q) (f := fun (d : Dev) k => d.modSpan k fun s => { s with
      charged := if bit s.charged q.d.patron then s.charged else s.charged + 2 ^ q.d.patron }) fun _ _ => (modSpan_frame ..).mono (by decide)
  refine ⟨_, root, rfl, ?_⟩
  refine (tget_tset_same ..).trans ?_
  rw [charged.tim_eq (by decide) (by decide)]
  rfl

theorem opAdopt_runs {d : Dev} {q : Req} {i : Nat} {r : Rec} (create : q.d.fld 4 0 1 = 0) (known : d.seq? q.d.patron q.d.object = some (i, r))
    (sound : r.damaged = false) (gen : genDiffers (q.d.fld 8 0 32) r = false) : d.opAdopt q = countEdit q.d.patron (d.adoptRun q i r false) := by
  have old : (q.d.fld 4 0 1 == 1) = false := by rw [create]; rfl
  unfold Dev.opAdopt
  simp only [old, known, sound, gen, Bool.false_eq_true, if_false]

/-! #### FORK (R208) -/

/-- The record of a child without an open span. -/
def recForked (r : Rec) (number tick : Nat) : Rec := { r with number := number, gen := 1, editTick := tick }

theorem opFork_shares {d : Dev} {q : Req} {i j : Nat} {r : Rec} (known : d.seq? q.d.patron q.d.object = some (i, r)) (sound : r.damaged = false)
    (gen : genDiffers (q.d.fld 4 0 32) r = false) (new : d.seq? q.d.patron (q.d.fld 0 0 32) = none) (place : d.freeRec = some j)
    (closed : r.openSpan = 0) (named_ : d.mayName q.d.patron r.profile = true) :
    d.opFork q = countEdit q.d.patron ((d.shareRoot r.root).setRec j (recForked r (q.d.fld 0 0 32) d.tim.count),
      some { r0 := r.gen + 2 ^ 32 * r.length, r1 := 0 }) := by
  have active : (d.prof r.profile).st ≠ 2 := by
    unfold Dev.mayName at named_
    unfold Dev.prof tgetD
    split at named_
    · next p found =>
      rw [found]
      simp only [Bool.and_eq_true, beq_iff_eq] at named_
      simp [named_.1]
    · cases named_
  unfold Dev.opFork
  simp only [known, sound, gen, new, place, active, closed, Bool.false_eq_true, if_false, if_true, ne_eq, not_true_eq_false, false_and]
  cases r
  dsimp only at sound closed
  subst sound closed
  rfl

/-! #### TRIM within the open span (R209) -/

/-- The record after a TRIM within its open span. -/
def recTrimmed (r : Rec) (length tick : Nat) : Rec :=
  { r with gen := nextGen r.gen, length := length, pendCount := 0, pendLayers := 0, editTick := tick }

/-- The open span of a TRIM holds what is left of its tokens. -/
def spanTrimmed (d : Dev) (r : Rec) (length : Nat) : Dev :=
  d.modSpan r.openSpan fun s => { s with fill := length - 256 * (d.listed r.root).length }

theorem trimRun_within {d : Dev} {own i nl : Nat} {r : Rec} {sp : Span} (above : 256 * (d.listed r.root).length < nl)
    (span : d.span? r.openSpan = some sp) (alone : sp.ref ≤ 1) : d.trimRun own i r nl
      = ((spanTrimmed d r nl).setRec i (recTrimmed r nl d.tim.count), some { r0 := nextGen r.gen + 2 ^ 32 * nl, r1 := 0 }) := by
  have stays : ¬ ((nl < r.length ∨ r.pendCount ≠ 0) ∧ 1 < sp.ref) := fun h => absurd h.2 (Nat.not_lt.mpr alone)
  unfold Dev.trimRun
  refine (if_pos (.inl above)).trans ?_
  rw [span]
  exact if_neg stays

theorem opTrim_within {d : Dev} {q : Req} {i : Nat} {r : Rec} {sp : Span} (known : d.seq? q.d.patron q.d.object = some (i, r))
    (sound : r.damaged = false) (gen : genDiffers (q.d.fld 4 0 32) r = false) (above : 256 * (d.listed r.root).length < q.d.fld 0 0 32)
    (below : q.d.fld 0 0 32 ≤ r.length) (span : d.span? r.openSpan = some sp) (alone : sp.ref ≤ 1) :
    d.opTrim q = countEdit q.d.patron ((spanTrimmed d r (q.d.fld 0 0 32)).setRec i (recTrimmed r (q.d.fld 0 0 32) d.tim.count),
      some { r0 := nextGen r.gen + 2 ^ 32 * q.d.fld 0 0 32, r1 := 0 }) := by
  have fair : ¬ (genDiffers (q.d.fld 4 0 32) r = true ∨ r.length < q.d.fld 0 0 32) := by simp [gen, below]
  unfold Dev.opTrim
  simp only [known, sound, Bool.false_eq_true, if_false]
  rw [if_neg fair, trimRun_within above span alone]

/-! #### DROP (R211) -/

theorem foldl_keeps {α β : Type} {f : Dev → α → Dev} (g : Dev → β) (step : ∀ d y, g (f d y) = g d) (l : List α) (d : Dev) : g (l.foldl f d) = g d := by
  induction l generalizing d with
  | nil => rfl
  | cons y l ih => exact (ih (f d y)).trans (step d y)

theorem freeAllLater_recs (d : Dev) (hs : List Nat) : (d.freeAllLater hs).seqs.recs = d.seqs.recs :=
  foldl_keeps (·.seqs.recs) (fun e h => by unfold Dev.freeLater; split <;> rfl) hs d

theorem stopChurn_recs (d : Dev) (i : Nat) : (d.stopChurn i).seqs.recs = d.seqs.recs := by
  unfold Dev.stopChurn
  split
  · unfold Dev.cancelChurn
    dsimp only
    rw [(count_frame ..).same .seqs (by decide)]
    exact freeAllLater_recs ..
  · rfl

theorem loseFrames_recs (d : Dev) (i : Nat) : (d.loseFrames i).seqs.recs = d.seqs.recs := by
  unfold Dev.loseFrames
  split
  · rfl
  · rw [(clearPoison_frame ..).same .seqs (by decide)]
    exact freeAllLater_recs ..

theorem dropCopies_recs (d : Dev) (i : Nat) : (d.dropCopies i).seqs.recs = d.seqs.recs := by
  have dropped : (d.dropCopy i).seqs = d.seqs := (dropCopy_frame ..).same .seqs (by decide)
  unfold Dev.dropCopies
  dsimp only
  split
  · exact congrArg SeqSt.recs dropped
  · exact (congrArg SeqSt.recs dropped :)

theorem stopMoves_recs (d : Dev) (i : Nat) : (d.stopMoves i).seqs.recs = d.seqs.recs :=
  have dropped : (d.dropDemo i).seqs = d.seqs := (dropDemo_tame d i).frame.same .seqs (by decide)
  (congrArg SeqSt.recs dropped :)

theorem vacate_recs (d : Dev) (i : Nat) : (d.vacate i).seqs.recs = d.seqs.recs := by
  have churn := stopChurn_recs d i
  have frames := loseFrames_recs (d.stopChurn i) i
  have copies := dropCopies_recs ((d.stopChurn i).loseFrames i) i
  have moves := stopMoves_recs (((d.stopChurn i).loseFrames i).dropCopies i) i
  unfold Dev.vacate
  generalize (((d.stopChurn i).loseFrames i).dropCopies i).stopMoves i = e at moves
  exact moves.trans (copies.trans (frames.trans churn))

theorem leaveRefill_recs (d : Dev) (i : Nat) (ks : List Nat) : (d.leaveRefill i ks).seqs.recs = d.seqs.recs := by
  refine foldl_keeps (·.seqs.recs) (fun e k => ?_) ks d
  split
  · split
    · exact vacate_recs ..
    · rfl
  · rfl

theorem dropLeaf_recs (d : Dev) (n : Nat) : (d.dropLeaf n).seqs.recs = d.seqs.recs := by
  unfold Dev.dropLeaf
  split
  · rfl
  split
  · rfl
  · next b _ _ => exact (foldl_keeps (f := Dev.refDown) (·.seqs.recs) (fun _ _ => rfl) b.entries d : (b.entries.foldl Dev.refDown d).seqs.recs = d.seqs.recs)

theorem dropRoot_recs (d : Dev) (n : Nat) : (d.dropRoot n).seqs.recs = d.seqs.recs := by
  unfold Dev.dropRoot
  split
  · rfl
  split
  · rfl
  · next b _ _ => exact (foldl_keeps (·.seqs.recs) (fun e m => dropLeaf_recs e m) b.entries d :
      (b.entries.foldl Dev.dropLeaf d).seqs.recs = d.seqs.recs)

theorem endWalk_recs (d : Dev) (w : Walk) : (d.endWalk w).seqs.recs = d.seqs.recs :=
  (dropRoot_recs ..).trans (foldl_keeps (f := Dev.refDown) (·.seqs.recs) (fun _ _ => rfl) w.spans d)

theorem endStream_recs (d : Dev) (p id reason : Nat) : (d.endStream p id reason).seqs.recs = d.seqs.recs := by
  unfold Dev.endStream
  split
  · rfl
  · next st _ =>
    have walks := foldl_keeps (·.seqs.recs) (fun e w => endWalk_recs e w) (st.walk.toList ++ st.ended) d
    dsimp only
    split
    · exact walks
    · rw [(patEvent_frame ..).same .seqs (by decide)]
      exact walks

theorem endStreams_recs (d : Dev) (p reason : Nat) (f : StreamSt → Bool) : (d.endStreams p reason f).seqs.recs = d.seqs.recs :=
  foldl_keeps (·.seqs.recs) (fun e id => endStream_recs e p id reason) _ d

/-- A record that is freed is no record any more. -/
theorem freeRecord_recs (d : Dev) (i : Nat) {r : Rec} (sound : r.damaged = false) : (d.freeRecord i r).seqs.recs = tdel d.seqs.recs i := by
  unfold Dev.freeRecord
  dsimp only
  rw [if_neg (by simp [sound])]
  have left := fun e : Dev => (dropRoot_recs (e.leaveRefill i (e.listed r.root)) r.root).trans (leaveRefill_recs e i (e.listed r.root))
  split
  · exact left _
  · exact left _

theorem opDrop_frees {d : Dev} {q : Req} {i : Nat} {r : Rec} (known : d.seq? q.d.patron q.d.object = some (i, r)) (sound : r.damaged = false)
    (gen : genDiffers (q.d.fld 0 0 32) r = false) :
    ∃ e n, d.opDrop q = countEdit q.d.patron (e, some { r0 := r.gen, r1 := n }) ∧ tget e.seqs.recs i = none := by
  unfold Dev.opDrop
  simp only [known, gen, Bool.false_eq_true, if_false]
  refine ⟨_, _, rfl, ?_⟩
  rw [endStreams_recs, freeRecord_recs d i sound]
  exact tget_tdel_same ..

end Sys2Proof.Safety
end

section
/-! ### The rows of the edits -/

namespace Sys2Proof.Safety

open Sys2Proof.Machine

theorem adoptFail_dropResv (d : Dev) (id own prof : Nat) (ks : List Nat) (i pos before : Nat) :
    (d.dropResv id).adoptFail own prof i pos before ks = d.adoptFail own prof i pos before ks := by
  induction ks generalizing i pos before with
  | nil => rfl
  | cons k ks ih =>
    have same : (d.dropResv id).adoptReason own prof pos before k = d.adoptReason own prof pos before k := rfl
    rw [Dev.adoptFail, Dev.adoptFail, same, ih]

/-- Settles O26: each edit from its plan, with its reservation given back, to the record that it leaves. -/
theorem editRowsComplete : Obligations.EditRowsComplete := by
  intro s x d i r known sound
  refine ⟨?append, ?adopt, ?fork, ?trim, ?drop⟩
  case append =>
    intro sp plan create refill form gen state pend layers some_ span within room fits
    have runs := opAppend_runs (d := d.dropResv (granted s 0x03 x).1.id) (q := named d (granted s 0x03 x).1) create refill known sound form gen state
    obtain ⟨e, answer, rec_, u, there, fill, st⟩ := appendRun_within (i := i) (d := d.dropResv (granted s 0x03 x).1.id)
      (q := named d (granted s 0x03 x).1) ⟨state, pend, layers, some_, span, within, room, metaFits_dropResv _ fits⟩
    rw [answer] at runs
    refine .of_edit rfl plan rfl runOp_03 runs rfl fun t recs spans answered pending mem => ⟨?_, ⟨u, ?_, fill, st⟩, answered, pending, mem⟩
    · rw [recs, ← plan.count]
      exact rec_
    · rw [Dev.span?, spans]
      exact there
  case adopt =>
    intro plan create gen length pend table pass fits counts
    have runs := opAdopt_runs (d := d.dropResv (granted s 0x04 x).1.id) (q := named d (granted s 0x04 x).1) create known sound gen
    obtain ⟨e, root, answer, rec_⟩ := adoptRun_adopts (i := i) (d := d.dropResv (granted s 0x04 x).1.id) (q := named d (granted s 0x04 x).1)
      ⟨length, pend, table, (adoptFail_dropResv ..).trans pass, metaFits_dropResv _ fits, counts⟩
    rw [answer] at runs
    refine .of_edit rfl plan rfl runOp_04 runs rfl fun t recs spans answered pending mem => ⟨⟨root, ?_⟩, answered, pending, mem⟩
    rw [recs, ← plan.count]
    exact rec_
  case fork =>
    intro j plan gen new place closed named_
    have runs := opFork_shares (d := d.dropResv (granted s 0x05 x).1.id) (q := named d (granted s 0x05 x).1) known sound gen new place closed named_
    refine .of_edit rfl plan rfl runOp_05 runs rfl fun t recs spans answered pending mem => ⟨?_, fun other => ?_, answered, pending, mem⟩
    · rw [recs, ← plan.count]
      exact tget_tset_same ..
    · rw [recs]
      exact tget_tset_other _ other.symm _
  case trim =>
    intro sp plan gen above below span alone
    have runs := opTrim_within (d := d.dropResv (granted s 0x06 x).1.id) (q := named d (granted s 0x06 x).1) known sound gen above below span alone
    refine .of_edit rfl plan rfl runOp_06 runs rfl fun t recs spans answered pending mem =>
      ⟨?_, ⟨{ sp with fill := x.fld 0 0 32 - 256 * (d.listed r.root).length }, ?_, rfl⟩, answered, pending, mem⟩
    · rw [recs, ← plan.count]
      exact tget_tset_same ..
    · rw [Dev.span?, spans]
      exact (tget_tmod_same ..).trans (congrArg (Option.map _) span)
  case drop =>
    intro plan gen
    obtain ⟨e, n, runs, gone⟩ := opDrop_frees (d := d.dropResv (granted s 0x07 x).1.id) (q := named d (granted s 0x07 x).1) known sound gen
    exact .of_edit rfl plan rfl runOp_07 runs rfl fun t recs _ answered pending mem => ⟨by rw [recs]; exact gone, ⟨n, answered⟩, pending, mem⟩

end Sys2Proof.Safety
end
